-- ==== Sys2Proof/Word.lean ====
section
/-! DEFINITION. The word types of the module and the ranges of its numbered resources (R9, R20, R24). -/

namespace Sys2Proof

/-- One byte of memory, of a packet or of a record (R24). -/
abbrev Byte := BitVec 8

/-- A register, a context register or an 8-byte field (R20, R74). -/
abbrev Word := BitVec 64

/-- A payload, a record or an image, byte 0 first (R25). -/
abbrev Bytes := List Byte

/-- The 32-byte header of an end-point packet (R46) or of a fabric packet (R494), read as one
little-endian number: byte 0 is bits 7 to 0. -/
abbrev Header := BitVec 256

/-- Port P0 to P47 (R9). -/
abbrev Port := Fin 48

/-- Docent context C0 to C15 of a port (R9). -/
abbrev CtxNo := Fin 16

/-- Gallery G0 to G63 (R9). -/
abbrev GalNo := Fin 64

/-- PCIe function: 0 is the physical function, n is VFn (R9, R685). -/
abbrev FnNo := Fin 64

/-- Sync object SO0 to SO16383 (R9). -/
abbrev SoNo := BitVec 14

/-- Vault die D0 to D23 (R9). -/
abbrev DieNo := Fin 24

/-- Lane i of a port (R9). -/
abbrev LaneNo := Fin 8

/-- A node id, held by end-points and modules alike (R9). -/
abbrev NodeId := BitVec 12

end Sys2Proof
end

