-- ==== Sys2Proof/Syntax.lean ====
section
/-! DEFINITION. The commands of the block: every row of the opcode table is one constructor of
`Instr`. An operand is what the event brings from outside the module: a packet, a frame, a record, a
sensor value, or the verdict of a cryptographic check. -/

namespace Sys2Proof

/-- Why main input was lost: the reason of the hold-up record (R828). -/
inductive LossReason where
  /-- Main fell below 38 V for 100 µs (R771). -/
  | voltage
  /-- A conversion stage shut down (R772). -/
  | stageFault
deriving DecidableEq, Repr

/-- The conditions of R786 that shut the module down at once. -/
inductive ShutdownCause where
  | dieHotspot
  | vaultStack
  | powerStage
  | overvoltage
  /-- An emergency that stayed active for 30 s. -/
  | emergency30s
deriving DecidableEq, Repr

/-- The causes of an emergency (R784), in the order of PWR_STAT.cause. -/
inductive EmergencyCause where
  | dieHotspot
  | vaultStack
  | powerStage
  | coolantInlet
  | coolantOutlet
  | mainInput
deriving DecidableEq, Repr

/-- The temperature sensors of THERM_READ.fail, die first (R797). -/
inductive Sensor where
  | die
  | vault
  | pstage
  | inlet
  | outlet
deriving DecidableEq, Repr

/-- Why the recovered reference was left (R788). -/
inductive FallbackCause where
  | portLeft
  | cdrLoss
  | offset
deriving DecidableEq, Repr

/-- The levels of a PAM4 symbol: −3, −1, +1 and +3 (R561). -/
inductive Pam where
  | m3
  | m1
  | p1
  | p3
deriving DecidableEq, Repr

/-- What arrives for a read that a docent made: the bytes, or the status that failed it. -/
inductive Fetched where
  | data (bs : Bytes)
  | failed (status : Nat)
deriving DecidableEq, Repr

/-- An ATS Translation Completion (R421). -/
inductive AtsResult where
  /-- A translation: the range's base-2 logarithm if it is a power of two, the translated address,
  and the R, W and U bits. -/
  | trans (log2Range : Option Nat) (addr : Word) (r w u : Bool)
  /-- Unsupported Request or Completer Abort, with the completion status. -/
  | error (status : Nat)
deriving DecidableEq, Repr

/-- The response code of a PRG Response Message (R439). -/
inductive PrgCode where
  | success
  | invalidRequest
  | responseFailure
deriving DecidableEq, Repr

/-- The member a reduction-engine packet comes from or goes to: schedule, instance number, rank. -/
structure MemberId where
  sched : BitVec 12
  inst : Nat
  rank : Nat
deriving DecidableEq, Repr

/-- A fabric packet as it arrives: its header, its payload and its tag (R495, R498). Of a packet of the reduction
engine, what its private payload says is the rest of the command that brings it. -/
structure FabPkt where
  hdr : Header
  payload : Bytes
  tag : Bytes
deriving DecidableEq, Repr

/-- A join as it reaches a home (R308, R309, R388). -/
structure JoinMsg where
  sched : BitVec 12
  inst : Nat
  gallery : GalNo
  node : NodeId
  port : Port
  shape : Word
  epoch : Bool
  /-- Counts per expert, for a DISPATCH (R388). -/
  counts : List Nat
  /-- The joining owner's local experts in local order, as input base and slot array (R385): the members
  of a DISPATCH write there, and learn it through the home. -/
  experts : List (Nat × Nat)
deriving DecidableEq, Repr

/-- A field of a function's PCIe configuration space that the module acts on, with its new value
(R435, R439, R442, R686, R687, R722). -/
inductive CfgWrite where
  | busMaster (v : Bool)
  | memorySpace (v : Bool)
  | d3hot (v : Bool)
  | vfEnable (v : Bool)
  | ats (v : Bool)
  | pri (v : Bool)
  | msix (v : Bool)
  /-- The Outstanding Page Request Allocation (R435). -/
  | priAlloc (n : BitVec 32)
deriving DecidableEq, Repr

/-- A field of a function's PCIe configuration space that shows what the module is or what the host has set (R17,
R419, R685). -/
inductive CfgField where
  | vendorId
  | deviceId
  | classCode
  | maxPayload
  | totalVfs
  | initialVfs
  | firstVfOffset
  | vfStride
  | atsStu
  | atsQueueDepth
  | atsPageAligned
  | atsGlobalInvalidate
  | priCapacity
  | pasidWidth
  | pasidExecute
  | pasidPrivileged
  | busMaster
  | memorySpace
  | d3hot
  | vfEnable
  | ats
  | pri
  | priStopped
  | priAlloc
  | msix
deriving DecidableEq, Repr

/-- The reading of one power and temperature sample (R781, R797). -/
structure Sample where
  /-- Average input power of the last 1 ms, in W. -/
  power : Nat
  /-- 0.1 V. -/
  volts : Nat
  /-- 0.1 A. -/
  amps : Nat
  die : Nat
  vault : Nat
  pstage : Nat
  inlet : Nat
  outlet : Nat
deriving DecidableEq, Repr

/-- The fields of a tenant message (R639). -/
structure TenantMsg where
  code : Nat
  gallery : Nat
  port : Nat
  slot : Nat
  gen : Nat
  period : Nat
  lead : Nat
  count : Nat
  /-- 96 bytes. -/
  material : Bytes
  /-- Some reserved byte or bit of the message is not zero. -/
  reserved : Bool
  /-- The node ids that follow a GAL_FABRIC_ROOT. -/
  members : List NodeId
deriving DecidableEq, Repr

/-- Where a quorum request came from (R668). -/
inductive QuorumVia where
  /-- The physical function's command ring. -/
  | ring
  /-- The I3C sideband: the body of R668. -/
  | i3c (body : Bytes)
deriving DecidableEq, Repr

/-- The commands. Each constructor is one row of the opcode table. -/
inductive Instr where
  /-- AUX_POWER_GOOD (R5, R773 step 1). -/
  | auxPowerGood
  /-- AUX_POWER_LOST (R770). -/
  | auxPowerLost
  /-- PRESENT_ASSERTED (R776). -/
  | presentAsserted
  /-- PRESENT_DEASSERTED (R771). -/
  | presentDeasserted
  /-- MAIN_POWER_GOOD (R771). -/
  | mainPowerGood
  /-- RECOVERY_LISTEN_EXPIRY (R750): whether the staged area and the image area were read whole. -/
  | recoveryListenExpiry (stagedRead imageRead : Bool)
  /-- ENTER_SERVICE (R773 step 8). -/
  | enterService
  /-- LOSS_OF_MAIN_INPUT (R775). -/
  | lossOfMainInput (reason : LossReason)
  /-- MODULE_RESET (R777). -/
  | moduleReset
  /-- CONVENTIONAL_RESET (R688). -/
  | conventionalReset
  /-- FLR_VF (R724). -/
  | flrVf (vf : FnNo)
  /-- FLR_PF (R725). -/
  | flrPf
  /-- STATE_SET (R713): the physical function's oldest taken STATE_SET command. -/
  | stateSet
  /-- ENTER_OPERATIONAL (R8). -/
  | enterOperational
  /-- DRAIN_EXIT (R890). -/
  | drainExit
  /-- LOAD (R70): an end-point packet as it comes off the link: header, encrypted payload and tag (R48, R54). -/
  | load (p : Port) (hdr : Header) (payload tag : Bytes)
  /-- STORE (R72). -/
  | store (p : Port) (hdr : Header) (payload tag : Bytes)
  /-- STORE_MASKED (R55). -/
  | storeMasked (p : Port) (hdr : Header) (payload tag : Bytes)
  /-- SYNC (R58). -/
  | sync (p : Port) (hdr : Header) (payload tag : Bytes)
  /-- LAUNCH (R85). -/
  | launch (p : Port) (hdr : Header) (payload tag : Bytes)
  /-- ATOMIC (R152). -/
  | atomic (p : Port) (hdr : Header) (payload tag : Bytes)
  /-- RESERVED_OPCODE (R53). -/
  | reservedOpcode (p : Port) (hdr : Header) (payload tag : Bytes)
  /-- T_READ_DATA (R62). -/
  | tReadData (p : Port) (hdr : Header) (payload tag : Bytes)
  /-- T_WRITE_DONE (R62). -/
  | tWriteDone (p : Port) (hdr : Header) (payload tag : Bytes)
  /-- T_MASKED_DONE (R62). -/
  | tMaskedDone (p : Port) (hdr : Header) (payload tag : Bytes)
  /-- T_ATOMIC_DONE (R154). -/
  | tAtomicDone (p : Port) (hdr : Header) (payload tag : Bytes)
  /-- TARGET_TIMEOUT (R63): the target request of this tag. -/
  | targetTimeout (p : Port) (tag : BitVec 10)
  /-- READ (R496): a fabric packet as it arrives: header, payload, encrypted if it comes from another module, and
  tag (R495, R498). -/
  | read (hdr : Header) (payload tag : Bytes)
  /-- WRITE (R496); for a packet of a transfer that counts arrivals, the transfer's number at its source
  and the packet's place among those bound for the same sync object (R189). -/
  | write (hdr : Header) (payload tag : Bytes) (xfer : Option (Nat × Nat))
  /-- WRITE_MASKED (R496); `xfer` as for WRITE. -/
  | writeMasked (hdr : Header) (payload tag : Bytes) (xfer : Option (Nat × Nat))
  /-- ZERO_RUN (R183); `xfer` as for WRITE. -/
  | zeroRun (hdr : Header) (payload tag : Bytes) (xfer : Option (Nat × Nat))
  /-- FABRIC_SYNC (R244). -/
  | fabricSync (hdr : Header) (payload tag : Bytes)
  /-- FABRIC_ATOMIC (R152). -/
  | fabricAtomic (hdr : Header) (payload tag : Bytes)
  /-- WAIT_WITHDRAWAL (R272): the WAIT's sequence at its source docent. -/
  | waitWithdrawal (pkt : FabPkt)
  /-- ACK (R277), and whether the destination's target timed out (R63): the manual does not say how the
  source docent learns that. -/
  | ack (hdr : Header) (tag : Bytes) (timedOut : Bool)
  /-- DATA (R496). -/
  | data (hdr : Header) (payload tag : Bytes)
  /-- VALUE (R496). -/
  | value (hdr : Header) (payload tag : Bytes)
  /-- PACKET_FORWARD (R503): the head of the queue of an input, an output and a VC; codewords that
  were corrected, and whether a cell failed correction (R509, R518). -/
  | packetForward (inp out : Nat) (vc : BitVec 3) (corrected : Nat) (failed : Bool)
  /-- BE_RETX_EXPIRY (R529): the sender's packet of this destination module and sequence. -/
  | beRetxExpiry (src : BitVec 6) (dest : NodeId) (dseq : BitVec 32)
  /-- PATH_TIMEOUT (R609): the sender and the destination module. -/
  | pathTimeout (src : BitVec 6) (dest : NodeId)
  /-- NOTICE (R606): the trunk port it came by, and its 16 bytes. -/
  | notice (p : Port) (body : BitVec 128)
  /-- TOUR_LAUNCH (R84): the function's oldest taken TOUR_LAUNCH command. -/
  | tourLaunch (f : FnNo)
  /-- COPY (R169): the context's next instruction issues. -/
  | copy (p : Port) (c : CtxNo)
  /-- GATHER (R177). -/
  | gather (p : Port) (c : CtxNo)
  /-- SCATTER (R177). -/
  | scatter (p : Port) (c : CtxNo)
  /-- MCAST (R127). -/
  | mcast (p : Port) (c : CtxNo)
  /-- REDUCE (R301). -/
  | reduce (p : Port) (c : CtxNo)
  /-- DISPATCH (R387). -/
  | dispatch (p : Port) (c : CtxNo)
  /-- COMBINE (R398). -/
  | combine (p : Port) (c : CtxNo)
  /-- SIGNAL (R108). -/
  | signal (p : Port) (c : CtxNo)
  /-- WAIT (R138). -/
  | wait (p : Port) (c : CtxNo)
  /-- FENCE (R141). -/
  | fence (p : Port) (c : CtxNo)
  /-- FLUSH (R144). -/
  | flush (p : Port) (c : CtxNo)
  /-- INVAL (R145). -/
  | inval (p : Port) (c : CtxNo)
  /-- LOOP (R149). -/
  | loop (p : Port) (c : CtxNo)
  /-- HALT (R150). -/
  | halt (p : Port) (c : CtxNo)
  /-- TOUR_ATOMIC (R151). -/
  | tourAtomic (p : Port) (c : CtxNo)
  /-- RESERVED_TOUR_OPCODE (R120). -/
  | reservedTourOpcode (p : Port) (c : CtxNo)
  /-- QUANTUM_EXPIRY (R93). -/
  | quantumExpiry (p : Port)
  /-- INSTRUCTION_LINE_ARRIVAL (R95): the line's number, FVA divided by 128, and what came. -/
  | instructionLineArrival (p : Port) (c : CtxNo) (line : Nat) (what : Fetched)
  /-- DESCRIPTOR_ARRIVAL (R102): the operation's issue index, and what came. -/
  | descriptorArrival (p : Port) (c : CtxNo) (op : Nat) (what : Fetched)
  /-- OPERATION_RETIRE (R106). -/
  | operationRetire (p : Port) (c : CtxNo)
  /-- TOUR_END (R115). -/
  | tourEnd (p : Port) (c : CtxNo)
  /-- WAIT_EXPIRY (R261): the sync object and the place in its waiter list. -/
  | waitExpiry (so : SoNo) (idx : Nat)
  /-- FENCE_COMPLETE (R283). -/
  | fenceComplete (p : Port) (c : CtxNo)
  /-- FLUSH_COMPLETE (R146). -/
  | flushComplete (p : Port) (c : CtxNo)
  /-- ATS_COMPLETION (R421): the port's outstanding request of this identifier. -/
  | atsCompletion (p : Port) (req : Nat) (res : AtsResult)
  /-- ATS_COMPLETION_TIMEOUT (R421). -/
  | atsCompletionTimeout (p : Port) (req : Nat)
  /-- PAGE_REQUEST (R437): the function's oldest waiting page request. -/
  | pageRequest (f : FnNo)
  /-- PRG_RESPONSE (R439). -/
  | prgResponse (f : FnNo) (idx : BitVec 9) (code : PrgCode)
  /-- PR_TIMEOUT_EXPIRY (R441). -/
  | prTimeoutExpiry (f : FnNo) (idx : BitVec 9)
  /-- ATS_INVALIDATE_REQUEST (R444): the tag, the PASID if given, and the range. -/
  | atsInvalidateRequest (f : FnNo) (itag : BitVec 5) (pasid : Option (BitVec 20)) (base : Word)
      (log2Range : Nat)
  /-- INVALIDATE_COMPLETION (R445). -/
  | invalidateCompletion (f : FnNo) (itag : BitVec 5)
  /-- JOIN (R308). -/
  | join (m : JoinMsg) (pkt : FabPkt)
  /-- JOIN_ADMITTED (R299): the oldest waiting join that the limits now allow. -/
  | joinAdmitted
  /-- CLAIM_GRANT (R336): the head of the gallery's FIFO. -/
  | claimGrant (g : GalNo)
  /-- CREDIT (R326): a credit of a chunk reaches a member at this module's port. -/
  | credit (p : Port) (m : MemberId) (chunk : Nat) (pkt : FabPkt)
  /-- CONTRIBUTION (R323): lines of a chunk from byte offset `off` of the chunk reach the home; for a
  sparse kind the whole chunk, its number of records and its end mark (R373). -/
  | contribution (m : MemberId) (chunk off records : Nat) (lines : Bytes) (last : Bool) (pkt : FabPkt)
  /-- CHUNK_SUMMATION (R328): the next chunk of an instance. -/
  | chunkSummation (sched : BitVec 12) (inst : Nat)
  /-- PARTIAL (R350): group `group`'s partial of a chunk reaches its owner home. -/
  | partialChunk (sched : BitVec 12) (inst group chunk off : Nat) (bs : Bytes) (pkt : FabPkt)
  /-- FINISHED_CHUNK (R350). -/
  | finishedChunk (sched : BitVec 12) (inst chunk off : Nat) (bs : Bytes) (pkt : FabPkt)
  /-- RESULT (R331): a result packet reaches a member at this module's port; or, with `lost`, word that lines for this
  member were lost on the way, with the status of that delivery (R347, R522). -/
  | result (p : Port) (m : MemberId) (off : Nat) (lost : Option Nat) (pkt : FabPkt)
  /-- INSTANCE_COMPLETE (R332): every member has ended, and those of these ranks with another status than OK, by a
  delivery that failed (R347). -/
  | instanceComplete (sched : BitVec 12) (inst : Nat) (failed : List Nat)
  /-- WITHDRAWAL (R342): the member, and whether it lost its path to its home (R341, R822). -/
  | withdrawal (m : MemberId) (pathLost : Bool) (pkt : FabPkt)
  /-- ABORT (R344): a home's abort reaches this module, with the status of the members, whether its cause was a
  lost path (R822), and the one port whose join it answers, if it answers one (R346, R888); from a home to another home,
  the group and how many of its chunks have been begun (R352). -/
  | abort (sched : BitVec 12) (inst : Nat) (status : Nat) (pathLost : Bool) (only : Option Port)
      (begun : Option (Nat × Nat)) (pkt : FabPkt)
  /-- JOIN_TIMEOUT (R343). -/
  | joinTimeout (sched : BitVec 12) (inst : Nat)
  /-- DRAWER_ZEROING_DONE (R339): the oldest ended claim whose drawers are being zeroed. -/
  | drawerZeroingDone
  /-- WINDOW_MERGE (R374): the next window of a sparse instance. -/
  | windowMerge (sched : BitVec 12) (inst : Nat)
  /-- OFFSETS (R389): offsets and kept counts per expert, the receive counts of the experts that the member
  owns, and the input base and slot array of every expert, reach a member. -/
  | offsets (p : Port) (m : MemberId) (off kept recv : List Nat) (bases : List (Nat × Nat)) (pkt : FabPkt)
  /-- GRANT_ANNOUNCEMENT (R400): home `group` has granted. -/
  | grantAnnouncement (p : Port) (m : MemberId) (group : Nat) (pkt : FabPkt)
  /-- EXPERT_OUTPUT (R401). -/
  | expertOutput (m : MemberId) (token choice off : Nat) (bs : Bytes) (pkt : FabPkt)
  /-- COMBINE_WEIGHTS (R402): a member's weights and delivered marks for a token. -/
  | combineWeights (m : MemberId) (token : Nat) (weights : List Word) (delivered : List Bool) (pkt : FabPkt)
  /-- MGMT (R496): a curator message, private to the curators. -/
  | mgmt (pkt : FabPkt)
  /-- STEP (R656): a lead's STEP reaches this member. -/
  | step (pkt : FabPkt)
  /-- STEP_REPLY (R656). -/
  | stepReply (pkt : FabPkt)
  /-- STEP_PERIOD_EXPIRY (R657). -/
  | stepPeriodExpiry (g : GalNo)
  /-- PAIR_KEY_DERIVED (R654). -/
  | pairKeyDerived (g : GalNo) (gen : BitVec 16) (a b : NodeId) (resp : Bool)
  /-- SHELF_EXT_WRITE (R473): extent i of a gallery takes this register value. -/
  | shelfExtWrite (g : GalNo) (i : Fin 4) (v : Word)
  /-- EXTENT_ZEROING_DONE (R473). -/
  | extentZeroingDone (g : GalNo) (i : Fin 4)
  /-- SCRUB_READ (R485): the codeword number, and the number of erroneous symbols found. -/
  | scrubRead (cw errs : Nat)
  /-- DIE_FAILED (R827). -/
  | dieFailed (d : DieNo)
  /-- DATA_FLIT (R583): the symbols of a flit time on each lane of the set, in position order (R560, R561). -/
  | dataFlit (p : Port) (lanes : List (List Pam))
  /-- CTRL_FLIT (R572). -/
  | ctrlFlit (p : Port) (lanes : List (List Pam))
  /-- FILLER (R581). -/
  | filler (p : Port) (lanes : List (List Pam))
  /-- RETRY_TIMEOUT (R587). -/
  | retryTimeout (p : Port)
  /-- TS1 (R564): a 32-byte training frame on a lane. -/
  | ts1 (p : Port) (i : LaneNo) (frame : Header) (inverted : Bool) (ctle : Nat)
  /-- TS2 (R567). -/
  | ts2 (p : Port) (i : LaneNo) (frame : Header)
  /-- TS_EXIT (R594). -/
  | tsExit (p : Port)
  /-- TRAINING_WINDOW_EXPIRY (R565 step 4). -/
  | trainingWindowExpiry (p : Port)
  /-- LANE_CDR_LOSS (R597). -/
  | laneCdrLoss (p : Port) (i : LaneNo)
  /-- LANE_SER_EXCEEDED (R597). -/
  | laneSerExceeded (p : Port) (i : LaneNo)
  /-- DEAD_TIMER_EXPIRY (R601). -/
  | deadTimerExpiry (p : Port)
  /-- DOWN_RETRY_TIMER (R603). -/
  | downRetryTimer (p : Port)
  /-- SIGNAL_DETECT (R603). -/
  | signalDetect (p : Port) (i : LaneNo)
  /-- IDLE_ENTRY (R593). -/
  | idleEntry (p : Port)
  /-- IDLE_EXIT (R594). -/
  | idleExit (p : Port)
  /-- IDLE_BURST (R595). -/
  | idleBurst (p : Port)
  /-- RETRAIN (R604). -/
  | retrain (p : Port)
  /-- RESTORE (R604). -/
  | restore (p : Port)
  /-- LANE_MASK_WRITE (R605). -/
  | laneMaskWrite (p : Port) (mask : BitVec 8)
  /-- GET_VERSION (R622): on DOE or MCTP. -/
  | getVersion (mctp : Bool)
  /-- GET_CAPABILITIES (R622). -/
  | getCapabilities (mctp : Bool)
  /-- NEGOTIATE_ALGORITHMS (R622): whether the requester offers every algorithm of R622. -/
  | negotiateAlgorithms (mctp offersAll : Bool)
  /-- GET_DIGESTS (R623). -/
  | getDigests (mctp : Bool)
  /-- GET_CERTIFICATE (R623): the slot, the offset and the length asked for. -/
  | getCertificate (mctp : Bool) (slot off len : Nat)
  /-- CHALLENGE (R623). -/
  | challenge (mctp : Bool) (slot : Nat) (nonce : Bytes)
  /-- GET_MEASUREMENTS (R625): the index, and whether a signature is asked for. -/
  | getMeasurements (mctp : Bool) (index : Nat) (signed : Bool)
  /-- KEY_EXCHANGE (R624). -/
  | keyExchange (mctp : Bool)
  /-- FINISH (R622): the session, and whether its proof verifies. -/
  | finish (session : Nat) (ok : Bool)
  /-- HEARTBEAT (R622). -/
  | heartbeat (session : Nat)
  /-- KEY_UPDATE (R622). -/
  | keyUpdate (session : Nat)
  /-- END_SESSION (R642). -/
  | endSession (session : Nat)
  /-- GAL_QUERY (R640): outside any session if `session` is none. -/
  | galQuery (session : Option Nat) (m : TenantMsg)
  /-- GAL_CLAIM (R640). -/
  | galClaim (session : Option Nat) (m : TenantMsg)
  /-- GAL_RESUME (R641). -/
  | galResume (session : Option Nat) (m : TenantMsg)
  /-- GAL_KEY_INSTALL (R644). -/
  | galKeyInstall (session : Option Nat) (m : TenantMsg)
  /-- GAL_KEY_RETIRE (R643). -/
  | galKeyRetire (session : Option Nat) (m : TenantMsg)
  /-- GAL_KEY_ACTIVATE (R645). -/
  | galKeyActivate (session : Option Nat) (m : TenantMsg)
  /-- GAL_FABRIC_ROOT (R648). -/
  | galFabricRoot (session : Option Nat) (m : TenantMsg)
  /-- GAL_FABRIC_STEP (R657). -/
  | galFabricStep (session : Option Nat) (m : TenantMsg)
  /-- GAL_OPEN (R637). -/
  | galOpen (session : Option Nat) (m : TenantMsg)
  /-- GAL_DEACCESS (R672). -/
  | galDeaccess (session : Option Nat) (m : TenantMsg)
  /-- QUERY (R660): IDE_KM, in a session if given. -/
  | query (session : Option Nat)
  /-- KEY_PROG (R660): the function's stream, key set and direction. -/
  | keyProg (session : Option Nat) (f : FnNo) (keySet : Bool) (key : Bytes)
  /-- K_SET_GO (R660). -/
  | kSetGo (session : Option Nat) (f : FnNo) (keySet : Bool)
  /-- K_SET_STOP (R660). -/
  | kSetStop (session : Option Nat) (f : FnNo) (keySet : Bool)
  /-- GET_TDISP_VERSION (R661). -/
  | getTdispVersion (f : FnNo)
  /-- GET_TDISP_CAPABILITIES (R661). -/
  | getTdispCapabilities (f : FnNo)
  /-- LOCK_INTERFACE_REQUEST (R661). -/
  | lockInterfaceRequest (f : FnNo)
  /-- GET_DEVICE_INTERFACE_REPORT (R661). -/
  | getDeviceInterfaceReport (f : FnNo)
  /-- GET_DEVICE_INTERFACE_STATE (R661). -/
  | getDeviceInterfaceState (f : FnNo)
  /-- START_INTERFACE_REQUEST (R661). -/
  | startInterfaceRequest (f : FnNo)
  /-- STOP_INTERFACE_REQUEST (R663). -/
  | stopInterfaceRequest (f : FnNo)
  /-- GALLERY_ACCESSION (R631). -/
  | galleryAccession
  /-- GALLERY_DEACCESSION (R672). -/
  | galleryDeaccession
  /-- DEACCESSION_DRAINED (R673). -/
  | deaccessionDrained (g : GalNo)
  /-- DRAIN_TIMEOUT_EXPIRY (R673). -/
  | drainTimeoutExpiry (g : GalNo)
  /-- DEACCESSION_ZEROED (R673). -/
  | deaccessionZeroed (g : GalNo)
  /-- G0_KEY_INSTALL (R647). -/
  | g0KeyInstall
  /-- G0_KEY_RETIRE (R647). -/
  | g0KeyRetire
  /-- G0_KEY_ACTIVATE (R647). -/
  | g0KeyActivate
  /-- G0_FABRIC_ROOT (R647). -/
  | g0FabricRoot
  /-- G0_FABRIC_STEP (R647). -/
  | g0FabricStep
  /-- G0_SETUP (R634). -/
  | g0Setup
  /-- G0_RELEASE (R635). -/
  | g0Release
  /-- QUORUM_SET (R667). -/
  | quorumSet
  /-- EXPEL_PORT (R670): a quorum request. -/
  | expelPort (via : QuorumVia)
  /-- EXPEL_PEER (R670). -/
  | expelPeer (via : QuorumVia)
  /-- ISOLATE (R670). -/
  | isolate (via : QuorumVia)
  /-- LIFT_PORT (R670). -/
  | liftPort (via : QuorumVia)
  /-- LIFT_ALL (R670). -/
  | liftAll (via : QuorumVia)
  /-- DRAIN (R670). -/
  | drain (via : QuorumVia)
  /-- REPLACE_SET (R670). -/
  | replaceSet (via : QuorumVia)
  /-- NOP (R710). -/
  | nop (f : FnNo)
  /-- RESERVED_COMMAND (R710). -/
  | reservedCommand (f : FnNo)
  /-- COMMAND_DOORBELL (R700): a write of the command ring's pi. -/
  | commandDoorbell (f : FnNo) (pi : BitVec 32)
  /-- CONSUMER_INDEX_WRITE (R702): a write of ring r's ci. -/
  | consumerIndexWrite (f : FnNo) (r : Fin 5) (ci : BitVec 32)
  /-- RING_ENABLE (R699): a RING_CFG_r write that sets en. -/
  | ringEnable (f : FnNo) (r : Fin 5) (v : Word)
  /-- RING_DISABLE (R704): a RING_CFG_r write that clears en. -/
  | ringDisable (f : FnNo) (r : Fin 5) (v : Word)
  /-- MSI_X_MESSAGE (R718): cause c of the function. -/
  | msiXMessage (f : FnNo) (c : Fin 5)
  /-- BAR2_READ (R692): offset and length; in the function's stream with T set (R662). -/
  | bar2Read (f : FnNo) (off : Nat) (len : Nat) (tee : Bool)
  /-- BAR2_WRITE (R693). -/
  | bar2Write (f : FnNo) (off : Nat) (bs : Bytes) (tee : Bool)
  /-- GAL_SO_READ (R291): a GAL_SO_CMD write that names this sync object. -/
  | galSoRead (f : FnNo) (so : SoNo)
  /-- GAL_SO_ADD (R291). -/
  | galSoAdd (f : FnNo) (so : SoNo)
  /-- GAL_SO_SET (R291). -/
  | galSoSet (f : FnNo) (so : SoNo)
  /-- GAL_SO_MIN (R291). -/
  | galSoMin (f : FnNo) (so : SoNo)
  /-- GAL_SO_MAX (R291). -/
  | galSoMax (f : FnNo) (so : SoNo)
  /-- GAL_SO_CAS (R291). -/
  | galSoCas (f : FnNo) (so : SoNo)
  /-- SO_VALUE_WRITE (R284): a BAR0 write of SO_VALUE_n; the half-word writes of R20 merge first. -/
  | soValueWrite (so : SoNo) (v : Word)
  /-- SWC_RC_CTL_WRITE (R537). -/
  | swcRcCtlWrite (v : Word)
  /-- PORT_SPEC_WRITE (R537). -/
  | portSpecWrite (p : Port) (v : Word)
  /-- SWC_VC_MODE_WRITE (R541). -/
  | swcVcModeWrite (v : Word)
  /-- CLK_CTL_WRITE (R798). -/
  | clkCtlWrite (v : Word)
  /-- CLK_EN_WRITE (R791): CLK_EN, or CLK_EN_PORT if `ports`. -/
  | clkEnWrite (ports : Bool) (v : Word)
  /-- OWN_CTL_WRITE (R793). -/
  | ownCtlWrite (v : Word)
  /-- REGISTER_WRITE (R19): a write of `size` bytes at an offset of BAR0 or of a control page. -/
  | registerWrite (f : FnNo) (off size : Nat) (v : Word)
  /-- WATCHDOG_EXPIRY (R730): of this core. -/
  | watchdogExpiry (core : Fin 4)
  /-- CURATOR_MEMORY_ERROR (R730): the codeword, and the core that read it. -/
  | curatorMemoryError (core : Fin 4) (cw : Nat)
  /-- CURATOR_RESTART_DONE (R730): whether flash was read whole. -/
  | curatorRestartDone (readOk : Bool)
  /-- STAGE_WRITE_DONE (R741): the verdict of the read-back. -/
  | stageWriteDone (readOk : Bool)
  /-- STAGED_VERIFY_DONE (R746 step 3). -/
  | stagedVerifyDone (readOk : Bool)
  /-- OVERWRITE_DONE (R746 step 4). -/
  | overwriteDone (readOk : Bool)
  /-- RECOVERY_REQUEST (R754): the serial number the frame carries. -/
  | recoveryRequest (serial : BitVec 128)
  /-- TFTP_WRITE_IMAGE (R755): the written file, and whether flash was read back whole. -/
  | tftpWriteImage (image : Bytes) (writeOk : Bool)
  /-- DHCP (R752): the address leased. -/
  | dhcp (addr : BitVec 32)
  /-- ARP (R752): a request for this address. -/
  | arp (addr : BitVec 32)
  /-- ICMP_ECHO (R752). -/
  | icmpEcho (addr : BitVec 32) (payload : Bytes)
  /-- MCTP_CONTROL (R757): the command and its body. -/
  | mctpControl (cmd : Byte) (body : Bytes)
  /-- PLDM_SENSOR (R757). -/
  | pldmSensor (sensor : Nat)
  /-- BMC_POWER_CAP (R778): watts. -/
  | bmcPowerCap (watts : Nat)
  /-- POWER_AVERAGE_UPDATE (R782). -/
  | powerAverageUpdate (s : Sample)
  /-- EMERGENCY_BEGIN (R785). -/
  | emergencyBegin (c : EmergencyCause)
  /-- EMERGENCY_CLEAR (R784): the cause that clears. -/
  | emergencyClear (c : EmergencyCause)
  /-- SHUTDOWN (R786). -/
  | shutdown (c : ShutdownCause)
  /-- AUX3V3_RETRY (R772): whether the short persists. -/
  | aux3v3Retry (stillShort : Bool)
  /-- SENSOR_FAIL (R772). -/
  | sensorFail (x : Sensor)
  /-- REFERENCE_FALLBACK (R788). -/
  | referenceFallback (c : FallbackCause)
  /-- LIFE_HISTORY_HOURLY (R829): the read-back verdict. -/
  | lifeHistoryHourly (ok : Bool)
  /-- CDR_LOCK (R565): in step 1, on this lane. -/
  | cdrLock (p : Port) (i : LaneNo)
  /-- STEP_1_NO_SIGNAL (R603). -/
  | step1NoSignal (p : Port)
  /-- RETRAIN_BOUND_EXPIRY (R601). -/
  | retrainBoundExpiry (p : Port)
  /-- CONFIGURATION_WRITE (R687): a field of the function's configuration space takes this value. -/
  | configurationWrite (f : FnNo) (w : CfgWrite)
  /-- FW_STAGE_VERIFIED (R740): whether every read passed correction, beside what the vault itself shows. -/
  | fwStageVerified (readOk : Bool)
  /-- RESERVED_QUORUM_ACTION (R670). -/
  | reservedQuorumAction (via : QuorumVia)
  /-- RESERVED_TENANT_MESSAGE (R884). -/
  | reservedTenantMessage (session : Option Nat) (m : TenantMsg)
  /-- RESERVED_VENDOR_COMMAND (R758): the command byte. -/
  | reservedVendorCommand (cmd : Byte) (body : Bytes)
  /-- FW_STAGE (R740). -/
  | fwStage
  /-- FW_ACTIVATE (R744). -/
  | fwActivate
  /-- ACTIVATION_HOLD_EXPIRY (R745). -/
  | activationHoldExpiry
  /-- TFTP_READ_STATUS (R756). -/
  | tftpReadStatus
  /-- TFTP_READ_LIFEHIST (R831). -/
  | tftpReadLifehist
  /-- TFTP_WRITE_REQUEST (R752). -/
  | tftpWriteRequest
  /-- TFTP_RETRANSMIT (R753). -/
  | tftpRetransmit
  /-- DHCP_LEASE_TIMEOUT (R752). -/
  | dhcpLeaseTimeout
  /-- PLDM_FRU (R757). -/
  | pldmFru
  /-- MAIN_ENABLE (R786). -/
  | mainEnable
  /-- STATUS (R758). -/
  | status
  /-- POWER_CAP (R779). -/
  | powerCap
  /-- POWER_CAP_TIMEOUT (R779). -/
  | powerCapTimeout
  /-- INPUT_OVERCURRENT (R772). -/
  | inputOvercurrent
  /-- STAGE_FAULT (R772). -/
  | stageFault
  /-- AUX3V3_SHORT (R772). -/
  | aux3v3Short
  /-- SENSE_OPEN (R772). -/
  | senseOpen
  /-- FAST_THROTTLE_ASSERT (R793). -/
  | fastThrottleAssert
  /-- FAST_THROTTLE_HOLD_EXPIRY (R793). -/
  | fastThrottleHoldExpiry
  /-- LEAK_ASSERT (R784). -/
  | leakAssert
  /-- LEAK_CLEAR_EXPIRY (R784). -/
  | leakClearExpiry
  /-- REFERENCE_REVERT (R788). -/
  | referenceRevert
  /-- FILL (R811): the verdicts the command needs come from the image itself. -/
  | fill
  /-- SWITCH (R813). -/
  | switch
  /-- FILL_THEN_SWITCH (R817). -/
  | fillThenSwitch
  /-- SWITCH_QUIESCE_TIMEOUT (R813). -/
  | switchQuiesceTimeout
  /-- EPOCH_DRAINED (R815). -/
  | epochDrained
  /-- HEALTH_SCORING (R826). -/
  | healthScoring
  /-- PERST_DEASSERTED (R773). -/
  | perstDeasserted
  /-- HOST_INTERFACE_READY (R773). -/
  | hostInterfaceReady
  /-- SHADOW_FILLED (R811). -/
  | shadowFilled
  /-- SERVICE_PORT_LINK_UP (R752). -/
  | servicePortLinkUp
deriving DecidableEq, Repr

end Sys2Proof
end

