-- ==== Sys2Proof/Machine/Bits.lean ====
section
/-! DEFINITION. Bit fields, little-endian bytes, sign extension and the CRC of R573. -/

namespace Sys2Proof.Machine

/-- Bits `lo + len - 1` to `lo` of `w` as a number. -/
def fieldN {n : Nat} (w : BitVec n) (lo len : Nat) : Nat := (w.extractLsb' lo len).toNat

/-- Bit `i` of `w`. -/
def bitN {n : Nat} (w : BitVec n) (i : Nat) : Bool := w.getLsbD i

/-- `v` placed at bit `lo` of a register, cut to `len` bits. -/
def putN (lo len v : Nat) : Word := BitVec.ofNat 64 ((v % 2 ^ len) * 2 ^ lo)

/-- A flag placed at bit `lo` of a register. -/
def putB (lo : Nat) (b : Bool) : Word := if b then BitVec.ofNat 64 (2 ^ lo) else 0

/-- A count that saturates at `2 ^ len - 1`. -/
def satAdd (len v k : Nat) : Nat := min (v + k) (2 ^ len - 1)

/-- A count that wraps at `2 ^ len`. -/
def wrapAdd (len v k : Nat) : Nat := (v + k) % 2 ^ len

/-- `v` rounded down to a multiple of `m`. -/
def roundDown (v m : Nat) : Nat := v / m * m

/-- `v` divided by `m`, rounded up. -/
def ceilDiv (v m : Nat) : Nat := (v + m - 1) / m

/-- The bytes read as one little-endian number (R24). -/
def leNat : Bytes → Nat
  | [] => 0
  | b :: bs => b.toNat + 256 * leNat bs

/-- `n` bytes of `v`, least significant first (R24). -/
def natLe : Nat → Nat → Bytes
  | 0, _ => []
  | n + 1, v => BitVec.ofNat 8 v :: natLe n (v / 256)

/-- `n` zero bytes. -/
def zeros (n : Nat) : Bytes := List.replicate n 0

/-- `n` bytes of `bs` from offset `off`; bytes beyond the end read zero. -/
def sliceB (bs : Bytes) (off n : Nat) : Bytes :=
  let t := (bs.drop off).take n
  t ++ zeros (n - t.length)

/-- The little-endian number in bytes `off` to `off + n - 1`. -/
def getLe (bs : Bytes) (off n : Nat) : Nat := leNat (sliceB bs off n)

/-- Bytes `off` to `off + n - 1` are all zero. -/
def zeroB (bs : Bytes) (off n : Nat) : Bool := getLe bs off n == 0

/-- The bytes of a header, byte 0 first. -/
def headerBytes (h : Header) : Bytes := natLe 32 h.toNat

/-- A signed 64-bit stride or step as an integer. -/
def sext (len : Nat) (v : Nat) : Int :=
  let m := v % 2 ^ len
  if m < 2 ^ (len - 1) then (m : Int) else (m : Int) - (2 ^ len : Nat)

/-- Addition of a signed amount modulo 2^64 (R122). -/
def addW (a : Nat) (d : Int) : Nat := (((a : Int) + d) % ((2 ^ 64 : Nat) : Int)).toNat

/-- `f x`, where the kernel computes `x` first. -/
def withNat {α : Type} (x : Nat) (f : Nat → α) : α :=
  match x with
  | 0 => f 0
  | n + 1 => f (n + 1)

/-- One byte through the reflected CRC-32 of IEEE 802.3 (R573). -/
def crc32Byte (c : Nat) (b : Byte) : Nat :=
  let bit (c : Nat) : Nat := withNat c fun c => Nat.xor (c / 2) (c % 2 * 0xEDB88320)
  bit (bit (bit (bit (bit (bit (bit (bit (Nat.xor c b.toNat))))))))

/-- CRC-32 of IEEE 802.3: polynomial 0x04C1_1DB7 reflected, initial value and final XOR all ones
(R573). -/
def crc32 (bs : Bytes) : Nat :=
  Nat.xor (bs.foldl (fun c b => withNat c fun c => crc32Byte c b) 0xFFFFFFFF) 0xFFFFFFFF

/-- CRC-16 with polynomial 0x1021 and initial value 0xFFFF, most significant bit first (R564). -/
def crc16 (bs : Bytes) : Nat :=
  bs.foldl (fun c b =>
    (List.range 8).foldl
      (fun c _ => if c ≥ 0x8000 then (c * 2 % 0x10000) ^^^ 0x1021 else c * 2 % 0x10000)
      (c ^^^ (b.toNat * 256))) 0xFFFF

/-- The first index in `l` at which `p` holds. -/
def findIdxN {α : Type} (p : α → Bool) : List α → Option Nat
  | [] => none
  | a :: t => if p a then some 0 else (findIdxN p t).map (· + 1)

/-- `l` without its element at index `i`. -/
def removeAt {α : Type} : List α → Nat → List α
  | [], _ => []
  | _ :: t, 0 => t
  | a :: t, i + 1 => a :: removeAt t i

/-- `l` with its element at index `i` changed by `f`. -/
def modifyAt {α : Type} : List α → Nat → (α → α) → List α
  | [], _, _ => []
  | a :: t, 0, f => f a :: t
  | a :: t, i + 1, f => a :: modifyAt t i f

/-- `l` without its first element that satisfies `p`. -/
def removeFirst {α : Type} (p : α → Bool) : List α → List α
  | [] => []
  | a :: t => if p a then t else a :: removeFirst p t

/-- `l` with its first element that satisfies `p` changed by `f`. -/
def modifyFirst {α : Type} (p : α → Bool) (f : α → α) : List α → List α
  | [] => []
  | a :: t => if p a then f a :: t else a :: modifyFirst p f t

end Sys2Proof.Machine
end

