-- ==== Sys2Proof/Machine/Float.lean ====
section
/-! DEFINITION. The number formats of R312 to R319 and the arithmetic steps of R316, R317 and R403. -/

namespace Sys2Proof.Machine

/-- A decoded number: a NaN, an infinity, or plus or minus `m × 2^e` (zero keeps its sign). -/
inductive Num where
  | nan
  | inf (neg : Bool)
  | fin (neg : Bool) (m : Nat) (e : Int)
deriving DecidableEq, Repr

/-- An IEEE-style format: exponent bits and fraction bits. -/
structure FloatFmt where
  eb : Nat
  fb : Nat
deriving DecidableEq, Repr

/-- FP32 (R305). -/
def fp32Fmt : FloatFmt := ⟨8, 23⟩
/-- BF16 (R305). -/
def bf16Fmt : FloatFmt := ⟨8, 7⟩
/-- FP16 (R305). -/
def fp16Fmt : FloatFmt := ⟨5, 10⟩
/-- FP8-E5M2 (R305). -/
def e5m2Fmt : FloatFmt := ⟨5, 2⟩
/-- FP8-E4M3 (R305). -/
def e4m3Fmt : FloatFmt := ⟨4, 3⟩

/-- The exponent bias. -/
def FloatFmt.bias (f : FloatFmt) : Int := (2 ^ (f.eb - 1) : Nat) - 1

/-- Decode an IEEE-style value exactly, subnormals included (R312). -/
def decodeFloat (f : FloatFmt) (w : Nat) : Num :=
  let frac := w % 2 ^ f.fb
  let ex := w / 2 ^ f.fb % 2 ^ f.eb
  let neg := w / 2 ^ (f.fb + f.eb) % 2 == 1
  if ex = 2 ^ f.eb - 1 then (if frac = 0 then .inf neg else .nan)
  else if ex = 0 then .fin neg frac (1 - f.bias - f.fb)
  else .fin neg (2 ^ f.fb + frac) ((ex : Int) - f.bias - f.fb)

/-- Decode FP8-E4M3: no infinity, and only 0x7F and 0xFF are NaN (R312). -/
def decodeE4m3 (w : Nat) : Num :=
  let frac := w % 8
  let ex := w / 8 % 16
  let neg := w / 128 % 2 == 1
  if ex = 15 && frac = 7 then .nan
  else if ex = 0 then .fin neg frac (-9)
  else .fin neg (8 + frac) ((ex : Int) - 10)

/-- `m / 2^s` rounded to nearest, ties to even. -/
def rneShift (m s : Nat) : Nat :=
  let q := m / 2 ^ s
  let r := m % 2 ^ s
  if s = 0 then m
  else if r > 2 ^ (s - 1) ∨ (r = 2 ^ (s - 1) ∧ q % 2 = 1) then q + 1 else q

/-- The significand and quantum exponent of `m × 2^e` rounded to a format; `m` is not zero. -/
def roundSig (f : FloatFmt) (m : Nat) (e : Int) : Nat × Int :=
  let top : Int := (Nat.log2 m : Nat) + e
  let emin : Int := 1 - f.bias
  let q := (if top < emin then emin else top) - f.fb
  let sig := if q ≤ e then m * 2 ^ (e - q).toNat else rneShift m (q - e).toNat
  if sig ≥ 2 ^ (f.fb + 1) then (sig / 2, q + 1) else (sig, q)

/-- The biased exponent and fraction of a rounded significand. -/
def packSig (f : FloatFmt) (sig : Nat) (q : Int) : Nat × Nat :=
  if sig < 2 ^ f.fb then (0, sig) else ((q + f.fb + f.bias).toNat, sig - 2 ^ f.fb)

/-- Encode to an IEEE-style format, nearest even, overflow to infinity, canonical NaN (R312, R316,
R318). -/
def encodeFloat (f : FloatFmt) (x : Num) : Nat :=
  let sgn (neg : Bool) : Nat := if neg then 2 ^ (f.fb + f.eb) else 0
  let infW := (2 ^ f.eb - 1) * 2 ^ f.fb
  match x with
  | .nan => infW + 2 ^ (f.fb - 1)
  | .inf neg => sgn neg + infW
  | .fin neg m e =>
    if m = 0 then sgn neg
    else
      let (sig, q) := roundSig f m e
      let (ex, fr) := packSig f sig q
      if ex ≥ 2 ^ f.eb - 1 then sgn neg + infW else sgn neg + ex * 2 ^ f.fb + fr

/-- Encode to FP8-E4M3: nearest even, saturating to 448, infinities to NaN (R318). -/
def encodeE4m3 (x : Num) : Nat :=
  let sgn (neg : Bool) : Nat := if neg then 128 else 0
  match x with
  | .nan => 0x7F
  | .inf _ => 0x7F
  | .fin neg m e =>
    if m = 0 then sgn neg
    else
      let (sig, q) := roundSig e4m3Fmt m e
      let (ex, fr) := packSig e4m3Fmt sig q
      if ex > 15 || (ex = 15 && fr = 7) then sgn neg + 0x7E else sgn neg + ex * 8 + fr

/-- A finite number as a signed integer multiple of `2^e0`, for `e0` at most its exponent. -/
def Num.scaled (neg : Bool) (m : Nat) (e e0 : Int) : Int :=
  let v : Int := m * (2 ^ (e - e0).toNat : Nat)
  if neg then -v else v

/-- The exact sum, with the signs of zero of R316. -/
def numAdd : Num → Num → Num
  | .nan, _ => .nan
  | _, .nan => .nan
  | .inf a, .inf b => if a = b then .inf a else .nan
  | .inf a, .fin .. => .inf a
  | .fin .., .inf b => .inf b
  | .fin na ma ea, .fin nb mb eb =>
    let e0 := if ea ≤ eb then ea else eb
    let t := Num.scaled na ma ea e0 + Num.scaled nb mb eb e0
    if t = 0 then .fin (na && nb && ma == 0 && mb == 0) 0 0
    else .fin (decide (t < 0)) t.natAbs e0

/-- The exact product. -/
def numMul : Num → Num → Num
  | .nan, _ => .nan
  | _, .nan => .nan
  | .inf a, .inf b => .inf (a != b)
  | .inf a, .fin nb mb _ => if mb = 0 then .nan else .inf (a != nb)
  | .fin na ma _, .inf b => if ma = 0 then .nan else .inf (na != b)
  | .fin na ma ea, .fin nb mb eb => .fin (na != nb) (ma * mb) (ea + eb)

/-- `a` lies strictly below `b` in the order of MIN and MAX, −0 below +0 (R316); false on a NaN. -/
def numLt : Num → Num → Bool
  | .nan, _ => false
  | _, .nan => false
  | .inf a, .inf b => a && !b
  | .inf a, .fin .. => a
  | .fin .., .inf b => !b
  | .fin na ma ea, .fin nb mb eb =>
    let e0 := if ea ≤ eb then ea else eb
    let x := Num.scaled na ma ea e0
    let y := Num.scaled nb mb eb e0
    if x = y then (ma = 0 && mb = 0 && na && !nb) else decide (x < y)

/-- Decode an FP32 accumulator. -/
def decFp32 (w : Nat) : Num := decodeFloat fp32Fmt w

/-- One FP32 step of SUM (R316). -/
def fp32Add (a b : Nat) : Nat := encodeFloat fp32Fmt (numAdd (decFp32 a) (decFp32 b))

/-- One FP32 product, one rounding (R403). -/
def fp32Mul (a b : Nat) : Nat := encodeFloat fp32Fmt (numMul (decFp32 a) (decFp32 b))

/-- The canonical FP32 NaN (R312). -/
def fp32Nan : Nat := 0x7FC00000

/-- One FP32 step of MIN (R316). -/
def fp32Min (a b : Nat) : Nat :=
  if decFp32 a = .nan || decFp32 b = .nan then fp32Nan
  else if numLt (decFp32 b) (decFp32 a) then b else a

/-- One FP32 step of MAX (R316). -/
def fp32Max (a b : Nat) : Nat :=
  if decFp32 a = .nan || decFp32 b = .nan then fp32Nan
  else if numLt (decFp32 a) (decFp32 b) then b else a

/-- The bits of one element of a dense format (R305). -/
def elemBits (fmt : Nat) : Nat :=
  match fmt with
  | 0 => 32 | 1 => 16 | 2 => 16 | 3 => 8 | 4 => 8 | 8 => 32 | 9 => 64
  | _ => 0

/-- The bits q of a Q element, zero for a dense format (R313). -/
def qBits (fmt : Nat) : Nat :=
  match fmt with
  | 5 => 8 | 6 => 6 | 7 => 4
  | _ => 0

/-- Decode one dense float element to FP32 (R312). -/
def denseToFp32 (fmt w : Nat) : Nat :=
  match fmt with
  | 0 => encodeFloat fp32Fmt (decodeFloat fp32Fmt w)
  | 1 => encodeFloat fp32Fmt (decodeFloat bf16Fmt w)
  | 2 => encodeFloat fp32Fmt (decodeFloat fp16Fmt w)
  | 3 => encodeFloat fp32Fmt (decodeE4m3 w)
  | 4 => encodeFloat fp32Fmt (decodeFloat e5m2Fmt w)
  | _ => 0

/-- Convert an FP32 result to one dense float element (R318). -/
def fp32ToDense (fmt w : Nat) : Nat :=
  match fmt with
  | 0 => encodeFloat fp32Fmt (decFp32 w)
  | 1 => encodeFloat bf16Fmt (decFp32 w)
  | 2 => encodeFloat fp16Fmt (decFp32 w)
  | 3 => encodeE4m3 (decFp32 w)
  | 4 => encodeFloat e5m2Fmt (decFp32 w)
  | _ => 0

/-- Decode element `j` of a Q segment to FP32 (R313, R314). -/
def qToFp32 (fmt : Nat) (seg : Bytes) (j : Nat) : Nat :=
  let q := qBits fmt
  let area := 4096 * q / 8
  let raw := getLe seg (q * j / 8) 2 / 2 ^ (q * j % 8) % 2 ^ q
  let e := getLe seg (area + j / 32) 1
  let m := sext q raw
  if e = 255 then fp32Nan
  else encodeFloat fp32Fmt (.fin (decide (m < 0)) m.natAbs ((e : Int) - 127 - ((q : Int) - 1)))

/-- `v × 2^s` rounded to the nearest integer, ties to even. -/
def rneInt (neg : Bool) (m : Nat) (e : Int) : Int :=
  let r : Nat := if 0 ≤ e then m * 2 ^ e.toNat else rneShift m (-e).toNat
  if neg then -(r : Int) else r

/-- The magnitude of `m × 2^e` is at most `k × 2^f`. -/
def dyLe (m : Nat) (e : Int) (k : Nat) (f : Int) : Bool :=
  let e0 := if e ≤ f then e else f
  m * 2 ^ (e - e0).toNat ≤ k * 2 ^ (f - e0).toNat

/-- Encode one block of FP32 results into a Q format: the scale and the elements (R319). -/
def qEncodeBlock (q : Nat) (vs : List Nat) : Nat × List Int :=
  let mmax := 2 ^ (q - 1) - 1
  let ns := vs.map decFp32
  if ns.any fun n => match n with | .fin .. => false | _ => true then (255, vs.map fun _ => 0)
  else
    let fits (e : Nat) : Bool := ns.all fun n =>
      match n with
      | .fin _ m x => dyLe m x mmax ((e : Int) - 127 - ((q : Int) - 1))
      | _ => false
    if ns.all fun n => match n with | .fin _ m _ => m == 0 | _ => false then (0, vs.map fun _ => 0)
    else
      let e := ((List.range 255).find? fits).getD 254
      let ms := ns.map fun n =>
        match n with
        | .fin neg m x =>
          let r := rneInt neg m (x + 127 + ((q : Int) - 1) - e)
          max (-(mmax : Int)) (min (mmax : Int) r)
        | _ => 0
      (e, ms)

/-- Cut a list into pieces of `n`, `fuel` of them. -/
def piecesOf {α : Type} (n : Nat) : Nat → List α → List (List α)
  | 0, _ => []
  | f + 1, l => l.take n :: piecesOf n f (l.drop n)

/-- The element area of a Q segment: the `q`-bit elements packed little-endian (R313). -/
def qPack (q : Nat) (ms : List Int) : Nat :=
  (ms.reverse).foldl (fun acc m => acc * 2 ^ q + (m % ((2 ^ q : Nat) : Int)).toNat) 0

/-- Encode 4,096 FP32 results as one Q segment: elements, then the scale line (R313, R319). -/
def qEncodeSegment (fmt : Nat) (vs : List Nat) : Bytes :=
  let q := qBits fmt
  let full := vs ++ List.replicate (4096 - vs.length) 0
  let blocks := (piecesOf 32 128 full).map (qEncodeBlock q)
  natLe (4096 * q / 8) (qPack q (blocks.flatMap fun b => b.2)) ++
    blocks.map fun b => BitVec.ofNat 8 b.1

/-- The decoded elements of a contribution chunk of `m` elements in `fmt`, each as FP32 bits, or as
the raw integer of an integer format (R312 to R314, R317). -/
def decodeElems (fmt : Nat) (bs : Bytes) (m : Nat) : List Nat :=
  if qBits fmt = 0 then
    (List.range m).map fun j =>
      let w := getLe bs (j * (elemBits fmt / 8)) (elemBits fmt / 8)
      if fmt = 8 || fmt = 9 then w else denseToFp32 fmt w
  else
    let segB := 4096 * qBits fmt / 8 + 128
    (List.range m).map fun j => qToFp32 fmt (sliceB bs (j / 4096 * segB) segB) (j % 4096)

/-- One step ⊕ on integers of width `len` (R317). -/
def intStep (op len a b : Nat) : Nat :=
  match op with
  | 1 => (a + b) % 2 ^ len
  | 2 => if sext len a ≤ sext len b then a else b
  | 3 => if sext len a ≤ sext len b then b else a
  | 4 => a &&& b
  | 5 => a ||| b
  | 6 => a ^^^ b
  | _ => a

/-- One step ⊕ on FP32 (R316). -/
def floatStep (op a b : Nat) : Nat :=
  match op with
  | 1 => fp32Add a b
  | 2 => fp32Min a b
  | 3 => fp32Max a b
  | _ => a

/-- The step ⊕ of an operation with the given formats (R316, R317). -/
def redStep (op inFmt outFmt a b : Nat) : Nat :=
  if inFmt = 8 || inFmt = 9 then intStep op (elemBits outFmt) a b else floatStep op a b

/-- A decoded contribution element as an accumulator: integers are sign-extended to the result's
width first (R317). -/
def accOf (inFmt outFmt w : Nat) : Nat :=
  if inFmt = 8 && outFmt = 9 then (sext 32 w % ((2 ^ 64 : Nat) : Int)).toNat else w

/-- The bytes of a dense or Q result of accumulators (R313, R318, R319). -/
def encodeElems (inFmt outFmt : Nat) (acc : List Nat) : Bytes :=
  if qBits outFmt = 0 then
    acc.flatMap fun w =>
      natLe (elemBits outFmt / 8) (if inFmt = 8 || inFmt = 9 then w else fp32ToDense outFmt w)
  else
    (piecesOf 4096 (ceilDiv acc.length 4096) acc).flatMap (qEncodeSegment outFmt)

end Sys2Proof.Machine
end

