-- ==== Sys2Proof/Machine/Gf.lean ====
section
/-! DEFINITION. The field GF(2^8), the FEC of a flit (R574, R575), and AES-256-GCM, which R48 and R649 name. -/

namespace Sys2Proof.Machine

/-! ### GF(2^8) -/

/-- Times x in GF(2^8) built on a polynomial with its x^8 term. -/
def gfDouble (poly a : Nat) : Nat := Nat.xor (2 * a) (a / 128 * poly)

/-- The product in GF(2^8) of `a` with the low `n` bits of `b`. -/
def gfMulN (poly : Nat) : Nat → Nat → Nat → Nat
  | 0, _, _ => 0
  | n + 1, a, b => withNat (gfDouble poly a) fun d => Nat.xor (b % 2 * a) (gfMulN poly n d (b / 2))

def gfMul (poly a b : Nat) : Nat := gfMulN poly 8 a b

/-- The power of an element, for an exponent of at most `k` bits. -/
def gfPowN (poly : Nat) : Nat → Nat → Nat → Nat
  | 0, _, _ => 1
  | k + 1, a, n =>
    withNat (gfMul poly a a) fun sq => gfMul poly (if n % 2 = 1 then a else 1) (gfPowN poly k sq (n / 2))

/-- The power of an element, for an exponent below 256. -/
def gfPow (poly a n : Nat) : Nat := gfPowN poly 8 a n

/-- The inverse of an element: its 254th power; zero for zero. -/
def gfInv (poly a : Nat) : Nat := gfPow poly a 254

/-! ### The FEC of a flit (R574, R575) -/

/-- The field of R574: x^8 + x^4 + x^3 + x^2 + 1. -/
def fecPoly : Nat := 0x11D
def fecMul (a b : Nat) : Nat := gfMul fecPoly a b

/-- α^n, with α = 0x02 (R574). -/
def fecAlpha (n : Nat) : Nat := gfPow fecPoly 2 (n % 255)

/-- A polynomial, lowest coefficient first, at a point. -/
def polyAt (cs : List Nat) (x : Nat) : Nat := cs.foldr (fun c acc => Nat.xor c (fecMul x acc)) 0

/-- Sum of two polynomials, and one times a constant. -/
def polyAdd : List Nat → List Nat → List Nat
  | [], b => b
  | a, [] => a
  | x :: a, y :: b => Nat.xor x y :: polyAdd a b
def polyScale (k : Nat) (a : List Nat) : List Nat := a.map (fecMul k)

/-- The generator (x − α^1) … (x − α^19), lowest coefficient first (R574). -/
def fecGen : List Nat :=
  (List.range 19).foldl (fun g i => polyAdd (0 :: g) (polyScale (fecAlpha (i + 1)) g)) [1]

/-- One information byte through the division by the generator: the remainder, lowest coefficient first. -/
def fecShift (rem : List Nat) (b : Nat) : List Nat :=
  polyAdd (0 :: rem.take 18) (polyScale (Nat.xor b (rem.getD 18 0)) (fecGen.take 19))

/-- The 19 check symbols of 236 information bytes, in the order of bytes 236 to 254 (R574). -/
def fecChecks (info : Bytes) : Bytes :=
  ((info.foldl (fun r b => fecShift r b.toNat) (List.replicate 19 0)).reverse).map (BitVec.ofNat 8)

/-- The XOR of bytes. -/
def xorAll (bs : Bytes) : Byte := bs.foldr (fun a b => a ^^^ b) 0

/-- The 256-byte codeword of 236 information bytes (R574). -/
def fecEncode (info : Bytes) : Bytes :=
  let w := info ++ fecChecks info
  w ++ [xorAll w]

/-- The value at α^i of the received bytes 0 to 254, byte j being the coefficient of x^(254 − j). -/
def fecSyndrome (w : Bytes) (i : Nat) : Nat := polyAt ((w.take 255).reverse.map (·.toNat)) (fecAlpha i)

/-- The error locator that a list of syndromes gives (Berlekamp and Massey): the locator, the one before the last
change of length, the number of errors, the steps since, and the discrepancy then. -/
def fecLocator (syn : List Nat) : List Nat × Nat :=
  let step (a : List Nat × List Nat × Nat × Nat × Nat) (n : Nat) : List Nat × List Nat × Nat × Nat × Nat :=
    let (c, old, len, gap, last) := a
    let d := (List.range (len + 1)).foldl
      (fun d i => Nat.xor d (fecMul (c.getD i 0) (if i ≤ n then syn.getD (n - i) 0 else 0))) 0
    if d = 0 then (c, old, len, gap + 1, last)
    else
      let c' := polyAdd c (polyScale (fecMul d (gfInv fecPoly last)) (List.replicate gap 0 ++ old))
      if 2 * len ≤ n then (c', c, n + 1 - len, 1, d) else (c', old, len, gap + 1, last)
  let r := (List.range syn.length).foldl step ([1], [1], 0, 1, 1)
  (r.1, r.2.2.1)

/-- The received bytes with the errors that the syndromes from α^b on locate taken out (Forney): byte j is in error
if the locator is zero at α^−(254 − j). -/
def fecRepair (w : Bytes) (b : Nat) (syn : List Nat) : Bytes :=
  let (loc, _) := fecLocator syn
  let omega := (List.range syn.length).map fun n =>
    (List.range (n + 1)).foldl (fun d i => Nat.xor d (fecMul (loc.getD i 0) (syn.getD (n - i) 0))) 0
  let slope := (loc.zipIdx.map fun x => if x.2 % 2 = 1 then x.1 else 0).drop 1
  (w.take 255).zipIdx.map fun x =>
    let e := 254 - x.2
    let inv := fecAlpha (255 - e)
    if polyAt loc inv = 0 then
      x.1 ^^^ BitVec.ofNat 8
        (fecMul (fecMul (polyAt omega inv) (gfInv fecPoly (polyAt slope inv))) (if b = 0 then fecAlpha e else 1))
    else x.1

/-- Places at which two byte strings differ. -/
def diffs (a b : Bytes) : List Nat := (List.range a.length).filter fun j => a.getD j 0 != b.getD j 0

/-- A candidate is a codeword within ten symbols of what was received. -/
def fecAccepts (w c : Bytes) : Bool := c == fecEncode (c.take 236) && (diffs w c).length ≤ 10

/-- Decode 256 received bytes: the codeword within ten symbols, if there is one (R574, R575). Byte 255 is taken to
be right, and then to be in error. -/
def fecDecode (w : Bytes) : Option Bytes :=
  if fecAccepts w w then some w
  else
    let syn := (List.range 20).map (fecSyndrome w)
    let first := match syn with
      | s0 :: t => Nat.xor s0 (w.getD 255 0).toNat :: t
      | [] => []
    let a := fecRepair w 0 first
    let a := a ++ [xorAll a]
    let b := fecRepair w 1 (syn.drop 1)
    let b := b ++ [xorAll b]
    if fecAccepts w a then some a else if fecAccepts w b then some b else none

/-! ### AES-256 in Galois/counter mode (R48, R49, R649) -/

def aesMul (a b : Nat) : Nat := gfMul 0x11B a b

/-- The byte substitution of AES: the inverse, and four turns of it added to it and to 0x63. -/
def aesSub (a : Nat) : Nat :=
  let v := gfInv 0x11B a
  let turn (k : Nat) : Nat := v * 2 ^ k % 256 + v / 2 ^ (8 - k)
  [v, turn 1, turn 2, turn 3, turn 4, 0x63].foldr Nat.xor 0

def xorList (a b : List Nat) : List Nat := List.zipWith Nat.xor a b

/-- The round keys of a 32-byte key, in words of four bytes: `n` words more, from the eight before each. -/
def aesWords : Nat → List (List Nat) → List (List Nat)
  | 0, ws => ws
  | n + 1, ws =>
    let i := ws.length
    let last := ws.getLastD []
    let t :=
      if i % 8 = 0 then
        xorList ((last.drop 1 ++ last.take 1).map aesSub) [gfPow 0x11B 2 (i / 8 - 1), 0, 0, 0]
      else if i % 8 = 4 then last.map aesSub
      else last
    aesWords n (ws ++ [xorList (ws.getD (i - 8) []) t])

/-- The fifteen round keys. -/
def aesKeys (key : Bytes) : List (List Nat) :=
  let ws := aesWords 52 ((List.range 8).map fun i => (sliceB key (4 * i) 4).map (·.toNat))
  (List.range 15).map fun r => ((ws.drop (4 * r)).take 4).flatten

/-- Substitution and the turning of the rows; byte r + 4c is row r of column c. -/
def aesRows (st : List Nat) : List Nat :=
  (List.range 16).map fun i => aesSub (st.getD ((i % 4) + 4 * ((i / 4 + i % 4) % 4)) 0)

/-- The mixing of the columns. -/
def aesMix (st : List Nat) : List Nat :=
  (List.range 16).map fun i =>
    let at_ (k : Nat) : Nat := st.getD (i / 4 * 4 + (i + k) % 4) 0
    [aesMul 2 (at_ 0), aesMul 3 (at_ 1), at_ 2, at_ 3].foldr Nat.xor 0

/-- AES-256 of a 16-byte block. -/
def aes256 (key block : Bytes) : Bytes :=
  match aesKeys key with
  | [] => []
  | k0 :: ks =>
    let st := xorList ((sliceB block 0 16).map (·.toNat)) k0
    let st := (ks.take 13).foldl (fun st k => xorList (aesMix (aesRows st)) k) st
    (xorList (aesRows st) (ks.getLastD [])).map (BitVec.ofNat 8)

/-- A block as a number, its first byte highest. -/
def beNat (bs : Bytes) : Nat := leNat bs.reverse

/-- The product in GF(2^128) of the hash of the mode, over the top `n` bits of `x` not yet taken. -/
def ghashMul : Nat → Nat → Nat → Nat
  | 0, _, _ => 0
  | n + 1, x, v =>
    Nat.xor (if x / 2 ^ n % 2 = 1 then v else 0)
      (ghashMul n x (if v % 2 = 1 then Nat.xor (v / 2) (0xE1 * 2 ^ 120) else v / 2))

/-- The hash of a padded byte string. -/
def ghash (h : Nat) (bs : Bytes) : Nat :=
  (List.range (ceilDiv bs.length 16)).foldl
    (fun y i => ghashMul 128 (Nat.xor y (beNat (sliceB bs (16 * i) 16))) h) 0

/-- Counter block `n` of a 12-byte nonce, enciphered. -/
def ctrBlock (key nonce : Bytes) (n : Nat) : Bytes := aes256 key (nonce ++ (natLe 4 n).reverse)

/-- The key stream for `n` bytes. -/
def ctrStream (key nonce : Bytes) (n : Nat) : Bytes :=
  sliceB ((List.range (ceilDiv n 16)).flatMap fun i => ctrBlock key nonce (i + 2)) 0 n

/-- Encipher or decipher bytes. -/
def ctrXor (key nonce bs : Bytes) : Bytes := List.zipWith (fun a b => a ^^^ b) bs (ctrStream key nonce bs.length)

def pad16 (bs : Bytes) : Bytes := sliceB bs 0 (ceilDiv bs.length 16 * 16)

/-- The tag of additional data and ciphertext. -/
def gcmTag (key nonce aad ct : Bytes) : Bytes :=
  let h := beNat (aes256 key (zeros 16))
  let y := ghash h (pad16 aad ++ pad16 ct ++ (natLe 8 (8 * aad.length)).reverse ++ (natLe 8 (8 * ct.length)).reverse)
  List.zipWith (fun a b => a ^^^ b) (natLe 16 y).reverse (ctrBlock key nonce 1)

/-- Encrypt and authenticate: ciphertext and tag. -/
def gcmSeal (key nonce aad plain : Bytes) : Bytes × Bytes :=
  let ct := ctrXor key nonce plain
  (ct, gcmTag key nonce aad ct)

/-- Check the tag, and decrypt. -/
def gcmOpen (key nonce aad ct tag : Bytes) : Option Bytes :=
  if tag = gcmTag key nonce aad ct then some (ctrXor key nonce ct) else none

end Sys2Proof.Machine
end

