-- ==== Sys2Proof/Config.lean ====
section
/-! DEFINITION. What one part fixes, and the free values: constants without a body, so that no proof
can rest on a value that the manual leaves open. -/

namespace Sys2Proof

/-- The serial number, 16 ASCII bytes, byte 0 in bits 7 to 0 (R847). -/
opaque Config.serial : BitVec 128

/-- The Ethernet address of the service port (R752). -/
opaque Config.mac : BitVec 48

/-- The IPv4 link-local address that the part chooses (R752). -/
opaque Config.linkLocal : BitVec 32

/-- The public half of the part's identity key, x then y (R623), and the ROM's digests of the four firmware-signing
keys (R736). -/
opaque Config.identityKey : Bytes
opaque Config.romKey : Nat → Bytes

/-- The SHA-384 digest of ROM and registrar (R625, measurement 0x01). -/
opaque Config.romDigest : BitVec 384

/-- The SHA-384 digest of the part's identity certificate chain, and the chain itself (R623). -/
opaque Config.certDigest : BitVec 384
opaque Config.certByte : Nat → Byte
opaque Config.certLen : Nat

/-- The keyed hash that selects a card-index set of R425, from gallery, PASID and page number. -/
opaque Config.cidxSet : Nat → Nat → Nat → BitVec 21

/-- The set of a micro-cache that an entry belongs to: the manual names no function. -/
opaque Config.ucacheSet : Nat → Nat → Nat → BitVec 8

/-- The random draw of R527: its LFSR polynomial and seed are not given. -/
opaque Config.redDraw : Nat → BitVec 32

/-- Nanoseconds since the last best-effort packet of a gallery at a port, for the marker of R526. -/
opaque Config.elapsedNs : Nat → Nat

/-- A resume challenge (R639), a session nonce, and a signature of the identity key (R625). -/
opaque Config.challenge : Nat → BitVec 128
opaque Config.nonce : Nat → BitVec 256
opaque Config.signature : Nat → BitVec 768

/-- The value type of a measurement in the DMTF block format (R625). -/
opaque Config.measType : Nat → BitVec 7

/-- Which of several instants a NaN, rounding or order left open by the manual takes: a free byte. -/
opaque Config.freeByte : Nat → Byte

/-- A free number, for a value that the manual states no rule for. -/
opaque Config.freeWord : Nat → Word

/-- What a receiver asks of its partner's FFE in a TS1 frame: bits 6 to 0 are bits 7 to 1 of the request byte, bits 9
to 7 the preset (R559, R564). -/
opaque Config.trainRequest : Nat → BitVec 10

/-- Whether 4 µs have passed since the last NAK of a port, at a flit time (R585). -/
opaque Config.nakDue : Nat → Bool

/-- Flits that the link clock takes between two arrivals of a receiver, at most 3 (R580). -/
opaque Config.linkTicks : Nat → BitVec 2

end Sys2Proof
end

