-- ==== Sys2Proof/Machine/Operands.lean ====
section
/-! DEFINITION. The formats of what reaches the module: fabric packet headers (R494), end-point packet
headers (R46), command entries (R705), and the encodings of their fields. -/

namespace Sys2Proof.Machine

/-! ### Status codes (R65 and the later chapters) -/

def stOk : Nat := 0x00
def stFault : Nat := 0x01
def stDenied : Nat := 0x02
def stAddrError : Nat := 0x03
def stDataError : Nat := 0x04
def stLost : Nat := 0x05
def stTimeout : Nat := 0x06
def stUnsupported : Nat := 0x07
def stMalformed : Nat := 0x08
def stAborted : Nat := 0x09
def stBusy : Nat := 0x0A
def stNoSchedule : Nat := 0x0B
def stQuota : Nat := 0x0C
def stMismatch : Nat := 0x0D
def stPartial : Nat := 0x0E
def stNoWaiter : Nat := 0x0F
def stWithdrawn : Nat := 0x10
def stJoinTimeout : Nat := 0x11
def stNoResource : Nat := 0x12
def stUnauthorised : Nat := 0x13
def stWrongState : Nat := 0x14
def stDeferred : Nat := 0x15
def stImageInvalid : Nat := 0x16
def stDowngrade : Nat := 0x17
def stCapNotMet : Nat := 0x18
def stBelowFloor : Nat := 0x19
def stNeedsQuiesce : Nat := 0x1A
def stCatalogueInvalid : Nat := 0x1B
def stResendLimit : Nat := 0x1C

/-- No status yet: the operation still runs. -/
def stNone : Nat := 256

/-! ### Fabric packets -/

/-- The header of a fabric packet (R494). -/
structure FHdr where
  ftype : Nat
  epoch : Bool
  vc : Nat
  resp : Bool
  hopPtr : Nat
  hopsM1 : Nat
  lines : Nat
  colour : Nat
  dseq : Nat
  route : Nat
  dlMask : Nat
  gallery : Nat
  fpa : Nat
  srcNode : Nat
  srcPort : Nat
  srcLocal : Nat
  keyGen : Nat
  param : Nat
deriving DecidableEq, Repr

/-- The fields of a fabric header (R494). -/
def FHdr.dec (h : Header) : FHdr :=
  { ftype := fieldN h 0 8, hopPtr := fieldN h 8 3, resp := bitN h 11, vc := fieldN h 12 3
    epoch := bitN h 15, lines := fieldN h 16 5, hopsM1 := fieldN h 21 3, colour := fieldN h 30 2
    dseq := fieldN h 32 32, route := fieldN h 64 48, dlMask := fieldN h 112 8
    gallery := fieldN h 120 6, fpa := fieldN h 128 64, srcNode := fieldN h 196 12
    srcPort := fieldN h 208 6, srcLocal := fieldN h 216 5, keyGen := fieldN h 224 16
    param := fieldN h 240 16 }

/-- A field of a header as a number to add. -/
def hput (lo len v : Nat) : Nat := (v % 2 ^ len) * 2 ^ lo

/-- The header bytes of a fabric packet, reserved bits zero (R494). -/
def FHdr.enc (f : FHdr) : Header :=
  BitVec.ofNat 256 (hput 0 8 f.ftype + hput 8 3 f.hopPtr + hput 11 1 f.resp.toNat + hput 12 3 f.vc
    + hput 15 1 f.epoch.toNat + hput 16 5 f.lines + hput 21 3 f.hopsM1 + hput 30 2 f.colour
    + hput 32 32 f.dseq + hput 64 48 f.route + hput 112 8 f.dlMask + hput 120 6 f.gallery
    + hput 128 64 f.fpa + hput 196 12 f.srcNode + hput 208 6 f.srcPort + hput 216 5 f.srcLocal
    + hput 224 16 f.keyGen + hput 240 16 f.param)

/-- Fabric packet types (R496). -/
def ftRead : Nat := 0x01
def ftWrite : Nat := 0x02
def ftWriteMasked : Nat := 0x03
def ftZeroRun : Nat := 0x04
def ftSync : Nat := 0x05
def ftAtomic : Nat := 0x06
def ftRed : Nat := 0x10
def ftMgmt : Nat := 0x20
def ftAck : Nat := 0x80
def ftData : Nat := 0x81
def ftValue : Nat := 0x82

/-- The type is one that R496 lists. -/
def ftypeKnown (t : Nat) : Bool :=
  (1 ≤ t && t ≤ 6) || (0x10 ≤ t && t ≤ 0x1F) || t == 0x20 || (0x80 ≤ t && t ≤ 0x82)

/-- Route entry `i` of a route (R494). -/
def routeEntry (route i : Nat) : Nat := route / 2 ^ (6 * i) % 64

/-- Node id and offset of an FPA (R10). -/
def fpaNode (fpa : Nat) : Nat := fpa / 2 ^ 52 % 4096
def fpaOff (fpa : Nat) : Nat := fpa % 2 ^ 52

/-- The sync object at an offset of a module's node id, if one is there (R34, R58). -/
def soOfOffset (off : Nat) : Option Nat :=
  if 0x8000000000000 ≤ off ∧ off < 0x8000000040000 ∧ off % 16 = 0 then
    some ((off - 0x8000000000000) / 16)
  else none

/-- The FPA of a sync object of a module. -/
def soFpa (node so : Nat) : Nat := node * 2 ^ 52 + 0x8000000000000 + 16 * so

/-- Bytes of the shelf pool (R34). -/
def shelfBytes : Nat := 0x1D0000000

/-! ### End-point packets -/

/-- The header of an end-point packet (R46). -/
structure EHdr where
  opcode : Nat
  ctx : Nat
  tag : Nat
  linesM1 : Nat
  slot : Nat
  keyGen : Nat
  address : Nat
  counter : Nat
  word : Nat
  /-- Some reserved bit is not zero. -/
  rsv : Bool
deriving DecidableEq, Repr

/-- The fields of an end-point header (R46). -/
def EHdr.dec (h : Header) : EHdr :=
  { opcode := fieldN h 0 8, ctx := fieldN h 12 4, tag := fieldN h 16 10, linesM1 := fieldN h 32 4
    slot := fieldN h 40 6, keyGen := fieldN h 48 16, address := fieldN h 64 64
    counter := fieldN h 128 64, word := fieldN h 192 64
    rsv := fieldN h 8 4 != 0 || fieldN h 26 6 != 0 || fieldN h 36 4 != 0 || fieldN h 46 2 != 0 }

/-- The header bytes of an end-point packet (R46). -/
def EHdr.enc (e : EHdr) : Header :=
  BitVec.ofNat 256 (hput 0 8 e.opcode + hput 12 4 e.ctx + hput 16 10 e.tag + hput 32 4 e.linesM1
    + hput 40 6 e.slot + hput 48 16 e.keyGen + hput 64 64 e.address + hput 128 64 e.counter
    + hput 192 64 e.word)

/-- End-point opcodes (R53). -/
def eoLoad : Nat := 0x01
def eoStore : Nat := 0x02
def eoStoreMasked : Nat := 0x03
def eoSync : Nat := 0x04
def eoLaunch : Nat := 0x05
def eoAtomic : Nat := 0x06
def eoTRead : Nat := 0x41
def eoTWrite : Nat := 0x42
def eoTWriteMasked : Nat := 0x43
def eoTAtomic : Nat := 0x46

/-- SYNC subops (R57). -/
def soRead : Nat := 0
def soAdd : Nat := 1
def soSet : Nat := 2
def soMin : Nat := 3
def soMax : Nat := 4
def soCas : Nat := 5
def soWaitGe : Nat := 6
def soWaitEq : Nat := 7

/-- The subop is one that a SYNC may name, and one that an ATOMIC may name (R57). -/
def syncSubopOk (s : Nat) : Bool := s ≤ 7
def atomicSubopOk (s : Nat) : Bool := s == 1 || s == 3 || s == 4 || s == 5

/-- The new value of a sync object or atomic word (R244, R153). -/
def syncApply (subop : Nat) (old a b : Word) : Word :=
  if subop = soAdd then old + a
  else if subop = soSet then a
  else if subop = soMin then (if a.toNat < old.toNat then a else old)
  else if subop = soMax then (if old.toNat < a.toNat then a else old)
  else if subop = soCas then (if old = a then b else old)
  else old

/-! ### Command entries -/

/-- The fields of a command entry (R705). -/
structure CmdEntry where
  opcode : Nat
  cmdId : Nat
  paramOff : Nat
  paramLen : Nat
  args : Bytes
  rsv : Bool
deriving DecidableEq, Repr

def CmdEntry.dec (bs : Bytes) : CmdEntry :=
  { opcode := getLe bs 0 2, cmdId := getLe bs 4 4, paramOff := getLe bs 8 4, paramLen := getLe bs 12 4
    args := sliceB bs 16 48, rsv := getLe bs 2 2 != 0 }

/-- Little-endian field of the args at byte `off` of the entry, 16 ≤ off. -/
def argLe (args : Bytes) (off n : Nat) : Nat := getLe args (off - 16) n

/-- Every arg byte from `off` to the entry's end is zero. -/
def argZeroFrom (args : Bytes) (off : Nat) : Bool := zeroB args (off - 16) (64 - off)

end Sys2Proof.Machine
end

