-- ==== Sys2Proof/Machine/Tab.lean ====
section
/-! DEFINITION. Sparse tables: what the module holds per port, context, sync object or address. -/

namespace Sys2Proof.Machine

/-- A sparse table: keys rising, and no entry equal to what an unlisted key reads as. -/
abbrev Tab (α : Type) := List (Nat × α)

/-- The value at `k`; an unlisted key reads `d`. -/
def Tab.get {α : Type} (d : α) : Tab α → Nat → α
  | [], _ => d
  | (k', v) :: t, k => if k = k' then v else Tab.get d t k

/-- The table without its entries at `k`. -/
def Tab.erase {α : Type} : Tab α → Nat → Tab α
  | [], _ => []
  | (k', v) :: t, k => if k = k' then Tab.erase t k else (k', v) :: Tab.erase t k

/-- The table with `(k, v)` put before the first larger key. -/
def Tab.insert {α : Type} : Tab α → Nat → α → Tab α
  | [], k, v => [(k, v)]
  | (k', v') :: t, k, v => if k < k' then (k, v) :: (k', v') :: t else (k', v') :: Tab.insert t k v

/-- Write `v` at `k`; writing what an unlisted key reads as removes the entry. -/
def Tab.set {α : Type} [DecidableEq α] (d : α) (t : Tab α) (k : Nat) (v : α) : Tab α :=
  if v = d then Tab.erase t k else Tab.insert (Tab.erase t k) k v

/-- Change the value at `k` by `f`. -/
def Tab.modify {α : Type} [DecidableEq α] (d : α) (t : Tab α) (k : Nat) (f : α → α) : Tab α :=
  Tab.set d t k (f (Tab.get d t k))

/-- Change every listed value by `f`; entries that become the unlisted value leave the table. -/
def Tab.mapVals {α : Type} [DecidableEq α] (d : α) (f : Nat → α → α) (t : Tab α) : Tab α :=
  (t.map fun e => (e.1, f e.1 e.2)).filter fun e => decide (e.2 ≠ d)

/-- Every key of the list lies above `lo`, and the keys rise. -/
def Tab.rising {α : Type} (lo : Nat) : Tab α → Bool
  | [] => true
  | (k, _) :: t => decide (lo ≤ k) && Tab.rising (k + 1) t

/-- The canonical form: keys strictly rising, and no entry equal to the unlisted value. -/
def Tab.wf {α : Type} [DecidableEq α] (d : α) (t : Tab α) : Bool :=
  Tab.rising 0 t && t.all fun e => decide (e.2 ≠ d)

end Sys2Proof.Machine
end

