-- ==== Sys2Proof/Machine/State.lean ====
section
/-! DEFINITION. The state of the module: every register, table, buffer, queue and pin the manual gives
it, the commands that wait, and what the module has sent. Tables are sparse (`Tab`), keyed by port,
context, gallery, function or address; an entry that is not listed holds its value after reset. -/

namespace Sys2Proof.Machine

/-- Why the machine stops with a fault. -/
inductive Fault where
  /-- Raised by a command whose operand has a length that the event cannot have (lanes that carry
  no whole flit of 256 B, a tour line or descriptor other than 128 B, a key other than 32 B). Safe: the module
  never meets such an operand. -/
  | operandLength
deriving DecidableEq, Repr

/-- Why a command is refused. -/
inductive Refusal where
  /-- Raised only by an arm of `exec` whose command has no meaning yet. Safe. -/
  | notModelled (mnemonic : String)
deriving DecidableEq, Repr

/-! ### Module state, power and clocks -/

/-- The module states (R5). -/
inductive ModState where
  | off
  | standby
  | boot
  | service
  | operational
  | drain
  | recovery
deriving DecidableEq, Repr

/-- A command taken from a ring and not yet completed (R705, R707). -/
structure Taken where
  fn : Nat
  /-- Number of the command among those ever taken from the function: the model's own name for it. -/
  uid : Nat
  /-- Ring index of the entry (R706). -/
  seq : Nat
  cmdId : Nat
  opcode : Nat
  paramOff : Nat
  paramLen : Nat
  /-- Bytes 16 to 63 of the entry. -/
  args : Bytes
  /-- Bytes 2 and 3 of the entry are not zero. -/
  rsv : Bool
  /-- The command has been performed and waits for its completion. -/
  started : Bool
  /-- A function-level reset has discarded its completion (R724). -/
  discard : Bool
deriving DecidableEq, Repr

/-- Module state control (R5, R6, R8, R721). -/
structure ModCtl where
  state : ModState
  /-- The state being entered, if a change is in progress (R6). -/
  target : Option ModState
  changed : Bool
  lastStatus : Nat
  /-- Admission of atomics has stopped (R8). -/
  atomicsStopped : Bool
  /-- The STATE_SET that waits for its change. -/
  token : Option Taken
  /-- The host interface is ready (R722, R773 step 4). -/
  hostReady : Bool
  /-- PERST# is asserted. -/
  perst : Bool
deriving DecidableEq, Repr

/-- Inputs, caps, tiers and emergencies (R770 to R786, R795 to R797). -/
structure Power where
  auxGood : Bool
  mainGood : Bool
  present : Bool
  /-- Main conversion was switched off by a shutdown and waits for R786. -/
  lockedOut : Bool
  /-- The board management controller has set main enable to on since the shutdown (R786). -/
  enableSet : Bool
  bmcCap : Nat
  drvCap : Nat
  tier : Nat
  /-- Average updates, of 10 µs each, since the tier was entered. -/
  tierAge : Nat
  /-- Average updates in a row at or below the cap minus 200 W. -/
  belowFor : Nat
  capNotMet : Bool
  /-- PWR_STAT.cause: bits 0 to 7. -/
  causes : BitVec 8
  emergency : Bool
  fthr : Bool
  /-- TMR1 counts the fast-throttle hold (R793). -/
  fthrHold : Bool
  leakIn : Bool
  senseOpen : Bool
  auxOutFault : Bool
  /-- THERM_READ.fail, die first. -/
  sensorFail : BitVec 5
  sample : Sample
  /-- Samples of the present 1 s window: how many, and their sums; and the averages of the last whole window
  (R666). -/
  winCount : Nat
  winSum : Sample
  coarse : Sample
  /-- The POWER_CAP that waits for its average (R779), with its cap. -/
  capToken : Option (Taken × Nat)
  /-- Average updates, of 10 µs each, in STANDBY that no whole hour of STANDBY holds yet (R828). -/
  standbyFor : Nat
deriving DecidableEq, Repr

/-- Clock selection and gating (R787 to R791, R798 to R800). -/
structure Clocks where
  curF : Nat
  vaultF : Nat
  coreF : Nat
  refused : Bool
  refPort : Nat
  revert : Bool
  refSel : Nat
  refNow : Nat
  fallbacks : Nat
  locked : Bool
  enRefused : Bool
  blocks : BitVec 6
  ports : BitVec 48
deriving DecidableEq, Repr

/-- OWN_CTL and the shared pins (R792, R793, R801). -/
structure OwnCtl where
  conflict : Bool
  tickDiv : Nat
  /-- Bits 7 to 0 of OWN_CTL. -/
  en : BitVec 8
deriving DecidableEq, Repr

/-! ### Curator, firmware, flash and the service port -/

/-- The firmware states of FW_STATUS (R743). -/
inductive FwState where
  | none
  | verifying
  | writing
  | staged
  | deferred
  | overwriting
  | restarting
deriving DecidableEq, Repr

/-- A flash area that holds an image: its length and its bytes (R733). -/
structure FlashArea where
  len : Nat
  bytes : Tab Byte
deriving DecidableEq, Repr

/-- The flash, the fuses and what survives reset (R733, R734, R736, R828). -/
structure Flash where
  imageArea : FlashArea
  stagedArea : FlashArea
  /-- The activation record: empty, or pending with the staged image's header digest (R734). -/
  activation : Option Bytes
  /-- Revocation mask (R736). -/
  revoked : BitVec 4
  /-- Fused security version (R736). -/
  fusedSvn : Nat
  /-- The life-history store, newest record first; at most 16,384 (R828). -/
  lifeHistory : List Bytes
  /-- The module enters RECOVERY at its next BOOT (R747). -/
  recoverNext : Bool
  /-- What manufacture has fixed: the ROM's digests of the four signing keys (R736), and the public identity key
  (R623). -/
  romKeys : List Bytes
  identity : Bytes
deriving DecidableEq, Repr

/-- A PLDM request that waits for the curator (R731, R757): a sensor, inventory, the cap, the main
enable and the module reset. -/
inductive Pldm
  | sensor (n : Nat)
  | fru
  | cap (watts : Nat)
  | mainEnable
  | moduleReset
deriving DecidableEq, Repr

/-- The curator (R728 to R769). -/
structure Curator where
  /-- The curator serves commands. -/
  up : Bool
  /-- BOOT has passed step 1 of R750. -/
  listened : Bool
  /-- BOOT has passed steps 2 to 4 of R750. -/
  imageOk : Bool
  /-- The cause and core of a restart that waits for an overwrite to complete (R732). -/
  restartWaits : Option (Nat × Nat)
  /-- The core of the restart that runs. -/
  restartCore : Nat
  /-- Restarts of cause WATCHDOG or MEMORY (R826). -/
  faultRestarts : Nat
  /-- An hourly record waits for the end of a restart (R829). -/
  hourlyDue : Bool
  fwVersion : Nat
  svn : Nat
  /-- SHA-384 of the running image (R625, measurement 0x02). -/
  digest : Bytes
  restarts : Nat
  coresUp : BitVec 4
  lastCause : Nat
  fw : FwState
  /-- The step of R746 that runs or comes next: 0 none, 3, 4 or 5. -/
  actStep : Nat
  /-- The step named by `actStep` has begun. -/
  actBegun : Bool
  /-- The overwrite has already failed once (R747). -/
  overwriteRetried : Bool
  /-- The hold of R745 applies. -/
  hold : Bool
  stagedVersion : Nat
  stagedSvn : Nat
  lastStatus : Nat
  /-- Length of the image that FW_STAGE names (R740). -/
  stageLen : Nat
  stageToken : Option Taken
  logLevel : Nat
  logLost : Nat
  logWritten : Nat
  trace : Tab Word
  /-- Status of the last recovery attempt; 0xFF if none has been made (R756). -/
  recoveryStatus : Nat
  /-- PLDM requests that came during a restart, oldest first (R731). -/
  pldmWaits : List Pldm
deriving DecidableEq, Repr

/-- A TFTP transfer in progress: times its packet has been retransmitted (R753). -/
structure Tftp where
  active : Bool
  retransmits : Nat
deriving DecidableEq, Repr

/-- The service port (R752 to R756). -/
structure SvcPort where
  linkUp : Bool
  /-- The leased address. -/
  lease : Option (BitVec 32)
  /-- A link-local address is in use. -/
  linkLocal : Bool
  tftp : Tftp
deriving DecidableEq, Repr

/-! ### Host interface -/

/-- One ring's RING_CFG and RING_IDX (R698, R700, R701). -/
structure Ring where
  en : Bool
  stopped : Bool
  refused : Bool
  log2 : Nat
  base : Nat
  pi : Nat
  ci : Nat
deriving DecidableEq, Repr

/-- INT_MAP_c (R717). -/
structure IntMap where
  coalesce : Nat
  arm : Bool
  vector : Nat
deriving DecidableEq, Repr

/-- One MSI-X table entry and its pending bit (R715, R718). -/
structure Msix where
  addr : Word
  data : BitVec 32
  masked : Bool
  pending : Bool
deriving DecidableEq, Repr

/-- A stream that waits for a translation or for a page request (R430). -/
inductive Stream where
  /-- The line stream of context 16p + n. -/
  | ctx (g : Nat)
  /-- The end-point request of this port and tag. -/
  | ep (p tag : Nat)
deriving DecidableEq, Repr

/-- A stream that waits, with the FVA and the permissions that it needs (R422). -/
structure StreamWait where
  st : Stream
  fva : Nat
  r : Bool
  w : Bool
deriving DecidableEq, Repr

/-- A page request, waiting (R437) or outstanding (R435, R436). -/
structure PageReq where
  gal : Nat
  pasid : Nat
  fva : Nat
  r : Bool
  w : Bool
  /-- The port and context of the record (R449); 255 and 0 if none. -/
  port : Nat
  ctx : Nat
  /-- Whether an end-point line request asked, and its tag or the pc (R450). -/
  isEp : Bool
  info : Nat
  /-- The streams that one response releases, each with its own address (R436). -/
  streams : List StreamWait
  /-- The stream has ended; the index stays in use (R442). -/
  abandoned : Bool
deriving DecidableEq, Repr

/-- An invalidation in progress (R444, R445). -/
structure Inval where
  itag : Nat
  gal : Nat
  pasid : Option Nat
  base : Nat
  log2 : Nat
  /-- The packets that step 3 waits for, by the model's own numbers for them. -/
  waits : List Nat
  /-- Completion is held for deaccession step 3 (R676). -/
  held : Bool
deriving DecidableEq, Repr

/-- The IDE stream of a function (R660): keys and which set is in use. -/
structure IdeStream where
  key0 : Bytes
  key1 : Bytes
  go0 : Bool
  go1 : Bool
deriving DecidableEq, Repr

/-- A PCIe function: its rings, interrupts, portal, page requests and TDI. -/
structure Fn where
  busMaster : Bool
  memorySpace : Bool
  d3hot : Bool
  vfEnable : Bool
  ats : Bool
  pri : Bool
  /-- The Outstanding Page Request Allocation that the host programs (R435). -/
  priAlloc : Nat
  msixEn : Bool
  /-- PRI is in the Stopped state (R439). -/
  priStopped : Bool
  /-- The gallery the function is bound to; 0 for none on a virtual function (R30). -/
  gal : Nat
  rings : Tab Ring
  ints : Tab IntMap
  msix : Tab Msix
  incSeq : Nat
  specSeq : Nat
  logSeq : Nat
  ovf : Bool
  firstLost : Nat
  lost : Tab Nat
  taken : List Taken
  /-- The `uid` of the next command taken. -/
  nextUid : Nat
  cmdsTaken : Nat
  bar2Refused : Nat
  opA : Word
  opB : Word
  soResult : Word
  soStatus : Nat
  /-- Outstanding page requests by PRG index (R435, R442). -/
  prgs : List (Nat × PageReq)
  /-- Page requests that wait for ring space or allocation, oldest first (R437). -/
  waiting : List PageReq
  invals : List Inval
  /-- 0 CONFIG_UNLOCKED, 1 CONFIG_LOCKED, 2 RUN, 3 ERROR (R680). -/
  tdi : Nat
  ide : IdeStream
deriving DecidableEq, Repr

/-! ### Ports: docent side -/

/-- A port key slot (R643 to R645, R683). -/
structure KeySlot where
  /-- The owning gallery, if any. -/
  owner : Option Nat
  installed : Bool
  key : Bytes
  gen : Nat
  /-- Last counter accepted from the end-point. -/
  rxCtr : Nat
  /-- Last counter sent to the end-point. -/
  txCtr : Nat
deriving DecidableEq, Repr

/-- An end-point request whose tag is outstanding (R59, R60). -/
structure EpReq where
  tag : Nat
  hdr : Header
  payload : Bytes
  gal : Nat
  pasid : Nat
  /-- It has been sent into the fabric. -/
  sent : Bool
  /-- Success responses without the permission (R440). -/
  successes : Nat
deriving DecidableEq, Repr

/-- A target request that waits for the end-point (R59, R63). -/
structure TgtReq where
  tag : Nat
  /-- The end-point opcode sent: 0x41, 0x42, 0x43 or 0x46. -/
  opcode : Nat
  /-- The fabric request that caused it. -/
  hdr : Header
  payload : Bytes
  /-- The packet's transfer and place in it (R189). -/
  xfer : Option (Nat × Nat)
deriving DecidableEq, Repr

/-- A cached translation (R424). -/
structure TlbEntry where
  gal : Nat
  pasid : Nat
  /-- 1 GiB page; otherwise 2 MiB. -/
  big : Bool
  /-- Page number: FVA divided by the page size. -/
  page : Nat
  fpa : Nat
  r : Bool
  w : Bool
deriving DecidableEq, Repr

/-- An outstanding ATS Translation Request (R420, R431). -/
structure AtsReq where
  id : Nat
  gal : Nat
  pasid : Nat
  /-- FVA divided by 2 MiB. -/
  page : Nat
  streams : List StreamWait
  stale : Bool
  retried : Bool
deriving DecidableEq, Repr

/-- A port-cache line (R204). The least recently used comes last. -/
structure PcLine where
  gal : Nat
  pasid : Nat
  fva : Nat
  dirty : Bool
  data : Bytes
  /-- The translation kept while the line is dirty, and whether its page is of 1 GiB (R212). -/
  fpa : Nat
  big : Bool
deriving DecidableEq, Repr

/-- The two-rate three-colour marker of a gallery at a port (R526): tokens in bytes. -/
structure Marker where
  tc : Nat
  tp : Nat
deriving DecidableEq, Repr

/-- The docent of a port (R51, R60, R157, R204, R424, R617). -/
structure Docent where
  quantumLog2 : Nat
  aperture : Nat
  slots : Tab KeySlot
  /-- The send slot of each gallery (R645), as slot + 1; 0 for none. -/
  sendSlot : Tab Nat
  /-- Galleries that have named a send slot by GAL_KEY_ACTIVATE (R637, R645). -/
  activated : List Nat
  authFail : Nat
  protoErr : Nat
  reqs : List EpReq
  tgts : List TgtReq
  nextTgt : Nat
  tlb : List TlbEntry
  tlbMisses : Nat
  ats : List AtsReq
  nextAts : Nat
  /-- Streams that wait for an ATS slot (R431), oldest first. -/
  atsWait : List StreamWait
  /-- Translations that were answered and could not be cached (R426), each for its stream. -/
  oneShot : List (Stream × TlbEntry)
  pcache : List PcLine
  wbFail : Nat
  pcQuota : Tab Nat
  markers : Tab Marker
  /-- The context that last held the issue slot (R92). -/
  lastSlot : Nat
  /-- The context that the line generator served last, and whether an end-point request goes next (R105). -/
  lastLine : Nat
  epTurn : Bool
deriving DecidableEq, Repr

/-! ### Ports: link layer -/

/-- The port states (R599). -/
inductive LinkState where
  | disabled
  | training
  | active
  | idle
  | retrain
  | down
  | mappedOut
  | expelled
deriving DecidableEq, Repr

/-- A DATA flit held for replay (R582). -/
structure TxFlit where
  seq : Nat
  vc : Nat
  sop : Nat
  body : Bytes
deriving DecidableEq, Repr

/-- A packet that waits for credit on a link (R591). -/
structure TxPkt where
  vc : Nat
  cls : Nat
  bytes : Bytes
deriving DecidableEq, Repr

/-- A packet being assembled from DATA flits (R576, R577). -/
structure RxAsm where
  vc : Nat
  cls : Nat
  need : Nat
  got : Bytes
deriving DecidableEq, Repr

/-- A lane (R556 to R559, R619, R620). -/
structure Lane where
  /-- LANE_CFG_i. -/
  ctleManual : Bool
  ctleCode : Nat
  ffeManual : Bool
  txPost : Nat
  txPre : Nat
  /-- LANE_STAT_i. -/
  corrSym : Nat
  ctleNow : Nat
  postNow : Nat
  preNow : Nat
  failed : Bool
  inverted : Bool
  cdrLock : Bool
  signal : Bool
  /-- Training: the partner set eq_done; bad frames in the window of step 4; equal TS2 frames in a
  row and the last of them; a request of the partner was refused. -/
  eqDone : Bool
  badFrames : Nat
  ts2Run : Nat
  ts2Last : Header
  atLimit : Bool
  /-- The scramblers of the two directions, 31 bits each (R562). -/
  txScr : Nat
  rxScr : Nat
deriving DecidableEq, Repr

/-- The link layer of a port (R552 to R620). -/
structure Link where
  state : LinkState
  laneMask : BitVec 8
  idleEn : Bool
  refused : Bool
  downs : Nat
  peerNode : Nat
  peerPort : Nat
  txIdle : Bool
  rxIdle : Bool
  width : Nat
  /-- PORT_LINK_CFG (R614). -/
  idleNs : Nat
  retryTimeout : Nat
  pathTimeout : Nat
  serLog2 : Nat
  flapLimit : Nat
  deadNs : Nat
  corrected : Nat
  bad : Nat
  retrains : Nat
  replays : Nat
  naksSent : Nat
  /-- The step of training that runs: 1 to 6; 0 for none (R565). -/
  trainStep : Nat
  /-- Training was refused under R567, and waits there. -/
  trainRefused : Bool
  /-- Failed training attempts since the port was last up (R603). -/
  attempts : Nat
  /-- DOWN events within the present hour (R603). -/
  flaps : Nat
  /-- Retrains in a row that failed their bound or made no progress (R601). -/
  retrainFails : Nat
  /-- A retrain has ended with flits unacknowledged, and no ack has advanced since (R601). -/
  retrained : Bool
  /-- E: the next sequence the receiver expects (R583). -/
  rxSeq : Nat
  /-- A NAK has been sent and no flit with seq = E has come since (R585). -/
  nakHeld : Bool
  /-- The next sequence to send (R582). -/
  txSeq : Nat
  unacked : List TxFlit
  /-- Consecutive replays that began at one sequence, and that sequence (R588). -/
  replayRun : Nat
  replayAt : Nat
  /-- Per VC: the partner's limit, cells consumed, the partner's cr_total (R592). -/
  limit : Tab Nat
  consumed : Tab Nat
  crTotal : Tab Nat
  /-- Per VC: cells this receiver has freed, modulo 4,096. -/
  freed : Tab Nat
  /-- An ack or a credit return is due while the transmit direction is idle (R594). -/
  due : Bool
  waiting : List TxPkt
  asm : Option RxAsm
  /-- After a bad lead-in, flits of this VC are discarded until one with a lead-in (R578). -/
  skipVc : Option Nat
  /-- Flits sent since the last FILLER (R579), and flits in the receiver's elastic buffer (R580). -/
  sinceFill : Nat
  elastic : Nat
deriving DecidableEq, Repr

/-- The switch-core registers of a port (R548 to R550). -/
structure SwcPort where
  specEn : Bool
  specK : Nat
  specCount : Nat
  dropGreen : Nat
  dropYellow : Nat
  dropRed : Nat
  /-- The average of R527, in 2^-16 cells. -/
  avg : Nat
deriving DecidableEq, Repr

/-! ### Contexts and tours -/

/-- Context states (R77). -/
inductive CtxState where
  | unbound
  | idle
  | ready
  | active
  | blocked
  | parked
  | ending
deriving DecidableEq, Repr

/-- Who launched the tour (R74, R88). -/
inductive Launcher where
  | none
  | ep (tag : Nat)
  | ring (t : Taken)
deriving DecidableEq, Repr

/-- What a BLOCKED context waits for (R95). -/
inductive Block where
  | none
  /-- A WAIT: the register that receives the value, and the scope of its acquire. -/
  | wait (rd scope : Nat)
  | fence (scope : Nat)
  | flush (drop : Bool) (base len : Nat) (begun : Bool) (status : Nat)
  | atomic (rd : Nat)
  | queueFull
  | line
deriving DecidableEq, Repr

/-- What a context's translation stream waits for (R430). -/
inductive Want where
  | none
  | header
  | line
  | atomic
  | endRecord
  /-- The operation of this issue index. -/
  | op (i : Nat)
deriving DecidableEq, Repr

/-- The operations (R100). -/
inductive OpKind where
  | copy
  | gather
  | scatter
  | mcast
  | reduce
  | dispatch
  | combine
  | signal
deriving DecidableEq, Repr

/-- Where an operation stands. -/
inductive OpPhase where
  /-- The descriptor has not been read. -/
  | desc
  /-- A result range is being translated before the join (R324). -/
  | ranges
  /-- The join has been sent. -/
  | joined
  /-- Lines are being generated and sent. -/
  | running
  /-- Every line has been sent; acknowledgements are awaited. -/
  | sent
  /-- Completed with this status; OK waits for retirement (R106). -/
  | done (status : Nat)
deriving DecidableEq, Repr

/-- A packet that a transfer has sent: its lines, its destination module once it is known, and its
status, 256 while unanswered. -/
structure XPkt where
  first : Nat
  lines : Nat
  dest : Option Nat
  status : Nat
deriving DecidableEq, Repr

/-- A transfer in progress (R163 to R202). -/
structure Xfer where
  total : Nat
  nextRead : Nat
  nextSend : Nat
  /-- Source lines that have been read and not sent: the line number and its bytes. -/
  ready : List (Nat × Bytes)
  /-- Index-list, mask and target-list lines that have been read: line number of the FVA, bytes (R167). -/
  tables : List (Nat × Bytes)
  /-- Source lines that have been asked for. -/
  asked : List Nat
  /-- A source read failed from this line on, with this status. -/
  readFail : Option (Nat × Nat)
  packets : List XPkt
  cachedBytes : Nat
  /-- Lines stop here: the failing line and its status. -/
  stopAt : Option (Nat × Nat)
  /-- MCAST: the multicast copy of the present block, of which the docent holds a reference while it still forms
  target headers (R519, R520). -/
  copy : Option Nat
deriving DecidableEq, Repr

/-- One target of an MCAST (R127, R129). -/
structure McTarget where
  fva : Nat
  status : Nat
  ended : Bool
  unacked : Nat
  /-- Lines sent to the target. -/
  next : Nat
deriving DecidableEq, Repr

/-- A write of result bytes at a member: its first address, bytes, the sequence of the result packet that brought them,
and its status, 256 while unanswered (R331). -/
structure ResWrite where
  first : Nat
  bytes : Nat
  dseq : Nat
  status : Nat
deriving DecidableEq, Repr

/-- An abort that a member has been told of, and that ends it once the results sent before it have come: status, lost
path, the home's node, and the sequence of the packet that told it (R344, R345). -/
structure AbortNote where
  status : Nat
  pathLost : Bool
  node : Nat
  dseq : Nat
deriving DecidableEq, Repr

/-- A collective, dispatch or combine in progress at a member. -/
structure Coll where
  /-- The schedule in use, after any switch to an alternate (R824). -/
  sched : Nat
  /-- The instance that the operation's number joins; none if it took no number (R297). -/
  inst : Option Nat
  rank : Nat
  /-- Chunks whose credit is held and that have not been sent whole (R326). -/
  credits : List Nat
  /-- The next contribution line, chunk, item or output to send. -/
  next : Nat
  sentAll : Bool
  /-- Result bytes that have been written. -/
  got : Nat
  /-- Kept result translations: page base FVA, size logarithm, FPA (R324). -/
  kept : List (Nat × Nat × Nat)
  /-- Delivery failed with this status (R347). -/
  delivery : Nat
  /-- Lines read, by kind and line number: 0 route, 1 experts, 2 status, 3 recv, 4 slots, 5 contribution,
  token or output lines. -/
  tables : List (Nat × Nat × Bytes)
  /-- Lines of those kinds that have been asked for. -/
  asked : List (Nat × Nat)
  off : List Nat
  keptCnt : List Nat
  recv : List Nat
  /-- Input base and slot array of every expert (R385). -/
  bases : List (Nat × Nat)
  /-- The offsets have arrived (R389), or the header line of a sparse result (R377). -/
  final : Bool
  /-- Groups whose homes have granted (R400). -/
  grants : List Nat
  /-- Tokens whose weights have been sent (R402). -/
  weights : Nat
  /-- Writes of this operation that have not been answered. -/
  unacked : Nat
  /-- Result writes that res_so has not counted yet (R331). -/
  resPkts : List ResWrite
  abortAt : Option AbortNote
deriving DecidableEq, Repr

/-- An operation of a context (R100 to R108). -/
structure Op where
  idx : Nat
  pc : Nat
  kind : OpKind
  addSrc : Nat
  addDst : Nat
  descFva : Nat
  sched : Nat
  doneEn : Bool
  doneSo : Nat
  /-- SIGNAL: release, subop, operand and FPA; `performed` once sent. -/
  release : Bool
  subop : Nat
  operand : Word
  fpa : Nat
  performed : Bool
  epoch : Bool
  desc : Bytes
  phase : OpPhase
  x : Xfer
  targets : List McTarget
  col : Coll
deriving DecidableEq, Repr

/-- An access of a context that the host has answered without the permission it needs: how often with Success
(R440), and the status that refuses it once the stream comes to it (R200 step 6b). -/
structure Access where
  fva : Nat
  r : Bool
  w : Bool
  successes : Nat
  status : Option Nat
deriving DecidableEq, Repr

/-- A docent context (R74). -/
structure Ctx where
  bound : Bool
  gal : Nat
  pasid : Nat
  state : CtxState
  pc : Nat
  regs : Tab Word
  base : Nat
  launcher : Launcher
  ops : List Op
  /-- Tour lines held: FVA divided by 128, and 128 bytes. -/
  ibuf : List (Nat × Bytes)
  /-- The header has been read and checked (R85 checks 5 and 6). -/
  started : Bool
  count : Nat
  endFva : Nat
  endWord : Nat
  arg : Word
  block : Block
  /-- The state from which the context parked (R886). -/
  parkedFrom : CtxState
  /-- The first failure in issue order: status, pc, and op index if an operation failed. -/
  fail : Option (Nat × Nat × Option Nat)
  delivered : Nat
  haltPc : Option Nat
  haltCode : Nat
  nextOp : Nat
  opsOk : Nat
  opsFailed : Nat
  opsEnded : Nat
  lastStatus : Nat
  toursEnded : Nat
  /-- The end record (R115): 0 not due, 1 due and not sent, 2 sent. -/
  endRec : Nat
  want : Want
  /-- Accesses that the host has answered without the permission they need. -/
  accesses : List Access
deriving DecidableEq, Repr

/-! ### Source protocol, destination windows, shared buffer -/

/-- What a packet in the replay store stands for. -/
inductive Origin where
  | epReq (p tag : Nat)
  | opWrite (g op first lines : Nat)
  | srcRead (g op first lines : Nat)
  | tableRead (g op line : Nat)
  | tourLine (g line : Nat)
  | descRead (g op : Nat)
  | mcWrite (g op target : Nat)
  | mcRead (g op blk : Nat)
  | statusWrite (g op : Nat)
  | signal (g op : Nat)
  | wait (g : Nat)
  | atomic (g : Nat)
  | endRecord (g : Nat)
  | writeBack (p gal pasid fva : Nat)
  | collSend (g op : Nat)
  | collRead (g op kind idx : Nat)
  /-- A reduction-engine packet of a member: its kind. -/
  | collRed (g op kind : Nat)
  | home (sched inst : Nat)
  | resultCopy (sched inst rank : Nat)
  | withdrawal
  | mgmt
deriving DecidableEq, Repr

/-- A packet in a replay store, in plaintext (R276, R653). -/
structure Outst where
  src : Nat
  dest : Nat
  dseq : Nat
  origin : Origin
  hdr : Header
  payload : Bytes
  route : Nat
  /-- Copies sent (R650), and resends of VC7 (R529). -/
  copies : Nat
  resends : Nat
  /-- An acknowledged WAIT stays here for its value (R270). -/
  listed : Bool
  /-- The PASID, the FVA and the page size of the translation under which the packet was generated (R445). -/
  tr : Option (Nat × Nat × Bool)
  /-- The model's own number for the packet. -/
  uid : Nat
  /-- Routes that copies have taken before, whose fate is not known (R279). -/
  past : List Nat
  /-- The data of this read may not enter the port cache: it may be older than what an acquire or a newer line
  has made visible (R206, R254). -/
  noFill : Bool
  /-- The multicast packet that the copy belongs to: together they hold one entry (R520). -/
  group : Option Nat
deriving DecidableEq, Repr

/-- The duplicate window that a destination keeps for one source port (R277, R272, R650). -/
structure DupWin where
  floor : Nat
  marks : List Nat
  withdrawn : List Nat
  /-- Responses sent per sequence, modulo 128. -/
  repeats : Tab Nat
  /-- Status and value of the SYNCs and ATOMICs that have completed, newest first (R278). -/
  values : List (Nat × Nat × Word)
  /-- Status of the requests that were acknowledged with a failure, newest first (R278). -/
  fails : List (Nat × Nat)
deriving DecidableEq, Repr

/-- A packet that has committed before its turn to be counted: its place, its bytes, and its request, which is
acknowledged once it is counted (R189, R277). -/
structure ArvEarly where
  place : Nat
  bytes : Nat
  inp : Nat
  hdr : Header
deriving DecidableEq, Repr

/-- The arrival count of a transfer at this module: the next packet to add, packets that have committed before
their turn (R189), and the place of the first that failed: none after it is added (R190). -/
structure ArvCount where
  next : Nat
  early : List ArvEarly
  failed : Option Nat
deriving DecidableEq, Repr

/-- A packet whole in the shared buffer (R509 to R516). -/
structure Buffered where
  inp : Nat
  out : Nat
  vc : Nat
  hdr : Header
  payload : Bytes
  /-- The authentication tag; 16 zero bytes for a packet that stays in this module (R495, R498). -/
  tag : Bytes
  /-- Cells taken from the shared pool beyond the input's reserve (R516). -/
  shared : Nat
  /-- The packet is a reference to a multicast copy, with this number (R519). -/
  mc : Option Nat
deriving DecidableEq, Repr

/-- A multicast copy in the reference-counted region (R519, R521). -/
structure McCopy where
  id : Nat
  cells : Nat
  refs : Nat
  /-- A result packet: its references last until they are acknowledged (R521). -/
  result : Bool
  /-- The packet has been counted for specimens: a multicast packet counts once (R532). -/
  counted : Bool
deriving DecidableEq, Repr

/-- What an output keeps of its service of the VCs (R514). -/
structure Arb where
  /-- Bytes that VC0 to VC5 may still send in their turn. -/
  deficit : Tab Nat
  turn : Nat
  /-- Cell slots that the other VCs are due before VC6 goes first again. -/
  debt6 : Nat
  /-- Cell slots that others have had while VC7 had an eligible packet. -/
  wait7 : Nat
deriving DecidableEq, Repr

/-- Switch-core registers and buffers (R509 to R551). -/
structure Swc where
  vc7Max : Nat
  beRetx : Nat
  redW : Nat
  alphaShift : Nat
  vcRefused : Bool
  red7 : Bool
  rcConflict : Bool
  mcLimit : Nat
  specLimit : Nat
  bufUe : Nat
  routeErr : Nat
  bufCe : Nat
  specDropped : Nat
  specTaken : Nat
  /-- SWC_RED_c: max_p, max_th, min_th, per colour. -/
  maxP : Tab Nat
  maxTh : Tab Nat
  minTh : Tab Nat
  buf : List Buffered
  copies : List McCopy
  nextCopy : Nat
  /-- The service of the VCs at each output (R514). -/
  arbs : Tab Arb
  /-- Packets of this module's docents and local engines that wait for credit to enter the buffer (R517). -/
  waiting : List Buffered
  /-- The queues, by input, output and VC, whose heads are crossing: their pairs are locked (R513). -/
  locks : List (Nat × Nat × Nat)
  /-- The grant pointer of each output and the accept pointer of each input (R513). -/
  grantPtr : Tab Nat
  acceptPtr : Tab Nat
deriving DecidableEq, Repr

/-! ### Galleries, sync objects, vault, translation -/

/-- A shelf extent (R471 to R473, R492). -/
structure Extent where
  en : Bool
  ready : Bool
  size : Nat
  base : Nat
  /-- Zeroing in progress, on these unit ranges as (base, size). -/
  zeroing : List (Nat × Nat)
deriving DecidableEq, Repr

/-- Gallery states (R627). -/
inductive GalState where
  | free
  | accessioned
  | claimed
  | active
  | suspended
  | deaccessioning
deriving DecidableEq, Repr

/-- A step of the fabric generation that the lead runs (R656). -/
structure StepRun where
  gen : Nat
  waiting : List NodeId
deriving DecidableEq, Repr

/-- A gallery at this module. -/
structure Gallery where
  state : GalState
  /-- The function bound to the gallery; 0 for none (G0 has the PF). -/
  fn : Nat
  legacy : Bool
  be : Bool
  pir : Nat
  cir : Nat
  slotsPerPort : Nat
  maxDrawers : Nat
  prTimeout : Nat
  ucacheMax : Nat
  cidxMax : Nat
  maxWaiters : Nat
  drainTimeout : Nat
  ports : BitVec 48
  extents : Tab Extent
  /-- The first 128 bytes of the accession block (R625). -/
  block : Bytes
  claimant : Option Bytes
  /-- The session that controls the gallery. -/
  session : Option Nat
  challenge : Bytes
  /-- S[g - 1], S[g] and S[g + 1], and g (R655). -/
  root : Bool
  gen : Nat
  prev : Option Bytes
  cur : Bytes
  next : Bytes
  lead : Nat
  period : Nat
  members : List NodeId
  stepRun : Option StepRun
  /-- A step was asked for while one ran, or while the curator restarts (R656, R659). -/
  stepAsked : Bool
  /-- Deaccession: the step in progress (0 none, 2 to 5), its commands, its cause (R673, R678). -/
  deaccStep : Nat
  deaccTokens : List Taken
  deaccCause : Nat
  /-- Drawers granted, including drawers not yet zeroed (R359). -/
  granted : Nat
deriving DecidableEq, Repr

/-- A listed WAIT (R248, R261). -/
structure Waiter where
  gal : Nat
  eq : Bool
  operand : Word
  timeout : Nat
  /-- The request's header, for its answer. -/
  hdr : Header
  /-- The source docent, its port and its sequence (R272). -/
  srcNode : Nat
  srcPort : Nat
  dseq : Nat
deriving DecidableEq, Repr

/-- A sync object (R241). -/
structure SyncObj where
  value : Word
  /-- The gallery that owns it. -/
  owner : Option Nat
  waiters : List Waiter
deriving DecidableEq, Repr

/-- Errors of a vault die (R490, R826, R827). -/
structure DieErr where
  corrected : Nat
  uncorrectable : Nat
  passes : Nat
  /-- Uncorrectable reads in the present hour. -/
  ueHour : Nat
  failed : Bool
deriving DecidableEq, Repr

/-- The vault (R463 to R492). -/
structure Vault where
  /-- Vault memory by physical address; R467 leaves zero everywhere. -/
  mem : List Host.Cell
  /-- Erroneous symbols of each codeword that has any, by codeword number. -/
  bad : Tab Nat
  /-- Codewords recorded as uncorrectable in the present scrub pass (R485). -/
  recorded : List Nat
  scrubEn : Bool
  scrubHours : Nat
  shelfConflict : Bool
  initDone : Bool
  dies : Tab DieErr
  lastRegion : Nat
  lastDie : Nat
  lastVpa : Nat
deriving DecidableEq, Repr

/-- Translation unit (R424, R458). -/
structure Trn where
  /-- The card index, most recently used first (R424, R426). -/
  cidx : List TlbEntry
  stray : Nat
  refused : Nat
  inval : Nat
deriving DecidableEq, Repr

/-! ### Collectives at a home -/

/-- A member of an instance as its home sees it. -/
structure HomeMember where
  rank : Nat
  node : Nat
  port : Nat
  /-- Chunks of a sparse contribution that have committed one after the other from chunk 0; windows that they cover;
  and whether the end-marked chunk is among them (R374). -/
  chunks : Nat
  coverage : Nat
  ended : Bool
  /-- Chunks that have committed ahead of those: number, windows covered, end mark. -/
  ahead : List (Nat × Nat × Bool)
  /-- A DISPATCH member withdrew after the offsets were sent (R396). -/
  withdrawn : Bool
  /-- Counts per expert, and the local expert table, of a DISPATCH (R385, R388). -/
  counts : List Nat
  experts : List (Nat × Nat)
deriving DecidableEq, Repr

/-- A claim's state (R335, R336). -/
inductive ClaimState where
  | notPlaced
  | queued
  | granted
deriving DecidableEq, Repr

/-- What a home holds of one rank's copy of a chunk in its drawer slot, in bytes (R323, R373). -/
structure ChunkCopy where
  rank : Nat
  chunk : Nat
  amount : Nat
  /-- The copy is whole. -/
  whole : Bool
  /-- The last window of a sparse chunk that carries no end mark. -/
  lastWindow : Option Nat
deriving DecidableEq, Repr

/-- A token at a combine home (R402 to R404): its weights and marks once they are known, and the choices whose
outputs are in the drawers. -/
structure TokenState where
  rank : Nat
  token : Nat
  known : Bool
  weights : List Nat
  delivered : List Bool
  present : List Nat
  /-- Bytes that have come of the outputs of choices that are not whole yet. -/
  partly : List (Nat × Nat)
deriving DecidableEq, Repr

/-- A partial of a chunk that a home owns: group, chunk, bytes that have come, and those beyond a drawer slot, by offset;
the first 64 KiB lie in the drawers (R349, R350, R367). -/
structure PartialIn where
  group : Nat
  chunk : Nat
  come : Nat
  rest : List (Nat × Bytes)
deriving DecidableEq, Repr

/-- An instance at this home, for one group of its schedule (R293, R297 to R345). -/
structure Instance where
  sched : Nat
  inst : Nat
  gallery : Nat
  epoch : Bool
  n : Nat
  b : Nat
  group : Nat
  groups : Nat
  depth : Nat
  digest : Nat
  footprint : Nat
  instSo : Nat
  joinTimeout : Nat
  members : List HomeMember
  claim : ClaimState
  /-- The drawers granted, as pieces (first, count). -/
  drawers : List (Nat × Nat)
  copies : List ChunkCopy
  /-- The next chunk to sum, or window to merge. -/
  next : Nat
  /-- Partials of chunks that this home owns (R349, R350). -/
  partials : List PartialIn
  /-- Finished chunks that have not been sent to the members, and chunks sent (R330, R350). -/
  finished : List (Nat × Bytes)
  /-- Pieces of finished chunks of other owners that are not whole yet: chunk, offset, bytes (R350). -/
  arriving : List (Nat × Nat × Bytes)
  sentChunks : Nat
  /-- Sparse results: records emitted, bytes of the unfilled line, bytes sent, and whether the stream has ended
  (R377, R378). -/
  emitted : Nat
  tail : Bytes
  sentBytes : Nat
  /-- TOPK: candidates that lie in the drawers, and merged records so far (R379, R380). -/
  candN : Nat
  candSeen : Nat
  merged : Bool
  tokens : List TokenState
  /-- Next token to send to each rank (R404). -/
  tokenNext : Tab Nat
  offsetsSent : Bool
  aborted : Bool
  /-- After an abort with several homes: the groups whose homes have told how many chunks they had begun (R352). -/
  begun : List (Nat × Nat)
deriving DecidableEq, Repr

/-- What waits in a home's send order: a result packet of up to 16 lines, with its instance, the members that receive it
as rank, node and port, the offset in their result buffers and its bytes (R330); or, with `ends`, the word to those
members that the instance has aborted, with its status and whether a path was lost, behind the results sent before it
(R344). -/
structure ResultPkt where
  sched : Nat
  inst : Nat
  group : Nat
  gallery : Nat
  dests : List (Nat × Nat × Nat)
  off : Nat
  bytes : Bytes
  ends : Option (Nat × Bool)
deriving DecidableEq, Repr

/-- The reduction engine of the module (R299, R335 to R339, R361, R362, R414). -/
structure Red where
  /-- Result packets that wait for room under mc_limit, oldest first (R523). -/
  outbox : List ResultPkt
  insts : List Instance
  /-- Joins that wait for the instance limits, oldest first (R299). -/
  waiting : List JoinMsg
  /-- Claims that wait, oldest first: gallery, schedule, instance, group (R336). -/
  claims : List (Nat × Nat × Nat × Nat)
  /-- Instances that have aborted here: schedule, number, status, lost path (R346). -/
  ended : List (Nat × Nat × Nat × Bool)
  /-- Schedules whose later instances abort until the next SWITCH (R823). -/
  pathLost : List Nat
  /-- Drawers being zeroed, oldest first: gallery and pieces (R339). -/
  zeroing : List (Nat × List (Nat × Nat))
  /-- Drawers granted or being zeroed: pieces, in ascending order. -/
  held : List (Nat × Nat)
  /-- Grants announced to a port whose operation has not issued: port, schedule, instance, group (R400). -/
  early : List (Nat × Nat × Nat × Nat)
  /-- The instance that the slices served last, as schedule, number and group (R329, R406). -/
  lastJob : Option (Nat × Nat × Nat)
  aborted : Nat
  dropped : Nat
  windows : Nat
deriving DecidableEq, Repr

/-! ### Catalogue, security, telemetry -/

/-- The shadow's states (R805). -/
inductive BankState where
  | empty
  | filling
  | filled
  | draining
  | drained
deriving DecidableEq, Repr

/-- A catalogue bank: the image it holds (R802, R854). -/
structure Bank where
  len : Nat
  bytes : Tab Byte
  digest : Bytes
  quiesce : Bool
deriving DecidableEq, Repr

/-- Catalogue banks, epoch and marks (R805 to R815, R835, R853 to R857). -/
structure Cat where
  bank0 : Bank
  bank1 : Bank
  installed : Bool
  epoch : Bool
  shadow : BankState
  late : Nat
  switches : Nat
  lastStatus : Nat
  winBase : Nat
  winBank : Bool
  /-- Routes marked failed: (epoch, sender, node, route) (R280, R501, R504, R505). -/
  marks : List (Bool × Nat × Nat × Nat)
  /-- Trunk links that notices report down, as (node, port): every route that crosses one is marked failed at
  every sender (R608). -/
  deadLinks : List (Nat × Nat)
  /-- Schedules switched to their alternate at a port: (port, schedule) (R822). -/
  switched : List (Nat × Nat)
  altSwitched : Nat
  altPort : Nat
  altSched : Nat
  altAlt : Nat
  lossEvents : Nat
  lossNode : Nat
  /-- Destination modules already reported unreachable (R818). -/
  lostNodes : List Nat
  /-- The REHANG in progress and whether it switches after its FILL (R811, R817). -/
  token : Option Taken
  fillThenSwitch : Bool
  fillLen : Nat
  fillOff : Nat
  fillQuiesce : Bool
  /-- A SWITCH waits for quiescence (R813 step 1). -/
  quiescing : Bool
  /-- Next instance number of each schedule at each port: key port × 4096 + schedule (R297). -/
  instNo : Tab Nat
  /-- Notices seen, newest first, at most 1,024 (R606). -/
  notices : List Nat
deriving DecidableEq, Repr

/-- A secured session (R622, R624). -/
structure Session where
  id : Nat
  mctp : Bool
  /-- FINISH has completed. -/
  open_ : Bool
  /-- Key updates so far. -/
  keyPhase : Nat
deriving DecidableEq, Repr

/-- The security unit (R621 to R684). -/
structure Sec where
  sessions : List Session
  nextSession : Nat
  /-- The quorum set's keys, and k (R667). -/
  quorum : List Bytes
  k : Nat
  nextSeq : Nat
  fabAuthFail : Nat
  rotations : Nat
  /-- Pair keys cached: gallery, generation, a, b, direction (R654). -/
  pairs : List (Nat × Nat × Nat × Nat × Bool)
  /-- Algorithms have been negotiated on DOE, and on MCTP (R622). -/
  negDoe : Bool
  negMctp : Bool
deriving DecidableEq, Repr

/-- One health register: band, cause, score (R838). -/
structure Health where
  band : Nat
  cause : Nat
  score : Nat
deriving DecidableEq, Repr

/-- A port's counters at one hourly scoring (R826). -/
structure PortHour where
  downs : Nat
  retrains : Nat
  replays : Nat
  worstLane : Nat
deriving DecidableEq, Repr

/-- Telemetry: health and life history (R826 to R831, R838, R839). -/
structure Tel where
  updates : Nat
  modHealth : Health
  portHealth : Tab Health
  dieHealth : Tab Health
  lhSeq : Nat
  lhValid : Nat
  lhFail : Nat
  onHours : Nat
  standbyHours : Nat
  powerCycles : Nat
  holdups : Nat
  shutdowns : Tab Nat
  restartsTotal : Nat
  activations : Nat
  portDowns : Tab Nat
  portRetrains : Tab Nat
  portMapOuts : Tab Nat
  dieCorrected : Tab Nat
  dieUe : Tab Nat
  tierMinutes : Tab Nat
  /-- Average updates of 10 µs in the present minute (R828). -/
  minuteTicks : Nat
  /-- Histogram bins: key 64 × histogram + bin (R828). -/
  hist : Tab Nat
  /-- The last 24 hours of counters, newest first: port key p, die key d (R826). -/
  portHist : List (Tab PortHour)
  dieHist : List (Tab (Nat × Nat))
  modHist : List (Nat × Nat)
  /-- Counter values at the last scoring. -/
  portLast : Tab PortHour
  laneLast : Tab Nat
  dieLast : Tab (Nat × Nat)
  modLast : Nat × Nat
deriving DecidableEq, Repr

/-! ### What the module sends -/

/-- What the module has sent or answered, newest first: the model's own record of its outputs. -/
inductive Output where
  /-- A packet to the attached end-point. -/
  | ep (p : Nat) (hdr : Header) (payload : Bytes)
  /-- A fabric packet on a trunk port's link. -/
  | trunk (p : Nat) (hdr : Header) (payload : Bytes)
  /-- A DATA flit, a CTRL flit, a training step that begins, or a training frame on a lane (R564). -/
  | flit (p : Nat) (f : TxFlit)
  | ctrl (p : Nat) (ack : Nat) (nak : Bool) (credit : Option (Nat × Nat)) (idle : Bool) (notices : List Nat)
  | training (p : Nat) (step : Nat)
  | frame (p lane : Nat) (f : Header)
  | filler (p : Nat)
  /-- The symbols of a flit on each lane of the set, in position order (R560 to R562). -/
  | symbols (p : Nat) (lanes : List (List Pam))
  | burst (p : Nat)
  /-- PCIe messages: ATS request, PRI page request, Invalidate Completion, MSI-X message. -/
  | ats (f : Nat) (pasid : Nat) (fva : Nat) (length : Nat) (noWrite : Bool)
  | pri (f : Nat) (pasid : Nat) (fva : Nat) (r w : Bool) (idx : Nat) (lastMsg : Bool)
  | invalDone (f : Nat) (itag : Nat)
  | msix (vector : Nat)
  /-- A BAR2 read's data, or none for Unsupported Request, or Completer Abort. -/
  | bar2 (f : Nat) (bs : Bytes)
  | bar2Unsupported (f : Nat)
  | bar2Abort (f : Nat)
  /-- SPDM, TDISP and IDE_KM responses: request name and body; or an ERROR. -/
  | spdm (what : String) (body : Bytes)
  | spdmError (what : String)
  /-- The response to a tenant message (R639): code, status, state, gen, challenge, entries. -/
  | tenant (code status state gen : Nat) (challenge : Bytes) (entries : Bytes)
  /-- A reduction-engine packet to a member or a home: kind, node, numbers and bytes. -/
  | red (kind : String) (node port : Nat) (sched inst : Nat) (nums : List Nat) (bs : Bytes)
  /-- A curator message on VC6: its kind, the node, and the gallery and generation. -/
  | mgmt (kind : Nat) (node : Nat) (nums : List Nat)
  /-- The service port and the I3C sideband. -/
  | svc (what : String) (bs : Bytes)
  | i3c (what : String) (bs : Bytes)
deriving DecidableEq, Repr

/-- The module. -/
structure State where
  /-- Commands that wait, first in, first out: the model's own queue. -/
  pending : List Instr
  ctl : ModCtl
  pwr : Power
  clk : Clocks
  own : OwnCtl
  cur : Curator
  flash : Flash
  svc : SvcPort
  fns : Tab Fn
  docents : Tab Docent
  links : Tab Link
  lanes : Tab Lane
  swcPorts : Tab SwcPort
  ctxs : Tab Ctx
  gals : Tab Gallery
  sos : Tab SyncObj
  /-- WAITs completed with NO_WAITER since reset (R287). -/
  waitRefused : Nat
  vault : Vault
  trn : Trn
  red : Red
  cat : Cat
  sec : Sec
  tel : Tel
  swc : Swc
  /-- Next destination sequence of each (sender, destination module): key sender × 4096 + node
  (R275). -/
  seqs : Tab Nat
  /-- Packets of a sequence sent under the gallery's present generation (R657, R658): key
  (gallery × 64 + sender) × 4096 + node. -/
  genCount : Tab Nat
  /-- The replay stores of all senders, oldest first (R276). -/
  replay : List Outst
  /-- Packets that wait for replay-store space, for a key derivation or for a generation (R276, R654,
  R658). -/
  held : List Outst
  /-- Sequences that ended as lost, by context, for FENCE (R283). -/
  lostFor : List Nat
  /-- Duplicate windows: key source node × 64 + source port (R277). -/
  windows : Tab DupWin
  /-- Arrival counts in progress: source node, source port, transfer (R189). -/
  arv : List ((Nat × Nat × Nat) × ArvCount)
  /-- Fabric packets that have reached this module's end of their route, oldest first: header, payload, tag. -/
  arrived : List (Header × Bytes × Bytes)
  /-- End-point packets received by a port's link, oldest first. -/
  epIn : List (Nat × Bytes)
  outputs : List Output
  /-- Counts the free values drawn so far: the model's own field. -/
  freeCtr : Nat
  /-- The number of the next packet that a sender makes: the model's own field. -/
  nextPkt : Nat
deriving DecidableEq, Repr

/-! ### Values after reset

The value on entry to BOOT (R23): what the "After reset" column gives, and for state that the manual
gives no reset value, the empty or zero value that the assumption log names. -/

def ModCtl.reset : ModCtl :=
  { state := .boot, target := none, changed := false, lastStatus := 0, atomicsStopped := false
    token := none, hostReady := false, perst := true }

def Sample.zero : Sample :=
  { power := 0, volts := 0, amps := 0, die := 0, vault := 0, pstage := 0, inlet := 0, outlet := 0 }

def Power.reset : Power :=
  { auxGood := false, mainGood := false, present := false, lockedOut := false, enableSet := false
    bmcCap := 1050, drvCap := 1050, tier := 0, tierAge := 0, belowFor := 0, capNotMet := false
    causes := 0, emergency := false, fthr := false, fthrHold := false, leakIn := false
    senseOpen := false, auxOutFault := false, sensorFail := 0, sample := Sample.zero
    winCount := 0, winSum := Sample.zero, coarse := Sample.zero
    capToken := none, standbyFor := 0 }

def Clocks.reset : Clocks :=
  { curF := 0x28, vaultF := 0x28, coreF := 0x38, refused := false, refPort := 0, revert := false
    refSel := 0, refNow := 0, fallbacks := 0, locked := false, enRefused := false
    blocks := 0x3F, ports := 0xFFFFFFFFFFFF }

def OwnCtl.reset : OwnCtl := { conflict := false, tickDiv := 1, en := 0 }

def FlashArea.empty : FlashArea := { len := 0, bytes := [] }

def Flash.reset : Flash :=
  { imageArea := FlashArea.empty, stagedArea := FlashArea.empty, activation := none, revoked := 0
    fusedSvn := 0, lifeHistory := [], recoverNext := false
    romKeys := (List.range 4).map Config.romKey
    identity := Config.identityKey }

def Curator.reset : Curator :=
  { up := false, listened := false, imageOk := false, restartWaits := none, restartCore := 0, faultRestarts := 0
    hourlyDue := false, fwVersion := 0, svn := 0, digest := []
    restarts := 0, coresUp := 0, lastCause := 0, fw := .none, actStep := 0, actBegun := false
    overwriteRetried := false, hold := false, stagedVersion := 0, stagedSvn := 0, lastStatus := 0
    stageLen := 0, stageToken := none, logLevel := 2, logLost := 0, logWritten := 0, trace := []
    recoveryStatus := 0xFF, pldmWaits := [] }

def SvcPort.reset : SvcPort :=
  { linkUp := false, lease := none, linkLocal := false, tftp := { active := false, retransmits := 0 } }

def Ring.reset : Ring :=
  { en := false, stopped := false, refused := false, log2 := 6, base := 0, pi := 0, ci := 0 }

def IntMap.reset : IntMap := { coalesce := 0, arm := false, vector := 0 }

def Msix.reset : Msix := { addr := 0, data := 0, masked := true, pending := false }

def IdeStream.reset : IdeStream := { key0 := [], key1 := [], go0 := false, go1 := false }

def Fn.reset : Fn :=
  { busMaster := false, memorySpace := false, d3hot := false, vfEnable := false, ats := false
    pri := false, priAlloc := 0, msixEn := false, priStopped := false, gal := 0, rings := []
    ints := [], msix := [], incSeq := 0, specSeq := 0, logSeq := 0, ovf := false, firstLost := 0
    lost := [], taken := [], nextUid := 0, cmdsTaken := 0, bar2Refused := 0, opA := 0, opB := 0, soResult := 0
    soStatus := 0, prgs := [], waiting := [], invals := [], tdi := 0, ide := IdeStream.reset }

def KeySlot.reset : KeySlot :=
  { owner := none, installed := false, key := [], gen := 0, rxCtr := 0, txCtr := 0 }

def Marker.reset : Marker := { tc := 65536, tp := 65536 }

def Docent.reset : Docent :=
  { quantumLog2 := 10, aperture := 0, slots := [], sendSlot := [], activated := [], authFail := 0, protoErr := 0
    reqs := [], tgts := [], nextTgt := 0, tlb := [], tlbMisses := 0, ats := [], nextAts := 0
    atsWait := [], oneShot := [], pcache := [], wbFail := 0, pcQuota := [], markers := []
    lastSlot := 0, lastLine := 15, epTurn := false }

def Lane.reset : Lane :=
  { ctleManual := false, ctleCode := 0x18, ffeManual := false, txPost := 8, txPre := 4, corrSym := 0
    ctleNow := 0, postNow := 0, preNow := 0, failed := false, inverted := false, cdrLock := false
    signal := false, eqDone := false, badFrames := 0, ts2Run := 0, ts2Last := 0, atLimit := false
    txScr := 0, rxScr := 0 }

def Link.reset : Link :=
  { state := .disabled, laneMask := 0xFF, idleEn := true, refused := false, downs := 0, peerNode := 0
    peerPort := 0, txIdle := false, rxIdle := false, width := 0, idleNs := 0x07D0
    retryTimeout := 0x10, pathTimeout := 0x64, serLog2 := 0x14, flapLimit := 4, deadNs := 0x19
    corrected := 0, bad := 0, retrains := 0, replays := 0, naksSent := 0, trainStep := 0
    trainRefused := false, attempts := 0, flaps := 0, retrainFails := 0, retrained := false, rxSeq := 0
    nakHeld := false, txSeq := 0, unacked := [], replayRun := 0, replayAt := 0, limit := []
    consumed := [], crTotal := [], freed := [], due := false, waiting := [], asm := none, skipVc := none
    sinceFill := 0, elastic := 8 }

def SwcPort.reset : SwcPort :=
  { specEn := false, specK := 0x10, specCount := 0, dropGreen := 0, dropYellow := 0, dropRed := 0
    avg := 0 }

def Ctx.reset : Ctx :=
  { bound := false, gal := 0, pasid := 0, state := .unbound, pc := 0, regs := [], base := 0
    launcher := .none, ops := [], ibuf := [], started := false, count := 0, endFva := 0, endWord := 0
    arg := 0, block := .none, parkedFrom := .unbound, fail := none, delivered := 0, haltPc := none
    haltCode := 0, nextOp := 0, opsOk := 0, opsFailed := 0, opsEnded := 0, lastStatus := 0
    toursEnded := 0, endRec := 0, want := .none, accesses := [] }

def DupWin.reset : DupWin :=
  { floor := 0, marks := [], withdrawn := [], repeats := [], values := [], fails := [] }

def Arb.reset : Arb := { deficit := [], turn := 0, debt6 := 0, wait7 := 0 }

def Swc.reset : Swc :=
  { vc7Max := 0x4000, beRetx := 0x14, redW := 9, alphaShift := 2, vcRefused := false, red7 := true
    rcConflict := false, mcLimit := 0x3F000, specLimit := 0x1000, bufUe := 0, routeErr := 0
    bufCe := 0, specDropped := 0, specTaken := 0, maxP := [], maxTh := [], minTh := [], buf := []
    copies := [], nextCopy := 0, arbs := [], waiting := [], locks := [], grantPtr := [], acceptPtr := [] }

def Extent.reset : Extent := { en := false, ready := false, size := 0, base := 0, zeroing := [] }

def Gallery.reset : Gallery :=
  { state := .free, fn := 0, legacy := false, be := false, pir := 0, cir := 0, slotsPerPort := 0
    maxDrawers := 0, prTimeout := 0, ucacheMax := 0, cidxMax := 0, maxWaiters := 0
    drainTimeout := 0, ports := 0, extents := [], block := [], claimant := none, session := none
    challenge := [], root := false, gen := 0, prev := none, cur := [], next := [], lead := 0
    period := 0, members := [], stepRun := none, stepAsked := false, deaccStep := 0
    deaccTokens := [], deaccCause := 0, granted := 0 }

def SyncObj.reset : SyncObj := { value := 0, owner := none, waiters := [] }

def DieErr.reset : DieErr :=
  { corrected := 0, uncorrectable := 0, passes := 0, ueHour := 0, failed := false }

def Vault.reset : Vault :=
  { mem := [], bad := [], recorded := [], scrubEn := true, scrubHours := 8, shelfConflict := false
    initDone := false, dies := [], lastRegion := 0, lastDie := 0, lastVpa := 0 }

def Trn.reset : Trn := { cidx := [], stray := 0, refused := 0, inval := 0 }

def Red.reset : Red :=
  { outbox := [], insts := [], waiting := [], claims := [], ended := [], pathLost := [], zeroing := [], held := []
    early := [], lastJob := none, aborted := 0, dropped := 0, windows := 0 }

def Bank.reset : Bank := { len := 0, bytes := [], digest := [], quiesce := false }

def Cat.reset : Cat :=
  { bank0 := Bank.reset, bank1 := Bank.reset, installed := false, epoch := false, shadow := .empty
    late := 0, switches := 0, lastStatus := 0, winBase := 0, winBank := false, marks := [], deadLinks := []
    switched := [], altSwitched := 0, altPort := 0, altSched := 0, altAlt := 0, lossEvents := 0
    lossNode := 0, lostNodes := [], token := none, fillThenSwitch := false, fillLen := 0
    fillOff := 0, fillQuiesce := false, quiescing := false, instNo := [], notices := [] }

def Sec.reset : Sec :=
  { sessions := [], nextSession := 0, quorum := [], k := 0, nextSeq := 0, fabAuthFail := 0
    rotations := 0, pairs := [], negDoe := false, negMctp := false }

def Health.reset : Health := { band := 0, cause := 0, score := 100 }

def PortHour.zero : PortHour := { downs := 0, retrains := 0, replays := 0, worstLane := 0 }

def Tel.reset : Tel :=
  { updates := 0, modHealth := Health.reset, portHealth := [], dieHealth := [], lhSeq := 0
    lhValid := 0, lhFail := 0, onHours := 0, standbyHours := 0, powerCycles := 0, holdups := 0
    shutdowns := [], restartsTotal := 0, activations := 0, portDowns := [], portRetrains := []
    portMapOuts := [], dieCorrected := [], dieUe := [], tierMinutes := [], minuteTicks := 0, hist := [], portHist := []
    dieHist := [], modHist := [], portLast := [], laneLast := [], dieLast := [], modLast := (0, 0) }

/-- The module right after reset, on entry to BOOT (R23). -/
def State.reset : State :=
  { pending := [], ctl := ModCtl.reset, pwr := Power.reset, clk := Clocks.reset, own := OwnCtl.reset
    cur := Curator.reset, flash := Flash.reset, svc := SvcPort.reset, fns := [], docents := []
    links := [], lanes := [], swcPorts := [], ctxs := [], gals := [], sos := [], waitRefused := 0
    vault := Vault.reset, trn := Trn.reset, red := Red.reset, cat := Cat.reset, sec := Sec.reset
    tel := Tel.reset, swc := Swc.reset, seqs := [], genCount := [], replay := [], held := []
    lostFor := [], windows := [], arv := [], arrived := [], epIn := [], outputs := [], freeCtr := 0
    nextPkt := 0 }

end Sys2Proof.Machine
end

