-- ==== Sys2Proof/Machine/Ops.lean ====
section
/-! DEFINITION. The named operations over the module's state: accessors, vault memory, rings, incident
and completion records, and the catalogue tables. -/

namespace Sys2Proof.Machine

/-! ### Accessors -/

def State.fn (s : State) (f : Nat) : Fn := Tab.get Fn.reset s.fns f
def State.modFn (s : State) (f : Nat) (g : Fn → Fn) : State :=
  { s with fns := Tab.modify Fn.reset s.fns f g }

def State.docent (s : State) (p : Nat) : Docent := Tab.get Docent.reset s.docents p
def State.modDocent (s : State) (p : Nat) (g : Docent → Docent) : State :=
  { s with docents := Tab.modify Docent.reset s.docents p g }

def State.link (s : State) (p : Nat) : Link := Tab.get Link.reset s.links p
def State.modLink (s : State) (p : Nat) (g : Link → Link) : State :=
  { s with links := Tab.modify Link.reset s.links p g }

/-- Lane `i` of port `p` is lane `8p + i` (R9). -/
def State.lane (s : State) (p i : Nat) : Lane := Tab.get Lane.reset s.lanes (8 * p + i)
def State.modLane (s : State) (p i : Nat) (g : Lane → Lane) : State :=
  { s with lanes := Tab.modify Lane.reset s.lanes (8 * p + i) g }

def State.swcPort (s : State) (p : Nat) : SwcPort := Tab.get SwcPort.reset s.swcPorts p
def State.modSwcPort (s : State) (p : Nat) (g : SwcPort → SwcPort) : State :=
  { s with swcPorts := Tab.modify SwcPort.reset s.swcPorts p g }

/-- The global index of a context (R9). -/
def ctxIdx (p n : Nat) : Nat := 16 * p + n

def State.ctx (s : State) (g : Nat) : Ctx := Tab.get Ctx.reset s.ctxs g
def State.modCtx (s : State) (g : Nat) (f : Ctx → Ctx) : State :=
  { s with ctxs := Tab.modify Ctx.reset s.ctxs g f }

def State.gal (s : State) (g : Nat) : Gallery := Tab.get Gallery.reset s.gals g
def State.modGal (s : State) (g : Nat) (f : Gallery → Gallery) : State :=
  { s with gals := Tab.modify Gallery.reset s.gals g f }

def State.so (s : State) (n : Nat) : SyncObj := Tab.get SyncObj.reset s.sos n
def State.setSo (s : State) (n : Nat) (o : SyncObj) : State :=
  { s with sos := Tab.set SyncObj.reset s.sos n o }

def Fn.ring (f : Fn) (r : Nat) : Ring := Tab.get Ring.reset f.rings r
def Fn.modRing (f : Fn) (r : Nat) (g : Ring → Ring) : Fn :=
  { f with rings := Tab.modify Ring.reset f.rings r g }

def Docent.slot (d : Docent) (i : Nat) : KeySlot := Tab.get KeySlot.reset d.slots i
def Docent.modSlot (d : Docent) (i : Nat) (g : KeySlot → KeySlot) : Docent :=
  { d with slots := Tab.modify KeySlot.reset d.slots i g }

def State.die (s : State) (d : Nat) : DieErr := Tab.get DieErr.reset s.vault.dies d
def State.modDie (s : State) (d : Nat) (g : DieErr → DieErr) : State :=
  { s with vault := { s.vault with dies := Tab.modify DieErr.reset s.vault.dies d g } }

/-- Record an output. -/
def State.out (s : State) (o : Output) : State := { s with outputs := o :: s.outputs }

/-- The module has main power: it is in none of OFF and STANDBY (R5). -/
def State.powered (s : State) : Bool :=
  s.ctl.state != .off && s.ctl.state != .standby

/-- The module is in SERVICE, OPERATIONAL or DRAIN. -/
def State.serving (s : State) : Bool :=
  s.ctl.state == .service || s.ctl.state == .operational || s.ctl.state == .drain

/-- The encoding of MOD_STATE.state (R721). -/
def modStateCode : ModState → Nat
  | .off => 0
  | .standby => 1
  | .boot => 2
  | .service => 3
  | .operational => 4
  | .drain => 5
  | .recovery => 6

/-- The encoding of SEC_GAL_g.state (R627). -/
def galStateCode : GalState → Nat
  | .free => 0
  | .accessioned => 1
  | .claimed => 2
  | .active => 3
  | .suspended => 4
  | .deaccessioning => 5

/-- The function bound to a gallery: the physical function for G0 (R416). -/
def State.galFn (s : State) (g : Nat) : Option Nat :=
  if g = 0 then some 0 else if (s.gal g).fn = 0 then none else some (s.gal g).fn

/-- The gallery that a function is bound to: G0 for the physical function. -/
def State.fnGal (s : State) (f : Nat) : Option Nat :=
  if f = 0 then some 0 else if (s.fn f).gal = 0 then none else some (s.fn f).gal

/-- Every tenant gallery is FREE. -/
def State.allFree (s : State) : Bool := s.gals.all fun e => e.1 == 0 || e.2.state == .free

/-! ### Register access (R22, R685, R722, R791, R840) -/

/-- The function's BARs answer: the host interface serves, Memory Space is enabled, and a virtual function
exists (R685, R722). -/
def State.barOpen (s : State) (f : Nat) : Bool :=
  s.serving && (s.fn f).memorySpace && (f = 0 || (s.fn 0).vfEnable)

/-- The clock enable of a block, by its bit of CLK_EN (R800), and of a port. -/
def State.clockOn (s : State) (b : Nat) : Bool := bitN s.clk.blocks b
def State.portOn (s : State) (p : Nat) : Bool := bitN s.clk.ports p

/-- A register write through BAR0 reaches a block, or a port's page (R22). -/
def State.blockOpen (s : State) (b : Nat) : Bool := s.barOpen 0 && s.clockOn b
def State.pageOpen (s : State) (p : Nat) : Bool := s.barOpen 0 && s.portOn p

/-! ### Vault memory (R463 to R481) -/

/-- The bytes at `a`, one after the other. -/
def memBytes (m : List Host.Cell) (a n : Nat) : Bytes :=
  (List.range n).map fun i => Tab.get (0 : Byte) m (a + i)

/-- Write the bytes from `a` on. -/
def memPut (m : List Host.Cell) : Nat → Bytes → List Host.Cell
  | _, [] => m
  | a, b :: bs => memPut (Tab.set (0 : Byte) m a b) (a + 1) bs

/-- Write zeros over a range. -/
def memZero (m : List Host.Cell) (a n : Nat) : List Host.Cell :=
  m.filter fun c => decide (c.1 < a ∨ a + n ≤ c.1)

/-- The die of a vault address (R464). -/
def vpaDie (a : Nat) : Nat := a / 128 % 24

/-- The channel of that die, and the die-local line, at which a vault address lies (R464). -/
def vpaChannel (a : Nat) : Nat := a / 128 / 24 % 8
def vpaDieLine (a : Nat) : Nat := a / 128 / 24

/-- The region code of a vault address (R468). -/
def vpaRegion (a : Nat) : Nat :=
  if a < 0x10000000 then 0 else if a < 0x30000000 then 1 else if a < 0x200000000 then 2 else 3

/-- Vault address of shelf-pool offset `o` (R469), of drawer `d` (R468), of a function's ring slice
(R691), and of the staging area. -/
def vpaShelf (o : Nat) : Nat := 0x30000000 + o
def vpaDrawer (d : Nat) : Nat := 0x200000000 + 65536 * d
def vpaSlice (f : Nat) : Nat := 0x20000000 + f * 0x400000
def vpaStaging : Nat := 0x18000000
def stagingBytes : Nat := 0x8000000
def sliceBytes : Nat := 0x400000

/-- Bytes of a vault range (no correction). -/
def State.vmBytes (s : State) (a n : Nat) : Bytes := memBytes s.vault.mem a n

/-- Write vault bytes. Every codeword that is covered whole gets fresh check symbols (R480). -/
def State.vmWrite (s : State) (a : Nat) (bs : Bytes) : State :=
  { s with vault :=
    { s.vault with
      mem := memPut s.vault.mem a bs
      bad := s.vault.bad.filter fun e => !(a ≤ 64 * e.1 && 64 * e.1 + 64 ≤ a + bs.length) } }

/-- Zero a vault range (R467, R473, R339). -/
def State.vmZero (s : State) (a n : Nat) : State :=
  { s with vault :=
    { s.vault with
      mem := memZero s.vault.mem a n
      bad := s.vault.bad.filter fun e => !(a ≤ 64 * e.1 && 64 * e.1 + 64 ≤ a + n) } }

/-- Codewords of a range that hold erroneous symbols, with their count. -/
def State.badIn (s : State) (a n : Nat) : List (Nat × Nat) :=
  s.vault.bad.filter fun e => 64 * e.1 < a + n && a < 64 * e.1 + 64

/-- The extent holds this shelf unit (R472). -/
def Extent.covers (x : Extent) (unit : Nat) : Bool :=
  x.en && x.base ≤ unit && unit < x.base + x.size

/-- The gallery whose shelf extent or drawer holds a vault address, or 0 (R486). -/
def State.vpaOwner (s : State) (a : Nat) : Nat :=
  if vpaRegion a = 2 then
    let u := (a - 0x30000000) / 0x200000
    ((s.gals.find? fun g => g.2.extents.any fun x => x.2.covers u).map Prod.fst).getD 0
  else if vpaRegion a = 3 then
    let d := (a - 0x200000000) / 65536
    ((s.red.insts.find? fun i => i.drawers.any fun x => x.1 ≤ d && d < x.1 + x.2).map (·.gallery)).getD 0
  else 0

/-! ### Rings (R696 to R704) -/

/-- Entry size of ring `r` (R696). -/
def ringEntry (r : Nat) : Nat := if r = 1 then 32 else 64

/-- Entries of a ring. -/
def Ring.size (r : Ring) : Nat := 2 ^ r.log2

/-- Entries produced and not consumed (R697). -/
def Ring.used (r : Ring) : Nat := (r.pi + 2 ^ 32 - r.ci) % 2 ^ 32

/-- A ring of the module has room: enabled, not stopped, not full (R697, R702, R704). -/
def Ring.hasRoom (r : Ring) : Bool := r.en && !r.stopped && r.used < r.size

/-- The incident ring of a function has room (R454, R687). -/
def Fn.incRoom (f : Fn) : Bool := f.busMaster && (f.ring 2).hasRoom

/-- Vault address of entry `i` of ring `r` (R697). -/
def ringSlot (f r : Nat) (g : Ring) (i : Nat) : Nat :=
  vpaSlice f + g.base * 4096 + (i % g.size) * ringEntry r

/-- Write an entry and advance the producer index over it (R453, R697). -/
def State.ringPut (s : State) (f r : Nat) (bs : Bytes) : State :=
  let g := (s.fn f).ring r
  (s.vmWrite (ringSlot f r g g.pi) bs).modFn f fun x =>
    x.modRing r fun g => { g with pi := wrapAdd 32 g.pi 1 }

/-- An incident record but for its sequence number (R449). -/
structure Incident where
  cls : Nat
  status : Nat := 0
  gal : Nat := 0
  port : Nat := 0xFF
  ctx : Nat := 0
  pasid : Nat := 0
  addr : Nat := 0
  infoA : Nat := 0
  infoB : Nat := 0
deriving DecidableEq, Repr

/-- The 64 bytes of an incident record (R449). -/
def Incident.bytes (r : Incident) (seq : Nat) : Bytes :=
  natLe 4 seq ++ natLe 1 r.cls ++ natLe 1 r.status ++ natLe 1 (r.gal % 64) ++ natLe 1 r.port
    ++ natLe 1 (r.ctx % 16 * 16) ++ zeros 3 ++ natLe 4 (r.pasid % 2 ^ 20) ++ natLe 8 r.addr
    ++ natLe 8 r.infoA ++ natLe 8 r.infoB ++ zeros 24

/-- Write an incident record, whose room has been checked, and take its sequence number (R452). -/
def State.incPut (s : State) (f : Nat) (r : Incident) : State :=
  (s.ringPut f 2 (r.bytes (s.fn f).incSeq)).modFn f fun x =>
    { x with incSeq := wrapAdd 32 x.incSeq 1 }

/-- A lost record: its sequence number is used, and it is counted (R454). -/
def State.incLose (s : State) (f : Nat) (cls : Nat) : State :=
  s.modFn f fun x =>
    { x with
      incSeq := wrapAdd 32 x.incSeq 1
      lost := Tab.modify 0 x.lost cls fun n => satAdd 32 n 1
      ovf := true
      firstLost := if x.ovf then x.firstLost else x.incSeq }

/-- An error record: written if room remains after the page requests that wait (R454, R455). -/
def State.incident (s : State) (f : Nat) (r : Incident) : State :=
  let x := s.fn f
  if x.incRoom && x.waiting.length < (x.ring 2).size - (x.ring 2).used then s.incPut f r
  else s.incLose f r.cls

/-- An error record about work of a gallery: to the ring of its function (R451). -/
def State.galIncident (s : State) (g : Nat) (r : Incident) : State :=
  match s.galFn g with
  | some f => s.incident f r
  | none => s

/-- A curator event: class 0x0F, to the physical function's ring (R763). -/
def State.curEvent (s : State) (ev cause core infoB : Nat) : State :=
  s.incident 0 { cls := 0x0F, infoA := ev + cause * 2 ^ 8 + core * 2 ^ 12, infoB := infoB }

/-- The 64 bytes of a log or trace record (R759). -/
def logBytes (seq level core code : Nat) (trace : Bool) (version : Nat) (args : Bytes) : Bytes :=
  natLe 4 seq ++ natLe 1 (if trace then 0 else level) ++ natLe 1 (core % 4) ++ zeros 2 ++ natLe 2 code
    ++ natLe 1 trace.toNat ++ zeros 1 ++ natLe 4 version ++ (args ++ zeros 48).take 48

/-- The curator has a log or trace record to write: one that its level or its trace point lets through takes a
sequence number, and is lost if the log ring has no room (R759 to R761, R768). -/
def State.logPut (s : State) (trace : Bool) (level core code : Nat) (args : Bytes) : State :=
  let on := if trace then bitN (Tab.get 0 s.cur.trace (code / 64)) (code % 64) else decide (level ≤ s.cur.logLevel)
  if !on then s
  else
    let seq := (s.fn 0).logSeq
    let s := s.modFn 0 fun x => { x with logSeq := wrapAdd 32 seq 1 }
    if ((s.fn 0).ring 3).hasRoom then
      let s := s.ringPut 0 3 (logBytes seq level core code trace s.cur.fwVersion args)
      { s with cur := { s.cur with logWritten := wrapAdd 32 s.cur.logWritten 1 } }
    else { s with cur := { s.cur with logLost := wrapAdd 32 s.cur.logLost 1 } }

/-- MEASUREMENT_CHANGED (R626, R678). -/
def State.measChanged (s : State) (idx : Nat) : State :=
  let r : Incident := { cls := 0x0E, infoA := idx }
  (s.gals.foldl (fun s g =>
    if g.1 != 0 && g.2.state != .free && g.2.fn != 0 then s.incident g.2.fn r else s)
    (s.incident 0 r))

/-- GALLERY_STATE to the physical function and to the gallery's function (R678). -/
def State.galStateRecord (s : State) (g old cause : Nat) (f : Nat) : State :=
  let r : Incident :=
    { cls := 0x0C, gal := g, infoA := galStateCode (s.gal g).state + old * 8 + cause * 256 }
  let s := s.incident 0 r
  if f = 0 then s else s.incident f r

/-- Change the gallery's state and record it (R632, R678). -/
def State.setGalState (s : State) (g : Nat) (st : GalState) (cause : Nat) : State :=
  let old := (s.gal g).state
  (s.modGal g fun x => { x with state := st }).galStateRecord g (galStateCode old) cause (s.gal g).fn

/-- Change the module state: MOD_STATE.changed and measurement 0x06 (R625, R626, R721). -/
def State.setModState (s : State) (st : ModState) : State :=
  { s with ctl := { s.ctl with state := st, changed := true } }.measChanged 6

/-! ### Reads of the vault with correction (R477 to R481) -/

/-- Count a corrected codeword in the part's lifetime figures (R828). -/
def State.lifeCorrected (s : State) (cw : Nat) : State :=
  { s with tel := { s.tel with dieCorrected := Tab.modify 0 s.tel.dieCorrected (vpaDie (64 * cw)) (satAdd 40 · 1) } }

/-- Count an uncorrectable read in the part's lifetime figures (R828). -/
def State.lifeUe (s : State) (cw : Nat) : State :=
  { s with tel := { s.tel with dieUe := Tab.modify 0 s.tel.dieUe (vpaDie (64 * cw)) (satAdd 16 · 1) } }

/-- Count a corrected codeword; the corrected codeword is written back (R477). -/
def State.vmCorrected (s : State) (cw : Nat) : State :=
  ({ s with vault := { s.vault with bad := Tab.erase s.vault.bad cw } }.lifeCorrected cw).modDie (vpaDie (64 * cw))
    fun d => { d with corrected := wrapAdd 32 d.corrected 1 }

/-- Count and record an uncorrectable codeword (R479, R486, R490, R491, R827). -/
def State.vmUncorrectable (s : State) (cw : Nat) (scrub : Bool) : State :=
  let a := 64 * cw
  let s := (s.lifeUe cw).modDie (vpaDie a) fun d =>
    { d with uncorrectable := satAdd 16 d.uncorrectable 1, ueHour := d.ueHour + 1 }
  let s := { s with vault :=
    { s.vault with lastRegion := vpaRegion a, lastDie := vpaDie a, lastVpa := a } }
  s.incident 0
    { cls := 0x07, status := stDataError, gal := s.vpaOwner a, addr := a
      infoA := vpaDie a + (if scrub then 128 else 0) + vpaRegion a * 256 }

/-- Correct or count every codeword of a range that holds erroneous symbols. -/
def State.vmTouch (s : State) (hits : List (Nat × Nat)) : State :=
  hits.foldl (fun s e => if e.2 = 1 then s.vmCorrected e.1 else s.vmUncorrectable e.1 false) s

/-- Read a vault range: none if a codeword fails correction (R477, R479). -/
def State.vmRead (s : State) (a n : Nat) : State × Option Bytes :=
  let hits := s.badIn a n
  (s.vmTouch hits, if hits.any (fun e => e.2 ≥ 2) then none else some (s.vmBytes a n))

/-- Codewords that a write covers only in part (R481). -/
def partialCws (a n : Nat) (hits : List (Nat × Nat)) : List (Nat × Nat) :=
  hits.filter fun e => !(a ≤ 64 * e.1 && 64 * e.1 + 64 ≤ a + n)

/-- Write a range that may cover codewords in part: each of those is read first; none if that read
fails correction (R481). -/
def State.vmMerge (s : State) (a : Nat) (bs : Bytes) : State × Bool :=
  let hits := partialCws a bs.length (s.badIn a bs.length)
  let s1 := s.vmTouch hits
  if hits.any (fun e => e.2 ≥ 2) then (s1, false) else (s1.vmWrite a bs, true)

/-! ### Completions (R706, R708) -/

/-- The 32 bytes of a completion record (R706). -/
def completionBytes (cmdId seq opcode status value : Nat) : Bytes :=
  natLe 4 cmdId ++ natLe 4 seq ++ natLe 2 opcode ++ natLe 1 status ++ zeros 5 ++ natLe 8 value
    ++ zeros 8

/-- The command is no longer in progress. -/
def State.dropTaken (s : State) (t : Taken) : State :=
  s.modFn t.fn fun x => { x with taken := removeFirst (fun u => u.uid == t.uid) x.taken }

/-- A function-level reset has discarded this command's completion (R724). -/
def State.isDiscarded (s : State) (t : Taken) : Bool :=
  ((s.fn t.fn).taken.find? fun u => u.uid == t.uid).any (·.discard)

/-- Complete a taken command: one record, unless the completion ring discards it (R704, R706, R708,
R724). -/
def State.complete (s : State) (t : Taken) (status value : Nat) : State :=
  let g := (s.fn t.fn).ring 1
  let s' := s.dropTaken t
  if s.isDiscarded t || !g.en || g.stopped then s'
  else s'.ringPut t.fn 1 (completionBytes t.cmdId t.seq t.opcode status value)

/-- Mark a taken command as performed, its completion still due. -/
def State.startTaken (s : State) (t : Taken) : State :=
  s.modFn t.fn fun x =>
    { x with taken := modifyFirst (fun u => u.uid == t.uid) (fun u => { u with started := true }) x.taken }

/-- The function's oldest command of this opcode that has been taken and not performed. -/
def State.takenOf (s : State) (f opcode : Nat) : Option Taken :=
  (s.fn f).taken.find? fun t => t.opcode == opcode && !t.started

/-! ### Catalogue banks (R500, R607, R802) -/

def State.bank (s : State) (epoch : Bool) : Bank := if epoch then s.cat.bank1 else s.cat.bank0

def State.setBank (s : State) (epoch : Bool) (b : Bank) : State :=
  if epoch then { s with cat := { s.cat with bank1 := b } }
  else { s with cat := { s.cat with bank0 := b } }

/-- `n` bytes of a bank's image as a little-endian number. -/
def Bank.le (b : Bank) (off n : Nat) : Nat := leNat (memBytes b.bytes off n)

/-- `n` bytes of a bank's image. -/
def Bank.slice (b : Bank) (off n : Nat) : Bytes := memBytes b.bytes off n

/-- The module's node id: 0 while no bank is installed (R846). -/
def State.node (s : State) : Nat :=
  if s.cat.installed then (s.bank s.cat.epoch).le 6 2 % 4096 else 0

/-- The route word of a node (R500). -/
def Bank.routeWord (b : Bank) (node r : Nat) : Word := BitVec.ofNat 64 (b.le (0x1000 + 32 * node + 8 * r) 8)

def routeValid (w : Word) : Bool := bitN w 63
def routeHopsM1 (w : Word) : Nat := fieldN w 56 3
def routeDlMask (w : Word) : Nat := fieldN w 48 8
def routeBits (w : Word) : Nat := fieldN w 0 48

/-- The module at hop `i` of route `r` to a node (R607). -/
def Bank.hop (b : Bank) (node r i : Nat) : Nat :=
  b.le (0x21000 + 64 * node + 16 * r) 12 / 2 ^ (12 * i) % 4096

/-- The module at the last hop of route `r` (R279, R607). -/
def Bank.destModule (b : Bank) (node r : Nat) : Nat := b.hop node r (routeHopsM1 (b.routeWord node r))

/-- The port table entry of a bank (R803). -/
def Bank.portWord (b : Bank) (p : Nat) : Word := BitVec.ofNat 64 (b.le (0x100 + 4 * p) 4)

/-- The role of a port in the active bank: 0 unused, 1 end-point, 2 trunk (R548). -/
def State.role (s : State) (p : Nat) : Nat :=
  if s.cat.installed && p < 48 then fieldN ((s.bank s.cat.epoch).portWord p) 0 2 else 0

/-- Role, neighbour node and neighbour port that a bank's port word gives (R803). -/
def portRole (w : Word) : Nat := fieldN w 0 2
def portLaneMask (w : Word) : Nat := fieldN w 6 8
def portPeerPort (w : Word) : Nat := fieldN w 14 6
def portPeerNode (w : Word) : Nat := fieldN w 20 12

/-- The bank that an epoch names is usable: active, or a FILLED, DRAINING or DRAINED shadow (R807). -/
def State.epochUsable (s : State) (e : Bool) : Bool :=
  (s.cat.installed && e == s.cat.epoch)
    || ((!s.cat.installed || e != s.cat.epoch)
      && (e == (s.cat.installed && !s.cat.epoch))
      && (s.cat.shadow == .filled || s.cat.shadow == .draining || s.cat.shadow == .drained))

/-! ### Free values -/

/-- Draw the next free value's index. -/
def State.draw (s : State) : State := { s with freeCtr := s.freeCtr + 1 }

end Sys2Proof.Machine
end

