-- ==== Sys2Proof/Machine/Sha.lean ====
section
/-! DEFINITION. SHA-384, HMAC-SHA-384 and HKDF-Expand, which R648, R735 and R804 name. The working variables are
held as two histories of four words in one number each, the newest word highest: the values that the hash calls a to d
are the last four of one sequence, and e to h those of the other. -/

namespace Sys2Proof.Machine

/-- The 80 round constants of SHA-384, four to a number (R622 and R648 name the hash). -/
def shaRows : List Nat :=
  [0x428a2f98d728ae227137449123ef65cdb5c0fbcfec4d3b2fe9b5dba58189dbbc,
   0x3956c25bf348b53859f111f1b605d019923f82a4af194f9bab1c5ed5da6d8118,
   0xd807aa98a303024212835b0145706fbe243185be4ee4b28c550c7dc3d5ffb4e2,
   0x72be5d74f27b896f80deb1fe3b1696b19bdc06a725c71235c19bf174cf692694,
   0xe49b69c19ef14ad2efbe4786384f25e30fc19dc68b8cd5b5240ca1cc77ac9c65,
   0x2de92c6f592b02754a7484aa6ea6e4835cb0a9dcbd41fbd476f988da831153b5,
   0x983e5152ee66dfaba831c66d2db43210b00327c898fb213fbf597fc7beef0ee4,
   0xc6e00bf33da88fc2d5a79147930aa72506ca6351e003826f142929670a0e6e70,
   0x27b70a8546d22ffc2e1b21385c26c9264d2c6dfc5ac42aed53380d139d95b3df,
   0x650a73548baf63de766a0abb3c77b2a881c2c92e47edaee692722c851482353b,
   0xa2bfe8a14cf10364a81a664bbc423001c24b8b70d0f89791c76c51a30654be30,
   0xd192e819d6ef5218d69906245565a910f40e35855771202a106aa07032bbd1b8,
   0x19a4c116b8d2d0c81e376c085141ab532748774cdf8eeb9934b0bcb5e19b48a8,
   0x391c0cb3c5c95a634ed8aa4ae3418acb5b9cca4f7763e373682e6ff3d6b2b8a3,
   0x748f82ee5defb2fc78a5636f43172f6084c87814a1f0ab728cc702081a6439ec,
   0x90befffa23631e28a4506cebde82bde9bef9a3f7b2c67915c67178f2e372532b,
   0xca273eceea26619cd186b8c721c0c207eada7dd6cde0eb1ef57d4f7fee6ed178,
   0x06f067aa72176fba0a637dc5a2c898a6113f9804bef90dae1b710b35131c471b,
   0x28db77f523047d8432caab7b40c724933c9ebe0a15c9bebc431d67c49c100d4c,
   0x4cc5d4becb3e42b6597f299cfc657e2a5fcb6fab3ad6faec6c44198c4a475817]

/-- The initial values of the two histories. -/
def shaSeedA : Nat := 0xcbbb9d5dc1059ed8629a292a367cd5079159015a3070dd17152fecd8f70e5939
def shaSeedE : Nat := 0x67332667ffc00b318eb44a8768581511db0c2e0d64f98fa747b5481dbefa4fa4

/-- The 64-bit word that is `i` words above the lowest. -/
def shaWord (x i : Nat) : Nat := x / 2 ^ (64 * i) % 2 ^ 64

/-- A word turned right by `d`. -/
def turn (x d : Nat) : Nat := x * 2 ^ (64 - d) % 2 ^ 64 + x / 2 ^ d

/-- The message words that a window of 16 produces, oldest first; the window holds its oldest word highest. -/
def messageWords : Nat → Nat → List Nat
  | 0, _ => []
  | n + 1, win =>
    withNat (shaWord win 14) fun x =>
    withNat (shaWord win 1) fun y =>
    let new := shaWord win 15 + shaWord win 6 + Nat.xor (Nat.xor (turn x 1) (turn x 8)) (x / 2 ^ 7)
      + Nat.xor (Nat.xor (turn y 19) (turn y 61)) (y / 2 ^ 6)
    withNat (win * 2 ^ 64 % 2 ^ 1024 + new % 2 ^ 64) fun next => shaWord win 15 :: messageWords n next

/-- The rounds on the two histories, each with a round constant plus a message word. -/
def shaRounds : List Nat → Nat → Nat → Nat × Nat
  | [], p, q => (p, q)
  | kw :: rest, p, q =>
    withNat (shaWord p 3) fun a =>
    withNat (shaWord q 3) fun e =>
    let choice := Nat.xor (shaWord q 1) (Nat.land e (Nat.xor (shaWord q 2) (shaWord q 1)))
    let major := Nat.lor (Nat.land a (shaWord p 2)) (Nat.land (shaWord p 1) (Nat.lor a (shaWord p 2)))
    withNat (shaWord q 0 + Nat.xor (Nat.xor (turn e 14) (turn e 18)) (turn e 41) + choice + kw) fun t =>
    withNat (p / 2 ^ 64 + (t + Nat.xor (Nat.xor (turn a 28) (turn a 34)) (turn a 39) + major) % 2 ^ 64 * 2 ^ 192) fun p' =>
    withNat (q / 2 ^ 64 + (shaWord p 0 + t) % 2 ^ 64 * 2 ^ 192) fun q' => shaRounds rest p' q'

/-- Two histories summed word by word. -/
def shaPlus (x y : Nat) : Nat :=
  [3, 2, 1, 0].foldl (fun acc i => acc * 2 ^ 64 + (shaWord x i + shaWord y i) % 2 ^ 64) 0

/-- The round constants, each plus its message word. -/
def shaKeyed (win : Nat) : List Nat :=
  List.zipWith Nat.add (shaRows.flatMap fun r => [3, 2, 1, 0].map (shaWord r)) (messageWords 80 win)

/-- The histories after some 128-byte blocks. -/
def shaBlocks : Nat → Bytes → Nat → Nat → Nat × Nat
  | 0, _, p, q => (p, q)
  | n + 1, bs, p, q =>
    withNat (leNat (bs.take 128).reverse) fun win =>
    let r := shaRounds (shaKeyed win) p q
    withNat (shaPlus r.1 p) fun p => withNat (shaPlus r.2 q) fun q => shaBlocks n (bs.drop 128) p q

/-- SHA-384 of a byte string: 48 bytes (R622, R648, R804). -/
def sha384 (m : Bytes) : Bytes :=
  let blocks := (m.length + 17 + 127) / 128
  let padded := m ++ [0x80] ++ zeros (128 * blocks - 17 - m.length) ++ (natLe 16 (8 * m.length)).reverse
  let h := shaBlocks blocks padded shaSeedA shaSeedE
  (natLe 32 h.1).reverse ++ (natLe 16 (h.2 / 2 ^ 128)).reverse

/-- HMAC-SHA-384. -/
def hmac384 (key m : Bytes) : Bytes :=
  let k0 := if key.length > 128 then sha384 key else key
  let k := k0 ++ zeros (128 - k0.length)
  let ipad := k.map fun b => b ^^^ 0x36
  let opad := k.map fun b => b ^^^ 0x5c
  sha384 (opad ++ sha384 (ipad ++ m))

/-- HKDF-Expand over SHA-384 for at most 48 bytes of output (R648). -/
def hkdfExpand (secret info : Bytes) (len : Nat) : Bytes :=
  (hmac384 secret (info ++ [0x01])).take len

/-- The ASCII bytes of a string (R648). -/
def ascii (s : String) : Bytes := s.toList.map fun c => BitVec.ofNat 8 c.toNat

/-- S[g + 1] from S[g] (R648). -/
def fabricStepSecret (s : Bytes) : Bytes := hkdfExpand s (ascii "IVX48 step") 48

/-- K(g, a, b, d) from S[g] (R648). -/
def pairKey (s : Bytes) (a b : NodeId) (d : Bool) : Bytes :=
  hkdfExpand s (ascii "IVX48 pair" ++ natLe 2 a.toNat ++ natLe 2 b.toNat ++ [if d then 1 else 0]) 32

end Sys2Proof.Machine
end

