-- ==== Sys2Proof/Machine/Net.lean ====
section
/-! DEFINITION. The fabric side of the module: the shared buffer (R509 to R535), source routes (R501,
R502), the source protocol (R275 to R280), fabric keys (R649 to R658), responses, and the
synchronisation unit's commits (R244 to R249). -/

namespace Sys2Proof.Machine

/-! ### The shared buffer -/

/-- Bytes of a fabric packet: header, payload and tag (R495). -/
def packetBytes (payload : Bytes) : Nat := 48 + payload.length

/-- Cells of a packet (R510). -/
def packetCells (payload : Bytes) : Nat := ceilDiv (packetBytes payload) 128

/-- The crossbar output of a packet at this module: 0 to 47 a port, 48 + l a local port, 80 the curator,
100 + e a reserved route entry (R499, R502, R511). -/
def swcOut (h : FHdr) : Nat :=
  let e := routeEntry h.route h.hopPtr
  if e = 0x3F then 48 + (if h.resp then h.srcLocal else fpaOff h.fpa / 2048 % 32)
  else if e = 0x3E then 80
  else if e < 48 then e
  else 100 + e

/-- The crossbar input of a sender: a port, the curator or a local engine (R494, R511). -/
def swcIn (src : Nat) : Nat := if src < 48 then src else if src = 0x3E then 80 else 48

/-- Cells that a buffered packet holds of its input's share; a multicast reference holds none of its own (R519). -/
def Buffered.cells (b : Buffered) : Nat := if b.mc.isSome then 0 else packetCells b.payload

/-- Free cells of the shared pool (R515, R543). -/
def Swc.sharedFree (w : Swc) : Nat := 698304 - (w.buf.map (·.shared)).sum

/-- Cells of the reference-counted region in use (R543). -/
def Swc.rcUsed (w : Swc) : Nat := (w.copies.map (·.cells)).sum

/-- A reference to a multicast copy is released (R519, R522). -/
def State.mcRelease (s : State) (id : Nat) : State :=
  { s with swc :=
    { s.swc with copies := (s.swc.copies.map fun c =>
        if c.id = id then { c with refs := c.refs - 1 } else c).filter fun c => c.refs != 0 } }

/-- A copy has crossed the crossbar: its reference is released, but a result's lasts until the answer (R520,
R521). -/
def State.mcCrossed (s : State) (id : Nat) : State :=
  if s.swc.copies.any fun c => c.id == id && c.result then s else s.mcRelease id

/-- A reference to a result packet. -/
def Outst.isResult (o : Outst) : Bool :=
  match o.origin with
  | .resultCopy _ _ _ => true
  | _ => false

/-- Packets that will not be sent give up their references. -/
def State.mcUnsent (s : State) (l : List Outst) : State :=
  (l.filterMap (·.group)).foldl (fun s id => s.mcRelease id) s

/-- Cells that an input and VC hold in the shared pool, and in the input's reserve (R515, R516). -/
def Swc.sharedHeld (w : Swc) (inp vc : Nat) : Nat :=
  ((w.buf.filter fun b => b.inp == inp && b.vc == vc).map (·.shared)).sum
def Swc.reserveHeld (w : Swc) (inp vc : Nat) : Nat :=
  ((w.buf.filter fun b => b.inp == inp && b.vc == vc).map fun b => b.cells - b.shared).sum

/-- Cells that a packet takes from the shared pool (R516). -/
def Swc.sharedNeed (w : Swc) (inp vc cells : Nat) : Nat := cells - (136 - w.reserveHeld inp vc)

/-- An input may take these shared cells (R516). -/
def Swc.sharedOk (w : Swc) (inp vc need : Nat) : Bool :=
  need == 0 || (need ≤ w.sharedFree
    && w.sharedHeld inp vc * 2 ^ w.alphaShift < w.sharedFree * 4)

/-- Cells queued on VC7 at an output (R527). -/
def Swc.vc7Queue (w : Swc) (out : Nat) : Nat :=
  ((w.buf.filter fun b => b.out == out && b.vc == 7).map fun b => packetCells b.payload).sum

/-- A field of SWC_RED_c; the defaults are the reset values of R546, by colour. -/
def redMaxP (w : Swc) (c : Nat) : Nat :=
  Tab.get (if c = 0 then 0x10 else if c = 1 then 0x40 else 0xFF) w.maxP c
def redMaxTh (w : Swc) (c : Nat) : Nat :=
  Tab.get (if c = 0 then 0x2000 else if c = 1 then 0x1000 else 0x400) w.maxTh c
def redMinTh (w : Swc) (c : Nat) : Nat :=
  Tab.get (if c = 0 then 0x800 else if c = 1 then 0x400 else 0x100) w.minTh c

/-- The colour that a header's two bits mean: 0b11 is treated as red (R494). -/
def colourOf (c : Nat) : Nat := if c = 3 then 2 else c

/-- The new average of R527, in 2^-16 cells. -/
def redAverage (avg q w : Nat) : Nat :=
  ((avg : Int) + ((q * 65536 : Nat) - (avg : Int)) / (2 ^ w : Nat)).toNat

/-- Whether a VC7 packet is dropped at enqueue (R527), with the draw of the output's LFSR. -/
def vc7Drops (w : Swc) (avg q cells c : Nat) (noCell : Bool) (draw : Nat) : Bool :=
  let lo := redMinTh w c
  let hi := redMaxTh w c
  if q + cells > w.vc7Max || noCell then true
  else if w.red7 && hi * 65536 ≤ avg then true
  else if w.red7 && lo * 65536 < avg then
    draw * (256 * (hi - lo) * 65536) < redMaxP w c * (avg - lo * 65536) * 2 ^ 32
  else false

/-- Count a VC7 drop at the input port, by colour (R528, R549). -/
def SwcPort.countDrop (x : SwcPort) (c : Nat) : SwcPort :=
  if c = 0 then { x with dropGreen := satAdd 21 x.dropGreen 1 }
  else if c = 1 then { x with dropYellow := satAdd 21 x.dropYellow 1 }
  else { x with dropRed := satAdd 21 x.dropRed 1 }

/-- The in_port and out_port code of a specimen (R534). -/
def specPort (i : Nat) : Nat := if i < 48 then i else if i = 80 then 0x60 else 0x40 + (i - 48)

/-- The header that a specimen shows: tenant fields zero for G1 to G63 (R535). -/
def specHeader (h : FHdr) : Header :=
  if h.gallery = 0 then h.enc
  else ({ h with dseq := 0, keyGen := 0, param := 0, fpa := fpaNode h.fpa * 2 ^ 52 } : FHdr).enc

/-- The 64 bytes of a specimen record (R534). -/
def specimenBytes (seq inp out : Nat) (h : FHdr) (queue free : Nat) : Bytes :=
  natLe 4 seq ++ natLe 1 (specPort inp) ++ natLe 1 (specPort out)
    ++ natLe 1 (h.vc * 32 + h.colour * 8) ++ zeros 1 ++ headerBytes (specHeader h)
    ++ natLe 4 queue ++ natLe 4 (free / 256) ++ zeros 16

/-- Cells of the queue of an input, an output and a VC (R512). -/
def Swc.queueCells (w : Swc) (inp out vc : Nat) : Nat :=
  ((w.buf.filter fun b => b.inp == inp && b.out == out && b.vc == vc).map fun b => packetCells b.payload).sum

/-- Count a packet entering from an input and take a specimen when due (R532, R533). -/
def State.specimen (s : State) (inp out : Nat) (h : FHdr) : State :=
  if inp < 48 && (s.swcPort inp).specEn then
    let n := (s.swcPort inp).specCount + 1
    let s := s.modSwcPort inp fun x => { x with specCount := n }
    if n % 2 ^ (s.swcPort inp).specK = 0 then
      if 1 ≤ s.swc.specLimit && ((s.fn 0).ring 4).hasRoom then
        let bs := specimenBytes (s.fn 0).specSeq inp out h (s.swc.queueCells inp out h.vc)
          s.swc.sharedFree
        let s := (s.ringPut 0 4 bs).modFn 0 fun x => { x with specSeq := wrapAdd 32 x.specSeq 1 }
        { s with swc := { s.swc with specTaken := wrapAdd 32 s.swc.specTaken 1 } }
      else { s with swc := { s.swc with specDropped := wrapAdd 32 s.swc.specDropped 1 } }
    else s
  else s

/-- A packet, or the first reference to a multicast packet, counts for the specimens of its input (R532). -/
def State.sample (s : State) (inp : Nat) (h : FHdr) (mc : Option Nat) : State :=
  let done (c : McCopy) : Bool := mc == some c.id && c.counted
  let mark (c : McCopy) : McCopy := if mc == some c.id then { c with counted := true } else c
  if s.swc.copies.any done then s
  else { s with swc := { s.swc with copies := s.swc.copies.map mark } }.specimen inp (swcOut h) h

/-- A packet as its queue holds it (R512, R516). -/
def State.buffered (s : State) (inp : Nat) (h : FHdr) (payload tag : Bytes) (mc : Option Nat) : Buffered :=
  { inp := inp, out := swcOut h, vc := h.vc, hdr := h.enc, payload := payload, tag := tag
    shared := if mc.isSome then 0 else s.swc.sharedNeed inp h.vc (packetCells payload), mc := mc }

/-- Put a packet into its queue (R510, R512, R516). -/
def State.push (s : State) (inp : Nat) (h : FHdr) (payload tag : Bytes) (mc : Option Nat) : State :=
  { s with swc := { s.swc with buf := s.swc.buf ++ [s.buffered inp h payload tag mc] } }

/-- A packet enters the buffer from an input: counted for specimens, dropped early on VC7 if R527 says
so, and queued. -/
def State.enter (s : State) (inp : Nat) (h : FHdr) (payload tag : Bytes) (mc : Option Nat) : State :=
  let out := swcOut h
  let s := s.sample inp h mc
  if h.vc = 7 then
    let cells := packetCells payload
    let q := s.swc.vc7Queue out
    let avg := redAverage (s.swcPort out).avg q s.swc.redW
    let full := mc.isNone && !s.swc.sharedOk inp 7 (s.swc.sharedNeed inp 7 cells)
    let draw := (Config.redDraw s.freeCtr).toNat
    let s := (s.draw).modSwcPort out fun x => { x with avg := avg }
    if vc7Drops s.swc avg q cells (colourOf h.colour) full draw then
      let s := mc.elim s s.mcRelease
      if inp < 48 then s.modSwcPort inp fun x => x.countDrop (colourOf h.colour) else s
    else s.push inp h payload tag mc
  else s.push inp h payload tag mc

/-- A packet of this module's own on a lossless VC waits for credit: its input and VC may not take its cells, or a
packet of theirs already waits (R516, R517). A packet from a link came by its credit; a reference to a multicast packet
needs none. -/
def State.lacksCells (s : State) (inp : Nat) (h : FHdr) (payload : Bytes) (mc : Option Nat) : Bool :=
  h.vc != 7 && mc.isNone && h.srcNode == s.node
    && (s.swc.waiting.any (fun b => b.inp == inp && b.vc == h.vc)
      || !s.swc.sharedOk inp h.vc (s.swc.sharedNeed inp h.vc (packetCells payload)))

/-- A packet enters the buffer, or waits at its docent or local engine until it may (R517). -/
def State.enqueue (s : State) (inp : Nat) (h : FHdr) (payload tag : Bytes) (mc : Option Nat) : State :=
  if s.lacksCells inp h payload mc then
    { s with swc := { s.swc with waiting := s.swc.waiting ++ [s.buffered inp h payload tag mc] } }
  else s.enter inp h payload tag mc

/-- Packets that waited for credit enter the buffer, in their order, as far as they may (R517). -/
def State.letIn (s : State) : State :=
  s.swc.waiting.foldl (fun s b => s.enqueue b.inp (FHdr.dec b.hdr) b.payload b.tag b.mc)
    { s with swc := { s.swc with waiting := [] } }

/-! ### Choice of a route (R279, R501) -/

/-- Route `r` to a node passes the module `at_` at some hop and leaves it by port `p` (R608). -/
def Bank.crosses (b : Bank) (node r at_ p : Nat) : Bool :=
  let w := b.routeWord node r
  (List.range (routeHopsM1 w + 1)).any fun i => b.hop node r i == at_ && routeEntry (routeBits w) i == p

/-- A route of this sender to this node, in the bank of an epoch, is marked failed (R280, R504, R608). -/
def State.isMarked (s : State) (e : Bool) (src node r : Nat) : Bool :=
  s.cat.marks.contains (e, src, node, r) || s.cat.deadLinks.any fun l => (s.bank e).crosses node r l.1 l.2

/-- The lowest-numbered valid route that passes a test. -/
def Bank.pick (b : Bank) (node : Nat) (ok : Nat → Word → Bool) : Option Nat :=
  (List.range 4).find? fun r => routeValid (b.routeWord node r) && ok r (b.routeWord node r)

/-- The route of a new packet: lowest valid and unmarked; on VC6 one without a date line (R501, R508). -/
def State.newRoute (s : State) (src node vc : Nat) : Option Nat :=
  (s.bank s.cat.epoch).pick node fun r w =>
    !s.isMarked s.cat.epoch src node r && (vc != 6 || routeDlMask w == 0)

/-- The route of a replay: unmarked, and ending at the same destination module, under the bank of the
packet's epoch (R279, R280). -/
def State.replayRoute (s : State) (e : Bool) (src node dest : Nat) : Option Nat :=
  (s.bank e).pick node fun r _ =>
    !s.isMarked e src node r && (s.bank e).destModule node r == dest

/-- The catalogue has the node id (R66 item 5). -/
def State.nodeListed (s : State) (node : Nat) : Bool :=
  s.cat.installed && ((s.bank s.cat.epoch).pick node fun _ _ => true).isSome

/-! ### Keys and sequences (R275, R654 to R658) -/

/-- Key of a sender's sequence to a destination module. -/
def seqKey (src dest : Nat) : Nat := src * 4096 + dest

/-- Key of a gallery's count of a sender's packets to a module under one generation. -/
def genKey (gal src dest : Nat) : Nat := (gal * 64 + src) * 4096 + dest

/-- The pair key is in the cache (R654). -/
def State.hasPair (s : State) (gal gen a b : Nat) (resp : Bool) : Bool :=
  s.sec.pairs.contains (gal, gen, a, b, resp)

/-- Put a pair key into the cache of 8,192, newest first (R654). -/
def State.addPair (s : State) (gal gen a b : Nat) (resp : Bool) : State :=
  { s with sec :=
    { s.sec with pairs :=
      ((gal, gen, a, b, resp) :: s.sec.pairs.filter (fun x => x != (gal, gen, a, b, resp))).take 8192 } }

/-- The module holds a fabric key of this generation (R655). -/
def Gallery.inWindow (g : Gallery) (gen : Nat) : Bool :=
  g.root && (gen == g.gen || gen == (g.gen + 1) % 65536
    || (g.prev.isSome && (gen + 1) % 65536 == g.gen))

/-- The secret of a generation that the module holds (R655). -/
def Gallery.secret (g : Gallery) (gen : Nat) : Bytes :=
  if gen = g.gen then g.cur else if gen = (g.gen + 1) % 65536 then g.next else g.prev.getD []

/-- The key of a packet that module `a` sends to module `b` (R649). -/
def State.fabKey (s : State) (h : FHdr) (a b : Nat) : Bytes :=
  pairKey ((s.gal h.gallery).secret h.keyGen) (BitVec.ofNat 12 a) (BitVec.ofNat 12 b) h.resp

/-- The nonce of a fabric packet: dseq, route, src_port and, for a response, repeat (R649). -/
def fabNonce (h : FHdr) (rep : Nat) : Bytes :=
  natLe 12 (h.dseq % 2 ^ 32 + h.route % 2 ^ 48 * 2 ^ 32 + h.srcPort % 64 * 2 ^ 80
    + if h.resp then rep % 128 * 2 ^ 86 else 0)

/-- The additional data of a fabric packet: its header with vc, hop_ptr and colour zero (R498). -/
def fabAad (h : FHdr) : Bytes := headerBytes ({ h with vc := 0, hopPtr := 0, colour := 0 } : FHdr).enc

/-- A packet of this module as it travels to a module: its payload and its tag. Within the module it is not
encrypted (R498, R649). -/
def State.sealFab (s : State) (h : FHdr) (dest rep : Nat) (payload : Bytes) : Bytes × Bytes :=
  if dest = s.node then (payload, zeros 16)
  else gcmSeal (s.fabKey h s.node dest) (fabNonce h rep) (fabAad h) payload

/-- The payload of a packet from another module, if its generation lies in the window and its tag verifies (R649,
R651, R655). -/
def State.openFab (s : State) (h : FHdr) (rep : Nat) (payload tag : Bytes) : Option Bytes :=
  if (s.gal h.gallery).inWindow h.keyGen then
    gcmOpen (s.fabKey h h.srcNode s.node) (fabNonce h rep) (fabAad h) payload tag
  else none

/-- Entries of a sender's replay store in use: the copies of one multicast hold one entry (R276, R520). -/
def State.replayUsed (s : State) (src : Nat) : Nat :=
  let mine := s.replay.filter fun o => o.src == src && !o.listed
  (mine.filter fun o => o.group.isNone).length
    + ((mine.filterMap fun o => o.group).eraseDups).length

/-- What an attempt to send a packet comes to. -/
inductive SendResult where
  | sent
  | held
  | failed (status : Nat)
deriving DecidableEq, Repr

/-- The packet is of a reduction-engine type and goes to a member: bit 7 of its private param says so, and bits 5 to 0
name the member's port (R296, R496, R499). DESIGN CHOICE: log entry 91. -/
def FHdr.toPort (h : FHdr) : Bool := h.ftype / 16 == 1 && h.param / 128 % 2 == 1

/-- The header of a copy on route `r` of the bank of its epoch (R500, R503). A reduction-engine packet to a member ends
at the member's port. DEDUCED, as R502 does for a response. -/
def FHdr.onRoute (h : FHdr) (w : Word) : FHdr :=
  let last := 6 * routeHopsM1 w
  let bits := if h.toPort then routeBits w % 2 ^ last + h.param % 64 * 2 ^ last else routeBits w
  { h with hopPtr := 0, hopsM1 := routeHopsM1 w, dlMask := routeDlMask w, route := bits }

/-- A packet to another module can be sent: its key is derived and its sequence has not used up the
generation (R654, R658). -/
def State.keyReady (s : State) (src gal dest : Nat) : Bool :=
  dest == s.node || ((s.gal gal).root && s.hasPair gal (s.gal gal).gen s.node dest false
    && Tab.get 0 s.genCount (genKey gal src dest) < 2 ^ 31)

/-- A packet that has no route yet, with the next number of the model's own (R494). -/
def State.newPacket (s : State) (src : Nat) (org : Origin) (group : Option Nat) (gal ftype vc lines colour fpa param : Nat)
    (payload : Bytes) (tr : Option (Nat × Nat × Bool)) : Outst :=
  let h : FHdr :=
    { ftype := ftype, epoch := s.cat.epoch, vc := vc, resp := false, hopPtr := 0, hopsM1 := 0
      lines := lines, colour := colour, dseq := 0, route := 0, dlMask := 0, gallery := gal, fpa := fpa
      srcNode := s.node, srcPort := src, srcLocal := 0, keyGen := 0, param := param }
  { src := src, dest := 0, dseq := 0, origin := org, hdr := h.enc, payload := payload, route := 0
    copies := 0, resends := 0, listed := false, tr := tr, group := group, uid := s.nextPkt, past := []
    noFill := false }

/-! ### Curator messages (R496, R506, R656, R657)

Their form is the curators' own. DESIGN CHOICE: log entry 97. -/

def mkStep : Nat := 1
def mkReply : Nat := 2
def mkReport : Nat := 3

/-- The payload of a curator message: its kind and a generation. The gallery is the header's. -/
def mgmtPayload (kind gen : Nat) : Bytes := natLe 1 kind ++ zeros 1 ++ natLe 2 gen

/-- A curator message about a gallery leaves for a node on VC6: it waits with the packets that are not yet sent. -/
def State.mgmtSend (s : State) (kind gal node gen : Nat) : State :=
  let o := s.newPacket 0x3E .mgmt none gal ftMgmt 6 0 0 (node * 2 ^ 52) 0 (mgmtPayload kind gen) none
  ({ s with nextPkt := s.nextPkt + 1, held := s.held ++ [o] }).out (.mgmt kind node [gal, gen])

/-- Begin a step of a gallery at its lead: STEP(g + 1) goes to every module of its member list (R656). -/
def State.startStep (s : State) (gal : Nat) : State :=
  let g := s.gal gal
  let gen := (g.gen + 1) % 65536
  g.members.foldl (fun s m => s.mgmtSend mkStep gal m.toNat gen)
    (s.modGal gal fun g => { g with stepRun := some { gen := gen, waiting := g.members }, stepAsked := false })

/-- A step is asked for at the lead: it begins now, or after the one that runs, or when the curator serves again
(R656, R657, R659). -/
def State.askStep (s : State) (gal : Nat) : State :=
  let g := s.gal gal
  if !g.root || g.lead != s.node then s
  else if g.stepRun.isSome || !s.cur.up then s.modGal gal fun g => { g with stepAsked := true }
  else s.startStep gal

/-- Count a packet under the gallery's generation; at 2^30 the lead is asked for a step (R657). -/
def State.countGen (s : State) (src gal dest : Nat) : State :=
  if dest = s.node then s
  else
    let n := Tab.get 0 s.genCount (genKey gal src dest) + 1
    let s := { s with genCount := Tab.set 0 s.genCount (genKey gal src dest) n }
    if n = 2 ^ 30 then
      if (s.gal gal).lead = s.node then s.askStep gal
      else s.mgmtSend mkReport gal (s.gal gal).lead (s.gal gal).gen
    else s

/-- A sequence lies within the duplicate window that the destination keeps above the oldest unacknowledged one of
the pair (R277). DEDUCED. -/
def State.seqRoom (s : State) (src dest : Nat) : Bool :=
  let seq := Tab.get 0 s.seqs (seqKey src dest)
  (s.replay.filter fun x => x.src == src && x.dest == dest && !x.listed).all fun x =>
    (seq + 2 ^ 32 - x.dseq) % 2 ^ 32 < 2048

/-- The replay store has room for a packet: copies of one multicast packet share one entry (R276, R520). -/
def State.storeRoom (s : State) (o : Outst) : Bool :=
  s.replayUsed o.src < 2048
    || (o.group.isSome && s.replay.any fun x => x.src == o.src && x.group == o.group && !x.listed)

/-- Send a packet into the fabric, or say why it waits or fails (R66 item 5, R275, R276, R501). The
header carries everything but route, sequence, epoch, source and key generation. -/
def State.trySend (s : State) (o : Outst) : State × SendResult :=
  let h := FHdr.dec o.hdr
  let node := fpaNode h.fpa
  if !s.nodeListed node then (s, .failed stAddrError)
  else
    match s.newRoute o.src node h.vc with
    | none => (s, .failed stLost)
    | some r =>
      let b := s.bank s.cat.epoch
      let dest := b.destModule node r
      if !s.storeRoom o || !s.seqRoom o.src dest || !s.keyReady o.src h.gallery dest then (s, .held)
      else
        let seq := Tab.get 0 s.seqs (seqKey o.src dest)
        let h := { h.onRoute (b.routeWord node r) with
                   dseq := seq, epoch := s.cat.epoch, srcNode := s.node, srcPort := o.src
                   keyGen := if dest == s.node then 0 else (s.gal h.gallery).gen }
        let o := { o with dest := dest, dseq := seq, hdr := h.enc, route := r, copies := 1 }
        let s := { s with seqs := Tab.set 0 s.seqs (seqKey o.src dest) (wrapAdd 32 seq 1)
                          replay := s.replay ++ [o] }
        let c := s.sealFab h dest 0 o.payload
        ((s.countGen o.src h.gallery dest).enqueue (swcIn o.src) h c.1 c.2 o.group, .sent)

/-- Send a packet, or keep it until it can be sent (R276, R654, R658). The status is `some` when the
check of the route fails it. -/
def State.sendOrHold (s : State) (o : Outst) : State × Option Nat :=
  match s.trySend o with
  | (s, .sent) => (s, none)
  | (s, .held) => ({ s with held := s.held ++ [o] }, none)
  | (s, .failed st) => (s, some st)

/-- Try again every held packet that a test selects, oldest first; those that now fail are returned (R276). -/
def State.pumpHeld (s : State) (sel : Outst → Bool) : State × List (Outst × Nat) :=
  (s.held.filter sel).foldl
    (fun (acc : State × List (Outst × Nat)) o =>
      match acc.1.trySend o with
      | (s, .sent) => (s, acc.2)
      | (s, .held) => ({ s with held := s.held ++ [o] }, acc.2)
      | (s, .failed st) => (s, acc.2 ++ [(o, st)]))
    ({ s with held := s.held.filter fun o => !sel o }, [])

/-- The colour of a best-effort packet by the marker of its gallery at its port: RFC 2698, colour-blind,
both bursts 64 KiB, rates in units of 0.25 GB/s (R526). -/
def State.markColour (s : State) (p gal size : Nat) : State × Nat :=
  let g := s.gal gal
  let dt := Config.elapsedNs s.freeCtr
  let m := Tab.get Marker.reset (s.docent p).markers gal
  let tp := min 65536 (m.tp + g.pir * dt / 4)
  let tc := min 65536 (m.tc + g.cir * dt / 4)
  let (m', c) : Marker × Nat :=
    if tp < size then ({ tp := tp, tc := tc }, 2)
    else if tc < size then ({ tp := tp - size, tc := tc }, 1)
    else ({ tp := tp - size, tc := tc - size }, 0)
  ((s.draw).modDocent p fun d => { d with markers := Tab.set Marker.reset d.markers gal m' }, c)

/-- The VC of a gallery's READ, WRITE, WRITE_MASKED and ZERO_RUN packets (R506, R531). -/
def State.dataVc (s : State) (gal : Nat) : Nat := if (s.gal gal).be then 7 else 0

/-- A request of a docent, a local engine or the curator. -/
def State.request (s : State) (src : Nat) (org : Origin) (group : Option Nat)
    (gal ftype vc lines fpa param : Nat) (payload : Bytes) (tr : Option (Nat × Nat × Bool)) :
    State × Option Nat :=
  let (s, c) := if vc = 7 && src < 48 then s.markColour src gal (packetBytes payload) else (s, 0)
  ({ s with nextPkt := s.nextPkt + 1 }).sendOrHold
    (s.newPacket src org group gal ftype vc lines c fpa param payload tr)

/-! ### Responses (R502, R504, R650) -/

/-- The VC of the response to a packet (R506). -/
def respVc (vc : Nat) : Nat :=
  if vc = 6 then 6 else if vc = 7 then 7 else if vc = 4 || vc = 5 then 4 else 2

/-- Key of a destination's duplicate window for a source port. -/
def winKey (srcNode srcPort : Nat) : Nat := srcNode * 64 + srcPort

def State.window (s : State) (rq : FHdr) : DupWin :=
  Tab.get DupWin.reset s.windows (winKey rq.srcNode rq.srcPort)

def State.modWindow (s : State) (rq : FHdr) (f : DupWin → DupWin) : State :=
  { s with windows := Tab.modify DupWin.reset s.windows (winKey rq.srcNode rq.srcPort) f }

/-- Send a response to a request from crossbar input `inp`, by the bank of the request's epoch; `bare` leaves it
unauthenticated, with a tag of zeros (R652). If no route leads back, nothing is sent (R502, R504). -/
def State.respondAs (s : State) (bare : Bool) (inp : Nat) (rq : FHdr) (ftype param : Nat) (payload : Bytes) :
    State :=
  let b := s.bank rq.epoch
  let me := if inp < 48 then inp else if inp = 80 then 0x3E else 0x3F
  match b.pick rq.srcNode fun r w =>
      !s.isMarked rq.epoch me rq.srcNode r
        && (rq.vc != 6 || routeDlMask w == 0) with
  | none => s
  | some r =>
    let w := b.routeWord rq.srcNode r
    let m := routeHopsM1 w
    let route := routeBits w % 2 ^ (6 * m) + rq.srcPort * 2 ^ (6 * m)
    let h : FHdr :=
      { ftype := ftype, epoch := rq.epoch, vc := respVc rq.vc, resp := true, hopPtr := 0, hopsM1 := m
        lines := if ftype = ftData then payload.length / 128 else 0, colour := rq.colour
        dseq := rq.dseq, route := route, dlMask := routeDlMask w, gallery := rq.gallery
        fpa := rq.srcNode * 2 ^ 52, srcNode := s.node, srcPort := me, srcLocal := rq.srcLocal
        keyGen := if rq.srcNode = s.node then 0 else (s.gal rq.gallery).gen, param := param }
    let rep := Tab.get 0 (s.window rq).repeats rq.dseq
    let s := s.modWindow rq fun x =>
      { x with repeats := Tab.modify 0 x.repeats rq.dseq fun n => (n + 1) % 128 }
    let s := if rq.srcNode = s.node then s
      else s.addPair rq.gallery (s.gal rq.gallery).gen s.node rq.srcNode true
    let c := if bare then (payload, zeros 16) else s.sealFab h rq.srcNode rep payload
    s.enqueue inp h c.1 c.2 none

/-- Send a response under the gallery's key. -/
def State.respond (s : State) (inp : Nat) (rq : FHdr) (ftype param : Nat) (payload : Bytes) : State :=
  s.respondAs false inp rq ftype param payload

/-- An ACK that a switch core or a module sends without a key (R504, R518, R652, R674). -/
def State.bareAck (s : State) (inp : Nat) (rq : FHdr) (status : Nat) (pathFail : Bool) : State :=
  if rq.resp then s
  else s.respondAs true inp rq ftAck (status + if pathFail then 0x8000 else 0) []

/-- The local input by which the engine at a local offset answers (R511). -/
def localIn (fpa : Nat) : Nat := 48 + fpaOff fpa / 2048 % 32

/-! ### Duplicate windows (R272, R277, R278) -/

/-- The sequence lies below the floor or is marked (R278). -/
def DupWin.isDup (w : DupWin) (d : Nat) : Bool :=
  (d + 2 ^ 32 - w.floor) % 2 ^ 32 ≥ 2 ^ 31 || w.marks.contains d

/-- Raise the floor over handled sequences. -/
def DupWin.raise : Nat → DupWin → DupWin
  | 0, w => w
  | n + 1, w =>
    if w.marks.contains w.floor then
      DupWin.raise n { w with floor := wrapAdd 32 w.floor 1, marks := w.marks.erase w.floor }
    else w

/-- The window moves so that a sequence lies in its 2,048 places: a source has nothing unacknowledged that far
behind (R277). -/
def DupWin.reach (w : DupWin) (d : Nat) : DupWin :=
  if (d + 2 ^ 32 - w.floor) % 2 ^ 32 < 2048 then w
  else
    let f := (d + 2 ^ 32 - 2047) % 2 ^ 32
    { w with floor := f, marks := w.marks.filter fun m => (m + 2 ^ 32 - f) % 2 ^ 32 < 2048 }

/-- The sequence has been handled (R277). -/
def DupWin.handled (w : DupWin) (d : Nat) : DupWin :=
  if w.isDup d then w
  else
    let w := w.reach d
    DupWin.raise (w.marks.length + 1) { w with marks := d :: w.marks }

/-- Mark a request as handled. -/
def State.handled (s : State) (rq : FHdr) : State := s.modWindow rq fun w => w.handled rq.dseq

/-! ### Arrival of a fabric packet (R651, R674, R807) -/

/-- The gallery's keys here are gone: deaccession is past step 2, or it is FREE (R674). -/
def State.keysGone (s : State) (g : Nat) : Bool :=
  g != 0 && ((s.gal g).state == .free || ((s.gal g).state == .deaccessioning && (s.gal g).deaccStep ≥ 3))

/-- Check an arriving packet: its payload in plaintext, if it may be handled. -/
def State.acceptPacket (s : State) (h : FHdr) (payload tag : Bytes) : State × Option Bytes :=
  let plain := if h.srcNode = s.node then some payload else s.openFab h 0 payload tag
  if !s.epochUsable h.epoch then
    ({ s with cat := { s.cat with late := satAdd 16 s.cat.late 1 } }, none)
  else if plain.isNone || s.keysGone h.gallery then
    let s := { s with sec := { s.sec with fabAuthFail := wrapAdd 32 s.sec.fabAuthFail 1 } }
    (if s.keysGone h.gallery then s.bareAck (localIn h.fpa) h stLost false else s, none)
  else (s, plain)

/-- Take a packet off the list of those that have arrived. -/
def State.unqueue (s : State) (hdr : Header) (payload : Bytes) : State :=
  { s with arrived := removeFirst (fun x => x.1 == hdr && x.2.1 == payload) s.arrived }

/-- Acknowledge a duplicate again, with the status of its first copy (R278). -/
def State.ackAgain (s : State) (inp : Nat) (h : FHdr) : State :=
  s.respond inp h ftAck (((s.window h).fails.find? fun x => x.1 == h.dseq).elim stOk (·.2)) []

/-! ### Sync objects (R243 to R249) -/

/-- The sync object belongs to the gallery (R36, R243). -/
def State.soOwned (s : State) (n g : Nat) : Bool := (s.so n).owner == some g

/-- A value satisfies a WAIT (R244). -/
def waitMet (eq : Bool) (operand v : Word) : Bool :=
  if eq then v == operand else operand.toNat ≤ v.toNat

/-- Keep the completion of a SYNC or ATOMIC for a duplicate (R278). -/
def State.keepValue (s : State) (h : FHdr) (status : Nat) (v : Word) : State :=
  s.modWindow h fun w =>
    { w with values := (h.dseq, status, v) :: w.values.filter fun x => x.1 != h.dseq }

/-- Complete a listed WAIT with a status and a value, which a duplicate of it receives too (R278). -/
def State.waitDone (s : State) (w : Waiter) (status : Nat) (v : Word) : State :=
  let rq := FHdr.dec w.hdr
  (s.keepValue rq status v).respond (localIn rq.fpa) rq ftValue status (natLe 8 v.toNat)

/-- Commit a value to a sync object, and complete every listed WAIT that it satisfies, in the order of
listing (R246, R248). -/
def State.soCommit (s : State) (n : Nat) (v : Word) : State :=
  let o := s.so n
  let met := o.waiters.filter fun w => waitMet w.eq w.operand v
  let left := o.waiters.filter fun w => !waitMet w.eq w.operand v
  met.foldl (fun s w => s.waitDone w stOk v)
    (s.setSo n { o with value := v, waiters := left })

/-- An ADD by one of the module's own counts: arrival counts, done_so, end_so (R232, R246). -/
def State.soAddOf (s : State) (n g k : Nat) : State :=
  if s.soOwned n g then s.soCommit n ((s.so n).value + BitVec.ofNat 64 k) else s

/-- WAITs listed for a gallery at this module (R267). -/
def State.waitersOf (s : State) (g : Nat) : Nat :=
  (s.sos.map fun o => (o.2.waiters.filter fun w => w.gal == g).length).sum

/-- WAITs listed in the module (R287). -/
def State.waitersAll (s : State) : Nat := (s.sos.map fun o => o.2.waiters.length).sum

end Sys2Proof.Machine
end

