-- ==== Sys2Proof/WellFormed.lean ====
section
/-! DEFINITION. Which commands are well formed: operands of the lengths that their events have. Every other
operand is any value of its type, since a packet, a frame or a register write may carry any bits. -/

namespace Sys2Proof

/-- A line that was read has 128 bytes (R24). -/
def fetchedOk : Fetched → Bool
  | .data bs => bs.length == 128
  | .failed st => st != 0 && st < 256

/-- A packet carries at most 2,048 bytes of payload, and a tag of 16 (R14, R495). -/
def packetOk (payload tag : Bytes) : Bool := payload.length ≤ 2048 && tag.length == 16
def FabPkt.ok (k : FabPkt) : Bool := packetOk k.payload k.tag

/-- The symbols of 256 bytes lie on 8 or 4 lanes, as many on each (R560, R561). -/
def lanesOk (lanes : List (List Pam)) : Bool :=
  [8, 4].contains lanes.length && lanes.all fun l => l.length * lanes.length == 1024

/-- A join gives no counts, or one count per expert of at most 4,096 experts (R388). -/
def joinOk (m : JoinMsg) : Bool := m.counts.length ≤ 4096

/-- A tenant message carries 96 bytes of material and as many members as it counts (R639). -/
def tenantOk (m : TenantMsg) : Bool := m.material.length == 96 && m.members.length == m.count

/-- The command is well formed. -/
def Instr.wf : Instr → Bool
  | .auxPowerGood => true
  | .auxPowerLost => true
  | .presentAsserted => true
  | .presentDeasserted => true
  | .mainPowerGood => true
  | .recoveryListenExpiry _ _ => true
  | .enterService => true
  | .lossOfMainInput _ => true
  | .moduleReset => true
  | .conventionalReset => true
  | .flrVf _ => true
  | .flrPf => true
  | .stateSet => true
  | .enterOperational => true
  | .drainExit => true
  | .load _ _ payload tag => packetOk payload tag
  | .store _ _ payload tag => packetOk payload tag
  | .storeMasked _ _ payload tag => packetOk payload tag
  | .sync _ _ payload tag => packetOk payload tag
  | .launch _ _ payload tag => packetOk payload tag
  | .atomic _ _ payload tag => packetOk payload tag
  | .reservedOpcode _ _ payload tag => packetOk payload tag
  | .tReadData _ _ payload tag => packetOk payload tag
  | .tWriteDone _ _ payload tag => packetOk payload tag
  | .tMaskedDone _ _ payload tag => packetOk payload tag
  | .tAtomicDone _ _ payload tag => packetOk payload tag
  | .targetTimeout _ _ => true
  | .read _ payload tag => packetOk payload tag
  | .write _ payload tag _ => packetOk payload tag
  | .writeMasked _ payload tag _ => packetOk payload tag
  | .zeroRun _ payload tag _ => packetOk payload tag
  | .fabricSync _ payload tag => packetOk payload tag
  | .fabricAtomic _ payload tag => packetOk payload tag
  | .waitWithdrawal pkt => pkt.ok
  | .ack _ tag _ => tag.length == 16
  | .data _ payload tag => packetOk payload tag
  | .value _ payload tag => packetOk payload tag
  | .packetForward _ _ _ _ _ => true
  | .beRetxExpiry _ _ _ => true
  | .pathTimeout _ _ => true
  | .notice _ _ => true
  | .tourLaunch _ => true
  | .copy _ _ => true
  | .gather _ _ => true
  | .scatter _ _ => true
  | .mcast _ _ => true
  | .reduce _ _ => true
  | .dispatch _ _ => true
  | .combine _ _ => true
  | .signal _ _ => true
  | .wait _ _ => true
  | .fence _ _ => true
  | .flush _ _ => true
  | .inval _ _ => true
  | .loop _ _ => true
  | .halt _ _ => true
  | .tourAtomic _ _ => true
  | .reservedTourOpcode _ _ => true
  | .quantumExpiry _ => true
  | .instructionLineArrival _ _ _ what => fetchedOk what
  | .descriptorArrival _ _ _ what => fetchedOk what
  | .operationRetire _ _ => true
  | .tourEnd _ _ => true
  | .waitExpiry _ _ => true
  | .fenceComplete _ _ => true
  | .flushComplete _ _ => true
  | .atsCompletion _ _ _ => true
  | .atsCompletionTimeout _ _ => true
  | .pageRequest _ => true
  | .prgResponse _ _ _ => true
  | .prTimeoutExpiry _ _ => true
  | .atsInvalidateRequest _ _ _ _ _ => true
  | .invalidateCompletion _ _ => true
  | .join m pkt => joinOk m && pkt.ok
  | .joinAdmitted => true
  | .claimGrant _ => true
  | .credit _ _ _ pkt => pkt.ok
  | .contribution _ _ off _ lines _ pkt => off % 128 == 0 && lines.length % 128 == 0 && lines.length ≤ 2048 && pkt.ok
  | .chunkSummation _ _ => true
  | .partialChunk _ _ _ _ _ bs pkt => bs.length ≤ 2048 && pkt.ok
  | .finishedChunk _ _ _ _ bs pkt => bs.length ≤ 2048 && pkt.ok
  | .result _ _ _ _ pkt => pkt.ok
  | .instanceComplete _ _ _ => true
  | .withdrawal _ _ pkt => pkt.ok
  | .abort _ _ _ _ _ _ pkt => pkt.ok
  | .joinTimeout _ _ => true
  | .drawerZeroingDone => true
  | .windowMerge _ _ => true
  | .offsets _ _ _ _ _ _ pkt => pkt.ok
  | .grantAnnouncement _ _ _ pkt => pkt.ok
  | .expertOutput _ _ _ _ bs pkt => bs.length ≤ 2048 && pkt.ok
  | .combineWeights _ _ weights delivered pkt => weights.length == delivered.length && pkt.ok
  | .mgmt pkt => pkt.ok
  | .step pkt => pkt.ok
  | .stepReply pkt => pkt.ok
  | .stepPeriodExpiry _ => true
  | .pairKeyDerived _ _ _ _ _ => true
  | .shelfExtWrite _ _ _ => true
  | .extentZeroingDone _ _ => true
  | .scrubRead _ _ => true
  | .dieFailed _ => true
  | .dataFlit _ lanes => lanesOk lanes
  | .ctrlFlit _ lanes => lanesOk lanes
  | .filler _ lanes => lanesOk lanes
  | .retryTimeout _ => true
  | .ts1 _ _ _ _ _ => true
  | .ts2 _ _ _ => true
  | .tsExit _ => true
  | .trainingWindowExpiry _ => true
  | .laneCdrLoss _ _ => true
  | .laneSerExceeded _ _ => true
  | .deadTimerExpiry _ => true
  | .downRetryTimer _ => true
  | .signalDetect _ _ => true
  | .idleEntry _ => true
  | .idleExit _ => true
  | .idleBurst _ => true
  | .retrain _ => true
  | .restore _ => true
  | .laneMaskWrite _ _ => true
  | .getVersion _ => true
  | .getCapabilities _ => true
  | .negotiateAlgorithms _ _ => true
  | .getDigests _ => true
  | .getCertificate _ _ _ _ => true
  | .challenge _ _ nonce => nonce.length == 32
  | .getMeasurements _ _ _ => true
  | .keyExchange _ => true
  | .finish _ _ => true
  | .heartbeat _ => true
  | .keyUpdate _ => true
  | .endSession _ => true
  | .galQuery _ m => tenantOk m
  | .galClaim _ m => tenantOk m
  | .galResume _ m => tenantOk m
  | .galKeyInstall _ m => tenantOk m
  | .galKeyRetire _ m => tenantOk m
  | .galKeyActivate _ m => tenantOk m
  | .galFabricRoot _ m => tenantOk m
  | .galFabricStep _ m => tenantOk m
  | .galOpen _ m => tenantOk m
  | .galDeaccess _ m => tenantOk m
  | .query _ => true
  | .keyProg _ _ _ key => key.length == 32
  | .kSetGo _ _ _ => true
  | .kSetStop _ _ _ => true
  | .getTdispVersion _ => true
  | .getTdispCapabilities _ => true
  | .lockInterfaceRequest _ => true
  | .getDeviceInterfaceReport _ => true
  | .getDeviceInterfaceState _ => true
  | .startInterfaceRequest _ => true
  | .stopInterfaceRequest _ => true
  | .galleryAccession => true
  | .galleryDeaccession => true
  | .deaccessionDrained _ => true
  | .drainTimeoutExpiry _ => true
  | .deaccessionZeroed _ => true
  | .g0KeyInstall => true
  | .g0KeyRetire => true
  | .g0KeyActivate => true
  | .g0FabricRoot => true
  | .g0FabricStep => true
  | .g0Setup => true
  | .g0Release => true
  | .quorumSet => true
  | .expelPort _ => true
  | .expelPeer _ => true
  | .isolate _ => true
  | .liftPort _ => true
  | .liftAll _ => true
  | .drain _ => true
  | .replaceSet _ => true
  | .nop _ => true
  | .reservedCommand _ => true
  | .commandDoorbell _ _ => true
  | .consumerIndexWrite _ _ _ => true
  | .ringEnable _ _ _ => true
  | .ringDisable _ _ _ => true
  | .msiXMessage _ _ => true
  | .bar2Read _ _ _ _ => true
  | .bar2Write _ _ _ _ => true
  | .galSoRead _ _ => true
  | .galSoAdd _ _ => true
  | .galSoSet _ _ => true
  | .galSoMin _ _ => true
  | .galSoMax _ _ => true
  | .galSoCas _ _ => true
  | .soValueWrite _ _ => true
  | .swcRcCtlWrite _ => true
  | .portSpecWrite _ _ => true
  | .swcVcModeWrite _ => true
  | .clkCtlWrite _ => true
  | .clkEnWrite _ _ => true
  | .ownCtlWrite _ => true
  | .registerWrite _ off size _ => (size == 4 || size == 8) && off % size == 0
  | .watchdogExpiry _ => true
  | .curatorMemoryError _ _ => true
  | .curatorRestartDone _ => true
  | .stageWriteDone _ => true
  | .stagedVerifyDone _ => true
  | .overwriteDone _ => true
  | .recoveryRequest _ => true
  | .tftpWriteImage _ _ => true
  | .dhcp _ => true
  | .arp _ => true
  | .icmpEcho _ _ => true
  | .mctpControl _ _ => true
  | .pldmSensor _ => true
  | .bmcPowerCap _ => true
  | .powerAverageUpdate _ => true
  | .emergencyBegin _ => true
  | .emergencyClear _ => true
  | .shutdown _ => true
  | .aux3v3Retry _ => true
  | .sensorFail _ => true
  | .referenceFallback _ => true
  | .lifeHistoryHourly _ => true
  | .cdrLock _ _ => true
  | .step1NoSignal _ => true
  | .retrainBoundExpiry _ => true
  | .configurationWrite _ _ => true
  | .fwStageVerified _ => true
  | .reservedQuorumAction _ => true
  | .reservedTenantMessage _ m => tenantOk m
  | .reservedVendorCommand _ _ => true
  | .fwStage => true
  | .fwActivate => true
  | .activationHoldExpiry => true
  | .tftpReadStatus => true
  | .tftpReadLifehist => true
  | .tftpWriteRequest => true
  | .tftpRetransmit => true
  | .dhcpLeaseTimeout => true
  | .pldmFru => true
  | .mainEnable => true
  | .status => true
  | .powerCap => true
  | .powerCapTimeout => true
  | .inputOvercurrent => true
  | .stageFault => true
  | .aux3v3Short => true
  | .senseOpen => true
  | .fastThrottleAssert => true
  | .fastThrottleHoldExpiry => true
  | .leakAssert => true
  | .leakClearExpiry => true
  | .referenceRevert => true
  | .fill => true
  | .switch => true
  | .fillThenSwitch => true
  | .switchQuiesceTimeout => true
  | .epochDrained => true
  | .healthScoring => true
  | .perstDeasserted => true
  | .hostInterfaceReady => true
  | .shadowFilled => true
  | .servicePortLinkUp => true

end Sys2Proof
end

