-- ==== Sys2Proof/Machine/Phy.lean ====
section
/-! DEFINITION. The lanes of a port (R560 to R563, R570 to R575): a flit as 256 bytes, its share of each lane, the
scramblers, and the symbols. -/

namespace Sys2Proof.Machine

/-! ### Symbols (R561, R563) -/

/-- The level of a bit pair (R561). -/
def pamOf (pair : Nat) : Pam :=
  match pair with
  | 0 => .m3
  | 1 => .m1
  | 3 => .p1
  | _ => .p3

/-- The bit pair of a level (R561). -/
def pamPair : Pam → Nat
  | .m3 => 0
  | .m1 => 1
  | .p1 => 3
  | .p3 => 2

/-- The level of a lane whose polarity is inverted (R563). -/
def pamNeg : Pam → Pam
  | .m3 => .p3
  | .m1 => .p1
  | .p1 => .m1
  | .p3 => .m3

/-- A byte as four symbols, bits 1 and 0 first (R561). -/
def byteSymbols (b : Byte) : List Pam := (List.range 4).map fun i => pamOf (b.toNat / 4 ^ i % 4)

/-- The byte of four symbols. -/
def symbolsByte (ps : List Pam) : Byte :=
  BitVec.ofNat 8 (((List.range 4).map fun i => pamPair (ps.getD i .m3) * 4 ^ i).sum)

/-- The bytes of a lane's symbols. -/
def symbolsBytes (ps : List Pam) : Bytes :=
  (List.range (ps.length / 4)).map fun k => symbolsByte ((ps.drop (4 * k)).take 4)

/-! ### Scramblers (R562) -/

/-- One bit of a scrambler: its output and its next contents (R562). -/
def scrBit (x : Nat) : Nat × Nat :=
  let o := (x / 2 ^ 30 + x / 2 ^ 27) % 2
  (o, (2 * x + o) % 2 ^ 31)

/-- The eight outputs for a byte, the first for bit 0. -/
def scrByte (x : Nat) : Byte × Nat :=
  let r := (List.range 8).foldl
    (fun (a : Nat × Nat) i => let b := scrBit a.2; (a.1 + b.1 * 2 ^ i, b.2)) (0, x)
  (BitVec.ofNat 8 r.1, r.2)

/-- Scramble or descramble bytes: the bytes, and the scrambler's next contents. -/
def scramble : Nat → Bytes → Bytes × Nat
  | x, [] => ([], x)
  | x, b :: t =>
    let k := scrByte x
    let r := scramble k.2 t
    ((b ^^^ k.1) :: r.1, r.2)

/-! ### Flits (R570 to R575) -/

/-- The 256 bytes of a flit: header, body, CRC-32 and FEC check symbols (R570, R573, R574). -/
def flitBytes (hdr : Word) (body : Bytes) : Bytes :=
  let b := natLe 8 hdr.toNat ++ sliceB body 0 224
  fecEncode (b ++ natLe 4 (crc32 b))

/-- A flit that passes R575: header, body, and the places of the symbols that were corrected. -/
def flitRead (raw : Bytes) : Option (Word × Bytes × List Nat) :=
  match fecDecode raw with
  | none => none
  | some w =>
    if natLe 4 (crc32 (w.take 232)) = (w.drop 232).take 4 then
      some (BitVec.ofNat 64 (leNat (w.take 8)), (w.drop 8).take 224, diffs raw w)
    else none

/-! ### Lanes (R560) -/

/-- The lanes of a width, in ascending order (R560). -/
def widthLanes (w : Nat) : List Nat :=
  if w = 3 then List.range 8 else if w = 1 then List.range 4 else if w = 2 then [4, 5, 6, 7] else []

/-- The bytes of a flit that go to the lane in position `i` of `w` (R560). -/
def laneShare (bs : Bytes) (w i : Nat) : Bytes := (List.range (256 / w)).map fun k => bs.getD (k * w + i) 0

/-- A flit from its lanes' shares (R560). -/
def joinShares (shares : List Bytes) : Bytes :=
  (List.range 256).map fun j => (shares.getD (j % shares.length) []).getD (j / shares.length) 0

/-- The scramblers of one direction restart, at an entry into the flit stream (R562). -/
def State.loadScramblers (s : State) (p : Nat) (tx rx : Bool) : State :=
  ((widthLanes (s.link p).width).zipIdx).foldl
    (fun s x => s.modLane p x.1 fun y =>
      { y with
        txScr := if tx then (x.2 + 1) * 0x01010101 % 2 ^ 31 else y.txScr
        rxScr := if rx then (x.2 + 1) * 0x01010101 % 2 ^ 31 else y.rxScr }) s

/-- A flit leaves on the lanes of the set, scrambled (R560 to R562). -/
def State.wire (s : State) (p : Nat) (hdr : Word) (body : Bytes) : State :=
  let bs := flitBytes hdr body
  let set := (widthLanes (s.link p).width).zipIdx
  let share (x : Nat × Nat) : Bytes × Nat := scramble (s.lane p x.1).txScr (laneShare bs set.length x.2)
  let t := set.foldl (fun t x => t.modLane p x.1 fun y => { y with txScr := (share x).2 }) s
  t.out (.symbols p (set.map fun x => (share x).1.flatMap byteSymbols))

/-- The bytes of a flit as the lanes of the set received it: polarity corrected, descrambled (R562, R563). -/
def State.unwire (s : State) (p : Nat) (lanes : List (List Pam)) : State × Bytes :=
  let set := (widthLanes (s.link p).width).zipIdx
  let share (x : Nat × Nat) : Bytes × Nat :=
    let ps := lanes.getD x.2 []
    scramble (s.lane p x.1).rxScr (symbolsBytes (if (s.lane p x.1).inverted then ps.map pamNeg else ps))
  (set.foldl (fun t x => t.modLane p x.1 fun y => { y with rxScr := (share x).2 }) s
    , joinShares (set.map fun x => (share x).1))

/-- Symbols of one flit for every lane of the set (R560, R561). -/
def lanesFit (width : Nat) (lanes : List (List Pam)) : Bool :=
  let w := (widthLanes width).length
  lanes.length == w && lanes.all fun l => l.length == 4 * (256 / w)

/-! ### What a port sends (R571, R572, R579) -/

/-- The header of a CTRL flit (R571, R572). -/
def ctrlHeader (ack : Nat) (nak : Bool) (credit : Option (Nat × Nat)) (idle : Bool) : Word :=
  putN 62 2 1 ||| putB 54 nak ||| putB 53 credit.isSome ||| putN 50 3 (credit.elim 0 (·.1))
    ||| putN 38 12 (credit.elim 0 (·.2)) ||| putN 22 16 ack ||| putB 5 idle

/-- The header of a DATA flit (R571). -/
def dataHeader (ack : Nat) (f : TxFlit) : Word :=
  putN 59 3 f.vc ||| putN 55 4 f.sop ||| putN 22 16 ack ||| putN 6 16 f.seq

/-- The header of a FILLER (R572). -/
def fillerHeader : Word := putN 62 2 2

/-- Send a FILLER (R579). -/
def State.sendFiller (s : State) (p : Nat) : State :=
  ((s.modLink p fun l => { l with sinceFill := 0 }).out (.filler p)).wire p fillerHeader (zeros 224)

/-- A flit that is not a FILLER is sent: of 2,048 in a row one is a FILLER (R579). -/
def State.flitOut (s : State) (p : Nat) (o : Output) (hdr : Word) (body : Bytes) : State :=
  let s := (s.out o).wire p hdr body
  if (s.link p).sinceFill + 1 ≥ 2047 then s.sendFiller p
  else s.modLink p fun l => { l with sinceFill := l.sinceFill + 1 }

/-- The acknowledgement that every DATA and CTRL flit carries (R584). -/
def Link.ack (l : Link) : Nat := (l.rxSeq + 65535) % 65536

/-- Send a DATA flit (R571, R582). -/
def State.sendData (s : State) (p : Nat) (f : TxFlit) : State :=
  s.flitOut p (.flit p f) (dataHeader (s.link p).ack f) f.body

/-- Send a CTRL flit with its notices at bytes 8 + 16k of the flit (R572, R606). -/
def State.ctrlOut (s : State) (p : Nat) (nak : Bool) (credit : Option (Nat × Nat)) (idle : Bool)
    (notices : List Nat) : State :=
  let ack := (s.link p).ack
  s.flitOut p (.ctrl p ack nak credit idle notices) (ctrlHeader ack nak credit idle)
    (notices.flatMap fun n => natLe 16 n)

/-! ### Training frames (R559, R564, R590) -/

/-- Bit `i` of a lane mask per lane. -/
def laneBits (f : Nat → Bool) : Nat := ((List.range 8).map fun i => if f i then 2 ^ i else 0).sum

/-- Lanes that the port may use: enabled and not failed (R564 lane_ok, R565). -/
def State.laneOk (s : State) (p : Nat) : Nat := laneBits fun i => bitN (s.link p).laneMask i && !(s.lane p i).failed

/-- Cells of a VC that the module advertises in TS2 (R590). -/
def State.advertised (s : State) (p v : Nat) : Nat := if s.role p = 2 || v = 0 || v = 2 then 136 else 0

/-- A training frame of type 1 (TS1), 2 (TS2) or 3 (TS_EXIT) on a lane. What a TS1 of step 3 asks of the partner's FFE is
free, a TS1 of step 4 shows eq_done, and any other frame asks for nothing (R559, R564, R565). -/
def State.tsFrame (s : State) (p i type : Nat) : Header :=
  let x := s.lane p i
  let l := s.link p
  let ask :=
    if type = 1 && l.trainStep = 3 then (Config.trainRequest s.freeCtr).toNat
    else if type = 1 && l.trainStep = 4 && l.state != .retrain then 1 else 0
  let only (n : Nat) : Nat := if type = 2 then n else 0
  let body := natLe 1 type ++ natLe 1 i ++ natLe 1 (if s.role p = 2 then 2 else 1) ++ natLe 1 (ask % 128 * 2)
    ++ natLe 1 (if ask / 32 % 4 = 1 then ask / 128 else 0) ++ natLe 1 x.preNow ++ natLe 1 x.postNow
    ++ natLe 1 (if x.atLimit then 128 else 0) ++ natLe 2 s.node ++ natLe 1 p ++ natLe 1 (only (s.laneOk p))
    ++ (List.range 8).flatMap (fun v => natLe 1 (only (s.advertised p v)))
    ++ natLe 2 (only (if l.state == .retrain then l.rxSeq else 0))
  BitVec.ofNat 256 (leNat ([0x4B, 0x4B, 0xB4, 0xB4, 0x4B, 0x4B, 0xB4, 0xB4] ++ body ++ natLe 2 (crc16 body)))

/-- Send a training frame on each of some lanes (R565, R594). -/
def State.sendFrames (s : State) (p type : Nat) (lanes : List Nat) : State :=
  lanes.foldl (fun s i => s.draw.out (.frame p i (s.tsFrame p i type))) s

/-- Send TS1 or TS2 on every lane that trains (R565). -/
def State.sendTs (s : State) (p type : Nat) : State :=
  s.sendFrames p type ((List.range 8).filter fun i => bitN (BitVec.ofNat 8 (s.laneOk p)) i)

/-- An idle-exit burst: levels, TS_EXIT frames on every lane of the set, and fresh scramblers (R594, R595). -/
def State.sendBurst (s : State) (p : Nat) : State :=
  ((s.out (.burst p)).sendFrames p 3 (widthLanes (s.link p).width)).loadScramblers p true false

end Sys2Proof.Machine
end

