-- ==== Sys2Proof/Machine/LinkTx.lean ====
section
/-! DEFINITION. The transmit side of a link (R576, R577, R582, R584 to R592, R594): packets cut into DATA flits
under credit, CTRL flits, credit returns and replay. -/

namespace Sys2Proof.Machine

/-- A port's link carries packets, or will once its retrain is over (R599, R600). -/
def linkCarries (l : Link) : Bool := l.state == .active || l.state == .idle || l.state == .retrain

/-- Credit available for a VC, in cells (R592). -/
def Link.credit (l : Link) (v : Nat) : Nat :=
  (Tab.get 0 l.limit v + Tab.get 0 l.crTotal v + 4096 - Tab.get 0 l.consumed v % 4096) % 4096

/-- The bodies of a packet: its lead-in, its bytes padded to 16 B, and zeros to the last body's end (R576,
R577). -/
def flitBodies (cls : Nat) (bs : Bytes) : List Bytes :=
  let all := natLe 2 bs.length ++ natLe 1 cls ++ zeros 13 ++ sliceB bs 0 (ceilDiv bs.length 16 * 16)
  (List.range (ceilDiv all.length 224)).map fun i => sliceB all (224 * i) 224

/-- The DATA flits of a packet from a sequence on (R571, R582). -/
def packetFlits (seq : Nat) (x : TxPkt) : List TxFlit :=
  ((flitBodies x.cls x.bytes).zipIdx).map fun b =>
    { seq := wrapAdd 16 seq b.2, vc := x.vc, sop := if b.2 = 0 then 0 else 15, body := b.1 }

/-- Send the packets that wait, each VC in order, as credit and the replay buffer allow (R582, R591). `held` are
the VCs of which a packet stays. -/
def Link.pumpList (l : Link) (held : List Nat) : List TxPkt → Link × List TxFlit × List TxPkt
  | [] => (l, [], [])
  | x :: t =>
    let need := ceilDiv x.bytes.length 128
    let fl := packetFlits l.txSeq x
    if held.contains x.vc || l.credit x.vc < need || l.unacked.length + fl.length > 4096 then
      let r := l.pumpList (x.vc :: held) t
      (r.1, r.2.1, x :: r.2.2)
    else
      let l' := { l with
        txSeq := wrapAdd 16 l.txSeq fl.length
        unacked := l.unacked ++ fl
        consumed := Tab.modify 0 l.consumed x.vc fun n => (n + need) % 4096 }
      let r := l'.pumpList held t
      (r.1, fl ++ r.2.1, r.2.2)

/-- Flits flow out of the port: it is ACTIVE, or IDLE with its own direction awake (R593, R599). -/
def Link.sends (l : Link) : Bool := (l.state == .active || l.state == .idle) && !l.txIdle

/-- Send what waits. -/
def State.linkPump (s : State) (p : Nat) : State :=
  let l := s.link p
  if !l.sends || l.waiting.isEmpty then s
  else
    let r := l.pumpList [] l.waiting
    let s := s.modLink p fun _ => { r.1 with waiting := r.2.2 }
    r.2.1.foldl (fun s f => s.sendData p f) s

/-- A packet goes to the port's transmitter: header, payload as it travels, and tag (R54, R495). -/
def State.linkSend (s : State) (p vc cls : Nat) (hdr : Header) (payload tag : Bytes) : State :=
  let x : TxPkt := { vc := vc, cls := cls, bytes := headerBytes hdr ++ payload ++ tag }
  (s.modLink p fun l => { l with waiting := l.waiting ++ [x] }).linkPump p

/-- A CTRL flit (R572, R584). While the direction idles, it is due until the idle exit (R594). -/
def State.sendCtrl (s : State) (p : Nat) (nak : Bool) (credit : Option (Nat × Nat)) : State :=
  if (s.link p).sends then s.ctrlOut p nak credit false []
  else s.modLink p fun l => { l with due := true }

/-- 4 µs after a NAK the expected flit has not come: one more NAK goes out. Whether they have passed is free (R585). -/
def State.nakAgain (s : State) (p : Nat) : State :=
  if (s.link p).nakHeld && Config.nakDue s.freeCtr then
    (s.draw.modLink p fun l => { l with naksSent := wrapAdd 24 l.naksSent 1 }).sendCtrl p true none
  else s.draw

/-- A flit time passes with nothing due: every direction that sends sends FILLER (R579), or a NAK that is due again
(R585). -/
def State.flitTime (s : State) : State :=
  (List.range 48).foldl (fun s p => if (s.link p).sends then (s.nakAgain p).sendFiller p else s) s

/-- Cells of a VC are freed, and the new total goes back as credit (R592). -/
def State.linkFree (s : State) (p vc cells : Nat) : State :=
  let n := (Tab.get 0 (s.link p).freed vc + cells) % 4096
  (s.modLink p fun l => { l with freed := Tab.set 0 l.freed vc n }).sendCtrl p false (some (vc, n))

/-- The ack and the credit totals that fell due while the direction could not send (R584, R592). -/
def State.payDue (s : State) (p : Nat) : State :=
  if !(s.link p).due then s
  else
    let s := (s.modLink p fun l => { l with due := false }).sendCtrl p false none
    (s.link p).freed.foldl (fun s c => s.sendCtrl p false (some c)) s

/-- A direction leaves idle: a burst, then what was due and what waits (R594). -/
def State.leaveIdle (s : State) (p : Nat) : State :=
  if !(s.link p).txIdle then s
  else
    let s := (s.modLink p fun l =>
      { l with txIdle := false, state := if l.rxIdle then l.state else .active }).sendBurst p
    (s.payDue p).linkPump p

end Sys2Proof.Machine
end

