-- ==== Sys2Proof/Machine/Trans.lean ====
section
/-! DEFINITION. Translation (R416 to R448): the micro-caches, the card index, ATS requests and page
requests; and the port cache (R204 to R215), whose dirty lines keep their translation. -/

namespace Sys2Proof.Machine

/-! ### The caches (R424 to R429) -/

/-- Bytes of a page. -/
def pageBytes (big : Bool) : Nat := if big then 2 ^ 30 else 2 ^ 21

/-- The entry covers this FVA of this gallery context. -/
def TlbEntry.covers (e : TlbEntry) (gal pasid fva : Nat) : Bool :=
  e.gal == gal && e.pasid == pasid && e.page == fva / pageBytes e.big

/-- The entry grants the permissions needed (R422). -/
def TlbEntry.grants (e : TlbEntry) (r w : Bool) : Bool := (!r || e.r) && (!w || e.w)

/-- The FPA of an FVA: the page's base, the offset within the page unchanged (R43). -/
def TlbEntry.addr (e : TlbEntry) (fva : Nat) : Nat := e.fpa + fva % pageBytes e.big

/-- Two entries stand for the same page. -/
def TlbEntry.same (a b : TlbEntry) : Bool :=
  a.gal == b.gal && a.pasid == b.pasid && a.big == b.big && a.page == b.page

/-- Two entries lie in one set, by the hash of the cache. -/
def sameSet {w : Nat} (hash : Nat → Nat → Nat → BitVec w) (a b : TlbEntry) : Bool :=
  hash a.gal a.pasid a.page == hash b.gal b.pasid b.page

/-- The least recently used element that satisfies a test is removed; the list holds the most recently
used first. -/
def dropLast {α : Type} (p : α → Bool) (l : List α) : List α := (removeFirst p l.reverse).reverse

/-- Fill an entry: an invalid way, else the gallery's least recently used entry of the set, else any
gallery's; not at all if the gallery's limit is reached and it holds none in the set (R426). -/
def tlbFill (inSet : TlbEntry → TlbEntry → Bool) (ways limit : Nat) (l : List TlbEntry)
    (e : TlbEntry) : List TlbEntry :=
  let l := l.filter fun x => !x.same e
  let set := l.filter fun x => inSet x e
  let mine := (l.filter fun x => x.gal == e.gal).length
  let ownInSet := set.any fun x => x.gal == e.gal
  if mine ≥ limit then
    if ownInSet && limit != 0 then e :: dropLast (fun x => inSet x e && x.gal == e.gal) l else l
  else if set.length < ways then e :: l
  else if ownInSet then e :: dropLast (fun x => inSet x e && x.gal == e.gal) l
  else e :: dropLast (fun x => inSet x e) l

/-- Fill a port's micro-cache: 256 sets of 16 ways (R426). -/
def State.fillUcache (s : State) (p : Nat) (e : TlbEntry) : State :=
  let lim := (s.gal e.gal).ucacheMax
  s.modDocent p fun d => { d with tlb := tlbFill (sameSet Config.ucacheSet) 16 lim d.tlb e }

/-- Fill the card index: 2 Mi sets of 8 entries (R426). -/
def State.fillCidx (s : State) (e : TlbEntry) : State :=
  { s with trn :=
    { s.trn with cidx := tlbFill (sameSet Config.cidxSet) 8 (s.gal e.gal).cidxMax s.trn.cidx e } }

/-- The vault address of the card-index line of an entry's set (R425, R468). -/
def cidxLine (e : TlbEntry) : Nat := 128 * (Config.cidxSet e.gal e.pasid e.page).toNat

/-- Read the card-index line of an entry's set: one that fails correction is rewritten empty and counted
by the conservator (R427). -/
def State.cidxRead (s : State) (e : TlbEntry) : State :=
  let hits := s.badIn (cidxLine e) 128
  let s := s.vmTouch hits
  if hits.any (fun x => x.2 ≥ 2) then
    ({ s with trn :=
        { s.trn with cidx := s.trn.cidx.filter fun x => !sameSet Config.cidxSet x e } }).vmZero
      (cidxLine e) 128
  else s

/-- The entry that a page of an FVA would have, to select its set (R425). -/
def probeOf (gal pasid fva : Nat) (big : Bool) : TlbEntry :=
  { gal := gal, pasid := pasid, big := big, page := fva / pageBytes big, fpa := 0, r := false, w := false }

/-- Look in the card index, the 2 MiB set and the 1 GiB set of the FVA (R424, R427). -/
def State.cidxLookup (s : State) (gal pasid fva : Nat) (r w : Bool) : State × Option TlbEntry :=
  let s := (s.cidxRead (probeOf gal pasid fva false)).cidxRead (probeOf gal pasid fva true)
  match s.trn.cidx.find? fun e => e.covers gal pasid fva && e.grants r w with
  | none => (s, none)
  | some e =>
    ({ s with trn := { s.trn with cidx := e :: removeFirst (fun x => x == e) s.trn.cidx } }, some e)

/-- Look up a translation for a stream: micro-cache, card index, then an answer that could not be
cached (R424, R426). -/
def State.lookup (s : State) (p : Nat) (st : Stream) (gal pasid fva : Nat) (r w : Bool) :
    State × Option TlbEntry :=
  match (s.docent p).tlb.find? fun e => e.covers gal pasid fva && e.grants r w with
  | some e =>
    (s.modDocent p fun d => { d with tlb := e :: removeFirst (fun x => x == e) d.tlb }, some e)
  | none =>
    let s := s.modDocent p fun d => { d with tlbMisses := wrapAdd 32 d.tlbMisses 1 }
    match s.cidxLookup gal pasid fva r w with
    | (s, some e) => (s.fillUcache p e, some e)
    | (s, none) =>
      (s, ((s.docent p).oneShot.find? fun x =>
        x.1 == st && x.2.covers gal pasid fva && x.2.grants r w).map Prod.snd)

/-! ### ATS requests (R416, R417, R420, R431) -/

/-- The function may ask for translations: bound, ATS and PRI enabled, bus mastering, and its TDI in
RUN (R417, R662, R687). -/
def State.mayTranslate (s : State) (g : Nat) : Bool :=
  match s.galFn g with
  | none => false
  | some f => (s.fn f).ats && (s.fn f).pri && (s.fn f).busMaster && (f == 0 || (s.fn f).tdi == 2)

/-- Add a waiting stream if it is not there. -/
def addWait (l : List StreamWait) (x : StreamWait) : List StreamWait :=
  if l.any fun y => y.st == x.st then l else l ++ [x]

/-- Take a slot and send a request for the 2 MiB page of an FVA: one translation, No-Write clear (R420, R431). -/
def State.postAts (s : State) (p f gal pasid fva : Nat) (xs : List StreamWait) : State :=
  let a : AtsReq :=
    { id := (s.docent p).nextAts, gal := gal, pasid := pasid, page := fva / 2 ^ 21, streams := xs
      stale := false, retried := false }
  (s.modDocent p fun d => { d with ats := d.ats ++ [a], nextAts := d.nextAts + 1 }).out
    (.ats f pasid (fva / 2 ^ 21 * 2 ^ 21) 1 false)

/-- Ask the host for a translation: share an outstanding request for the page, take a slot, or wait for
one; the status is `some` where R417 fails the access. -/
def State.askAts (s : State) (p gal pasid : Nat) (x : StreamWait) : State × Option Nat :=
  match s.galFn gal with
  | none => (s, some stFault)
  | some f =>
    if !s.mayTranslate gal then (s, some stFault)
    else
      let d := s.docent p
      let page := x.fva / 2 ^ 21
      if d.ats.any fun a => a.gal == gal && a.pasid == pasid && a.page == page then
        let mine (a : AtsReq) : Bool := a.gal == gal && a.pasid == pasid && a.page == page
        let join (a : AtsReq) : AtsReq := { a with streams := addWait a.streams x }
        (s.modDocent p fun d => { d with ats := modifyFirst mine join d.ats }, none)
      else if d.ats.length ≥ 64 || (d.ats.filter fun a => a.gal == gal).length ≥ 32 then
        (s.modDocent p fun d => { d with atsWait := addWait d.atsWait x }, none)
      else
        (s.postAts p f gal pasid x.fva [x], none)

/-- What a stream's translation comes to. -/
inductive TrResult where
  | ok (fpa : Nat)
  | wait
  | fail (status : Nat)
deriving DecidableEq, Repr

/-- The node id is a module's: this module's own, or one to which a valid route of the active bank ends at a local
port (R499, R500). DEDUCED: log entry 78. -/
def State.isModule (s : State) (node : Nat) : Bool :=
  node == s.node || (s.cat.installed
    && ((s.bank s.cat.epoch).pick node fun _ w => routeEntry (routeBits w) (routeHopsM1 w) == 0x3F).isSome)

/-- An FPA that a translated access may name: at a module's node id, one in the shelf pool (R34, R44). -/
def State.fpaListed (s : State) (fpa : Nat) : Bool :=
  !s.isModule (fpaNode fpa) || fpaOff fpa < shelfBytes

/-- Look ahead of a context's next line (R199, R432): a listed address under a page that a cache holds; on a miss a
request for the page, for which no stream waits, if a slot is free. -/
def State.lookAhead (s : State) (g gal pasid fva : Nat) : State × Option Nat :=
  let p := g / 16
  let asked (a : AtsReq) : Bool := a.gal == gal && a.pasid == pasid && a.page == fva / 2 ^ 21
  if (s.docent p).ats.any asked then (s, none)
  else
    match s.lookup p (.ctx g) gal pasid fva true false with
    | (s, some e) => (s, if s.fpaListed (e.addr fva) then some (e.addr fva) else none)
    | (s, none) =>
      let d := s.docent p
      match s.galFn gal with
      | none => (s, none)
      | some f =>
        if !s.mayTranslate gal || d.ats.length ≥ 64 || (d.ats.filter fun a => a.gal == gal).length ≥ 32 then (s, none)
        else (s.postAts p f gal pasid fva [], none)

/-- The page of the translation just used for an access has 1 GiB (R424). -/
def State.pageIsBig (s : State) (p gal pasid fva : Nat) : Bool :=
  (((s.docent p).tlb ++ s.trn.cidx ++ (s.docent p).oneShot.map Prod.snd).find? fun e =>
    e.covers gal pasid fva).elim false (·.big)

/-- The translation under which a packet is generated, as R445 needs it. -/
def State.trOf (s : State) (p gal pasid fva : Nat) : Option (Nat × Nat × Bool) :=
  some (pasid, fva, s.pageIsBig p gal pasid fva)

/-- Translate an FVA for a stream, or make the stream wait (R43, R424, R431). -/
def State.translate (s : State) (p : Nat) (st : Stream) (gal pasid fva : Nat) (r w : Bool) :
    State × TrResult :=
  match s.lookup p st gal pasid fva r w with
  | (s, some e) =>
    (s, if s.fpaListed (e.addr fva) then .ok (e.addr fva) else .fail stAddrError)
  | (s, none) =>
    match s.askAts p gal pasid { st := st, fva := fva, r := r, w := w } with
    | (s, none) => (s, .wait)
    | (s, some e) => (s, .fail e)

/-! ### Page requests (R435 to R437, R449, R450) -/

/-- The stream waits for this page request. -/
def PageReq.has (q : PageReq) (st : Stream) : Bool := q.streams.any fun x => x.st == st

/-- The stream waits for a translation or a page request. -/
def State.streamWaits (s : State) (p : Nat) (st : Stream) : Bool :=
  (s.docent p).ats.any (fun a => a.streams.any fun x => x.st == st)
    || (s.docent p).atsWait.any (fun x => x.st == st)
    || s.fns.any fun f =>
        f.2.waiting.any (fun q => q.has st) || f.2.prgs.any (fun q => !q.2.abandoned && q.2.has st)

/-- The stream has a page request outstanding or waiting. -/
def State.pageWaits (s : State) (st : Stream) : Bool :=
  s.fns.any fun f =>
    f.2.waiting.any (fun q => q.has st) || f.2.prgs.any (fun q => !q.2.abandoned && q.2.has st)

/-- Two page requests that share one message (R436). -/
def PageReq.same (a b : PageReq) : Bool :=
  a.gal == b.gal && a.pasid == b.pasid && a.fva / 2 ^ 21 == b.fva / 2 ^ 21 && a.r == b.r && a.w == b.w

/-- A page request begins to wait, or joins one for the same page and permission (R436, R437). -/
def Fn.addPage (f : Fn) (q : PageReq) : Fn :=
  let join (x : PageReq) : PageReq := { x with streams := x.streams ++ q.streams }
  let open_ (x : Nat × PageReq) : Bool := !x.2.abandoned && x.2.same q
  if f.prgs.any open_ then { f with prgs := modifyFirst open_ (fun x => (x.1, join x.2)) f.prgs }
  else if f.waiting.any fun x => x.same q then
    { f with waiting := modifyFirst (fun x => x.same q) join f.waiting }
  else { f with waiting := f.waiting ++ [q] }

/-- The lowest PRG index not in use (R435, R442). -/
def Fn.freePrg (f : Fn) : Option Nat :=
  (List.range 512).find? fun i => !(f.prgs.any fun x => x.1 == i)

/-- Send the oldest waiting page request: record, then message, a group of one with Last set (R435, R437). -/
def State.sendPage (s : State) (f : Nat) : State :=
  let x := s.fn f
  match x.waiting, x.freePrg with
  | q :: rest, some idx =>
    if x.incRoom && x.prgs.length < min 512 x.priAlloc then
      let s := s.incPut f
        { cls := 0x01, gal := q.gal, port := q.port, ctx := q.ctx, pasid := q.pasid
          addr := q.fva / 4096 * 4096
          infoA := idx + (if q.r then 512 else 0) + (if q.w then 1024 else 0)
            + (if q.isEp then 2048 else 0)
          infoB := q.info }
      (s.modFn f fun x => { x with waiting := rest, prgs := x.prgs ++ [(idx, q)] }).out
        (.pri f q.pasid (q.fva / 4096 * 4096) q.r q.w idx true)
    else s
  | _, _ => s

/-- A stream ends: it leaves every translation request and page request; a waiting page request with no
other stream is never sent, an outstanding one holds its index (R442, R462). -/
def State.endStream (s : State) (p : Nat) (st : Stream) : State :=
  let s := s.modDocent p fun d =>
    { d with
      ats := d.ats.map fun a => { a with streams := a.streams.filter fun x => x.st != st }
      atsWait := d.atsWait.filter fun x => x.st != st
      oneShot := d.oneShot.filter fun x => x.1 != st }
  let leave (_ : Nat) (f : Fn) : Fn :=
    let shorter (q : PageReq) : PageReq := { q with streams := q.streams.filter fun x => x.st != st }
    let close (q : Nat × PageReq) : Nat × PageReq :=
      (q.1, { shorter q.2 with abandoned := q.2.abandoned || (shorter q.2).streams == [] })
    { f with waiting := (f.waiting.map shorter).filter (fun q => q.streams != [])
             prgs := f.prgs.map close }
  { s with fns := Tab.mapVals Fn.reset leave s.fns }

/-! ### The port cache (R204 to R215) -/

def PcLine.tag (l : PcLine) (gal pasid fva : Nat) : Bool :=
  l.gal == gal && l.pasid == pasid && l.fva == fva

/-- A write-back failed: the line is dropped, recorded and counted; a FLUSH or INVAL that covers it
keeps the first such status (R146, R214). DESIGN CHOICE: a newer line of the tag, entered after the failed write-back
left, is dropped with it; R214 does not say which line is meant then (log entry 79). -/
def State.wbFailed (s : State) (p gal pasid fva status : Nat) : State :=
  let s := s.modDocent p fun d =>
    { d with
      pcache := d.pcache.filter fun l => !l.tag gal pasid fva
      wbFail := wrapAdd 32 d.wbFail 1 }
  let note (g : Nat) (c : Ctx) : Ctx :=
    match c.block with
    | .flush drop base len true 0 =>
      if g / 16 = p && c.gal = gal && (len = 0 || (base ≤ fva && fva < base + len)) then
        { c with block := .flush drop base len true status }
      else c
    | _ => c
  let s := { s with ctxs := Tab.mapVals Ctx.reset note s.ctxs }
  s.galIncident gal
    { cls := 0x05, status := status, gal := gal, port := p, pasid := pasid, addr := fva }

/-- Write a dirty line back whole, under the translation it kept (R211, R212). -/
def State.writeBack (s : State) (p : Nat) (l : PcLine) : State :=
  match s.request p (.writeBack p l.gal l.pasid l.fva) none l.gal ftWrite (s.dataVc l.gal) 1 l.fpa 0
      l.data (some (l.pasid, l.fva, l.big)) with
  | (s, none) => s
  | (s, some st) => s.wbFailed p l.gal l.pasid l.fva st

/-- Drop the first line with a tag. -/
def pcDrop (gal pasid fva : Nat) (l : List PcLine) : List PcLine :=
  removeFirst (fun x => x.tag gal pasid fva) l

/-- Evict the gallery's least recently used line; a dirty one is written back (R210, R211). -/
def State.pcEvict (s : State) (p gal : Nat) : State :=
  match (s.docent p).pcache.reverse.find? fun l => l.gal == gal with
  | none => s
  | some l =>
    let s := s.modDocent p fun d => { d with pcache := pcDrop l.gal l.pasid l.fva d.pcache }
    if l.dirty then s.writeBack p l else s

/-- The gallery's quota of a port cache (R218). -/
def State.pcLimit (s : State) (p gal : Nat) : Nat := Tab.get 0 (s.docent p).pcQuota gal

/-- Reads in flight whose data may not enter the port cache any more. -/
def State.barFills (s : State) (sel : Outst → Bool) : State :=
  let bar (o : Outst) : Outst := if sel o then { o with noFill := true } else o
  { s with replay := s.replay.map bar, held := s.held.map bar }

/-- The packet reads source lines for a context of a port under a gallery and PASID. -/
def State.fillsFor (s : State) (p gal pasid : Nat) (o : Outst) : Bool :=
  match o.origin with
  | .srcRead h _ _ _ => h / 16 == p && (s.ctx h).gal == gal && (s.ctx h).pasid == pasid
  | _ => false

/-- Enter a line, replacing a line of its tag and evicting within the quota (R206, R207, R210). A clean fill of the
tag that is under way will be dropped when a dirty line enters (R206). -/
def State.pcPut (s : State) (p : Nat) (l : PcLine) : State :=
  let s := if l.dirty then
      s.barFills fun o => s.fillsFor p l.gal l.pasid o && o.tr.any fun t => t.2.1 == l.fva
    else s
  let s := s.modDocent p fun d => { d with pcache := pcDrop l.gal l.pasid l.fva d.pcache }
  let mine := ((s.docent p).pcache.filter fun x => x.gal == l.gal).length
  let s := if mine ≥ s.pcLimit p l.gal then s.pcEvict p l.gal else s
  s.modDocent p fun d => { d with pcache := l :: d.pcache }

/-- The line of a tag, made the most recently used. -/
def State.pcGet (s : State) (p gal pasid fva : Nat) : State × Option PcLine :=
  match (s.docent p).pcache.find? fun l => l.tag gal pasid fva with
  | none => (s, none)
  | some l => (s.modDocent p fun d => { d with pcache := l :: pcDrop gal pasid fva d.pcache }, some l)

/-- Write back every dirty line that a test selects; each becomes clean, or leaves the cache if `drop`
(R144, R145, R211). -/
def State.pcFlush (s : State) (p : Nat) (sel : PcLine → Bool) (drop : Bool) : State :=
  let dirty := (s.docent p).pcache.filter fun l => sel l && l.dirty
  let s := s.modDocent p fun d =>
    { d with pcache :=
        if drop then d.pcache.filter fun l => !sel l
        else d.pcache.map fun l => if sel l then { l with dirty := false } else l }
  dirty.foldl (fun s l => s.writeBack p l) s

/-- The acquire action on the port cache: clean lines of the gallery and PASID leave it, at MODULE scope
those whose home is this module (R255); and fills of such lines that are under way will not enter it, since they may
be older than what the acquire makes visible (R233, R254). -/
def State.acquire (s : State) (p gal pasid scope : Nat) : State :=
  if scope = 0 then s
  else
    let node := s.node
    let local_ (fpa : Nat) : Bool :=
      fpaNode fpa == node
        || (s.cat.installed
          && ((s.bank s.cat.epoch).pick (fpaNode fpa) fun _ w => routeHopsM1 w == 0).isSome)
    let s := s.barFills fun o =>
      s.fillsFor p gal pasid o && (scope != 1 || local_ (FHdr.dec o.hdr).fpa)
    s.modDocent p fun d =>
      { d with pcache := d.pcache.filter fun l =>
          l.dirty || l.gal != gal || l.pasid != pasid || (scope == 1 && !local_ l.fpa) }

/-! ### Invalidation (R444, R445) -/

/-- Two ranges of addresses overlap. -/
def overlaps (a n b m : Nat) : Bool := a < b + m && b < a + n

/-- The entry is dropped by an invalidation of a range, for one PASID or all (R444). -/
def TlbEntry.hit (e : TlbEntry) (gal : Nat) (pasid : Option Nat) (base len : Nat) : Bool :=
  e.gal == gal && pasid.all (· == e.pasid)
    && overlaps (e.page * pageBytes e.big) (pageBytes e.big) base len

/-- A page of this size that holds an FVA overlaps a range. -/
def pageHit (fva : Nat) (big : Bool) (base len : Nat) : Bool :=
  overlaps (fva / pageBytes big * pageBytes big) (pageBytes big) base len

/-- Steps 1, 2 and 4 of R445: entries leave the caches, overlapping ATS requests become stale, and dirty lines whose
kept translation is of an overlapping page are written back. -/
def State.invalidate (s : State) (gal : Nat) (pasid : Option Nat) (base len : Nat) : State :=
  let stale (a : AtsReq) : AtsReq :=
    if a.gal == gal && pasid.all (· == a.pasid) && overlaps (a.page * 2 ^ 21) (2 ^ 21) base len then
      { a with stale := true }
    else a
  let drop (_ : Nat) (d : Docent) : Docent :=
    { d with tlb := d.tlb.filter (fun e => !e.hit gal pasid base len)
             oneShot := d.oneShot.filter (fun x => !x.2.hit gal pasid base len)
             ats := d.ats.map stale }
  let s := { s with
    trn := { s.trn with cidx := s.trn.cidx.filter fun e => !e.hit gal pasid base len }
    docents := Tab.mapVals Docent.reset drop s.docents }
  let under (l : PcLine) : Bool :=
    l.gal == gal && pasid.all (· == l.pasid) && pageHit l.fva l.big base len
  (s.docents.map Prod.fst).foldl (fun s p => s.pcFlush p under false) s

/-- The packets, sent or waiting to be sent, that were generated under an entry of an overlapping page (R445 step 3),
by their numbers. -/
def State.invalWaits (s : State) (gal : Nat) (pasid : Option Nat) (base len : Nat) : List Nat :=
  ((s.replay ++ s.held).filter fun o =>
    fieldN o.hdr 120 6 == gal && o.tr.any fun t => pasid.all (· == t.1) && pageHit t.2.1 t.2.2 base len).map (·.uid)

/-- Every cached translation of a gallery is dropped, as for an invalidation of its whole space (R417). -/
def State.dropTranslations (s : State) (gal : Nat) : State := s.invalidate gal none 0 (2 ^ 64)

end Sys2Proof.Machine
end

