-- ==== Sys2Proof/Machine/Endpoint.lean ====
section
/-! DEFINITION. The attached end-point (R42 to R73): its line requests and their completions, and the
target requests that the docent makes of it. -/

namespace Sys2Proof.Machine

/-! ### Packets to the end-point (R46, R50, R645) -/

/-- The gallery's send slot at a port (R645). -/
def State.sendSlotOf (s : State) (p gal : Nat) : Option Nat :=
  let k := Tab.get 0 (s.docent p).sendSlot gal
  if k = 0 then none
  else if ((s.docent p).slot (k - 1)).installed then some (k - 1) else none

/-- The nonce of an end-point packet: counter, key_slot, direction (0 from the end-point), a zero bit, key_gen and zeros
(R49). -/
def epNonce (e : EHdr) (dir : Nat) : Bytes :=
  natLe 12 (e.counter % 2 ^ 64 + e.slot % 64 * 2 ^ 64 + dir % 2 * 2 ^ 70 + e.keyGen % 65536 * 2 ^ 72)

/-- Send a packet to the end-point under the gallery's send slot, requests on VC0 and completions on VC2: the header
authenticated, the payload encrypted. With no installed send slot, or over a link that is down, nothing is sent (R48,
R50, R54, R602, R645). -/
def State.sendEp (s : State) (p gal : Nat) (e : EHdr) (payload : Bytes) : State :=
  match s.sendSlotOf p gal with
  | none => s
  | some k =>
    if !linkCarries (s.link p) then s
    else
      let ks := (s.docent p).slot k
      let e := { e with slot := k, keyGen := ks.gen, counter := ks.txCtr + 1 }
      let c := gcmSeal ks.key (epNonce e 1) (headerBytes e.enc) payload
      ((s.modDocent p fun d => d.modSlot k fun ks => { ks with txCtr := ks.txCtr + 1 }).out
        (.ep p e.enc payload)).linkSend p (if e.opcode < 0x80 then 0 else 2) 0 e.enc c.1 c.2

/-- A packet leaves the port's receive buffer, and its cells return as credit (R592). -/
def State.takeEp (s : State) (p : Nat) (hdr : Header) (payload : Bytes) : State :=
  let mine (x : Nat × Bytes) : Bool := x.1 == p && x.2.take 32 == headerBytes hdr
  if s.epIn.any mine then
    { s with epIn := removeFirst mine s.epIn }.linkFree p (if fieldN hdr 7 1 = 1 then 2 else 0)
      (packetCells payload)
  else s

/-- The completion of an end-point request: opcode with bit 7 set, the request's context and tag, and the
status in the word (R53, R55, R61). SYNC_DONE and ATOMIC_DONE carry 8 B; where the request failed without a
value, those bytes are free. DESIGN CHOICE: lines_m1 of a LOAD_DATA that failed and carries no lines is 0 (log
entry 80). -/
def State.epComplete (s : State) (p gal : Nat) (e : EHdr) (status : Nat) (payload : Bytes) : State :=
  let free := (e.opcode = eoSync || e.opcode = eoAtomic) && payload.length = 0
  let payload := if free then natLe 8 (Config.freeWord s.freeCtr).toNat else payload
  (if free then s.draw else s).sendEp p gal
    { opcode := (if e.opcode < 0x80 && 1 ≤ e.opcode && e.opcode ≤ 6 then e.opcode + 0x80 else 0x80)
      ctx := e.ctx, tag := e.tag
      linesM1 := if e.opcode = eoLoad && status = stOk then e.linesM1 else 0
      slot := 0, keyGen := 0, address := 0, counter := 0, word := status, rsv := false } payload

/-! ### Requests (R51, R60, R66) -/

/-- Authentication of a packet from the end-point: an installed slot, its current generation, a counter above the last
accepted, and a tag that verifies under the slot's key (R48, R51). It gives the payload in plaintext. -/
def State.epAuth (s : State) (p : Nat) (e : EHdr) (payload tag : Bytes) : State × Option Bytes :=
  let k := (s.docent p).slot e.slot
  let plain := if k.installed && k.gen == e.keyGen && k.rxCtr < e.counter then
      gcmOpen k.key (epNonce e 0) (headerBytes e.enc) payload tag
    else none
  match plain with
  | some bs => (s.modDocent p fun d => d.modSlot e.slot fun k => { k with rxCtr := e.counter }, some bs)
  | none => (s.modDocent p fun d => { d with authFail := wrapAdd 32 d.authFail 1 }, none)

/-- Count a protocol error of the port (R60, R889). -/
def State.protoErr (s : State) (p : Nat) : State :=
  s.modDocent p fun d => { d with protoErr := wrapAdd 32 d.protoErr 1 }

/-- The launch tag of a context's running tour (R89). -/
def Ctx.launchTag (c : Ctx) : Option Nat :=
  match c.launcher with
  | .ep tag => some tag
  | _ => none

/-- The tag is outstanding: a line request, or a LAUNCH whose tour runs (R59, R89). -/
def State.tagBusy (s : State) (p tag : Nat) : Bool :=
  (s.docent p).reqs.any (fun q => q.tag == tag)
    || s.ctxs.any fun c => c.1 / 16 == p && c.2.launchTag == some tag

/-- An FVA has bits 63 to 57 zero (R12). -/
def fvaOk (a : Nat) : Bool := a < 2 ^ 57

/-- Lines from an address stay in one aligned 2,048 B block (R45). -/
def inBlock (a lines : Nat) : Bool := a % 2048 + 128 * lines ≤ 2048

/-- A request is well formed: item 2 of R66, with R45, R55, R57 and R245. -/
def epWellFormed (e : EHdr) (payload : Bytes) : Bool :=
  let linesOk := e.opcode = eoLoad || e.opcode = eoStore || e.linesM1 = 0
  let arvOk := e.word < 65536 && e.word / 16384 % 2 = 0
  !e.rsv && linesOk &&
  (if e.opcode = eoLoad then
    fvaOk e.address && e.address % 128 = 0 && inBlock e.address (e.linesM1 + 1)
      && payload.length = 0 && e.word = 0
  else if e.opcode = eoStore then
    fvaOk e.address && e.address % 128 = 0 && inBlock e.address (e.linesM1 + 1)
      && payload.length = 128 * (e.linesM1 + 1) && arvOk
  else if e.opcode = eoStoreMasked then
    fvaOk e.address && e.address % 128 = 0 && payload.length = 144 && arvOk
  else if e.opcode = eoSync then
    let sub := e.word % 256
    e.address % 16 = 0 && e.word < 2 ^ 40 && syncSubopOk sub
      && (sub = soWaitGe || sub = soWaitEq || e.word / 256 = 0)
      && payload.length = (if sub = soCas then 16 else 8)
  else if e.opcode = eoLaunch then
    fvaOk e.address && e.address % 16 = 0 && payload.length = 0
  else if e.opcode = eoAtomic then
    fvaOk e.address && e.address % 8 = 0 && e.word < 256 && atomicSubopOk e.word
      && payload.length = (if e.word = soCas then 16 else 8)
  else false)

/-- The gallery that owns a key slot. -/
def State.slotOwner (s : State) (p k : Nat) : Option Nat := ((s.docent p).slot k).owner

/-- Item 3 of R66: the context's binding and its key slot, the gallery's state, the module's state
(R31, R152, R628). -/
def State.epBinding (s : State) (p : Nat) (e : EHdr) : Option Nat :=
  let c := s.ctx (ctxIdx p e.ctx)
  if !c.bound || s.slotOwner p e.slot != some c.gal then some stDenied
  else if c.gal != 0 && (s.gal c.gal).state != .active then some stWrongState
  else if c.gal = 0 && s.ctl.state != .service then some stUnsupported
  else if e.opcode = eoAtomic && (s.ctl.state != .service || s.ctl.atomicsStopped) then
    some stUnsupported
  else none

/-- Drop a request from the port's list. -/
def State.dropReq (s : State) (p tag : Nat) : State :=
  s.modDocent p fun d => { d with reqs := removeFirst (fun q => q.tag == tag) d.reqs }

/-- Complete an accepted request and free its tag (R61). -/
def State.finishReq (s : State) (p : Nat) (q : EpReq) (status : Nat) (payload : Bytes) : State :=
  ((s.dropReq p q.tag).endStream p (.ep p q.tag)).epComplete p q.gal (EHdr.dec q.hdr) status payload

/-- The fabric form of a SYNC or ATOMIC payload (R496): operand A, operand B, the SYNC word, zeros. -/
def syncPayload (a b word : Nat) : Bytes := natLe 8 a ++ natLe 8 b ++ natLe 8 word ++ zeros 8

/-- The fabric request of an end-point request at an FPA (R496, R497, R531). -/
def State.epSend (s : State) (p : Nat) (q : EpReq) (fpa : Nat) : State × Option Nat :=
  let e := EHdr.dec q.hdr
  let org := Origin.epReq p q.tag
  let tr := s.trOf p q.gal q.pasid e.address
  let vc := s.dataVc q.gal
  if e.opcode = eoLoad then
    s.request p org none q.gal ftRead vc (e.linesM1 + 1) fpa 0 [] tr
  else if e.opcode = eoStore then
    s.request p org none q.gal ftWrite vc (e.linesM1 + 1) fpa e.word q.payload tr
  else if e.opcode = eoStoreMasked then
    s.request p org none q.gal ftWriteMasked vc 1 fpa e.word q.payload tr
  else if e.opcode = eoAtomic then
    s.request p org none q.gal ftAtomic 0 0 fpa 0
      (syncPayload (getLe q.payload 0 8) (getLe q.payload 8 8) e.word) tr
  else
    s.request p org none q.gal ftSync 0 0 fpa 0
      (syncPayload (getLe q.payload 0 8) (getLe q.payload 8 8) e.word) none

/-- Permissions that an end-point request needs (R422). -/
def epNeeds (opcode : Nat) : Bool × Bool :=
  if opcode = eoLoad then (true, false)
  else if opcode = eoAtomic then (true, true)
  else (false, true)

/-- Items 4 and 5 of R66 for an accepted request: translate and send; a SYNC bypasses translation (R58).
While a quiesce SWITCH waits, end-point requests wait too (R813). -/
def State.epAdvance (s : State) (p tag : Nat) : State :=
  match (s.docent p).reqs.find? fun q => q.tag == tag with
  | none => s
  | some q =>
    if q.sent || s.cat.quiescing || s.streamWaits p (.ep p tag) then s
    else
      let e := EHdr.dec q.hdr
      let (s, tr) := if e.opcode = eoSync then (s, TrResult.ok e.address)
        else s.translate p (.ep p tag) q.gal q.pasid e.address (epNeeds e.opcode).1 (epNeeds e.opcode).2
      match tr with
      | .wait => s
      | .fail st => s.finishReq p q st []
      | .ok fpa =>
        let mark (x : EpReq) : EpReq := { x with sent := true }
        let s := s.modDocent p fun d =>
          { d with reqs := modifyFirst (fun x => x.tag == tag) mark d.reqs }
        match s.epSend p q fpa with
        | (s, none) => s
        | (s, some st) => s.finishReq p q st []

/-- A line request or SYNC of the attached end-point, in the order of R66: authentication, the tag
(R60), MALFORMED, binding, then translation and route. DESIGN CHOICE: a request refused before its context is known to
be bound to its gallery is answered under the gallery that owns its key slot, G0 if none does (log entry 81). -/
def State.epRequest (s : State) (opcode : Nat) (p : Nat) (hdr : Header) (payload tag : Bytes) : State :=
  let e := EHdr.dec hdr
  if e.opcode ≠ opcode then s
  else
    match (s.takeEp p hdr payload).epAuth p e payload tag with
    | (s, none) => s
    | (s, some payload) =>
      let owner := (s.slotOwner p e.slot).getD 0
      if s.tagBusy p e.tag then s.protoErr p
      else if !epWellFormed e payload then s.epComplete p owner e stMalformed []
      else
        match s.epBinding p e with
        | some st => s.epComplete p owner e st []
        | none =>
          let c := s.ctx (ctxIdx p e.ctx)
          let q : EpReq :=
            { tag := e.tag, hdr := hdr, payload := payload, gal := c.gal, pasid := c.pasid
              sent := false, successes := 0 }
          (s.modDocent p fun d => { d with reqs := d.reqs ++ [q] }).epAdvance p e.tag

/-- LOAD (R70): read 1 to 16 lines at an FVA. -/
def execLoad (p : Port) (hdr : Header) (payload tag : Bytes) (s : State) :
    Host.Outcome State Fault Refusal := .next (s.epRequest eoLoad p hdr payload tag)

/-- STORE (R72): write 1 to 16 lines at an FVA. -/
def execStore (p : Port) (hdr : Header) (payload tag : Bytes) (s : State) :
    Host.Outcome State Fault Refusal := .next (s.epRequest eoStore p hdr payload tag)

/-- STORE_MASKED (R55): write the enabled bytes of one line. -/
def execStoreMasked (p : Port) (hdr : Header) (payload tag : Bytes) (s : State) :
    Host.Outcome State Fault Refusal := .next (s.epRequest eoStoreMasked p hdr payload tag)

/-- SYNC (R58): an operation on a sync object at an FPA. -/
def execSync (p : Port) (hdr : Header) (payload tag : Bytes) (s : State) :
    Host.Outcome State Fault Refusal := .next (s.epRequest eoSync p hdr payload tag)

/-- ATOMIC (R152): an atomic of the end-point, in SERVICE only. -/
def execAtomic (p : Port) (hdr : Header) (payload tag : Bytes) (s : State) :
    Host.Outcome State Fault Refusal := .next (s.epRequest eoAtomic p hdr payload tag)

/-- An opcode that the end-point may send (R53). -/
def epOpcodeKnown (o : Nat) : Bool :=
  (1 ≤ o && o ≤ 6) || o == 0xC1 || o == 0xC2 || o == 0xC3 || o == 0xC6

/-- RESERVED_OPCODE (R53): a request of any other opcode is answered with NAK, in the order of R66: MALFORMED for a
field that must be zero (R46), the binding and the gallery's state, and then UNSUPPORTED. -/
def execReservedOpcode (p : Port) (hdr : Header) (payload tag : Bytes) (s : State) :
    Host.Outcome State Fault Refusal :=
  let e := EHdr.dec hdr
  if epOpcodeKnown e.opcode then .next s
  else
    match (s.takeEp p hdr payload).epAuth p e payload tag with
    | (s, none) => .next s
    | (s, some _) =>
      if s.tagBusy p e.tag then .next (s.protoErr p)
      else
        let status := if e.rsv || e.linesM1 != 0 then stMalformed else (s.epBinding p e).getD stUnsupported
        .next (s.epComplete p ((s.slotOwner p e.slot).getD 0) e status [])

/-! ### Arrival counts and acknowledgements of writes (R56, R188 to R190, R277) -/

/-- Answer a request with a failure from a crossbar input, mark it handled, and keep the status for its duplicates
(R66, R277, R278). -/
def State.answerFail (s : State) (inp : Nat) (h : FHdr) (status : Nat) : State :=
  (((s.handled h).modWindow h fun w => { w with fails := ((h.dseq, status) :: w.fails).take 2048 }).respond
    inp h ftAck status [])

/-- Acknowledge a write that has been handled whole (R277). -/
def State.ackWrite (s : State) (inp : Nat) (h : FHdr) : State := (s.handled h).respond inp h ftAck stOk []

/-- The arrival count of a transfer. -/
def State.arvOf (s : State) (k : Nat × Nat × Nat) : ArvCount :=
  ((s.arv.find? fun e => e.1 == k).map Prod.snd).getD { next := 0, early := [], failed := none }

def State.setArv (s : State) (k : Nat × Nat × Nat) (a : ArvCount) : State :=
  { s with arv := (k, a) :: s.arv.filter fun e => e.1 != k }

/-- Count and acknowledge committed packets of a transfer that are now in turn (R189, R277). -/
def State.arvDrain (s : State) (so gal : Nat) : Nat → ArvCount → State × ArvCount
  | 0, a => (s, a)
  | n + 1, a =>
    match a.early.find? fun e => e.place == a.next with
    | none => (s, a)
    | some e =>
      ((s.soAddOf so gal e.bytes).ackWrite e.inp (FHdr.dec e.hdr)).arvDrain so gal n
        { a with next := a.next + 1, early := removeFirst (fun x => x.place == a.next) a.early }

/-- The packet is counted on arrival (R56). -/
def FHdr.counts (h : FHdr) : Bool := h.param / 32768 % 2 = 1

/-- A copy of this packet has committed and waits for its turn to be counted. -/
def State.arvWaits (s : State) (h : FHdr) (xfer : Option (Nat × Nat)) : Bool :=
  h.counts && xfer.any fun x => (s.arvOf (h.srcNode, h.srcPort, x.1)).early.any fun e => e.place == x.2

/-- A write has committed: it is counted, 128 B per line, after every earlier packet of its transfer, and then
acknowledged; a packet after one that failed is acknowledged uncounted (R56, R189, R190, R277). -/
def State.committed (s : State) (inp : Nat) (h : FHdr) (xfer : Option (Nat × Nat)) : State :=
  if !h.counts then s.ackWrite inp h
  else
    let so := h.param % 16384
    match xfer with
    | none => (s.soAddOf so h.gallery (128 * h.lines)).ackWrite inp h
    | some (id, place) =>
      let k := (h.srcNode, h.srcPort, id)
      let a := s.arvOf k
      if place < a.next || a.failed.any (· < place) then s.ackWrite inp h
      else
        let e : ArvEarly := { place := place, bytes := 128 * h.lines, inp := inp, hdr := h.enc }
        let (s, a) := s.arvDrain so h.gallery (a.early.length + 1) { a with early := a.early ++ [e] }
        s.setArv k a

/-- A write fails: it is answered, and later packets of its transfer that wait for their turn are acknowledged
uncounted (R190). -/
def State.writeFailed (s : State) (inp : Nat) (h : FHdr) (xfer : Option (Nat × Nat)) (status : Nat) : State :=
  let s := s.answerFail inp h status
  match xfer with
  | none => s
  | some (id, place) =>
    if !h.counts then s
    else
      let k := (h.srcNode, h.srcPort, id)
      let a := s.arvOf k
      let first := (a.failed.map (min place)).getD place
      let late := a.early.filter fun e => first < e.place
      late.foldl (fun s e => s.ackWrite e.inp (FHdr.dec e.hdr))
        (s.setArv k { a with failed := some first, early := a.early.filter fun e => e.place ≤ first })

/-- The sync object that a packet counts in belongs to the packet's gallery (R184). -/
def State.arvOwned (s : State) (h : FHdr) : Bool :=
  h.param / 32768 % 2 = 0 || s.soOwned (h.param % 16384) h.gallery

/-! ### Target requests (R59, R62 to R64, R889) -/

/-- The lowest tag, from the next on, that no target request holds (R59). -/
def Docent.freeTgt (d : Docent) : Option Nat :=
  ((List.range 1024).map fun i => (d.nextTgt + i) % 1024).find? fun t =>
    !(d.tgts.any fun q => q.tag == t)

/-- Issue a target request to the end-point of a port; `false` if every tag is in use. -/
def State.target (s : State) (p : Nat) (opcode linesM1 addr word : Nat) (payload : Bytes) (h : FHdr)
    (reqPayload : Bytes) (xfer : Option (Nat × Nat)) : State × Bool :=
  match (s.docent p).freeTgt with
  | none => (s, false)
  | some t =>
    let q : TgtReq :=
      { tag := t, opcode := opcode, hdr := h.enc, payload := reqPayload, xfer := xfer }
    ((s.modDocent p fun d => { d with tgts := d.tgts ++ [q], nextTgt := (t + 1) % 1024 }).sendEp p
      h.gallery
      { opcode := opcode, ctx := 0, tag := t, linesM1 := linesM1, slot := 0, keyGen := 0
        address := addr, counter := 0, word := word, rsv := false } payload, true)

/-- The answer to the fabric request of a target request (R62, R64, R72). -/
def State.targetAnswer (s : State) (p : Nat) (q : TgtReq) (status : Nat) (payload : Bytes) : State :=
  let h := FHdr.dec q.hdr
  if status ≠ stOk then s.writeFailed p h q.xfer status
  else if q.opcode = eoTRead then (s.handled h).respond p h ftData stOk payload
  else if q.opcode = eoTAtomic then
    ((s.keepValue h stOk (BitVec.ofNat 64 (getLe payload 0 8))).handled h).respond p h ftValue stOk
      (sliceB payload 0 8)
  else s.committed p h q.xfer

/-- A completion from the end-point: authenticated, matched by tag and opcode, its status reduced by R64.
DESIGN CHOICE: an OK completion whose payload is not of the length asked for counts as DATA_ERROR, and reserved bits,
address, ctx and lines_m1 of a completion are not looked at; the manual gives no check for either (log entry 82). -/
def State.targetDone (s : State) (opcode : Nat) (p : Nat) (hdr : Header) (payload tag : Bytes) : State :=
  let e := EHdr.dec hdr
  if e.opcode ≠ opcode then s
  else
    match (s.takeEp p hdr payload).epAuth p e payload tag with
    | (s, none) => s
    | (s, some payload) =>
      match (s.docent p).tgts.find? fun q => q.tag == e.tag with
      | none => s.protoErr p
      | some q =>
        if q.opcode + 0x80 ≠ e.opcode then s.protoErr p
        else
          let st := e.word % 256
          let need := if q.opcode = eoTRead then 128 * (FHdr.dec q.hdr).lines
            else if q.opcode = eoTAtomic then 8 else 0
          let st := if st = stOk then (if payload.length = need then stOk else stDataError)
            else if st = stAddrError then stAddrError else stDataError
          (s.modDocent p fun d =>
            { d with tgts := removeFirst (fun x => x.tag == e.tag) d.tgts }).targetAnswer p q st payload

/-- T_READ_DATA (R62): the lines that a T_READ asked for. -/
def execTReadData (p : Port) (hdr : Header) (payload tag : Bytes) (s : State) :
    Host.Outcome State Fault Refusal := .next (s.targetDone 0xC1 p hdr payload tag)

/-- T_WRITE_DONE (R62): the end-point has committed a T_WRITE; the arrival count and the acknowledgement
follow (R56, R72). -/
def execTWriteDone (p : Port) (hdr : Header) (payload tag : Bytes) (s : State) :
    Host.Outcome State Fault Refusal := .next (s.targetDone 0xC2 p hdr payload tag)

/-- T_MASKED_DONE (R62). -/
def execTMaskedDone (p : Port) (hdr : Header) (payload tag : Bytes) (s : State) :
    Host.Outcome State Fault Refusal := .next (s.targetDone 0xC3 p hdr payload tag)

/-- T_ATOMIC_DONE (R154): the old value of an atomic at the end-point. -/
def execTAtomicDone (p : Port) (hdr : Header) (payload tag : Bytes) (s : State) :
    Host.Outcome State Fault Refusal := .next (s.targetDone 0xC6 p hdr payload tag)

/-- TARGET_TIMEOUT (R63): a target request has had no completion for 10 ms; its tag is free again and the
originating request is answered with LOST. -/
def execTargetTimeout (p : Port) (tag : BitVec 10) (s : State) :
    Host.Outcome State Fault Refusal :=
  match (s.docent p).tgts.find? fun q => q.tag == tag.toNat with
  | none => .next s
  | some q =>
    .next ((s.modDocent p fun d =>
      { d with tgts := removeFirst (fun x => x.tag == tag.toNat) d.tgts }).targetAnswer p q stLost [])

end Sys2Proof.Machine
end

