-- ==== Sys2Proof/Machine/Fabric.lean ====
section
/-! DEFINITION. Fabric requests at their destination (R223, R244, R471, R496): the vault controller, the
synchronisation unit and the egress docent. -/

namespace Sys2Proof.Machine

/-! ### Where a packet is handled -/

/-- The packet ends at this module's own node id: its shelves and sync objects (R34). -/
def State.isLocal (s : State) (h : FHdr) : Bool := fpaNode h.fpa == s.node

/-- The port whose end-point the packet ends at: the last route entry (R499, R503). -/
def egressPort (h : FHdr) : Nat := routeEntry h.route h.hopsM1

/-- The gallery holds a key slot with an installed key at the port (R66). -/
def State.galKeyed (s : State) (p g : Nat) : Bool :=
  (s.docent p).slots.any fun e => e.2.installed && e.2.owner == some g

/-- A range of the shelf pool lies in one extent of the gallery that is enabled and ready (R471). -/
def State.shelfOwned (s : State) (g off n : Nat) : Bool :=
  (s.gal g).extents.any fun e =>
    e.2.en && e.2.ready && e.2.base * 0x200000 ≤ off && off + n ≤ (e.2.base + e.2.size) * 0x200000

/-- Checks at a module's node id: the range, then ownership of the shelf and of the sync object that counts the packet
(R34, R35, R66, R184). -/
def State.shelfCheck (s : State) (h : FHdr) (n : Nat) : Option Nat :=
  if fpaOff h.fpa + n > shelfBytes then some stAddrError
  else if !s.shelfOwned h.gallery (fpaOff h.fpa) n || !s.arvOwned h then some stDenied
  else none

/-- Checks at an end-point's node id: an installed key, then the aperture, then the sync object that counts the
packet, then the link (R38, R39, R66, R184, R602). -/
def State.egressCheck (s : State) (h : FHdr) (n : Nat) : Option Nat :=
  let p := egressPort h
  if p ≥ 48 || s.role p != 1 then some stAddrError
  else if !s.galKeyed p h.gallery then some stDenied
  else if (s.docent p).aperture = 0 || fpaOff h.fpa + n > 2 ^ (s.docent p).aperture then
    some stAddrError
  else if !s.arvOwned h then some stDenied
  else if !linkCarries (s.link p) then some stLost
  else none

/-- Checks of a request for `n` bytes at its destination (R66). -/
def State.destCheck (s : State) (h : FHdr) (n : Nat) : Option Nat :=
  if s.isLocal h then s.shelfCheck h n else s.egressCheck h n

/-- The crossbar input from which the destination answers. -/
def State.answerIn (s : State) (h : FHdr) : Nat :=
  if s.isLocal h then localIn h.fpa else egressPort h

/-- A copy of this packet waits for its end-point. -/
def State.inFlight (s : State) (h : FHdr) : Bool :=
  !s.isLocal h && (s.docent (egressPort h)).tgts.any fun q =>
    let g := FHdr.dec q.hdr
    q.opcode != eoTRead && g.srcNode == h.srcNode && g.srcPort == h.srcPort && g.dseq == h.dseq

/-- The word of a target request: arv fields zero (R55). -/
def tWord : Nat := 0

/-- A request of type `ft` arrives: the type, the epoch's bank, the key (R651, R674, R807). It gives the header and the
payload in plaintext. -/
def State.receive (s : State) (ft : Nat) (hdr : Header) (payload tag : Bytes) :
    State × Option (FHdr × Bytes) :=
  let h := FHdr.dec hdr
  if h.ftype ≠ ft then (s, none)
  else
    match (s.unqueue hdr payload).acceptPacket h payload tag with
    | (s, some plain) => (s, some (h, plain))
    | (s, none) => (s, none)

/-- A write of any kind: a duplicate has no effect and is acknowledged again, as its first copy was (R278); otherwise
the checks, then `shelf` at a shelf or `target` at an end-point. -/
def State.writeRequest (s : State) (h : FHdr) (xfer : Option (Nat × Nat))
    (shelf : State → State × Bool) (target : State → State × Bool) (keep : State) : State :=
  let inp := s.answerIn h
  if (s.window h).isDup h.dseq then s.ackAgain inp h
  else if s.inFlight h || s.arvWaits h xfer then s
  else
    match s.destCheck h (128 * h.lines) with
    | some st => s.writeFailed inp h xfer st
    | none =>
      if s.isLocal h then
        match shelf s with
        | (s, true) => s.committed inp h xfer
        | (s, false) => s.writeFailed inp h xfer stDataError
      else
        match target s with
        | (s, true) => s
        | (_, false) => keep

/-- READ (R496): lines of a shelf, or a T_READ at an end-point. A duplicate is performed again (R278). -/
def execRead (hdr : Header) (payload tag : Bytes) (s : State) :
    Host.Outcome State Fault Refusal :=
  match s.receive ftRead hdr payload tag with
  | (s', none) => .next s'
  | (s', some (h, payload)) =>
    let n := 128 * h.lines
    let inp := s'.answerIn h
    match s'.destCheck { h with param := 0 } n with
    | some st => .next (s'.answerFail inp h st)
    | none =>
      if s'.isLocal h then
        match s'.vmRead (vpaShelf (fpaOff h.fpa)) n with
        | (s', some bs) => .next ((s'.handled h).respond inp h ftData stOk bs)
        | (s', none) => .next (s'.answerFail inp h stDataError)
      else
        match s'.target (egressPort h) eoTRead (h.lines - 1) (fpaOff h.fpa) tWord [] h payload none with
        | (s', true) => .next s'
        | (_, false) => .next s

/-- WRITE (R496): commit the lines, count them, acknowledge. -/
def execWrite (hdr : Header) (payload tag : Bytes) (xfer : Option (Nat × Nat)) (s : State) :
    Host.Outcome State Fault Refusal :=
  match s.receive ftWrite hdr payload tag with
  | (s', none) => .next s'
  | (s', some (h, payload)) =>
    let bs := sliceB payload 0 (128 * h.lines)
    .next (s'.writeRequest h xfer
      (fun s => (s.vmWrite (vpaShelf (fpaOff h.fpa)) bs, true))
      (fun s => s.target (egressPort h) eoTWrite (h.lines - 1) (fpaOff h.fpa) tWord bs h payload xfer) s)

/-- The bytes of a line under a 16-byte mask: bit i enables byte i (R55, R227). -/
def maskMerge (mask : Bytes) (new old : Bytes) : Bytes :=
  let m := BitVec.ofNat 128 (leNat mask)
  (List.range 128).map fun i =>
    if m.getLsbD i then new.getD i 0 else old.getD i 0

/-- A masked line at a shelf: every codeword that the mask covers in part is read first (R227, R481). -/
def State.shelfMasked (s : State) (vpa : Nat) (mask new : Bytes) : State × Bool :=
  let m := BitVec.ofNat 128 (leNat mask)
  let whole (k : Nat) : Bool := (List.range 64).all fun i => m.getLsbD (64 * k + i)
  let none_ (k : Nat) : Bool := (List.range 64).all fun i => !m.getLsbD (64 * k + i)
  let hits := (s.badIn vpa 128).filter fun e =>
    let k := e.1 - vpa / 64
    !whole k && !none_ k
  let s := s.vmTouch hits
  if hits.any (fun e => e.2 ≥ 2) then (s, false)
  else
    let old := s.vmBytes vpa 128
    let bs := maskMerge mask new old
    let put (s : State) (k : Nat) : State :=
      if none_ k then s else s.vmWrite (vpa + 64 * k) (sliceB bs (64 * k) 64)
    (put (put s 0) 1, true)

/-- WRITE_MASKED (R496): the enabled bytes of one line. -/
def execWriteMasked (hdr : Header) (payload tag : Bytes) (xfer : Option (Nat × Nat))
    (s : State) : Host.Outcome State Fault Refusal :=
  match s.receive ftWriteMasked hdr payload tag with
  | (s', none) => .next s'
  | (s', some (h, payload)) =>
    let h := { h with lines := 1 }
    let bs := sliceB payload 0 144
    .next (s'.writeRequest h xfer
      (fun s => s.shelfMasked (vpaShelf (fpaOff h.fpa)) (sliceB bs 0 16) (sliceB bs 16 128))
      (fun s => s.target (egressPort h) eoTWriteMasked 0 (fpaOff h.fpa) tWord bs h payload xfer) s)

/-- ZERO_RUN (R183): zero lines, written as zeros at a shelf and by an ordinary T_WRITE at an end-point. -/
def execZeroRun (hdr : Header) (payload tag : Bytes) (xfer : Option (Nat × Nat)) (s : State) :
    Host.Outcome State Fault Refusal :=
  match s.receive ftZeroRun hdr payload tag with
  | (s', none) => .next s'
  | (s', some (h, payload)) =>
    let n := 128 * h.lines
    .next (s'.writeRequest h xfer
      (fun s => (s.vmZero (vpaShelf (fpaOff h.fpa)) n, true))
      (fun s => s.target (egressPort h) eoTWrite (h.lines - 1) (fpaOff h.fpa) tWord (zeros n) h payload
        xfer) s)

/-! ### Sync objects (R243 to R249, R267 to R272) -/

/-- Complete a SYNC with a value. -/
def State.syncDone (s : State) (h : FHdr) (status : Nat) (v : Word) : State :=
  ((s.keepValue h status v).handled h).respond (localIn h.fpa) h ftValue status (natLe 8 v.toNat)

/-- The completion that a duplicate SYNC or ATOMIC receives: that of its first copy; a listed WAIT is
acknowledged again, and so is one that failed, with its status (R270, R278). -/
def State.dupValue (s : State) (inp : Nat) (h : FHdr) : State :=
  match (s.window h).values.find? fun x => x.1 == h.dseq with
  | some (_, st, v) => s.respond inp h ftValue st (natLe 8 v.toNat)
  | none => s.ackAgain inp h

/-- A WAIT enters: it completes at once, is listed, or finds its gallery's quota full (R249, R267,
R268). Its listing is acknowledged (R270). -/
def State.enterWait (s : State) (so : Nat) (h : FHdr) (eq : Bool) (operand : Word) (timeout : Nat) :
    State :=
  let o := s.so so
  if waitMet eq operand o.value then s.syncDone h stOk o.value
  else if s.waitersOf h.gallery ≥ (s.gal h.gallery).maxWaiters then
    ({ s with waitRefused := wrapAdd 32 s.waitRefused 1 }).syncDone h stNoWaiter o.value
  else
    let w : Waiter :=
      { gal := h.gallery, eq := eq, operand := operand, timeout := timeout, hdr := h.enc
        srcNode := h.srcNode, srcPort := h.srcPort, dseq := h.dseq }
    ((s.setSo so { o with waiters := o.waiters ++ [w] }).handled h).respond (localIn h.fpa) h ftAck stOk
      []

/-- FABRIC_SYNC (R244): an operation on a sync object commits, or a WAIT enters. -/
def execFabricSync (hdr : Header) (payload tag : Bytes) (s : State) :
    Host.Outcome State Fault Refusal :=
  match s.receive ftSync hdr payload tag with
  | (s', none) => .next s'
  | (s', some (h, payload)) =>
    let inp := s'.answerIn h
    let w := s'.window h
    if w.isDup h.dseq then .next (s'.dupValue inp h)
    else if w.withdrawn.contains h.dseq then
      .next ((s'.modWindow h fun w => { w with withdrawn := w.withdrawn.erase h.dseq }).handled h)
    else if !s'.isLocal h then .next (s'.answerFail inp h stAddrError)
    else
      match soOfOffset (fpaOff h.fpa) with
      | none => .next (s'.answerFail inp h stAddrError)
      | some n =>
        if !s'.soOwned n h.gallery then .next (s'.answerFail inp h stDenied)
        else
          let a : Word := BitVec.ofNat 64 (getLe payload 0 8)
          let b : Word := BitVec.ofNat 64 (getLe payload 8 8)
          let word := getLe payload 16 8
          let sub := word % 256
          let old := (s'.so n).value
          if sub = soWaitGe || sub = soWaitEq then
            .next (s'.enterWait n h (sub == soWaitEq) a (word / 256))
          else if sub = soRead then .next (s'.syncDone h stOk old)
          else .next ((s'.soCommit n (syncApply sub old a b)).syncDone h stOk old)

/-- A packet that is only acknowledged arrives: it is checked, and the first copy has its effect; one that is not `mine`
belongs to another command (R277, R278, R498, R651, R807). -/
def State.takeOnce (s : State) (ft : Nat) (inp : FHdr → Nat) (mine : Bytes → Bool) (pkt : FabPkt)
    (act : State → FHdr → Bytes → State) : State :=
  let h := FHdr.dec pkt.hdr
  if h.ftype ≠ ft then s
  else
    match (s.unqueue pkt.hdr pkt.payload).acceptPacket h pkt.payload pkt.tag with
    | (t, none) => t
    | (t, some plain) =>
      if !mine plain then s
      else if (t.window h).isDup h.dseq then t.ackAgain (inp h) h
      else (act t h plain).ackWrite (inp h) h

/-- The type of a WAIT's withdrawal (R272, R496). DESIGN CHOICE: log entry 91. -/
def ftWithdraw : Nat := ftRed + 12

/-- A WAIT withdrawn by its source: the listed one leaves its sync object; before its entry has committed, its sequence
is marked withdrawn (R272). -/
def State.dropWait (s : State) (srcNode srcPort dseq : Nat) : State :=
  let mine (w : Waiter) : Bool := w.srcNode == srcNode && w.srcPort == srcPort && w.dseq == dseq
  let key := winKey srcNode srcPort
  if s.sos.any fun o => o.2.waiters.any mine then
    let leave (_ : Nat) (o : SyncObj) : SyncObj := { o with waiters := o.waiters.filter fun w => !mine w }
    { s with sos := Tab.mapVals SyncObj.reset leave s.sos }
  else if (Tab.get DupWin.reset s.windows key).isDup dseq then s
  else
    { s with windows := Tab.modify DupWin.reset s.windows key fun w =>
      { w with withdrawn := dseq :: w.withdrawn.filter fun d => d != dseq } }

/-- WAIT_WITHDRAWAL (R272): a withdrawal commits; it carries the WAIT's sequence. -/
def execWaitWithdrawal (pkt : FabPkt) (s : State) : Host.Outcome State Fault Refusal :=
  .next (s.takeOnce ftWithdraw (fun h => localIn h.fpa) (fun _ => true) pkt fun s h b =>
    s.dropWait h.srcNode h.srcPort (getLe b 0 4))

/-- WAIT_EXPIRY (R261): a listed WAIT with a timeout expires and completes with TIMEOUT and the value at
expiry (R265). -/
def execWaitExpiry (so : SoNo) (idx : Nat) (s : State) : Host.Outcome State Fault Refusal :=
  let o := s.so so.toNat
  match o.waiters[idx]? with
  | none => .next s
  | some w =>
    if w.timeout = 0 then .next s
    else
      .next ((s.setSo so.toNat { o with waiters := removeAt o.waiters idx }).waitDone w stTimeout o.value)

/-! ### Atomics (R152 to R154) -/

/-- FABRIC_ATOMIC (R152): the module's state, then the address and ownership, then one indivisible
read-modify-write of 8 bytes at a shelf or a T_ATOMIC at an end-point. -/
def execFabricAtomic (hdr : Header) (payload tag : Bytes) (s : State) :
    Host.Outcome State Fault Refusal :=
  match s.receive ftAtomic hdr payload tag with
  | (s', none) => .next s'
  | (s', some (h, payload)) =>
    let inp := s'.answerIn h
    let sub := getLe payload 16 8 % 256
    if (s'.window h).isDup h.dseq then .next (s'.dupValue inp h)
    else if s'.inFlight h then .next s'
    else if s'.ctl.state != .service || s'.ctl.atomicsStopped then
      .next (s'.answerFail inp h stUnsupported)
    else
      match s'.destCheck { h with param := 0 } 8 with
      | some st => .next (s'.answerFail inp h st)
      | none =>
        if s'.isLocal h then
          let vpa := vpaShelf (fpaOff h.fpa)
          match s'.vmRead vpa 8 with
          | (s', none) => .next (s'.answerFail inp h stDataError)
          | (s', some bs) =>
            let old : Word := BitVec.ofNat 64 (leNat bs)
            let v := syncApply sub old (BitVec.ofNat 64 (getLe payload 0 8))
              (BitVec.ofNat 64 (getLe payload 8 8))
            .next ((s'.vmWrite vpa (natLe 8 v.toNat)).syncDone h stOk old)
        else
          let ops := sliceB payload 0 (if sub = soCas then 16 else 8)
          match s'.target (egressPort h) eoTAtomic 0 (fpaOff h.fpa) sub ops h payload none with
          | (s', true) => .next s'
          | (_, false) => .next s

end Sys2Proof.Machine
end

