-- ==== Sys2Proof/Machine/Red.lean ====
section
/-! DEFINITION. Schedule records (R293 to R296, R382), and the packets of the reduction engine (R334, R407, R496,
R498): how a docent or a home sends one, and what every one meets where it arrives. -/

namespace Sys2Proof.Machine

/-! ### Schedule records (R293 to R297, R382) -/

/-- The header of a schedule record, and where the record lies in the image (R293). -/
structure Sched where
  off : Nat
  len : Nat
  gallery : Nat
  depth : Nat
  n : Nat
  b : Nat
  digest : Nat
  joinTimeout : Nat
  instSo : Nat
  alt : Nat
  groups : Nat
deriving DecidableEq, Repr

/-- The record of a schedule in a bank (R293, R803). -/
def Bank.sched (k : Bank) (id : Nat) : Option Sched :=
  let len := k.le (0x61000 + 8 * id) 4
  let off := k.le (0x61000 + 8 * id + 4) 4
  if len = 0 then none
  else
    some
      { off := off, len := len, gallery := k.le (off + 2) 1 % 64, depth := k.le (off + 3) 1
        n := k.le (off + 4) 2, b := k.le (off + 6) 2, digest := k.le (off + 8) 8
        joinTimeout := k.le (off + 16) 4, instSo := k.le (off + 20) 2, alt := k.le (off + 22) 2
        groups := k.le (off + 24) 2 }

/-- Node and port of rank `r` (R294). -/
def Bank.rankOf (k : Bank) (sc : Sched) (r : Nat) : Nat × Nat :=
  let e := k.le (sc.off + 64 + 4 * r) 4
  (e / 2 ^ 20 % 4096, e / 2 ^ 14 % 64)

/-- Node and footprint of the home of group `g` (R294). -/
def Bank.homeOf (k : Bank) (sc : Sched) (g : Nat) : Nat × Nat :=
  let e := k.le (sc.off + 64 + 4 * sc.n + 8 * g) 8
  (e / 2 ^ 52 % 4096, e / 2 ^ 32 % 2 ^ 20)

/-- The experts of a dispatch schedule: owner, local index, capacity (R382). -/
def Bank.experts (k : Bank) (sc : Sched) : List (Nat × Nat × Nat) :=
  let at_ := sc.off + 64 + 4 * sc.n + 8 * sc.groups
  (List.range (k.le at_ 8 % 8192)).map fun e =>
    let w := k.le (at_ + 8 + 8 * e) 8
    (w / 2 ^ 54 % 1024, w / 2 ^ 36 % 4096, w % 2 ^ 20)

/-- The rank of a member (R294, R296). -/
def Bank.rankAt (k : Bank) (sc : Sched) (node port : Nat) : Option Nat :=
  (List.range sc.n).find? fun r => k.rankOf sc r == (node, port)

/-- The active bank. -/
def State.active (s : State) : Bank := s.bank s.cat.epoch

/-- A record of the active bank. -/
def State.sched? (s : State) (id : Nat) : Option Sched :=
  if s.cat.installed then s.active.sched id else none

/-! ### The schedule of an operation (R297, R340, R824)

An operation follows the record of the bank under which it issued, whatever the active bank has become. -/

def State.opSched (s : State) (o : Op) : Option Sched := (s.bank o.epoch).sched o.col.sched

/-- The home of a rank's group. -/
def State.homeNode (s : State) (o : Op) (rank : Nat) : Nat :=
  match s.opSched o with
  | some sc => ((s.bank o.epoch).homeOf sc (rank / sc.b)).1
  | none => s.node

/-! ### Packets of the reduction engine (R14, R334, R407, R495, R496) -/

/-- The kinds of packet: type 0x10 and what is added (R496). DESIGN CHOICE: the manual leaves the numbers, and what
param and payload hold, to the docents and the reduction engine (log entry 91). -/
def rkJoin : Nat := 0
def rkContribution : Nat := 1
def rkCredit : Nat := 2
def rkPartial : Nat := 3
def rkResult : Nat := 4
def rkWithdrawal : Nat := 5
def rkAbort : Nat := 6
def rkOffsets : Nat := 7
def rkExpertOutput : Nat := 8
def rkGrant : Nat := 9
def rkWeights : Nat := 10
def rkFinished : Nat := 11

/-- The name of a kind. -/
def rkName (k : Nat) : String :=
  ["JOIN", "CONTRIBUTION", "CREDIT", "PARTIAL", "RESULT", "WITHDRAWAL", "ABORT", "OFFSETS", "EXPERT_OUTPUT",
    "GRANT_ANNOUNCEMENT", "COMBINE_WEIGHTS", "FINISHED_CHUNK"].getD k ""

/-- Bytes cut into payloads of at most 2,048 B, one at least (R14, R495). -/
def payloads (bs : Bytes) : List Bytes :=
  (List.range (max 1 (ceilDiv bs.length 2048))).map fun k => (bs.drop (2048 * k)).take 2048

/-- The param of a packet: how many packets of its message follow it, and the member's port if it goes to one. -/
def redParam (port : Option Nat) (left : Nat) : Nat :=
  min left 255 * 256 + port.elim 0 fun p => 128 + p % 64

/-- Send the packets of a message on VC4; the status of the first that finds no route is returned. -/
def State.redPieces (s : State) (src : Nat) (org : Origin) (kind gal node : Nat) (port : Option Nat) :
    List Bytes → State × Option Nat
  | [] => (s, none)
  | b :: t =>
    match s.request src org none gal (ftRed + kind) 4 0 (node * 2 ^ 52) (redParam port t.length) b none with
    | (s, some st) => (s, some st)
    | (s, none) => s.redPieces src org kind gal node port t

/-- Send a message of the reduction engine to a node, to a member's port there or to its reduction engine: its numbers
as 8-byte words and its bytes, in packets of up to 2,048 B (R14, R334, R407). -/
def State.redSend (s : State) (src : Nat) (org : Origin) (kind gal node : Nat) (port : Option Nat)
    (sched inst : Nat) (nums : List Nat) (bs : Bytes) : State × Option Nat :=
  (s.out (.red (rkName kind) node (port.getD 0) sched inst nums bs)).redPieces src org kind gal node port
    (payloads ((nums.flatMap fun n => natLe 8 n) ++ bs))

/-- A home sends an abort: to a member's port, or to another home with one of its own groups and how many chunks it had
begun of it (R344, R346, R352, R888). DESIGN CHOICE: log entry 93. -/
def State.sendAbort (s : State) (gal node : Nat) (port : Option Nat) (sched inst status : Nat) (pathLost : Bool)
    (begun : Option (Nat × Nat)) : State :=
  (s.redSend 0x3F (.home sched inst) rkAbort gal node port sched inst
    ([status, pathLost.toNat] ++ begun.elim [] fun b => [b.1, b.2]) []).1

/-- The crossbar input from which a reduction-engine packet is answered: the member's port or the engine's. -/
def redIn (h : FHdr) : Nat := if h.toPort then h.param % 64 else localIn h.fpa

/-- A reduction-engine packet arrives: it is checked, taken once and acknowledged; with the last packet of its message
it has its effect (R277, R278, R498, R651, R807). -/
def State.redArrive (s : State) (kind : Nat) (pkt : FabPkt) (act : State → Bytes → State) : State :=
  s.takeOnce (ftRed + kind) redIn (fun _ => true) pkt fun s h b => if h.param / 256 = 0 then act s b else s

end Sys2Proof.Machine
end

