-- ==== Sys2Proof/Machine/Tour.lean ====
section
/-! DEFINITION. Tours (R74 to R160): context registers, the issue slot, launches, tour lines, failures,
retirement and the end of a tour; and the instructions that a tour itself performs. -/

namespace Sys2Proof.Machine

/-! ### Instructions and registers (R75, R119) -/

/-- The fields of an instruction (R119). -/
structure TInstr where
  op : Nat
  flags : Nat
  ra : Nat
  rb : Nat
  rc : Nat
  rd : Nat
  imm : Nat
  ext : Nat
deriving DecidableEq, Repr

def TInstr.dec (bs : Bytes) : TInstr :=
  let w : Word := BitVec.ofNat 64 (getLe bs 0 8)
  { op := fieldN w 0 8, flags := fieldN w 8 8, rb := fieldN w 16 4, ra := fieldN w 20 4
    rd := fieldN w 24 4, rc := fieldN w 28 4, imm := fieldN w 32 32, ext := getLe bs 8 8 }

/-- A register of a context: X0 reads zero (R75). -/
def Ctx.reg (c : Ctx) (n : Nat) : Nat := if n = 0 then 0 else (Tab.get (0 : Word) c.regs n).toNat

/-- Write a register: a write to X0 is ignored (R75). -/
def Ctx.setReg (c : Ctx) (n v : Nat) : Ctx :=
  if n = 0 then c else { c with regs := Tab.set (0 : Word) c.regs n (BitVec.ofNat 64 v) }

/-- FVA of the instruction at an index (R79). -/
def Ctx.instrFva (c : Ctx) (i : Nat) : Nat := (c.base + 128 + 16 * i) % 2 ^ 64

/-- The instruction at an index, if its line is in the instruction buffer. -/
def Ctx.instrAt (c : Ctx) (i : Nat) : Option TInstr :=
  let a := c.instrFva i
  (c.ibuf.find? fun l => l.1 == a / 128).map fun l => TInstr.dec (sliceB l.2 (a % 128) 16)

/-- Base register plus sign-extended immediate (R122). -/
def Ctx.addr (c : Ctx) (r imm : Nat) : Nat := addW (c.reg r) (sext 32 imm)

/-- The tour runs. -/
def Ctx.running (c : Ctx) : Bool := c.state != .unbound && c.state != .idle

/-! ### The issue slot (R91 to R95) -/

/-- Give the free issue slot to the next READY context in round-robin order (R92). -/
def State.grantSlot (s : State) (p : Nat) : State :=
  if s.ctxs.any fun c => c.1 / 16 == p && c.2.state == .active then s
  else
    let last := (s.docent p).lastSlot
    match ((List.range 16).map fun i => (last + 1 + i) % 16).find? fun n =>
        (s.ctx (ctxIdx p n)).state == .ready with
    | none => s
    | some n =>
      (s.modCtx (ctxIdx p n) fun c => { c with state := .active }).modDocent p fun d =>
        { d with lastSlot := n }

/-- QUANTUM_EXPIRY (R93): the ACTIVE context's quantum expires; with another context READY it returns to
READY and the slot passes on. -/
def State.doQuantumExpiry (s : State) (p : Port) : State :=
  let mine (c : Nat × Ctx) : Bool := c.1 / 16 == p.val
  match s.ctxs.find? fun c => mine c && c.2.state == .active with
  | none => s
  | some a =>
    if s.ctxs.any fun c => mine c && c.2.state == .ready then
      ((s.modCtx a.1 fun c => { c with state := .ready }).grantSlot p)
    else s

/-! ### Failures and the end of a tour (R109 to R118) -/

/-- A packet in flight belongs to a context. -/
def Origin.ofCtx (g : Nat) : Origin → Bool
  | .opWrite h _ _ _ => h == g
  | .srcRead h _ _ _ => h == g
  | .tableRead h _ _ => h == g
  | .tourLine h _ => h == g
  | .descRead h _ => h == g
  | .mcWrite h _ _ => h == g
  | .mcRead h _ _ => h == g
  | .statusWrite h _ => h == g
  | .signal h _ => h == g
  | .wait h => h == g
  | .atomic h => h == g
  | .endRecord h => h == g
  | .collSend h _ => h == g
  | .collRead h _ _ _ => h == g
  | .collRed h _ _ => h == g
  | _ => false

/-- A packet in flight belongs to an operation that a test of its issue index selects. -/
def Origin.ofOp (g : Nat) (sel : Nat → Bool) : Origin → Bool
  | .opWrite h i _ _ => h == g && sel i
  | .srcRead h i _ _ => h == g && sel i
  | .tableRead h i _ => h == g && sel i
  | .descRead h i => h == g && sel i
  | .mcWrite h i _ => h == g && sel i
  | .mcRead h i _ => h == g && sel i
  | .statusWrite h i => h == g && sel i
  | .signal h i => h == g && sel i
  | .collSend h i => h == g && sel i
  | .collRead h i _ _ => h == g && sel i
  | .collRed h i _ => h == g && sel i
  | _ => false

/-- Nobody waits any more for the answers to the packets that a test selects: those sent run to their
acknowledgement; those not sent are dropped, but a SIGNAL that has issued is performed all the same (R113). -/
def State.orphan (s : State) (sel : Origin → Bool) : State :=
  let signal (o : Outst) : Bool :=
    match o.origin with
    | .signal _ _ => true
    | _ => false
  let idle (o : Outst) : Outst := if sel o.origin then { o with origin := .withdrawal } else o
  let s := s.mcUnsent (s.held.filter fun o => sel o.origin && !signal o)
  { s with
    replay := s.replay.map idle
    held := (s.held.filter fun o => !sel o.origin || signal o).map idle }

/-- Operations leave the queue for good: the multicast copies that they still form headers for are released. -/
def State.copiesGone (s : State) (ops : List Op) : State := (ops.filterMap (·.x.copy)).foldl (fun s id => s.mcRelease id) s

/-- The member's withdrawal goes to its home (R114, R342): `own` is the status it gives for itself, 256 for none. -/
def State.withdrawMember (s : State) (g : Nat) (o : Op) (own : Nat) (pathLost : Bool) : State :=
  match o.kind, o.col.inst with
  | .reduce, some n | .dispatch, some n | .combine, some n =>
    (s.redSend (g / 16) .withdrawal rkWithdrawal (s.ctx g).gal (s.homeNode o o.col.rank) none o.col.sched n
      [o.col.rank, own, pathLost.toNat] []).1
  | _, _ => s

/-- A WAIT that is listed or on its way is withdrawn on VC0, and no longer holds its epoch (R272); one not yet sent is
dropped. -/
def State.withdrawWait (s : State) (g : Nat) : State :=
  let mine (o : Outst) : Bool := o.origin == .wait g
  let t := { s with replay := s.replay.filter fun o => !mine o, held := s.held.filter fun o => !mine o }
  match s.replay.find? mine with
  | some o =>
    (t.request o.src .withdrawal none (s.ctx g).gal ftWithdraw 0 0 (FHdr.dec o.hdr).fpa 0 (natLe 4 o.dseq) none).1
  | none => t

/-- Issue stops and the context enters ENDING (R110). A context that is PARKED for an operation which still
runs stays PARKED and returns to ENDING (R97, R886). -/
def State.beginEnding (s : State) (g : Nat) : State :=
  let c := s.ctx g
  let s := match c.block with
    | .wait _ _ => s.withdrawWait g
    | _ => s
  let stays := c.state == .parked && match c.want with
    | .op i => c.ops.any fun o => o.idx == i && o.x.stopAt.isNone
    | .endRecord => true
    | _ => false
  if !c.running then s
  else if stays then s.modCtx g fun c => { c with block := .none, parkedFrom := .ending }
  else
    let keep := match c.want with
      | .op i => c.ops.any fun o => o.idx == i && o.x.stopAt.isNone
      | .endRecord => true
      | _ => false
    (if keep then s else (s.endStream (g / 16) (.ctx g))).modCtx g fun c =>
      { c with state := .ending, block := .none, want := if keep then c.want else .none }

/-- Operations after issue index `i` end without retiring (R111). -/
def State.endLater (s : State) (g i : Nat) : State :=
  let later := (s.ctx g).ops.filter fun o => i < o.idx
  let s := (later.foldl (fun s o => s.withdrawMember g o stNone false) s).copiesGone later
  (s.modCtx g fun c =>
    { c with ops := c.ops.filter fun o => o.idx ≤ i, opsEnded := c.opsEnded + later.length }).orphan
    (Origin.ofOp g fun j => i < j)

/-- An operation is known to fail: nothing later runs on (R110, R111). -/
def State.opFailing (s : State) (g i : Nat) : State := (s.endLater g i).beginEnding g

/-- The failure of an operation stands before another: it is earlier in issue order (R110). -/
def failsFirst (i : Nat) : Option (Nat × Nat × Option Nat) → Bool
  | none => true
  | some (_, _, none) => true
  | some (_, _, some j) => i < j

/-- An instruction fails at issue, or as it blocks (R109, R110). -/
def State.instrFail (s : State) (g status : Nat) : State :=
  let s := s.modCtx g fun c =>
    { c with fail := if c.fail.isNone then some (status, c.pc, none) else c.fail }
  s.beginEnding g

/-- The status of the tour (R109). -/
def Ctx.tourStatus (c : Ctx) : Nat :=
  match c.fail with
  | some (st, _, _) => st
  | none => stOk

/-- The launcher receives the completion of the launch (R88). -/
def State.launchDone (s : State) (g status : Nat) : State :=
  let c := s.ctx g
  match c.launcher with
  | .none => s
  | .ep tag =>
    s.epComplete (g / 16) c.gal
      { opcode := eoLaunch, ctx := g % 16, tag := tag, linesM1 := 0, slot := 0, keyGen := 0
        address := 0, counter := 0, word := 0, rsv := false } status []
  | .ring t =>
    let pc := match c.fail with | some (_, pc, _) => pc | none => c.haltPc.getD c.pc
    s.complete t status (pc % 2 ^ 32 + if status = stOk then c.haltCode * 2 ^ 32 else 0)

/-- The context becomes IDLE (R115 step 4). -/
def State.toIdle (s : State) (g status : Nat) : State :=
  (((s.endStream (g / 16) (.ctx g)).orphan (Origin.ofCtx g)).copiesGone (s.ctx g).ops).modCtx g fun c =>
    { c with state := .idle, launcher := .none, ops := [], ibuf := [], started := false
             block := .none, endRec := 0, want := .none, lastStatus := status
             toursEnded := wrapAdd 32 c.toursEnded 1
             pc := match c.fail with | some (_, pc, _) => pc | none => c.haltPc.getD c.pc }

/-- Steps 2 to 4 of R115: end_so, the completion, IDLE. -/
def State.finishTour (s : State) (g : Nat) (moveEndSo : Bool) : State :=
  let c := s.ctx g
  let st := c.tourStatus
  let s := if moveEndSo && c.endWord / 32768 = 1 then s.soAddOf (c.endWord % 16384) c.gal 1 else s
  (s.launchDone g st).toIdle g st

/-- The tour ends before its first instruction: no end record, and end_so does not move (R85). -/
def State.launchFail (s : State) (g status : Nat) : State :=
  (s.modCtx g fun c => { c with fail := some (status, c.pc, none) }).finishTour g false

/-- The end record could not be written: an incident carries the tour's status (R117, R450). -/
def State.endRecordFailed (s : State) (g status : Nat) : State :=
  let c := s.ctx g
  (s.galIncident c.gal
    { cls := 0x04, status := status, gal := c.gal, port := g / 16, ctx := g % 16, pasid := c.pasid
      addr := c.endFva, infoA := c.tourStatus }).finishTour g true

/-- The 128 bytes of the end record (R116). -/
def Ctx.endRecord (c : Ctx) : Bytes :=
  let (st, pc, op) := match c.fail with
    | some (st, pc, op) => (st, pc, op)
    | none => (stOk, c.haltPc.getD c.pc, none)
  natLe 1 st ++ zeros 3 ++ natLe 4 pc ++ natLe 4 (op.getD 0xFFFFFFFF)
    ++ natLe 4 (if st = stOk then c.haltCode else 0) ++ natLe 8 c.delivered ++ natLe 4 c.opsOk
    ++ natLe 4 c.opsFailed ++ natLe 4 c.opsEnded ++ zeros 4 ++ natLe 8 c.arg.toNat ++ zeros 80

/-- The access that a context's answer of the host is about. -/
def Access.isFor (a : Access) (fva : Nat) (r w : Bool) : Bool := a.fva == fva && a.r == r && a.w == w

/-- Translate for a context, and note what it waits for (R430); an access that the host has refused fails now that the
stream has come to it (R200 step 6b). -/
def State.ctxTranslate (s : State) (g : Nat) (want : Want) (fva : Nat) (r w : Bool) : State × TrResult :=
  let c := s.ctx g
  let res := match (c.accesses.find? fun a => a.isFor fva r w).bind (·.status) with
    | some st => (s, TrResult.fail st)
    | none => s.translate (g / 16) (.ctx g) c.gal c.pasid fva r w
  match res with
  | (s, .wait) => (s.modCtx g fun c => { c with want := want }, .wait)
  | (s, tr) =>
    (s.modCtx g fun c => { c with want := .none, accesses := c.accesses.filter fun a => !a.isFor fva r w }, tr)

/-- Write the end record through translation (R115 step 1, R117). -/
def State.sendEndRecord (s : State) (g : Nat) : State :=
  let c := s.ctx g
  match s.ctxTranslate g .endRecord c.endFva false true with
  | (s, .wait) => s
  | (s, .fail st) => s.endRecordFailed g st
  | (s, .ok fpa) =>
    match s.request (g / 16) (.endRecord g) none c.gal ftWrite (s.dataVc c.gal) 1 fpa 0 c.endRecord
        (s.trOf (g / 16) c.gal c.pasid c.endFva) with
    | (s, none) => s.modCtx g fun c => { c with endRec := 2 }
    | (s, some st) => s.endRecordFailed g st

/-- TOUR_END (R115): every operation of an ENDING context has retired or ended; the end record is written,
then end_so moves, the completion returns and the context becomes IDLE. -/
def State.doTourEnd (s : State) (p : Port) (c : CtxNo) : State :=
  let g := ctxIdx p c
  let x := s.ctx g
  if x.state != .ending || !x.ops.isEmpty || x.endRec != 0 then s
  else if x.endFva = 0 then (s.finishTour g true)
  else ((s.modCtx g fun c => { c with endRec := 1 }).sendEndRecord g)

/-- The binding of a context is cleared: a running tour ends with ABORTED at once (R118); its WAIT ends at the sync
object too, and needs no withdrawal (R272, R273). -/
def State.abortTour (s : State) (g : Nat) : State :=
  let c := s.ctx g
  if !c.running then s
  else
    let s := c.ops.foldl (fun s o => s.withdrawMember g o stAborted false) s
    let s := s.modCtx g fun c => { c with fail := some (stAborted, c.pc, none) }
    (s.launchDone g stAborted).toIdle g stAborted

/-! ### Going on to an instruction (R95, R886) -/

/-- The context has come to instruction `pc` and no cause of BLOCKED remains but a line that is not in the
buffer; at the end of the image the tour fails with MALFORMED (R109). -/
def State.goTo (s : State) (g pc : Nat) : State :=
  let s := s.modCtx g fun c => { c with pc := pc, block := .none }
  let c := s.ctx g
  if c.started && c.state != .ending && pc ≥ c.count then s.instrFail g stMalformed
  else
    s.modCtx g fun c =>
      let blk : Block := if (c.instrAt pc).isNone then .line else .none
      let st := match c.state with
        | .active => if blk == .none then CtxState.active else .blocked
        | .ready | .blocked => if blk == .none then .ready else .blocked
        | st => st
      { c with block := blk, state := st }

/-- The context blocks (R95). -/
def State.blockOn (s : State) (g : Nat) (b : Block) : State :=
  s.modCtx g fun c => { c with block := b, state := if c.state == .parked then .parked else .blocked }

/-- A PARKED context returns to the state that R886 gives. -/
def State.unpark (s : State) (g : Nat) : State :=
  s.modCtx g fun c =>
    if c.state == .parked then
      { c with state :=
          if c.parkedFrom == .ending then .ending else if c.block != .none then .blocked else .ready }
    else c

/-- The context parks (R95); what has been read ahead of its line stream is discarded (R198). -/
def State.park (s : State) (g : Nat) : State :=
  let c := s.ctx g
  if c.state == .parked || !c.running then s
  else
    let s := s.orphan fun o => match o with
      | .srcRead h _ _ _ => h == g
      | .mcRead h _ _ => h == g
      | _ => false
    s.modCtx g fun c =>
      { c with
        parkedFrom := c.state, state := .parked
        ops := c.ops.map fun o =>
          { o with x := { o.x with ready := [], asked := [], nextRead := o.x.nextSend, readFail := none } } }

/-- Operations queued in a docent (R95). -/
def State.docentOps (s : State) (p : Nat) : Nat :=
  (s.ctxs.map fun c => if c.1 / 16 = p then c.2.ops.length else 0).sum

/-- The context may enter one more operation. -/
def State.queueRoom (s : State) (g : Nat) : Bool :=
  (s.ctx g).ops.length < 32 && s.docentOps (g / 16) < 256

/-- Queue entries have freed: contexts that waited for one go on (R95). -/
def State.queueFreed (s : State) (p : Nat) : State :=
  (List.range 16).foldl (fun s n =>
    let g := ctxIdx p n
    if (s.ctx g).block == .queueFull && s.queueRoom g then s.goTo g (s.ctx g).pc else s) s

/-! ### Launching (R83 to R90) -/

/-- Start a tour on an IDLE context (R86). What an earlier tour of the context lost is no concern of this one's FENCE
(R141, R283). -/
def State.launch (s : State) (g base arg : Nat) (l : Launcher) : State :=
  ({ s with lostFor := s.lostFor.filter fun h => h != g }).modCtx g fun c =>
    { c with
      state := .blocked, block := .line, pc := 0, regs := [], base := base, launcher := l, ops := []
      ibuf := [], started := false, count := 0, endFva := 0, endWord := 0
      arg := BitVec.ofNat 64 arg, fail := none, delivered := 0, haltPc := none, haltCode := 0
      nextOp := 0, opsOk := 0, opsFailed := 0, opsEnded := 0, endRec := 0, want := .none
      accesses := [] }

/-- Checks 2 and 3 of R85. A launch during a quiescing SWITCH is refused (R813). -/
def State.launchBusy (s : State) (g : Nat) : Bool :=
  !(s.ctl.state == .service || s.ctl.state == .operational) || s.cat.quiescing
    || (s.ctx g).state != .idle

/-- The lines of the header. -/
def Ctx.headerLines (c : Ctx) : List Nat := [c.base / 128, (c.base + 127) / 128]

/-- The header, once its lines are in the buffer. -/
def Ctx.header (c : Ctx) : Option Bytes :=
  match c.ibuf.find? (fun l => l.1 == c.base / 128),
      c.ibuf.find? (fun l => l.1 == (c.base + 127) / 128) with
  | some a, some b => some (sliceB (if a.1 = b.1 then a.2 else a.2 ++ b.2) (c.base % 128) 128)
  | _, _ => none

/-- The header is valid: check 5 of R85. -/
def headerOk (h : Bytes) : Bool :=
  getLe h 0 2 == 0x7E51 && getLe h 2 1 == 1 && getLe h 3 1 == 0 && 1 ≤ getLe h 4 4
    && getLe h 4 4 ≤ 65536 && getLe h 8 8 % 128 == 0 && fvaOk (getLe h 8 8)
    && getLe h 16 2 / 16384 % 2 == 0 && zeroB h 18 6

/-- Checks 5 and 6 of R85, then the registers of R75. -/
def State.startTour (s : State) (g : Nat) (h : Bytes) : State :=
  let c := s.ctx g
  let ew := getLe h 16 2
  if !headerOk h then s.launchFail g stMalformed
  else if ew / 32768 = 1 && !s.soOwned (ew % 16384) c.gal then s.launchFail g stDenied
  else
    let init (c : Ctx) (k : Nat) : Ctx := c.setReg (3 + k) (getLe h (24 + 8 * k) 8)
    (s.modCtx g fun c =>
      (List.range 13).foldl init
        { (c.setReg 1 c.arg.toNat).setReg 2 c.base with
          started := true, count := getLe h 4 4, endFva := getLe h 8 8, endWord := ew }).goTo g 0

/-- A tour line arrives, or its read fails (R80, R81, R85). -/
def State.tourLineArrives (s : State) (g line : Nat) (what : Fetched) : State :=
  let c := s.ctx g
  if !c.running || c.endRec != 0 then s
  else
    let need := c.instrFva c.pc / 128
    match what with
    | .failed st =>
      if !c.started then (if c.headerLines.contains line then s.launchFail g st else s)
      else if line = need && c.block == .line then s.instrFail g st
      else s
    | .data bs =>
      let window (l : Nat × Bytes) : Bool :=
        if c.started then need ≤ l.1 && l.1 ≤ need + 3 else l.1 < c.base / 128 + 4
      let s := s.modCtx g fun c =>
        { c with ibuf := ((line, bs) :: c.ibuf.filter fun l => l.1 != line).filter window }
      let c := s.ctx g
      if !c.started then
        match c.header with
        | none => s
        | some h => s.startTour g h
      else if c.block == .line && (c.instrAt c.pc).isSome then s.goTo g c.pc
      else s

/-! ### Retirement (R106 to R108) -/

/-- Write back and wait, once every earlier operation has retired (R143 to R145). -/
def State.beginFlush (s : State) (g : Nat) : State :=
  let c := s.ctx g
  match c.block with
  | .flush drop base len false st =>
    if c.ops.isEmpty then
      let s := s.modCtx g fun c => { c with block := .flush drop base len true st }
      s.pcFlush (g / 16)
        (fun l => l.gal == c.gal && (len = 0 || (base ≤ l.fva && l.fva < base + len))) false
    else s
  | _ => s

/-- Change an operation of a context. -/
def State.modOp (s : State) (g i : Nat) (f : Op → Op) : State :=
  s.modCtx g fun c => { c with ops := modifyFirst (fun o => o.idx == i) f c.ops }

/-- The operation of an issue index. -/
def State.op? (s : State) (g i : Nat) : Option Op := (s.ctx g).ops.find? fun o => o.idx == i

/-- An operation has failed for good with a status of its own (R109 to R111). -/
def State.opFailed (s : State) (g i status delivered : Nat) : State :=
  match s.op? g i with
  | none => s
  | some o =>
    let s := (s.opFailing g i).copiesGone [o]
    let s := (s.modCtx g fun c =>
      { c with
        ops := c.ops.filter fun x => x.idx != i
        opsFailed := c.opsFailed + 1
        delivered := if failsFirst i c.fail then delivered else c.delivered
        fail := if failsFirst i c.fail then some (status, o.pc, some i) else c.fail }).beginEnding g
    s.queueFreed (g / 16)

/-- Perform a SIGNAL (R108, R134, R250). -/
def State.performSignal (s : State) (g : Nat) (o : Op) : State :=
  let c := s.ctx g
  let s := s.modOp g o.idx fun x => { x with performed := true, phase := .sent }
  match s.request (g / 16) (.signal g o.idx) none c.gal ftSync 0 0 o.fpa 0
      (syncPayload o.operand.toNat 0 o.subop) none with
  | (s, none) => s
  | (s, some st) => s.opFailed g o.idx st 0

/-- A SIGNAL with release at the head of its queue is performed: every earlier operation has retired
(R108). -/
def State.signalHead (s : State) (g : Nat) : State :=
  match (s.ctx g).ops.head? with
  | some o => if o.kind == .signal && o.release && !o.performed then s.performSignal g o else s
  | none => s

/-- OPERATION_RETIRE (R106): the oldest operation has completed with OK; it retires, done_so moves, and what
waited for it goes on. -/
def State.doOperationRetire (s : State) (p : Port) (c : CtxNo) : State :=
  let g := ctxIdx p c
  match (s.ctx g).ops.head? with
  | none => s
  | some o =>
    if o.phase != .done stOk then s
    else
      let gal := (s.ctx g).gal
      let s := s.modCtx g fun c => { c with ops := c.ops.tail, opsOk := c.opsOk + 1 }
      let s := if o.doneEn then s.soAddOf o.doneSo gal 1 else s
      ((((s.signalHead g).beginFlush g).queueFreed p).grantSlot p)

/-! ### Instructions that a tour performs itself (R135 to R151) -/

/-- The instruction that the ACTIVE context issues now, if it has this opcode (R91). -/
def State.issuing (s : State) (p : Port) (c : CtxNo) (opcode : Nat) : Option TInstr :=
  let x := s.ctx (ctxIdx p c)
  if x.state == .active then
    match x.instrAt x.pc with
    | some t => if t.op = opcode then some t else none
    | none => none
  else none

/-- Unused register fields, immediate and extension of an instruction are zero (R121). -/
def TInstr.zeroRegs (t : TInstr) (ra rb rc rd : Bool) : Bool :=
  (!ra || t.ra == 0) && (!rb || t.rb == 0) && (!rc || t.rc == 0) && (!rd || t.rd == 0)

/-- A scope field (R135). -/
def TInstr.scope (t : TInstr) : Nat := t.flags / 32 % 4

/-- Issue an instruction, or fail it with a status at issue. -/
def State.orFail (s : State) (g : Nat) (check : Option Nat) (go : State → State) : State :=
  (match check with
  | some st => s.instrFail g st
  | none => go s).grantSlot (g / 16)

/-- WAIT (R138): block until the condition on a sync object holds. -/
def State.doWait (s : State) (p : Port) (c : CtxNo) : State :=
  let g := ctxIdx p c
  match s.issuing p c 0x31 with
  | none => s
  | some t =>
    let bad := t.flags / 128 = 1 || t.flags / 2 % 16 != 0 || t.scope = 3
      || !t.zeroRegs false true true false || t.ext % 16 != 0
    (s.orFail g (if bad then some stMalformed else none) fun s =>
      let x := s.ctx g
      let s := s.blockOn g (.wait t.rd t.scope)
      let sub := if t.flags % 2 = 1 then soWaitEq else soWaitGe
      match s.request (g / 16) (.wait g) none x.gal ftSync 0 0 t.ext 0
          (syncPayload (x.reg t.ra) 0 (sub + 256 * t.imm)) none with
      | (s, none) => s
      | (s, some st) => s.instrFail g st)

/-- The WAIT of a context has its answer: the value that satisfied it, or a failure (R138, R139). A WAIT that ends with
the deaccession of its gallery ends the tour as R118 says (R273). -/
def State.waitAnswered (s : State) (g status : Nat) (v : Nat) : State :=
  let c := s.ctx g
  match c.block with
  | .wait rd scope =>
    if status = stOk then
      ((s.acquire (g / 16) c.gal c.pasid scope).modCtx g fun c => c.setReg rd v).goTo g (c.pc + 1)
    else if status = stAborted then s.abortTour g
    else (s.modCtx g fun c => { c with block := .none }).instrFail g status
  | _ => s

/-- FENCE (R141): block until every earlier operation has retired and every write is acknowledged. -/
def State.doFence (s : State) (p : Port) (c : CtxNo) : State :=
  match s.issuing p c 0x38 with
  | none => s
  | some t =>
    let bad := t.flags % 32 != 0 || t.flags / 128 = 1 || t.scope = 3
      || !t.zeroRegs true true true true || t.imm != 0 || t.ext != 0
    (s.orFail (ctxIdx p c) (if bad then some stMalformed else none) fun s =>
      s.blockOn (ctxIdx p c) (.fence t.scope))

/-- FENCE_COMPLETE (R283): every sequence that the fence covers is acknowledged, or lost. -/
def State.doFenceComplete (s : State) (p : Port) (c : CtxNo) : State :=
  let g := ctxIdx p c
  let x := s.ctx g
  match x.block with
  | .fence scope =>
    if !x.ops.isEmpty || (s.replay ++ s.held).any (fun o => o.origin.ofCtx g) then s
    else if s.lostFor.contains g then
      (((s.modCtx g fun c => { c with block := .none }).instrFail g stLost).grantSlot p)
    else (((s.acquire p x.gal x.pasid scope).goTo g (x.pc + 1)).grantSlot p)
  | _ => s

/-- FLUSH or INVAL issues (R142, R143). -/
def State.issueFlush (s : State) (g : Nat) (t : TInstr) (drop : Bool) : State :=
  let base := (s.ctx g).addr t.ra t.imm
  let bad := t.flags != 0 || !t.zeroRegs false true true true || base % 128 != 0 || !fvaOk base
    || t.ext % 128 != 0
  s.orFail g (if bad then some stMalformed else none) fun s =>
    (s.blockOn g (.flush drop base t.ext false stOk)).beginFlush g

/-- FLUSH (R144): write back every dirty line of the range. -/
def State.doFlush (s : State) (p : Port) (c : CtxNo) : State :=
  match s.issuing p c 0x39 with
  | none => s
  | some t => (s.issueFlush (ctxIdx p c) t false)

/-- INVAL (R145): as FLUSH, and then drop every line of the range. -/
def State.doInval (s : State) (p : Port) (c : CtxNo) : State :=
  match s.issuing p c 0x3A with
  | none => s
  | some t => (s.issueFlush (ctxIdx p c) t true)

/-- FLUSH_COMPLETE (R146): every covered write-back has been answered. -/
def State.doFlushComplete (s : State) (p : Port) (c : CtxNo) : State :=
  let g := ctxIdx p c
  let x := s.ctx g
  match x.block with
  | .flush drop base len true st =>
    let inRange (fva : Nat) : Bool := len = 0 || (base ≤ fva && fva < base + len)
    let busy (o : Outst) : Bool :=
      match o.origin with
      | .writeBack q gal _ fva => q == p.val && gal == x.gal && inRange fva
      | _ => false
    if (s.replay ++ s.held).any busy then s
    else
      let s := if drop then s.modDocent p fun d =>
          { d with pcache := d.pcache.filter fun l => !(l.gal == x.gal && inRange l.fva) }
        else s
      if st = stOk then ((s.goTo g (x.pc + 1)).grantSlot p)
      else (((s.modCtx g fun c => { c with block := .none }).instrFail g st).grantSlot p)
  | _ => s

/-- LOOP (R149). -/
def State.doLoop (s : State) (p : Port) (c : CtxNo) : State :=
  let g := ctxIdx p c
  match s.issuing p c 0x40 with
  | none => s
  | some t =>
    let x := s.ctx g
    let bad := t.flags != 0 || t.rc != 0 || (t.rd != 0 && (t.rd == t.ra || t.rd == t.rb))
      || t.imm = 0 || t.imm > x.pc
    (s.orFail g (if bad then some stMalformed else none) fun s =>
      let k := x.reg t.rd
      if k = 0 then s.goTo g (x.pc + 1)
      else
        let s := s.modCtx g fun c => c.setReg t.rd (k - 1)
        if k = 1 then s.goTo g (x.pc + 1)
        else
          let s := s.modCtx g fun c => c.setReg t.ra (addW (c.reg t.ra) (sext 32 t.ext))
          let s := s.modCtx g fun c => c.setReg t.rb (addW (c.reg t.rb) (sext 32 (t.ext / 2 ^ 32)))
          s.goTo g (x.pc - t.imm))

/-- HALT (R150): issue stops; the tour ends when its operations have retired. -/
def State.doHalt (s : State) (p : Port) (c : CtxNo) : State :=
  let g := ctxIdx p c
  match s.issuing p c 0x41 with
  | none => s
  | some t =>
    let bad := t.flags != 0 || !t.zeroRegs true true true true || t.ext != 0
    (s.orFail g (if bad then some stMalformed else none) fun s =>
      s.modCtx g fun c => { c with haltPc := some c.pc, haltCode := t.imm, state := .ending })

/-- Send the atomic of a BLOCKED context once its address is translated (R151, R422). -/
def State.sendAtomic (s : State) (g : Nat) : State :=
  let c := s.ctx g
  match c.instrAt c.pc with
  | none => s
  | some t =>
    let fva := c.addr t.rb t.imm
    match s.ctxTranslate g .atomic fva true true with
    | (s, .wait) => s
    | (s, .fail st) => (s.modCtx g fun c => { c with block := .none }).instrFail g st
    | (s, .ok fpa) =>
      match s.request (g / 16) (.atomic g) none c.gal ftAtomic 0 0 fpa 0
          (syncPayload (c.reg t.ra) (c.reg t.rc) (t.flags % 8)) (s.trOf (g / 16) c.gal c.pasid fva) with
      | (s, none) => s
      | (s, some st) => (s.modCtx g fun c => { c with block := .none }).instrFail g st

/-- TOUR_ATOMIC (R151): an atomic of a tour, in SERVICE only (R152). DESIGN CHOICE: one that is malformed and issues
outside SERVICE fails with MALFORMED; no rule orders the two checks for an instruction (log entry 85). -/
def State.doTourAtomic (s : State) (p : Port) (c : CtxNo) : State :=
  let g := ctxIdx p c
  match s.issuing p c 0x50 with
  | none => s
  | some t =>
    let sub := t.flags % 8
    let fva := (s.ctx g).addr t.rb t.imm
    let bad := t.flags / 8 != 0 || !atomicSubopOk sub || (sub != soCas && t.rc != 0) || t.ext != 0
      || fva % 8 != 0 || !fvaOk fva
    let check := if bad then some stMalformed
      else if s.ctl.state != .service || s.ctl.atomicsStopped then some stUnsupported else none
    (s.orFail g check fun s => (s.blockOn g (.atomic t.rd)).sendAtomic g)

/-- The atomic of a context has its answer. -/
def State.atomicAnswered (s : State) (g status v : Nat) : State :=
  let c := s.ctx g
  match c.block with
  | .atomic rd =>
    if status = stOk then (s.modCtx g fun c => c.setReg rd v).goTo g (c.pc + 1)
    else (s.modCtx g fun c => { c with block := .none }).instrFail g status
  | _ => s

/-- A tour opcode that R120 lists. -/
def tourOpcodeKnown (o : Nat) : Bool :=
  [0x10, 0x11, 0x12, 0x18, 0x20, 0x28, 0x29, 0x30, 0x31, 0x38, 0x39, 0x3A, 0x40, 0x41, 0x50].contains o

/-- RESERVED_TOUR_OPCODE (R120): any other opcode fails with UNSUPPORTED. -/
def State.doReservedTourOpcode (s : State) (p : Port) (c : CtxNo) : State :=
  let g := ctxIdx p c
  let x := s.ctx g
  if x.state != .active then s
  else
    match x.instrAt x.pc with
    | none => s
    | some t =>
      if tourOpcodeKnown t.op then s
      else ((s.instrFail g stUnsupported).grantSlot p)

/-! ### Issue of operations (R100, R101, R121, R123, R125, R133) -/

def Xfer.start : Xfer :=
  { total := 0, nextRead := 0, nextSend := 0, ready := [], tables := [], asked := [], readFail := none, packets := []
    cachedBytes := 0, stopAt := none, copy := none }

def Coll.start : Coll :=
  { sched := 0, inst := none, rank := 0, credits := [], next := 0, sentAll := false, got := 0, kept := []
    delivery := stOk, tables := [], asked := [], off := [], keptCnt := [], recv := [], bases := []
    final := false, grants := [], weights := 0, unacked := 0, resPkts := [], abortAt := none }

/-- A bulk operation as it enters the queue. -/
def Op.start (s : State) (g : Nat) (t : TInstr) (kind : OpKind) : Op :=
  let c := s.ctx g
  { idx := c.nextOp, pc := c.pc, kind := kind, addSrc := c.reg t.ra, addDst := c.reg t.rc
    descFva := c.addr t.rb t.imm, sched := t.ext / 2 ^ 16 % 4096, doneEn := t.flags / 128 = 1
    doneSo := t.ext % 16384, release := false, subop := 0, operand := 0, fpa := 0, performed := false
    epoch := s.cat.epoch, desc := [], phase := .desc, x := Xfer.start, targets := [], col := Coll.start }

/-- The checks of a bulk instruction at issue (R121, R122, R125). -/
def State.bulkCheck (s : State) (g : Nat) (t : TInstr) (sched : Bool) : Option Nat :=
  let c := s.ctx g
  let fva := c.addr t.rb t.imm
  let extOk := if sched then t.ext / 2 ^ 28 = 0 && t.ext / 2 ^ 14 % 4 = 0 else t.ext / 2 ^ 14 = 0
  if t.flags % 128 != 0 || t.rd != 0 || !extOk || fva % 128 != 0 || !fvaOk fva then some stMalformed
  else if t.flags / 128 = 1 && !s.soOwned (t.ext % 16384) c.gal then some stDenied
  else none

/-- Enter an operation in the queue and go on; with a full queue the context blocks (R95, R100). -/
def State.enterOp (s : State) (g : Nat) (o : Op) : State :=
  if s.queueRoom g then
    let s := s.modCtx g fun c => { c with ops := c.ops ++ [o], nextOp := c.nextOp + 1 }
    s.goTo g ((s.ctx g).pc + 1)
  else s.blockOn g .queueFull

/-- SIGNAL (R108): an operation on a sync object, at once or in retirement order. -/
def State.doSignal (s : State) (p : Port) (c : CtxNo) : State :=
  let g := ctxIdx p c
  match s.issuing p c 0x30 with
  | none => s
  | some t =>
    let release := t.flags / 128 = 1
    let useImm := t.flags / 16 % 2 = 1
    let sub := t.flags % 8
    let bad := t.flags / 8 % 2 != 0 || !(1 ≤ sub && sub ≤ 4)
      || (if release then t.scope = 3 else t.scope != 0)
      || (if useImm then t.ra != 0 else t.imm != 0) || !t.zeroRegs false true true true
      || t.ext % 16 != 0
    (s.orFail g (if bad then some stMalformed else none) fun s =>
      let x := s.ctx g
      let o : Op :=
        { Op.start s g t .signal with
          addSrc := 0, addDst := 0, descFva := 0, sched := 0, doneEn := false, doneSo := 0
          release := release, subop := sub, fpa := t.ext, phase := .running
          operand := BitVec.ofNat 64 (if useImm then t.imm else x.reg t.ra) }
      let room := s.queueRoom g
      let s := s.enterOp g o
      if !room then s else if release then s.signalHead g else s.performSignal g o)

end Sys2Proof.Machine
end

