-- ==== Sys2Proof/Machine/Transfer.lean ====
section
/-! DEFINITION. COPY, GATHER and SCATTER (R163 to R203) and MCAST (R126 to R130, R887): descriptors, the
line sequence, packets, and what a transfer comes to. -/

namespace Sys2Proof.Machine

/-! ### The transfer descriptor (R163 to R166) -/

/-- The fields of a transfer descriptor (R163). -/
structure TDesc where
  src : Nat
  dst : Nat
  idx : Nat
  mask : Nat
  n0 : Nat
  n1 : Nat
  n2 : Nat
  n3 : Nat
  n4 : Nat
  arv : Nat
  ctl : Nat
  /-- Strides of dimensions 1 to 4. -/
  ss : List Int
  ds : List Int
deriving DecidableEq, Repr

def TDesc.dec (b : Bytes) : TDesc :=
  let stride (off : Nat) : Int := sext 64 (getLe b off 8)
  { src := getLe b 0 8, dst := getLe b 8 8, idx := getLe b 16 8, mask := getLe b 24 8
    n0 := getLe b 32 4 / 128, n1 := getLe b 36 4, n2 := getLe b 40 4, n3 := getLe b 44 4
    n4 := getLe b 48 4, arv := getLe b 52 2, ctl := getLe b 54 1
    ss := [stride 56, stride 64, stride 72, stride 80]
    ds := [stride 88, stride 96, stride 104, stride 112] }

def TDesc.idx64 (d : TDesc) : Bool := d.ctl / 128 % 2 == 1
def TDesc.zeroDetect (d : TDesc) : Bool := d.ctl / 64 % 2 == 1
def TDesc.srcCache (d : TDesc) : Bool := d.ctl / 32 % 2 == 1
def TDesc.dstCache (d : TDesc) : Bool := d.ctl / 16 % 2 == 1
def TDesc.arvEn (d : TDesc) : Bool := d.arv / 32768 == 1

/-- Lines of the transfer (R164). -/
def TDesc.lines (d : TDesc) : Nat := d.n0 * d.n1 * d.n2 * d.n3 * d.n4

/-- The counts of dimensions 1 to 4. -/
def TDesc.counts (d : TDesc) : List Nat := [d.n1, d.n2, d.n3, d.n4]

/-- The lowest and the highest line address over the box, dimension 1 left out if an index list replaces
it (R165). -/
def boxOk (base n0 : Nat) (counts : List Nat) (strides : List Int) (indexed : Bool) : Bool :=
  let spans := (counts.zip strides).map fun e => ((e.1 : Int) - 1) * e.2
  let spans := if indexed then spans.drop 1 else spans
  let lo := (spans.map fun x => min x 0).sum
  let hi := (spans.map fun x => max x 0).sum + 128 * ((n0 : Int) - 1)
  fvaOk (addW base lo) && fvaOk (addW base hi)

/-- The descriptor is valid for its operation (R165), and what X[ra] and X[rc] add keeps lines aligned (R122). -/
def TDesc.ok (d : TDesc) (b : Bytes) (kind : OpKind) (addSrc addDst : Nat) : Bool :=
  let dim (n : Nat) : Bool := 1 ≤ n && n ≤ 2 ^ 24
  getLe b 55 1 == 0 && d.ctl % 16 == 0 && d.arv / 16384 % 2 == 0 && zeroB b 120 8
    && d.src % 128 == 0 && d.dst % 128 == 0 && d.idx % 128 == 0 && d.mask % 128 == 0
    && getLe b 32 4 % 128 == 0 && 1 ≤ d.n0 && d.n0 ≤ 2 ^ 24 && d.counts.all dim && d.lines ≤ 2 ^ 32
    && (d.ss ++ d.ds).all (fun x => x % 128 == 0)
    && (if kind == .copy then d.idx == 0 else d.idx != 0)
    && !(d.dstCache && d.arvEn)
    && (d.src + addSrc) % 128 == 0 && (d.dst + addDst) % 128 == 0
    && boxOk (d.src + addSrc) d.n0 d.counts d.ss (kind == .gather)
    && boxOk (d.dst + addDst) d.n0 d.counts d.ds (kind == .scatter)

/-! ### The line sequence (R169 to R181) -/

/-- Coordinates i0 to i4 of line `k` (R170). -/
def TDesc.coord (d : TDesc) (k : Nat) : Nat × Nat × Nat × Nat × Nat :=
  (k % d.n0, k / d.n0 % d.n1, k / (d.n0 * d.n1) % d.n2, k / (d.n0 * d.n1 * d.n2) % d.n3
    , k / (d.n0 * d.n1 * d.n2 * d.n3))

/-- The address of line `k` with row `row` of dimension 1 (R169). -/
def lineAddr (base row : Nat) (c : Nat × Nat × Nat × Nat × Nat) (st : List Int) : Nat :=
  let (i0, _, i2, i3, i4) := c
  addW base (128 * (i0 : Int) + row * st.getD 0 0 + i2 * st.getD 1 0 + i3 * st.getD 2 0 + i4 * st.getD 3 0)

/-- What line `k` of a transfer is. -/
inductive LineKind where
  /-- An index-list or mask line must be read first: its FVA. -/
  | need (fva : Nat)
  | bad
  | zero (dst : Nat)
  | data (src dst : Nat)
deriving DecidableEq, Repr

/-- Bytes of a table at an FVA, if its line has been read; a table entry never spans lines. -/
def Xfer.table (x : Xfer) (fva n : Nat) : Option Nat :=
  (x.tables.find? fun t => t.1 == fva / 128).map fun t => getLe t.2 (fva % 128) n

/-- Line `k` of a COPY, GATHER or SCATTER (R169 to R171, R176, R177, R180, R181). DESIGN CHOICE: a zero line of a GATHER
reads no index entry, and its source address is not checked (log entry 86); where a line needs both a mask line and an
index-list line, the mask line is read first (log entry 88). -/
def Op.line (o : Op) (d : TDesc) (k : Nat) : LineKind :=
  let c := d.coord k
  let i1 := c.2.1
  let maskByte := if d.mask = 0 then some 255 else o.x.table (addW d.mask (k / 8 : Nat)) 1
  match maskByte with
  | none => if fvaOk (addW d.mask (k / 8 : Nat)) then .need (addW d.mask (k / 8 : Nat)) else .bad
  | some m =>
    let present := d.mask = 0 || m / 2 ^ (k % 8) % 2 = 1
    let w := if d.idx64 then 8 else 4
    let entry := addW d.idx (i1 * w : Nat)
    let useIdx := o.kind == .scatter || (o.kind == .gather && present)
    let row := if useIdx then o.x.table entry w else some i1
    match row with
    | none => if fvaOk entry then .need entry else .bad
    | some r =>
      let src := lineAddr (d.src + o.addSrc) (if o.kind == .gather then r else i1) c d.ss
      let dst := lineAddr (d.dst + o.addDst) (if o.kind == .scatter then r else i1) c d.ds
      if !fvaOk dst || (present && !fvaOk src) then .bad
      else if present then .data src dst else .zero dst

/-! ### Sending lines -/

/-- The docent may send one more packet for a context's line stream: its replay store has room, and no earlier packet
of the context still waits to be sent (R104, R276). -/
def State.lineRoom (s : State) (g : Nat) : Bool :=
  s.replayUsed (g / 16) < 2048 && !s.held.any fun o => o.origin.ofCtx g

/-- The gallery is in legacy mode (R237). -/
def State.isLegacy (s : State) (gal : Nat) : Bool := (s.gal gal).legacy

/-- src_cache and dst_cache as they act (R210, R240). -/
def State.srcCached (s : State) (p gal : Nat) (d : TDesc) : Bool := d.srcCache && s.pcLimit p gal != 0
def State.dstCached (s : State) (p gal : Nat) (d : TDesc) : Bool :=
  d.dstCache && s.pcLimit p gal != 0 && !s.isLegacy gal

/-- No packet of the context is unacknowledged (R238); a listed WAIT has been acknowledged (R270). -/
def State.ctxQuiet (s : State) (g : Nat) : Bool := !(s.replay ++ s.held).any fun o => o.origin.ofCtx g && !o.listed

/-- The line stream of an operation stops at line `k` (R195). -/
def State.xferStop (s : State) (g i k status : Nat) : State :=
  s.modOp g i fun o =>
    { o with x := { o.x with stopAt := if o.x.stopAt.isNone then some (k, status) else o.x.stopAt } }

/-- Read a line of a table of an operation (R167, R80). -/
def State.readTable (s : State) (g i k fva : Nat) : State :=
  let c := s.ctx g
  let line := fva / 128
  if (s.replay ++ s.held).any fun o => o.origin == .tableRead g i line then s
  else
    match s.ctxTranslate g (.op i) (128 * line) true false with
    | (s, .wait) => s
    | (s, .fail st) => s.xferStop g i k st
    | (s, .ok fpa) =>
      match s.request (g / 16) (.tableRead g i line) none c.gal ftRead (s.dataVc c.gal) 1 fpa 0 []
          (s.trOf (g / 16) c.gal c.pasid (128 * line)) with
      | (s, none) => s
      | (s, some st) => s.xferStop g i k st

/-- Lines from `k` on that one read packet can take: present, ascending by 128 B, in one aligned 2,048 B
source block (R186). -/
def readRun (o : Op) (d : TDesc) (src k : Nat) : Nat → Nat
  | 0 => 0
  | n + 1 =>
    if k ≥ o.x.total then 0
    else
      match o.line d k with
      | .data a _ => if a = src then 1 + (if (src + 128) % 2048 = 0 then 0 else readRun o d (src + 128) (k + 1) n) else 0
      | _ => 0

/-- Ask for source lines from line `k` on at an FPA. -/
def State.readLines (s : State) (g i k n fva fpa : Nat) : State :=
  let c := s.ctx g
  match s.request (g / 16) (.srcRead g i k n) none c.gal ftRead (s.dataVc c.gal) n fpa 0 []
      (s.trOf (g / 16) c.gal c.pasid fva) with
  | (s, none) =>
    s.modOp g i fun o =>
      { o with x := { o.x with nextRead := k + n, asked := (List.range n).map (k + ·) ++ o.x.asked } }
  | (s, some st) =>
    s.modOp g i fun o =>
      { o with x := { o.x with readFail := some (k, st), nextRead := k + n } }

/-- The 2 MiB pages of the source lines from `first` up to `k`. -/
def sourcePages (o : Op) (d : TDesc) (first k : Nat) : List Nat :=
  ((List.range (k + 1 - first)).filterMap fun j =>
    match o.line d (first + j) with
    | .data a _ => some (a / 2 ^ 21)
    | _ => none).eraseDups

/-- Read ahead: at most 64 lines past the last line sent, on at most 8 pages past the page of the next line (R186,
R199, R432). -/
def State.readAhead (s : State) (g i : Nat) (d : TDesc) : Nat → State
  | 0 => s
  | fuel + 1 =>
    match s.op? g i with
    | none => s
    | some o =>
      let k := max o.x.nextRead o.x.nextSend
      if k ≥ o.x.total || k ≥ o.x.nextSend + 64 || o.x.readFail.isSome || !s.lineRoom g then s
      else
        match o.line d k with
        | .zero _ =>
          (s.modOp g i fun o => { o with x := { o.x with nextRead := k + 1 } }).readAhead g i d fuel
        | .data src _ =>
          if (sourcePages o d o.x.nextSend k).length > 9 then s
          else
            let c := s.ctx g
            let n := readRun o d src k (min 16 (o.x.nextSend + 64 - k))
            match s.lookAhead g c.gal c.pasid src with
            | (s, none) => s
            | (s, some fpa) => (s.readLines g i k n src fpa).readAhead g i d fuel
        | _ => s

/-- A packet of lines leaves: a WRITE, or a ZERO_RUN with no payload (R183, R184). -/
def State.sendLines (s : State) (g i k n fva fpa arv : Nat) (zero : Bool) (payload : Bytes) : State :=
  let c := s.ctx g
  let s := (List.range n).foldl (fun s j =>
    s.modDocent (g / 16) fun d => { d with pcache := pcDrop c.gal c.pasid (fva + 128 * j) d.pcache }) s
  match s.request (g / 16) (.opWrite g i k n) none c.gal (if zero then ftZeroRun else ftWrite)
      (s.dataVc c.gal) n fpa (if arv / 32768 = 1 then arv else 0) payload
      (s.trOf (g / 16) c.gal c.pasid fva) with
  | (s, none) =>
    s.modOp g i fun o =>
      { o with x :=
        { o.x with
          nextSend := k + n
          ready := o.x.ready.filter fun r => k + n ≤ r.1
          packets := o.x.packets ++ [{ first := k, lines := n, dest := none, status := stNone }] } }
  | (s, some st) => s.xferStop g i k st

/-- The content of line `k`, as far as it is at hand: `none` to be read, `some none` for a zero line. -/
def Op.content (o : Op) (d : TDesc) (k : Nat) : Option (Option Bytes) :=
  match o.line d k with
  | .zero _ => some none
  | .data _ _ =>
    (o.x.ready.find? fun r => r.1 == k).map fun r =>
      if d.zeroDetect && r.2.all (· == 0) then none else some r.2
  | _ => none

/-- The destination of a line. -/
def LineKind.dst : LineKind → Option Nat
  | .zero a => some a
  | .data _ a => some a
  | _ => none

/-- Lines after line `k` that travel in its packet: of its kind, at hand, ascending by 128 B within one
aligned 2,048 B block, and not the final line in legacy mode (R184, R238). -/
def sendRun (o : Op) (d : TDesc) (legacy zero : Bool) (dst k : Nat) : Nat → List Bytes
  | 0 => []
  | n + 1 =>
    if k ≥ o.x.total || (legacy && k + 1 = o.x.total) || dst % 2048 = 0 || (o.line d k).dst != some dst then []
    else
      match o.content d k, zero with
      | some none, true => [] :: sendRun o d legacy zero (dst + 128) (k + 1) n
      | some (some bs), false => bs :: sendRun o d legacy zero (dst + 128) (k + 1) n
      | _, _ => []

/-- Source line `k` from the port cache, or read from its source (R206, R209). -/
def State.fetchSource (s : State) (g i k src : Nat) (d : TDesc) : State × Bool :=
  let c := s.ctx g
  let p := g / 16
  let fromCache := if s.srcCached p c.gal d then s.pcGet p c.gal c.pasid src else (s, none)
  match fromCache with
  | (s, some l) =>
    (s.modOp g i fun o => { o with x := { o.x with ready := (k, l.data) :: o.x.ready } }, true)
  | (s, none) =>
    match s.op? g i with
    | none => (s, false)
    | some o =>
      if o.x.asked.contains k then (s, false)
      else
        match s.ctxTranslate g (.op i) src true false with
        | (s, .wait) => (s, false)
        | (s, .fail st) => (s.xferStop g i k st, false)
        | (s, .ok fpa) =>
          let n := if s.srcCached p c.gal d then 1 else max 1 (readRun o d src k 16)
          let s := s.readLines g i k n src fpa
          (if s.srcCached p c.gal d then s else s.readAhead g i d 64, false)

/-- Send line `k`, whose content is at hand, and what travels with it, or stage it in the port cache (R184,
R207, R208). -/
def State.emitLine (s : State) (g i k dst : Nat) (o : Op) (d : TDesc) (content : Option Bytes) :
    State × Bool :=
  let c := s.ctx g
  let p := g / 16
  let legacy := s.isLegacy c.gal
  if legacy && k + 1 = o.x.total && !s.ctxQuiet g then (s, false)
  else
    match s.ctxTranslate g (.op i) dst false true with
    | (s, .wait) => (s, false)
    | (s, .fail st) => (s.xferStop g i k st, false)
    | (s, .ok fpa) =>
      if s.dstCached p c.gal d then
        let s := s.pcPut p
          { gal := c.gal, pasid := c.pasid, fva := dst, dirty := true
            data := content.getD (zeros 128), fpa := fpa, big := s.pageIsBig p c.gal c.pasid dst }
        (s.modOp g i fun o =>
          { o with x :=
            { o.x with
              nextSend := k + 1
              cachedBytes := o.x.cachedBytes + 128
              ready := o.x.ready.filter fun r => k + 1 ≤ r.1 } }, true)
      else
        let zero := content.isNone
        let more := if legacy && k + 1 = o.x.total then []
          else sendRun o d legacy zero (dst + 128) (k + 1) 15
        let payload := if zero then [] else content.getD [] ++ more.flatten
        (s.sendLines g i k (1 + more.length) dst fpa (if d.arvEn then d.arv else 0) zero payload, true)

/-- One step of the line stream of a COPY, GATHER or SCATTER; `false` when it must wait. DESIGN CHOICE: the source of a
present line is translated and read before its destination is translated; the manual gives the two no order (log
entry 87). -/
def State.xferStep (s : State) (g i : Nat) : State × Bool :=
  match s.op? g i with
  | none => (s, false)
  | some o =>
    let d := TDesc.dec o.desc
    let k := o.x.nextSend
    if o.x.stopAt.isSome || k ≥ o.x.total || !s.lineRoom g then (s, false)
    else if o.x.readFail.any (fun f => f.1 ≤ k) then
      (s.xferStop g i k ((o.x.readFail.map Prod.snd).getD stDataError), false)
    else
      match o.line d k with
      | .need fva => (s.readTable g i k fva, false)
      | .bad => (s.xferStop g i k stMalformed, false)
      | .zero dst => s.emitLine g i k dst o d none
      | .data src dst =>
        match o.content d k with
        | none => s.fetchSource g i k src d
        | some content => s.emitLine g i k dst o d content

/-! ### What a transfer comes to (R189 to R196) -/

/-- Bytes delivered: per counting module, the bytes before its first failed packet, in line order (R193). -/
def deliveredBytes : List XPkt → List (Option Nat) → Nat
  | [], _ => 0
  | q :: t, failed =>
    if q.status = stOk && !failed.contains q.dest then 128 * q.lines + deliveredBytes t failed
    else deliveredBytes t (q.dest :: failed)

/-- The transfer's delivered figure. -/
def Xfer.delivered (x : Xfer) : Nat := x.cachedBytes + deliveredBytes x.packets []

/-- Every line has been generated, or the stream has stopped; with every packet answered the transfer
completes (R194, R195). -/
def State.xferSettle (s : State) (g i : Nat) : State :=
  match s.op? g i with
  | none => s
  | some o =>
    if o.phase != .running && o.phase != .sent then s
    else
      let s := if o.x.stopAt.isSome then s.opFailing g i else s
      if o.x.stopAt.isNone && o.x.nextSend < o.x.total then s
      else
        let s := s.modOp g i fun o => { o with phase := .sent }
        if o.x.packets.any fun q => q.status = stNone then s
        else
          match o.x.packets.find? fun q => q.status != stOk with
          | some q => s.opFailed g i q.status o.x.delivered
          | none =>
            match o.x.stopAt with
            | some (_, st) => s.opFailed g i st o.x.delivered
            | none => s.modOp g i fun o => { o with phase := .done stOk }

/-- A packet of a transfer has its answer (R194, R195). -/
def State.xferAnswered (s : State) (g i first status dest : Nat) : State :=
  let s := s.modOp g i fun o =>
    { o with x :=
      { o.x with
        packets := modifyFirst (fun q => q.first == first && q.status == stNone)
          (fun q => { q with status := status, dest := some dest }) o.x.packets
        stopAt := if status != stOk && o.x.stopAt.isNone then some (o.x.nextSend, status) else o.x.stopAt } }
  s.xferSettle g i

/-- Source lines arrive, read at an FPA; `fill` says that they may enter the port cache still (R173, R206, R233).
DESIGN CHOICE: where a clean line of the tag is held already, it stays and the fill is dropped, as R206 says of a dirty
one (log entry 89). -/
def State.srcArrives (s : State) (g i first n fpa : Nat) (fill : Bool) (what : Fetched) : State :=
  match s.op? g i with
  | none => s
  | some o =>
    match what with
    | .failed st =>
      s.modOp g i fun o =>
        { o with x :=
          { o.x with readFail := if o.x.readFail.all (fun f => first < f.1) then some (first, st) else o.x.readFail } }
    | .data bs =>
      let c := s.ctx g
      let d := TDesc.dec o.desc
      let s := s.modOp g i fun o =>
        let fresh := ((List.range n).map (first + ·)).filter fun k => o.x.asked.contains k && o.x.nextSend ≤ k
        { o with x :=
          { o.x with
            ready := fresh.map (fun k => (k, sliceB bs (128 * (k - first)) 128)) ++ o.x.ready
            asked := o.x.asked.filter fun k => !fresh.contains k } }
      if fill && s.srcCached (g / 16) c.gal d then
        match o.line d first with
        | .data src _ =>
          if (s.docent (g / 16)).pcache.any fun l => l.tag c.gal c.pasid src then s
          else s.pcPut (g / 16)
            { gal := c.gal, pasid := c.pasid, fva := src, dirty := false, data := sliceB bs 0 128
              fpa := fpa, big := false }
        | _ => s
      else s

/-- A table line arrives (R167, R179). -/
def State.tableArrives (s : State) (g i line : Nat) (what : Fetched) : State :=
  match what with
  | .failed st => s.xferStop g i ((s.op? g i).elim 0 fun o => o.x.nextSend) st
  | .data bs =>
    s.modOp g i fun o =>
      { o with x := { o.x with tables := (line, bs) :: (o.x.tables.filter fun t => t.1 != line).take 15 } }

/-- The descriptor of a COPY, GATHER or SCATTER has been read (R165, R166). -/
def State.xferDesc (s : State) (g i : Nat) (b : Bytes) : State :=
  match s.op? g i with
  | none => s
  | some o =>
    let d := TDesc.dec b
    if !d.ok b o.kind o.addSrc o.addDst then s.opFailed g i stMalformed 0
    else if d.arvEn && !s.soOwned (d.arv % 16384) (s.ctx g).gal then s.opFailed g i stDenied 0
    else s.modOp g i fun o =>
      { o with desc := b, phase := .running, x := { o.x with total := d.lines } }

/-! ### MCAST (R126 to R130, R519, R520, R523, R887) -/

/-- The fields of an MCAST descriptor (R126). -/
structure McDesc where
  src : Nat
  length : Nat
  targets : Nat
  statusFva : Nat
  count : Nat
  arv : Nat
deriving DecidableEq, Repr

def McDesc.dec (b : Bytes) : McDesc :=
  { src := getLe b 0 8, length := getLe b 8 8, targets := getLe b 16 8, statusFva := getLe b 24 8
    count := getLe b 32 2, arv := getLe b 34 2 }

/-- The descriptor is valid (R125, R126, R122). -/
def McDesc.ok (d : McDesc) (b : Bytes) (addSrc : Nat) : Bool :=
  let src := (d.src + addSrc) % 2 ^ 64
  zeroB b 36 92 && d.src % 128 == 0 && d.length % 128 == 0 && 128 ≤ d.length && d.length ≤ 2 ^ 30
    && 1 ≤ d.count && d.count ≤ 48 && d.arv / 16384 % 2 == 0 && src % 128 == 0
    && fvaOk src && fvaOk (src + d.length - 128) && fvaOk (d.targets + 8 * d.count - 1)
    && fvaOk (d.statusFva + d.count - 1)

/-- The MCAST descriptor has been read. -/
def State.mcastDesc (s : State) (g i : Nat) (b : Bytes) : State :=
  match s.op? g i with
  | none => s
  | some o =>
    let d := McDesc.dec b
    if !d.ok b o.addSrc then s.opFailed g i stMalformed 0
    else s.modOp g i fun o =>
      { o with desc := b, phase := .running, x := { o.x with total := d.length / 128 } }

/-- Table lines that the target list lies in. -/
def McDesc.listLines (d : McDesc) : List Nat :=
  (List.range ((d.targets + 8 * d.count - 1) / 128 - d.targets / 128 + 1)).map (d.targets / 128 + ·)

/-- The target list, once every line of it has been read: none if an entry plus X[rc] is no 128 B aligned FVA, which
fails the instruction (R122). -/
def Op.mcList (o : Op) (d : McDesc) : Option (List McTarget) :=
  let bytes := (d.listLines.map fun l => ((o.x.tables.find? fun t => t.1 == l).elim [] Prod.snd)).flatten
  let fvas := (List.range d.count).map fun k => (getLe bytes (d.targets % 128 + 8 * k) 8 + o.addDst) % 2 ^ 64
  if fvas.all fun a => a % 128 == 0 && fvaOk a && fvaOk (a + d.length - 128) then
    some (fvas.map fun a => { fva := a, status := stNone, ended := false, unacked := 0, next := 0 })
  else none

/-- Change a target. -/
def State.modTarget (s : State) (g i t : Nat) (f : McTarget → McTarget) : State :=
  s.modOp g i fun o => { o with targets := modifyAt o.targets t f }

/-- No more target headers are formed for the present block: the docent gives up its own reference (R519, R520). -/
def State.mcBlockDone (s : State) (g i : Nat) : State :=
  match (s.op? g i).bind (·.x.copy) with
  | none => s
  | some id => (s.mcRelease id).modOp g i fun o => { o with x := { o.x with copy := none } }

/-- Every target that has not ended ends with a status (R887). -/
def State.mcEndAll (s : State) (g i status : Nat) : State :=
  (s.mcBlockDone g i).modOp g i fun o =>
    { o with
      x := { o.x with nextSend := o.x.total, ready := [] }
      targets := o.targets.map fun t => if t.ended then t else { t with ended := true, status := status } }

/-- Lines of the source block that begins at line `l`: up to the next 2,048 B boundary; in legacy mode the
last line stands alone (R238, R520). -/
def mcBlock (src total l : Nat) (legacy : Bool) : Nat :=
  let n := min (16 - (src + 128 * l) % 2048 / 128) (total - l)
  if legacy && l + n = total && 1 < n then n - 1 else n

/-- Take a multicast copy of a block: its number, if it fits (R519, R523). -/
def State.mcCopy (s : State) (cells refs : Nat) (result : Bool) : State × Option Nat :=
  if s.swc.rcUsed + cells > s.swc.mcLimit then (s, none)
  else
    let id := s.swc.nextCopy
    ({ s with swc :=
      { s.swc with nextCopy := id + 1, copies := s.swc.copies ++
          [{ id := id, cells := cells, refs := refs, result := result, counted := false }] } }, some id)

/-- Segments of a block at a target: lines from its `next` up to the block's end or an aligned 2,048 B
boundary. -/
def mcSeg (t : McTarget) (last : Nat) : Nat := min (last - t.next) (16 - (t.fva + 128 * t.next) % 2048 / 128)

/-- One more reference to a multicast copy: a target header (R519). -/
def State.mcRefer (s : State) (id : Nat) : State :=
  { s with swc :=
    { s.swc with copies := s.swc.copies.map fun c => if c.id = id then { c with refs := c.refs + 1 } else c } }

/-- Form the header of target `t` for its next segment of the block of a copy; `false` when it must wait (R127,
R520). -/
def State.mcSendTo (s : State) (g i t id : Nat) (x : McTarget) (d : McDesc) (first last : Nat) (block : Bytes) :
    State × Bool :=
  let c := s.ctx g
  let fva := x.fva + 128 * x.next
  let n := mcSeg x last
  match s.ctxTranslate g (.op i) fva false true with
  | (s, .wait) => (s, false)
  | (s, .fail st) => (s.modTarget g i t fun x => { x with ended := true, status := st }, true)
  | (s, .ok fpa) =>
    let payload := sliceB block (128 * (x.next - first)) (128 * n)
    match (s.mcRefer id).request (g / 16) (.mcWrite g i t) (some id) c.gal ftWrite (s.dataVc c.gal) n fpa
        (if d.arv / 32768 = 1 then d.arv else 0) payload (s.trOf (g / 16) c.gal c.pasid fva) with
    | (s, none) => (s.modTarget g i t fun x => { x with next := x.next + n, unacked := x.unacked + 1 }, true)
    | (s, some st) =>
      ((s.mcRelease id).modTarget g i t fun x => { x with ended := true, status := st }, true)

/-- Read the source block that begins at line `l` (R887). -/
def State.mcRead (s : State) (g i l n src : Nat) : State :=
  let c := s.ctx g
  let fva := src + 128 * l
  if (s.replay ++ s.held).any fun o => o.origin == .mcRead g i l then s
  else
    match s.ctxTranslate g (.op i) fva true false with
    | (s, .wait) => s
    | (s, .fail st) => s.mcEndAll g i st
    | (s, .ok fpa) =>
      match s.request (g / 16) (.mcRead g i l) none c.gal ftRead (s.dataVc c.gal) n fpa 0 []
          (s.trOf (g / 16) c.gal c.pasid fva) with
      | (s, none) => s
      | (s, some st) => s.mcEndAll g i st

/-- One step of an MCAST: the target list, then block after block: one shared copy of each, with a header for every
target that has not ended (R127, R129, R519, R520); a block that does not fit within mc_limit waits (R523). -/
def State.mcastStep (s : State) (g i : Nat) : State × Bool :=
  match s.op? g i with
  | none => (s, false)
  | some o =>
    let d := McDesc.dec o.desc
    let src := (d.src + o.addSrc) % 2 ^ 64
    let l := o.x.nextSend
    if o.x.stopAt.isSome || !s.lineRoom g then (s, false)
    else if o.targets.isEmpty then
      match d.listLines.find? fun l => !o.x.tables.any fun t => t.1 == l with
      | some line => (s.readTable g i 0 (128 * line), false)
      | none =>
        match o.mcList d with
        | none => (s.opFailed g i stMalformed 0, false)
        | some ts => (s.modOp g i fun o => { o with targets := ts }, true)
    else if l ≥ o.x.total then (s, false)
    else if o.targets.all (·.ended) then
      ((s.mcBlockDone g i).modOp g i fun o => { o with x := { o.x with nextSend := o.x.total } }, false)
    else
      let legacy := s.isLegacy (s.ctx g).gal
      let n := mcBlock src o.x.total l legacy
      match o.x.ready.find? fun r => r.1 == l with
      | none => (s.mcRead g i l n src, false)
      | some (_, block) =>
        match findIdxN (fun t : McTarget => !t.ended && t.next < l + n) o.targets with
        | none =>
          ((s.mcBlockDone g i).modOp g i fun o => { o with x := { o.x with nextSend := l + n, ready := [] } }, true)
        | some t =>
          if legacy && l + n = o.x.total && o.targets.all (fun t => t.ended || t.next ≤ l)
              && !s.ctxQuiet g then (s, false)
          else
            match o.targets[t]?, o.x.copy with
            | none, _ => (s, false)
            | some x, some id => s.mcSendTo g i t id x d l (l + n) block
            | some _, none =>
              match s.mcCopy (packetCells block) 1 false with
              | (s, none) => (s, false)
              | (s, some id) => (s.modOp g i fun o => { o with x := { o.x with copy := some id } }, true)

/-- A source block of an MCAST arrives. -/
def State.mcReadArrives (s : State) (g i l : Nat) (what : Fetched) : State :=
  match what with
  | .failed st => s.mcEndAll g i st
  | .data bs => s.modOp g i fun o => { o with x := { o.x with ready := [(l, bs)] } }

/-- The status of an MCAST whose targets have all ended (R130). -/
def mcStatus (ts : List McTarget) : Nat :=
  if ts.all fun t => t.status == stOk then stOk
  else if ts.any fun t => t.status == stOk then stPartial
  else (ts.head?.map (·.status)).getD stOk

/-- Write line `l` of the status array: the bytes of the targets whose entries lie there (R130). -/
def State.mcStatusLine (s : State) (g i : Nat) (o : Op) (d : McDesc) (l : Nat) : State :=
  let c := s.ctx g
  let inLine (k : Nat) : Bool := (d.statusFva + k) / 128 == l
  let mask := ((List.range d.count).filter inLine).foldl (fun m k => m + 2 ^ ((d.statusFva + k) % 128)) 0
  let bytes := (List.range 128).map fun b =>
    match (List.range d.count).find? fun k => d.statusFva + k == 128 * l + b with
    | some k => BitVec.ofNat 8 ((o.targets[k]?).elim 0 (·.status))
    | none => (0 : Byte)
  match s.ctxTranslate g (.op i) (128 * l) false true with
  | (s, .wait) => s
  | (s, .fail st) => s.xferStop g i l st
  | (s, .ok fpa) =>
    match s.request (g / 16) (.statusWrite g i) none c.gal ftWriteMasked (s.dataVc c.gal) 1 fpa 0
        (natLe 16 mask ++ bytes) (s.trOf (g / 16) c.gal c.pasid (128 * l)) with
    | (s, none) =>
      s.modOp g i fun o =>
        { o with x :=
          { o.x with packets := o.x.packets ++ [{ first := l, lines := 1, dest := none, status := stNone }] } }
    | (s, some st) => s.xferStop g i l st

/-- An MCAST whose lines are all sent: its targets end as they are acknowledged; then the status array is
written, and the operation completes (R129, R130). DESIGN CHOICE: the lines of later operations do not wait for the
status array (R104; log entry 84). -/
def State.mcSettle (s : State) (g i : Nat) : State :=
  let s := s.modOp g i fun o =>
    { o with targets := o.targets.map fun t =>
        if !t.ended && t.next = o.x.total && t.unacked = 0 then { t with ended := true, status := stOk } else t }
  match s.op? g i with
  | none => s
  | some o =>
    let d := McDesc.dec o.desc
    match o.x.stopAt with
    | some (_, st) =>
      let s := s.opFailing g i
      if o.x.packets.any (fun q => q.status = stNone) || o.targets.any (fun t => t.unacked != 0) then
        s.modOp g i fun o => { o with phase := .sent }
      else s.opFailed g i st 0
    | none =>
      if o.targets.isEmpty || o.x.nextSend < o.x.total then s
      else
        let s := s.modOp g i fun o => { o with phase := .sent }
        if o.targets.any fun t => !t.ended || t.unacked != 0 then s
        else
          let lines := if d.statusFva = 0 then []
            else (List.range ((d.statusFva + d.count - 1) / 128 - d.statusFva / 128 + 1)).map
              (d.statusFva / 128 + ·)
          match lines.find? fun l => !o.x.packets.any fun q => q.first == l with
          | some l => s.mcStatusLine g i o d l
          | none =>
            if o.x.packets.any fun q => q.status = stNone then s
            else
              match o.x.packets.find? fun q => q.status != stOk with
              | some q => s.opFailed g i q.status 0
              | none =>
                let st := mcStatus o.targets
                if st = stOk then s.modOp g i fun o => { o with phase := .done stOk }
                else s.opFailed g i st 0

/-- A copy of an MCAST has its answer: a failure ends its target, the others proceed (R129, R522). -/
def State.mcAnswered (s : State) (g i t status : Nat) : State :=
  s.modTarget g i t fun x =>
    { x with
      unacked := x.unacked - 1
      ended := x.ended || status != stOk
      status := if !x.ended && status != stOk then status else x.status }

/-- A line of the status array has its answer (R130). -/
def State.mcStatusAnswered (s : State) (g i status : Nat) : State :=
  s.modOp g i fun o =>
    let answer (q : XPkt) : XPkt := { q with status := status }
    { o with x :=
      { o.x with packets := modifyFirst (fun q => q.status == stNone) answer o.x.packets } }

end Sys2Proof.Machine
end

