-- ==== Sys2Proof/Machine/Member.lean ====
section
/-! DEFINITION. REDUCE, DISPATCH and COMBINE at a member (R293 to R311, R323 to R347, R364 to R404): schedule
records, descriptors, the join, contributions, placement and delivery. -/

namespace Sys2Proof.Machine

/-! ### The schedule taken (R824) -/

/-- The schedule taken for one that an operation names: its alternates in turn (R824). -/
def State.takenSched (s : State) (p : Nat) : Nat → Nat → Nat
  | 0, id => id
  | fuel + 1, id =>
    if s.cat.switched.contains (p, id) then
      match s.sched? id with
      | some sc => if sc.alt = 0xFFFF then id else s.takenSched p fuel (sc.alt % 4096)
      | none => id
    else id

/-! ### Shape words and formats (R302 to R307, R364 to R370, R383) -/

/-- The fields of a shape word (R302). -/
structure Shape where
  kind : Nat
  op : Nat
  inF : Nat
  outF : Nat
  root : Nat
  count : Nat
deriving DecidableEq, Repr

def Shape.dec (w : Nat) : Shape :=
  { kind := w / 2 ^ 60 % 16, op := w / 2 ^ 56 % 16, inF := w / 2 ^ 52 % 16, outF := w / 2 ^ 48 % 16
    root := w / 2 ^ 38 % 1024, count := w % 2 ^ 38 }

/-- A format is a Q format; an integer format (R305). -/
def isQ (f : Nat) : Bool := 5 ≤ f && f ≤ 7
def isInt (f : Nat) : Bool := f == 8 || f == 9

/-- Granule of a format, in elements (R305). -/
def granule (f : Nat) : Nat := if isQ f then 4096 else 1024 / elemBits f

/-- Bytes of a Q segment (R313). -/
def segBytes (f : Nat) : Nat := 512 * qBits f + 128

/-- Bytes and elements of a chunk (R305). -/
def chunkBytes (f : Nat) : Nat := if f = 5 then 63360 else if f = 6 then 64000 else if f = 7 then 65280 else 65536
def chunkElems (f : Nat) : Nat := if isQ f then chunkBytes f / segBytes f * 4096 else 65536 * 8 / elemBits f

/-- Bytes of `m` elements (R306). -/
def fmtBytes (f m : Nat) : Nat := if isQ f then ceilDiv m 4096 * segBytes f else m * elemBits f / 8

/-- Bytes of a record of a coordinate stream (R368). -/
def recBytes (f : Nat) : Nat := if f = 9 then 16 else 8

def Shape.sparse (h : Shape) : Bool := 6 ≤ h.kind && h.kind ≤ 8

/-- Input and output formats may be paired (R315). -/
def pairOk (i o : Nat) : Bool := if i ≤ 7 then o ≤ 7 else if i = 8 then o == 8 || o == 9 else o == 9

/-- The checks on a REDUCE's shape word that need no schedule (R303 to R307, R364, R365, R369). -/
def Shape.ok (h : Shape) : Bool :=
  let bits := h.op < 4 || (isInt h.inF && isInt h.outF)
  h.inF ≤ 9 && h.outF ≤ 9 &&
  (if h.kind = 3 || h.kind = 4 then h.op == 0 && h.inF == h.outF
    else 1 ≤ h.op && h.op ≤ 6 && bits && pairOk h.inF h.outF)
  && (h.kind = 4 || h.kind = 5 || h.kind = 7 || h.root = 0)
  && (if 1 ≤ h.kind && h.kind ≤ 5 then
        h.count != 0 && h.count % granule h.inF == 0 && fmtBytes h.inF h.count ≤ 2 ^ 36
      else if h.sparse then
        !isQ h.inF && !isQ h.outF && 1 ≤ h.count
          && h.count ≤ (if h.kind = 8 then 65536 else 2 ^ 32)
      else false)

/-- Bytes that a member contributes (R306, R370). -/
def Shape.contribBytes (h : Shape) (rank : Nat) : Nat :=
  if h.sparse then 128 + h.count * recBytes h.inF
  else if h.kind = 4 && h.root != rank then 0
  else fmtBytes h.inF h.count

/-- Bytes of a member's result buffer (R306, R370). -/
def Shape.resultBytes (h : Shape) (rank n : Nat) : Nat :=
  match h.kind with
  | 1 => fmtBytes h.outF h.count
  | 2 => fmtBytes h.outF (h.count / n)
  | 3 => n * fmtBytes h.inF h.count
  | 4 => fmtBytes h.inF h.count
  | 5 => if h.root = rank then fmtBytes h.outF h.count else 0
  | 6 => 128 + min (n * h.count) (2 ^ 32) * recBytes h.outF
  | 7 => if h.root = rank then 128 + min (n * h.count) (2 ^ 32) * recBytes h.outF else 0
  | 8 => 128 + h.count * recBytes h.outF
  | _ => 0

/-- Fields of a dispatch or combine shape word (R383). -/
def shapeK (w : Nat) : Nat := w / 2 ^ 56 % 16
def shapeTl (w : Nat) : Nat := w / 2 ^ 48 % 256 + 1
def shapeTb (w : Nat) : Nat := 128 * shapeTl w
def shapeCfmt (w : Nat) : Nat := w / 2 ^ 44 % 16
def shapeTmax (w : Nat) : Nat := w % 2 ^ 20

/-- A dispatch or combine shape word is valid (R383, R398). -/
def moeShapeOk (w kind : Nat) : Bool :=
  w / 2 ^ 60 % 16 == kind && 1 ≤ shapeK w && shapeK w ≤ 8 && w / 2 ^ 20 % 2 ^ 24 == 0 && 1 ≤ shapeTmax w
    && (if kind = 0xB then shapeCfmt w ≤ 2 else shapeCfmt w == 0)

/-! ### Issue (R123, R125, R297, R310, R366) -/

/-- The kinds of schedule that an instruction may name (R310, R366). -/
def kindFits (k : OpKind) (digestKind : Nat) : Bool :=
  match k with
  | .reduce => 1 ≤ digestKind && digestKind ≤ 8
  | .dispatch => digestKind == 0xA
  | .combine => digestKind == 0xB
  | _ => false

/-- The member that an operation of a gallery at a port is, in the schedule taken (R296, R310, R824). -/
def State.memberOf (s : State) (p gal named : Nat) (k : OpKind) : Nat × Option (Sched × Nat) :=
  let id := s.takenSched p 4096 named
  match s.sched? id with
  | none => (id, none)
  | some sc =>
    if sc.gallery = gal && kindFits k (sc.digest / 2 ^ 60) then
      (id, (s.active.rankAt sc s.node p).map fun r => (sc, r))
    else (id, none)

/-- A REDUCE, DISPATCH or COMBINE issues, and takes the next number of its schedule (R297). -/
def State.issueColl (s : State) (p : Port) (c : CtxNo) (opcode : Nat) (kind : OpKind) : State :=
  let g := ctxIdx p c
  match s.issuing p c opcode with
  | none => s
  | some t =>
    s.orFail g (s.bulkCheck g t true) fun s =>
      let o := Op.start s g t kind
      if !s.queueRoom g then s.blockOn g .queueFull
      else
        let (id, m) := s.memberOf p (s.ctx g).gal o.sched kind
        let key := p.val * 4096 + id
        let n := Tab.get 0 s.cat.instNo key
        let (s, col) := match m with
          | none => (s, { Coll.start with sched := id })
          | some (_, r) =>
            ({ s with cat := { s.cat with instNo := Tab.set 0 s.cat.instNo key (n + 1) } },
              { Coll.start with sched := id, inst := some n, rank := r })
        s.enterOp g { o with col := col }

/-! ### Failures at a member (R341, R342, R347, R822) -/

/-- A schedule is switched to its alternate at a port (R822). -/
def State.schedSwitch (s : State) (p id : Nat) (epoch : Bool) : State :=
  match s.sched? id with
  | none => s
  | some sc =>
    if sc.alt = 0xFFFF || s.cat.switched.contains (p, id) || epoch != s.cat.epoch then s
    else
      { s with cat :=
        { s.cat with
          switched := s.cat.switched ++ [(p, id)], altSwitched := wrapAdd 32 s.cat.altSwitched 1
          altPort := p, altSched := id, altAlt := sc.alt % 4096 } }

/-- An operation of a schedule fails: its member withdraws unless only its delivery failed or its home has
said so (R342, R347), and LOST or a lost path switches the schedule (R822). -/
def State.collFailed (s : State) (g i status : Nat) (withdraw pathLost : Bool) : State :=
  match s.op? g i with
  | none => s
  | some o =>
    let s := if withdraw then s.withdrawMember g o status pathLost else s
    let s := if status = stLost || (status = stWithdrawn && pathLost) then
        s.schedSwitch (g / 16) o.col.sched o.epoch
      else s
    s.opFailed g i status 0

/-- Change the collective part of an operation. -/
def State.modCol (s : State) (g i : Nat) (f : Coll → Coll) : State :=
  s.modOp g i fun o => { o with col := f o.col }

/-- The operation of a port that is a member of an instance. -/
def State.memberOp (s : State) (p sched inst : Nat) : Option (Nat × Op) :=
  let mine (o : Op) : Bool :=
    (o.kind == .reduce || o.kind == .dispatch || o.kind == .combine) && o.col.sched == sched
      && o.col.inst == some inst
  (List.range 16).findSome? fun n =>
    ((s.ctx (ctxIdx p n)).ops.find? mine).map fun o => (ctxIdx p n, o)

/-! ### Reads of a member (R324, R371, R387) -/

/-- A line that an operation has read. -/
def Coll.line? (c : Coll) (kind idx : Nat) : Option Bytes :=
  (c.tables.find? fun t => t.1 == kind && t.2.1 == idx).map fun t => t.2.2

/-- `n` bytes of a table whose lines have all been read. -/
def Coll.bytes (c : Coll) (kind n : Nat) : Bytes :=
  ((List.range (ceilDiv n 128)).map fun l => (c.line? kind l).getD (zeros 128)).flatten.take n

/-- The first line of a table of `n` bytes that has not been read. -/
def Coll.missing (c : Coll) (kind n : Nat) : Option Nat :=
  (List.range (ceilDiv n 128)).find? fun l => (c.line? kind l).isNone

/-- Read a line for a REDUCE, DISPATCH or COMBINE through the context's translation (R531). -/
def State.collRead (s : State) (g i kind idx fva : Nat) : State :=
  let c := s.ctx g
  match s.op? g i with
  | none => s
  | some o =>
    if o.col.asked.contains (kind, idx) then s
    else if !fvaOk fva then s.collFailed g i stMalformed true false
    else
      match s.ctxTranslate g (.op i) fva true false with
      | (s, .wait) => s
      | (s, .fail st) => s.collFailed g i st true false
      | (s, .ok fpa) =>
        match s.request (g / 16) (.collRead g i kind idx) none c.gal ftRead 0 1 fpa 0 []
            (s.trOf (g / 16) c.gal c.pasid fva) with
        | (s, none) => s.modCol g i fun x => { x with asked := (kind, idx) :: x.asked }
        | (s, some st) => s.collFailed g i st true false

/-- A line read for a REDUCE, DISPATCH or COMBINE arrives. -/
def State.collArrives (s : State) (g i kind idx : Nat) (what : Fetched) : State :=
  match what with
  | .failed st => s.collFailed g i st true false
  | .data bs =>
    s.modCol g i fun x =>
      { x with tables := (kind, idx, bs) :: x.tables, asked := x.asked.filter fun a => a != (kind, idx) }

/-- A kept translation of an address (R324). -/
def Coll.keptFpa (c : Coll) (fva : Nat) : Option Nat :=
  (c.kept.find? fun k => k.1 ≤ fva && fva < k.1 + 2 ^ k.2.1).map fun k => k.2.2 + (fva - k.1)

/-- The first address of a range that no kept translation covers. -/
def Coll.uncovered (c : Coll) (fva n : Nat) : Option Nat :=
  let pages := (List.range ((fva + n - 1) / 2 ^ 21 - fva / 2 ^ 21 + 1)).map fun k =>
    max fva ((fva / 2 ^ 21 + k) * 2 ^ 21)
  if n = 0 then none else pages.find? fun a => (c.keptFpa a).isNone

/-- Translate one more page of the result range and keep it (R324). -/
def State.keepPage (s : State) (g i fva : Nat) : State × Bool :=
  let c := s.ctx g
  match s.ctxTranslate g (.op i) fva false true with
  | (s, .wait) => (s, false)
  | (s, .fail st) => (s.collFailed g i st true false, false)
  | (s, .ok fpa) =>
    let big := s.pageIsBig (g / 16) c.gal c.pasid fva
    let lg := if big then 30 else 21
    (s.modCol g i fun x => { x with kept := x.kept ++ [(fva / 2 ^ lg * 2 ^ lg, lg, fpa - fva % 2 ^ lg)] }, true)

/-! ### REDUCE: descriptor and join (R301, R306 to R308, R331, R338, R371) -/

/-- Fields of a collective descriptor, offsets added (R301). -/
def Op.contribFva (o : Op) : Nat := (getLe o.desc 0 8 + o.addSrc) % 2 ^ 64
def Op.resultFva (o : Op) : Nat := (getLe o.desc 8 8 + o.addDst) % 2 ^ 64
def Op.shapeWord (o : Op) : Nat := if o.kind == .reduce then getLe o.desc 16 8 else getLe o.desc 40 8
def Op.resWord (o : Op) : Nat := if o.kind == .reduce then getLe o.desc 24 2 else getLe o.desc 54 2

/-- A buffer of `n` bytes lies below 2^57 at its highest address. -/
def rangeOk (fva n : Nat) : Bool := fva % 128 == 0 && fvaOk fva && (n = 0 || fvaOk (fva + n - 1))

/-- Bytes of a result buffer as far as they follow without the schedule (R306, R370). -/
def Shape.resultFixed (h : Shape) : Nat :=
  match h.kind with
  | 1 | 5 => fmtBytes h.outF h.count
  | 4 => fmtBytes h.inF h.count
  | 8 => 128 + h.count * recBytes h.outF
  | _ => 0

/-- Checks of a collective descriptor that need no schedule (R307). -/
def reduceDescOk (o : Op) : Bool :=
  let h := Shape.dec o.shapeWord
  zeroB o.desc 26 102 && o.resWord / 16384 % 2 == 0 && getLe o.desc 0 8 % 128 == 0
    && getLe o.desc 8 8 % 128 == 0 && h.ok
    && rangeOk o.contribFva (if getLe o.desc 0 8 = 0 then 0 else if h.sparse then 128 + h.count * recBytes h.inF
        else fmtBytes h.inF h.count)
    && rangeOk o.resultFva (if getLe o.desc 8 8 = 0 then 0 else h.resultFixed)

/-- Checks of a collective descriptor against the schedule taken (R306, R307). -/
def reduceSchedOk (o : Op) (sc : Sched) (rank : Nat) : Bool :=
  let h := Shape.dec o.shapeWord
  let rs := h.kind != 2 || (h.count % sc.n == 0 && h.count / sc.n % granule h.inF == 0
    && h.count / sc.n % granule h.outF == 0)
  let res := h.resultBytes rank sc.n
  h.root < sc.n && rs && ((h.contribBytes rank = 0) == (getLe o.desc 0 8 = 0))
    && ((res = 0) == (getLe o.desc 8 8 = 0)) && rangeOk o.resultFva res

/-- The footprint at a home of this module exceeds the gallery's quota (R338). -/
def State.overQuota (s : State) (o : Op) (sc : Sched) : Bool :=
  (List.range sc.groups).any fun k =>
    ((s.bank o.epoch).homeOf sc k).1 == s.node && ((s.bank o.epoch).homeOf sc k).2 > (s.gal sc.gallery).maxDrawers

/-- The checks of R125 against the schedule taken: NO_SCHEDULE, then the descriptor's fields. -/
def State.schedCheck (s : State) (o : Op) (fits : Sched → Nat → Bool) : Option Nat :=
  match s.opSched o, o.col.inst with
  | some sc, some _ => if fits sc o.col.rank then none else some stMalformed
  | _, _ => some stNoSchedule

/-- The last checks of R125, once no more of the descriptor's tables is to be read: the ownership of res_so, then the
quota. -/
def State.joinCheck (s : State) (g : Nat) (o : Op) : Option Nat :=
  match s.opSched o with
  | none => some stNoSchedule
  | some sc =>
    if o.kind != .dispatch && o.resWord / 32768 = 1 && !s.soOwned (o.resWord % 16384) (s.ctx g).gal then
      some stDenied
    else if s.overQuota o sc then some stQuota
    else none

/-- A message of the member to the home of a rank's group: the status is `some` if there is no path (R334, R407). -/
def State.toHome (s : State) (g : Nat) (o : Op) (rank kind : Nat) (nums : List Nat) (bs : Bytes) :
    State × Option Nat :=
  s.redSend (g / 16) (.collRed g o.idx kind) kind (s.ctx g).gal (s.homeNode o rank) none o.col.sched
    (o.col.inst.getD 0) nums bs

/-- Pieces of one body from an offset on, each in a message of its own with its offset: how many were sent, and whether
one found no path (R14). -/
def State.toHomeAll (s : State) (g : Nat) (o : Op) (rank kind : Nat) (nums : List Nat) (off : Nat) :
    List Bytes → State × Option Nat
  | [] => (s, none)
  | b :: t =>
    match s.toHome g o rank kind (nums ++ [off]) b with
    | (s, some st) => (s, some st)
    | (s, none) => s.toHomeAll g o rank kind nums (off + b.length) t

/-- A body in pieces of 1,024 B, one at least. -/
def pieces1k (bs : Bytes) : List Bytes :=
  (List.range (max 1 (ceilDiv bs.length 1024))).map fun k => (bs.drop (1024 * k)).take 1024

/-- The join of a member goes to its group's home; with no path there the operation fails with LOST (R308,
R309, R341, R388). -/
def State.sendJoin (s : State) (g i : Nat) (counts : List Nat) (experts : List (Nat × Nat)) : State :=
  match s.op? g i with
  | none => s
  | some o =>
    match s.toHome g o o.col.rank rkJoin
        ([(s.ctx g).gal, s.node, g / 16, o.shapeWord, o.epoch.toNat] ++ counts
          ++ experts.flatMap fun e => [e.1, e.2]) [] with
    | (s, none) => s.modOp g i fun o => { o with phase := .joined }
    | (s, some _) => s.collFailed g i stLost true true

/-! ### DISPATCH and COMBINE: descriptors and tables (R384 to R388, R397, R398) -/

def Op.tm (o : Op) : Nat := getLe o.desc 48 4
def Op.l (o : Op) : Nat := getLe o.desc 52 2

/-- Bytes of the tables that a DISPATCH or COMBINE reads before its join, by kind. -/
def Op.tableSizes (o : Op) : List (Nat × Nat × Nat) :=
  let k := shapeK o.shapeWord
  if o.kind == .dispatch then
    [(0, getLe o.desc 8 8, o.tm * k * 8), (1, getLe o.desc 24 8, o.l * 16)]
  else
    [(0, getLe o.desc 0 8, o.tm * k * 8), (2, getLe o.desc 8 8, o.tm * k * 4), (1, getLe o.desc 24 8, o.l * 16)
      , (3, getLe o.desc 32 8, o.l * 4)]

/-- Route entry `e`: expert and weight (R386). -/
def Coll.route (c : Coll) (n e : Nat) : Nat × Nat :=
  let b := c.bytes 0 (n * 8)
  (getLe b (8 * e) 2, getLe b (8 * e + 4) 4)

/-- Local expert `l`: base and slots (R385). -/
def Coll.expert (c : Coll) (l e : Nat) : Nat × Nat :=
  let b := c.bytes 1 (l * 16)
  (getLe b (16 * e) 8, getLe b (16 * e + 8) 8)

/-- Checks of a dispatch or combine descriptor that need no schedule (R384, R387, R397, R398). -/
def moeDescOk (o : Op) : Bool :=
  let w := o.shapeWord
  let fva (off : Nat) : Bool := getLe o.desc off 8 % 128 == 0 && fvaOk (getLe o.desc off 8)
  let fvas := [0, 8, 16, 24, 32].all fva
  let lOk := o.l ≤ 4096 && ((o.l = 0) == (getLe o.desc 24 8 = 0)) && ((o.l = 0) == (getLe o.desc 32 8 = 0))
  if o.kind == .dispatch then
    fvas && moeShapeOk w 0xA && zeroB o.desc 54 74 && o.tm ≤ shapeTmax w && lOk
      && rangeOk ((getLe o.desc 0 8 + o.addSrc) % 2 ^ 64) (o.tm * shapeTb w)
  else
    fvas && moeShapeOk w 0xB && zeroB o.desc 56 72 && o.tm ≤ shapeTmax w && lOk && getLe o.desc 8 8 != 0
      && o.resWord / 16384 % 2 == 0 && rangeOk ((getLe o.desc 16 8 + o.addDst) % 2 ^ 64) (o.tm * shapeTb w)

/-- The experts that name a rank as owner, in local order: expert number and capacity; none if a local index
is out of range (R387). -/
def ownExperts (es : List (Nat × Nat × Nat)) (rank l : Nat) : Option (List (Nat × Nat)) :=
  let mine := (es.zipIdx).filter fun e => e.1.1 == rank
  if mine.length != l || mine.any (fun e => e.1.2.1 ≥ l) then none
  else some ((List.range l).map fun k =>
    ((mine.find? fun e => e.1.2.1 == k).map fun e => (e.2, e.1.2.2)).getD (0, 0))

/-- The expert table that governs a DISPATCH: its own; a COMBINE's schedule has none (R382). -/
def State.expertsOf (s : State) (o : Op) : List (Nat × Nat × Nat) :=
  match s.opSched o with
  | some sc => if o.kind == .dispatch then (s.bank o.epoch).experts sc else []
  | none => []

/-- A member's local expert table is in order: what X[ra] or X[rc] is added to stays aligned, and each region and slot
array lies below 2^57 at its highest address (R12, R122, R384, R385). -/
def Op.localsOk (o : Op) (caps : List Nat) : Bool :=
  (List.range o.l).all fun e =>
    let x := o.col.expert o.l e
    let base := (x.1 + if o.kind == .dispatch then o.addDst else o.addSrc) % 2 ^ 64
    x.1 % 128 == 0 && rangeOk base (caps.getD e 0 * shapeTb o.shapeWord) && rangeOk x.2 (8 * caps.getD e 0)

/-- Capacities of the experts that a member owns, in local order, by each schedule of kind 0xA of its gallery in which
it owns `l` (R382). -/
def State.capacities (s : State) (g : Nat) (o : Op) : List (List Nat) :=
  let k := s.bank o.epoch
  (List.range 4096).filterMap fun id =>
    match k.sched id with
    | none => none
    | some sc =>
      if sc.gallery != (s.ctx g).gal || sc.digest / 2 ^ 60 != 0xA then none
      else ((k.rankAt sc s.node (g / 16)).bind fun r => ownExperts (k.experts sc) r o.l).map fun es => es.map (·.2)

/-- The recv array keeps within the experts' capacities (R398). DEDUCED: a combine schedule names no experts, so the
capacities are those of a dispatch schedule of the gallery in which this member owns as many; with none, the largest
capacity that R382 allows (log entry 28). -/
def State.recvOk (s : State) (g : Nat) (o : Op) : Bool :=
  let recv := (List.range o.l).map fun l => getLe (o.col.bytes 3 (o.l * 4)) (4 * l) 4
  let within (caps : List Nat) : Bool := (recv.zip caps).all fun x => x.1 ≤ x.2
  let known := s.capacities g o
  o.kind != .combine || o.l = 0
    || (if known.isEmpty then recv.all (· < 2 ^ 20) else known.any within)

/-- The checks that need the tables (R387, R398). -/
def State.moeTablesOk (s : State) (g : Nat) (o : Op) : Bool :=
  let k := shapeK o.shapeWord
  let n := o.tm * k
  let es := s.expertsOf o
  let named := (List.range n).map fun e => (o.col.route n e).1
  let rsvOk := (List.range n).all fun e => getLe (o.col.bytes 0 (n * 8)) (8 * e + 2) 2 == 0
  let range := o.kind != .dispatch || named.all fun e => e == 0xFFFF || e < es.length
  let once := (List.range o.tm).all fun t =>
    let mine := ((named.drop (t * k)).take k).filter fun e => e != 0xFFFF
    mine.eraseDups.length == mine.length
  let caps := if o.kind == .dispatch then ((ownExperts es o.col.rank o.l).getD []).map (·.2)
    else (List.range o.l).map fun l => getLe (o.col.bytes 3 (o.l * 4)) (4 * l) 4
  rsvOk && range && once && o.localsOk caps && s.recvOk g o

/-- The counts per expert (R388). -/
def Op.counts (o : Op) (experts : Nat) : List Nat :=
  let n := o.tm * shapeK o.shapeWord
  let named := (List.range n).map fun e => (o.col.route n e).1
  (List.range experts).map fun e => (named.filter fun x => x == e).length

/-! ### Descriptors, step by step to the join -/

/-- A descriptor of a REDUCE, DISPATCH or COMBINE has been read (R125). -/
def State.collDesc (s : State) (g i : Nat) (b : Bytes) : State :=
  let s := s.modOp g i fun o => { o with desc := b }
  match s.op? g i with
  | none => s
  | some o =>
    let own := if o.kind == .reduce then reduceDescOk o else moeDescOk o
    if !own then s.collFailed g i stMalformed true false
    else
      let fits (sc : Sched) (r : Nat) : Bool :=
        if o.kind == .reduce then reduceSchedOk o sc r
        else o.kind != .dispatch || (ownExperts ((s.bank o.epoch).experts sc) r o.l).isSome
      match s.schedCheck o fits with
      | some st => s.collFailed g i st true false
      | none => s.modOp g i fun o => { o with phase := .ranges }

/-- The result range of a member: its base and its bytes (R324). -/
def State.resultRange (s : State) (o : Op) : Nat × Nat :=
  match o.kind, s.opSched o with
  | .reduce, some sc => (o.resultFva, (Shape.dec o.shapeWord).resultBytes o.col.rank sc.n)
  | .combine, _ => ((getLe o.desc 16 8 + o.addDst) % 2 ^ 64, o.tm * shapeTb o.shapeWord)
  | _, _ => (0, 0)

/-- The ranges whose translations are kept from before the join: the result, and of a DISPATCH the arrays that it
writes at addresses of its own descriptor (R324, R434). -/
def State.keptRanges (s : State) (o : Op) : List (Nat × Nat) :=
  if o.kind == .dispatch then
    [(getLe o.desc 16 8, o.tm * shapeK o.shapeWord * 4), (getLe o.desc 32 8, o.l * 4)]
  else [s.resultRange o]

/-- One step before the join: tables, the header line of a sparse contribution, the last checks, pages of the result
range, then the join itself (R125, R324, R371, R387, R398). -/
def State.rangeStep (s : State) (g i : Nat) (o : Op) : State × Bool :=
  let sparse := o.kind == .reduce && (Shape.dec o.shapeWord).sparse
  let tables := if o.kind == .reduce then (if sparse then [(5, o.contribFva, 128)] else []) else o.tableSizes
  match tables.findSome? fun t => (o.col.missing t.1 t.2.2).map fun l => (t.1, l, t.2.1 + 128 * l) with
  | some (kind, l, fva) => (s.collRead g i kind l fva, false)
  | none =>
    let nnz := getLe ((o.col.line? 5 0).getD []) 0 8
    if sparse && nnz > (Shape.dec o.shapeWord).count then (s.collFailed g i stMalformed true false, false)
    else if o.kind != .reduce && !s.moeTablesOk g o then (s.collFailed g i stMalformed true false, false)
    else
      match s.joinCheck g o with
      | some st => (s.collFailed g i st true false, false)
      | none =>
        match (s.keptRanges o).findSome? fun r => o.col.uncovered r.1 r.2 with
        | some fva => s.keepPage g i fva
        | none =>
          let es := s.expertsOf o
          let local_ := if o.kind == .dispatch then (List.range o.l).map fun l => o.col.expert o.l l else []
          (s.sendJoin g i (if o.kind == .dispatch then o.counts es.length else []) local_, false)

/-! ### Contributions (R323, R326, R327, R371, R373) -/

/-- A member whose home it cannot reach any more fails with LOST (R341). -/
def State.homeLost (s : State) (g i : Nat) : State × Bool := (s.collFailed g i stLost true true, false)

/-- One step of a dense contribution: the next line, under the credit of its chunk (R326). -/
def State.denseStep (s : State) (g i : Nat) (o : Op) : State × Bool :=
  let h := Shape.dec o.shapeWord
  let total := ceilDiv (h.contribBytes o.col.rank) 128
  let per := chunkBytes h.inF / 128
  let k := o.col.next
  if k ≥ total then (s.modOp g i fun o => { o with phase := .sent, col := { o.col with sentAll := true } }, true)
  else if !o.col.credits.contains (k / per) || !s.lineRoom g then (s, false)
  else
    match o.col.line? 5 k with
    | none => (s.collRead g i 5 k (o.contribFva + 128 * k), false)
    | some bs =>
      let last := k % per = per - 1 || k + 1 = total
      match s.toHome g o o.col.rank rkContribution [o.col.rank, k / per, 128 * (k % per)] bs with
      | (s, some _) => s.homeLost g i
      | (s, none) =>
        (s.modCol g i fun c =>
          { c with
            next := k + 1
            tables := c.tables.filter fun t => !(t.1 == 5 && t.2.1 == k)
            credits := if last then c.credits.erase (k / per) else c.credits }, true)

/-- The records of a stream's bytes: index and raw value (R368). -/
def recordsOf (f n : Nat) (bs : Bytes) : List (Nat × Nat) :=
  (List.range n).map fun r =>
    let at_ := r * recBytes f
    (getLe bs at_ 4, if f = 9 then getLe bs (at_ + 8) 8 else getLe bs (at_ + 4) 4)

/-- The bytes of records (R368). -/
def recordBytes (f : Nat) (rs : List (Nat × Nat)) : Bytes :=
  (rs.map fun r =>
    if f = 9 then natLe 4 r.1 ++ zeros 4 ++ natLe 8 r.2 else natLe 4 r.1 ++ natLe 4 r.2).flatten

/-- Indices of a window (R372). -/
def windowSize (f : Nat) : Nat := 65536 / recBytes f

/-- Each index exceeds the one before (R371). -/
def ascending : List (Nat × Nat) → Bool
  | a :: b :: t => a.1 < b.1 && ascending (b :: t)
  | _ => true

/-- The first chunk of a list of records: it closes before any window that would take it past W records.
`none` if more records must be read first (R373). -/
def firstChunk (w : Nat) (rs : List (Nat × Nat)) (all : Bool) : Option (List (Nat × Nat)) :=
  if rs.length ≤ w then (if all then some rs else none)
  else
    let lastWindow := ((rs[w]?).map (·.1 / w)).getD 0
    some (rs.filter fun r => r.1 / w < lastWindow)

/-- One step of a sparse contribution: read the next line, or send the next whole chunk in pieces (R14, R373). What has
been read lies in the lines of kind 5; `weights` counts the records sent while the contribution runs. -/
def State.sparseStep (s : State) (g i : Nat) (o : Op) : State × Bool :=
  let h := Shape.dec o.shapeWord
  let nnz := getLe ((o.col.line? 5 0).getD []) 0 8
  let bytes := nnz * recBytes h.inF
  let have_ := (List.range (ceilDiv bytes 128)).takeWhile fun l => (o.col.line? 5 (l + 1)).isSome
  let data := (have_.map fun l => (o.col.line? 5 (l + 1)).getD []).flatten
  let n := min nnz (128 * have_.length / recBytes h.inF)
  let rs := recordsOf h.inF n data
  let sent := o.col.weights
  if !ascending rs then (s.collFailed g i stMalformed true false, false)
  else if !o.col.credits.contains o.col.next || !s.lineRoom g then (s, false)
  else
    match firstChunk (windowSize h.inF) (rs.drop sent) (n == nnz) with
    | none => (s.collRead g i 5 (have_.length + 1) (o.contribFva + 128 + 128 * have_.length), false)
    | some c =>
      let last : Bool := n == nnz && sent + c.length == nnz
      match s.toHomeAll g o o.col.rank rkContribution [o.col.rank, o.col.next, c.length, last.toNat] 0
          (pieces1k (recordBytes h.inF c)) with
      | (s, some _) => s.homeLost g i
      | (s, none) =>
        (s.modOp g i fun o =>
          { o with
            phase := if last then .sent else o.phase
            col :=
              { o.col with
                next := o.col.next + 1, weights := sent + c.length, sentAll := last
                credits := o.col.credits.erase o.col.next } }, true)

/-! ### DISPATCH after its offsets (R390 to R394) -/

/-- One line that a DISPATCH writes: a token line from a source, or bytes under a mask. -/
inductive DItem where
  | line (src dst : Nat)
  | put (dst : Nat) (mask : Nat) (bytes : Bytes)
deriving DecidableEq, Repr

/-- A masked line that holds `bs` from byte `at_` on. -/
def maskedLine (fva : Nat) (bs : Bytes) : DItem :=
  let at_ := fva % 128
  .put (fva - at_) ((2 ^ bs.length - 1) * 2 ^ at_) (zeros at_ ++ bs ++ zeros (128 - at_ - bs.length))

/-- The 128-byte lines of an array that starts at an aligned FVA. -/
def arrayLines (fva : Nat) (bs : Bytes) : List DItem :=
  (List.range (ceilDiv bs.length 128)).map fun l => maskedLine (fva + 128 * l) ((bs.drop (128 * l)).take 128)

/-- The placement of R390: token lines, slot record and status entry, choice by choice. -/
def Op.placement (o : Op) : List DItem :=
  let w := o.shapeWord
  let k := shapeK w
  let n := o.tm * k
  let tokens := (getLe o.desc 0 8 + o.addSrc) % 2 ^ 64
  let step (acc : List DItem × Tab Nat) (c : Nat) : List DItem × Tab Nat :=
    let e := (o.col.route n c).1
    let used := Tab.get 0 acc.2 e
    let status (v : Nat) : DItem := maskedLine ((getLe o.desc 16 8 + 4 * c) % 2 ^ 64) (natLe 4 v)
    if e = 0xFFFF then (acc.1 ++ [status 0xFFFFFFFE], acc.2)
    else if used < o.col.keptCnt.getD e 0 then
      let slot := o.col.off.getD e 0 + used
      let b := o.col.bases.getD e (0, 0)
      let dst := (b.1 + o.addDst + slot * shapeTb w) % 2 ^ 64
      let src := tokens + c / k * shapeTb w
      let rec_ := c / k * 2 ^ 44 + c % k * 2 ^ 41 + o.col.rank
      (acc.1 ++ ((List.range (shapeTl w)).map fun l => DItem.line (src + 128 * l) (dst + 128 * l))
          ++ [maskedLine ((b.2 + 8 * slot) % 2 ^ 64) (natLe 8 rec_), status slot],
        Tab.set 0 acc.2 e (used + 1))
    else (acc.1 ++ [status 0xFFFFFFFF], acc.2)
  ((List.range n).foldl step ([], [])).1

/-- Everything that a DISPATCH writes, in order: receive counts on their arrival, then the placement (R390, R391,
R393). -/
def Op.dispatchItems (o : Op) : List DItem :=
  arrayLines (getLe o.desc 32 8) ((o.col.recv.map fun v => natLe 4 v).flatten) ++ o.placement

/-- The address of a line that a DISPATCH writes: by a translation kept from before the join, or afresh (R434). -/
def State.collAddr (s : State) (g i dst : Nat) : State × TrResult :=
  match (s.op? g i).bind fun o => o.col.keptFpa dst with
  | some fpa => (s, .ok fpa)
  | none => s.ctxTranslate g (.op i) dst false true

/-- One write of a DISPATCH. -/
def State.dispatchPut (s : State) (g i dst : Nat) (mask : Option Nat) (bs : Bytes) : State × Bool :=
  let c := s.ctx g
  if !fvaOk dst then (s.collFailed g i stMalformed true false, false)
  else
    match s.collAddr g i dst with
    | (s, .wait) => (s, false)
    | (s, .fail st) => (s.collFailed g i st true false, false)
    | (s, .ok fpa) =>
      let payload := mask.elim bs fun m => natLe 16 m ++ bs
      match s.request (g / 16) (.collSend g i) none c.gal (if mask.isSome then ftWriteMasked else ftWrite) 0 1 fpa 0
          payload (s.trOf (g / 16) c.gal c.pasid dst) with
      | (s, none) =>
        (s.modCol g i fun x =>
          { x with
            next := x.next + 1, unacked := x.unacked + 1
            tables := x.tables.filter fun t => t.1 != 5 }, true)
      | (s, some st) => (s.collFailed g i st true false, false)

/-- One step of a DISPATCH whose offsets have arrived. -/
def State.dispatchStep (s : State) (g i : Nat) (o : Op) : State × Bool :=
  if !o.col.final || !s.lineRoom g then (s, false)
  else
    match o.dispatchItems[o.col.next]? with
    | none => (s.modOp g i fun o => { o with phase := .sent, col := { o.col with sentAll := true } }, true)
    | some (.put dst mask bs) => s.dispatchPut g i dst (some mask) bs
    | some (.line src dst) =>
      match o.col.line? 5 o.col.next with
      | none => (s.collRead g i 5 o.col.next src, false)
      | some bs => s.dispatchPut g i dst none bs

/-! ### COMBINE: weights and the owner role (R400 to R402) -/

/-- Local expert and slot of owner item `k`, in ascending order (R401). -/
def ownerItem (recv : List Nat) (k : Nat) : Option (Nat × Nat) :=
  match recv with
  | [] => none
  | r :: t => if k < r then some (0, k) else (ownerItem t (k - r)).map fun x => (x.1 + 1, x.2)

/-- The weights and marks of every token, to the member's home (R402): how many tokens went before there was no path. -/
def State.sendWeights (s : State) (g i : Nat) (o : Op) : State × Bool :=
  let k := shapeK o.shapeWord
  let n := o.tm * k
  let st := o.col.bytes 2 (n * 4)
  let one (acc : State × Bool) (t : Nat) : State × Bool :=
    if !acc.2 then acc
    else
      let cs := (List.range k).map fun j => t * k + j
      match acc.1.toHome g o o.col.rank rkWeights
          ([o.col.rank, t] ++ (cs.map fun c => (o.col.route n c).2)
            ++ cs.map fun c => if getLe st (4 * c) 4 ≤ 0xFFFFE then 1 else 0) [] with
      | (s, none) => (s, true)
      | (s, some _) => (s, false)
  match (List.range o.tm).foldl one (s, true) with
  | (s, true) => (s.modCol g i fun c => { c with weights := o.tm }, true)
  | (s, false) => s.homeLost g i

/-- The home of a group has announced its grant to the member (R400). -/
def State.grantKnown (s : State) (g : Nat) (o : Op) (group : Nat) : Bool :=
  o.col.grants.contains group || s.red.early.contains (g / 16, o.col.sched, o.col.inst.getD 0, group)

/-- One step of a COMBINE: the weights once the member's own home has granted, then the owner role: the slot
record, the grant of its rank's home, the output lines, then the output (R398, R400 to R402). -/
def State.combineStep (s : State) (g i : Nat) (o : Op) : State × Bool :=
  let w := o.shapeWord
  let recvB := o.col.bytes 3 (o.l * 4)
  let recv := (List.range o.l).map fun l => getLe recvB (4 * l) 4
  match s.opSched o, ownerItem recv o.col.next with
  | none, _ => (s.collFailed g i stNoSchedule true false, false)
  | some sc, item =>
  if !s.lineRoom g then (s, false)
  else if o.col.weights < o.tm && s.grantKnown g o (o.col.rank / sc.b) then s.sendWeights g i o
  else
  match item with
  | none =>
    if o.col.weights < o.tm then (s, false)
    else (s.modOp g i fun o => { o with phase := .sent, col := { o.col with sentAll := true } }, true)
  | some (l, slot) =>
    let e := o.col.expert o.l l
    let recFva := (e.2 + 8 * slot) % 2 ^ 64
    match o.col.line? 4 (recFva / 128) with
    | none => (s.collRead g i 4 (recFva / 128) (recFva / 128 * 128), false)
    | some bs =>
      let r := getLe bs (recFva % 128) 8
      let token := r / 2 ^ 44 % 2 ^ 20
      let choice := r / 2 ^ 41 % 8
      let rank := r % 1024
      if rank ≥ sc.n || choice ≥ shapeK w || token ≥ shapeTmax w then
        (s.collFailed g i stMalformed true false, false)
      else if !s.grantKnown g o (rank / sc.b) then (s, false)
      else
        let base := (e.1 + o.addSrc + slot * shapeTb w) % 2 ^ 64
        match (List.range (shapeTl w)).find? fun k => (o.col.line? 5 k).isNone with
        | some k => (s.collRead g i 5 k (base + 128 * k), false)
        | none =>
          let body := pieces1k (o.col.bytes 5 (shapeTb w))
          match s.toHomeAll g o rank rkExpertOutput [rank, token, choice] 0 body with
          | (s, some _) => s.homeLost g i
          | (s, none) =>
            (s.modCol g i fun c =>
              { c with
                next := c.next + 1, unacked := c.unacked + body.length
                tables := c.tables.filter fun t => t.1 != 5 }, true)

/-- One step of the line stream of a REDUCE, DISPATCH or COMBINE. -/
def State.collStep (s : State) (g i : Nat) : State × Bool :=
  match s.op? g i with
  | none => (s, false)
  | some o =>
    if o.col.abortAt.isSome then (s, false)
    else
    match o.phase with
    | .ranges => s.rangeStep g i o
    | .joined | .running =>
      match o.kind with
      | .dispatch => s.dispatchStep g i o
      | .combine => s.combineStep g i o
      | _ => if (Shape.dec o.shapeWord).sparse then s.sparseStep g i o else s.denseStep g i o
    | _ => (s, false)

/-! ### Delivery and completion at the member (R331, R340, R344, R345, R347, R394, R404) -/

/-- Result bytes that complete a member, none for a sparse result, whose header line comes last. -/
def State.resultNeed (s : State) (o : Op) : Option Nat :=
  let n := (s.resultRange o).2
  if o.kind == .reduce && (Shape.dec o.shapeWord).sparse && n != 0 then none else some n

/-- Every packet that a home sent to this module before the one with a sequence has been handled here (R277). -/
def State.homeSent (s : State) (node dseq : Nat) : Bool :=
  let w := Tab.get DupWin.reset s.windows (winKey node 0x3F)
  (dseq + 2 ^ 32 - w.floor) % 2 ^ 32 ≥ 2 ^ 31

/-- A member that has been told of an abort ends once the results sent before it have come, been written and been
answered, or its delivery has failed (R344, R345, R347). -/
def State.abortSettle (s : State) (g i : Nat) (o : Op) (a : AbortNote) : State :=
  if o.col.unacked != 0 || (o.col.delivery = stOk && !s.homeSent a.node a.dseq) then s
  else s.collFailed g i a.status false a.pathLost

/-- An operation whose lines are sent and whose writes are answered and counted completes (R340, R347, R394, R404). A
member of a REDUCE that receives no result waits for the instance. -/
def State.collSettle (s : State) (g i : Nat) : State :=
  match s.op? g i with
  | none => s
  | some o =>
    match o.col.abortAt with
    | some a => s.abortSettle g i o a
    | none =>
    if o.phase != .sent || o.col.unacked != 0 then s
    else if o.col.delivery != stOk then s.collFailed g i o.col.delivery (o.kind == .dispatch) false
    else
      let (_, n) := s.resultRange o
      let whole := match o.kind, s.resultNeed o with
        | .dispatch, _ => true
        | .combine, _ => o.col.got ≥ n
        | _, none => o.col.final && o.col.resPkts.isEmpty
        | _, some need => need != 0 && o.col.got ≥ need
      if whole then s.modOp g i fun o => { o with phase := .done stOk } else s

/-- Put a result write into the home's send order (R331). -/
def putResult : List ResWrite → ResWrite → List ResWrite
  | [], x => [x]
  | y :: t, x => if (y.dseq + 2 ^ 32 - x.dseq) % 2 ^ 32 - 1 < 2 ^ 31 - 1 then x :: y :: t else y :: putResult t x

/-- Write result bytes at the kept translations, in pieces that stay in one aligned 2,048 B block; a last line that is
not full is written under a mask (R331). -/
def State.writeResult (s : State) (g i dseq fva : Nat) : Nat → Bytes → State
  | 0, _ => s
  | fuel + 1, bs =>
    if bs.length = 0 then s
    else
      match s.op? g i with
      | none => s
      | some o =>
        let whole := min (bs.length / 128) (16 - fva % 2048 / 128)
        let n := if whole = 0 then bs.length else 128 * whole
        match o.col.keptFpa fva with
        | none => s
        | some fpa =>
          let c := s.ctx g
          let lines := max whole 1
          let payload := if whole = 0 then natLe 16 (2 ^ n - 1) ++ bs ++ zeros (128 - n) else bs.take n
          let w : ResWrite := { first := fva, bytes := n, dseq := dseq, status := stNone }
          let s := match s.request (g / 16) (.opWrite g i fva lines) none c.gal
              (if whole = 0 then ftWriteMasked else ftWrite) 0 lines fpa 0 payload
              (s.trOf (g / 16) c.gal c.pasid fva) with
            | (s, none) => s.modCol g i fun x => { x with unacked := x.unacked + 1, resPkts := putResult x.resPkts w }
            | (s, some st) =>
              s.modCol g i fun x => { x with delivery := if x.delivery = stOk then st else x.delivery }
          s.writeResult g i dseq (fva + n) fuel (bs.drop n)

/-- Result writes that res_so may count now: those at the front that have all committed, and before which no packet of
the home to this member can still come (R189, R331). -/
def State.resultsDue (s : State) (o : Op) : List ResWrite :=
  let allIn := (s.resultNeed o).any (o.col.got ≥ ·)
  o.col.resPkts.takeWhile fun q =>
    q.status == stOk && (allIn || s.homeSent (s.homeNode o o.col.rank) q.dseq)

/-- Count committed result lines in res_so at this module, 128 B a line as R56 counts lines, in the home's send order;
nothing is counted after a write that failed (R56, R189, R190, R331). -/
def State.countResults (s : State) (g i : Nat) : State :=
  match s.op? g i with
  | none => s
  | some o =>
    let due := s.resultsDue o
    let s := s.modCol g i fun c => { c with resPkts := c.resPkts.drop due.length }
    if o.resWord / 32768 = 1 then
      due.foldl (fun s q => s.soAddOf (o.resWord % 16384) (s.ctx g).gal (128 * ceilDiv q.bytes 128)) s
    else s

/-- A write or an owner's line of a REDUCE, DISPATCH or COMBINE has its answer; `first` is the address of a result's
(R331, R347, R394, R404). -/
def State.collAnswered (s : State) (g i first status : Nat) : State :=
  let mine (q : ResWrite) : Bool := q.status == stNone && q.first == first
  let answer (q : ResWrite) : ResWrite := { q with status := status }
  ((s.modCol g i fun c =>
    { c with
      unacked := c.unacked - 1
      got := if status = stOk then c.got + ((c.resPkts.find? mine).elim 0 (·.bytes)) else c.got
      resPkts := modifyFirst mine answer c.resPkts
      delivery := if status != stOk && c.delivery = stOk then status else c.delivery }).countResults g i).collSettle
        g i

/-- A packet of a home has been handled: what waited for it is counted, and members that waited for it to end do so
(R331, R344). -/
def State.settleMembers (s : State) : State :=
  let waits (o : Op) : Bool := o.col.abortAt.isSome || !o.col.resPkts.isEmpty
  (s.ctxs.flatMap fun c => (c.2.ops.filter waits).map fun o => (c.1, o.idx)).foldl
    (fun s x => (s.countResults x.1 x.2).collSettle x.1 x.2) s

end Sys2Proof.Machine
end

