-- ==== Sys2Proof/Machine/Stream.lean ====
section
/-! DEFINITION. What goes on in a docent between events: the fetch of tour lines and descriptors, the line
streams of the contexts in issue order (R81, R102, R104), the answers to packets, and the page requests and
refusals of the streams (R437 to R440). -/

namespace Sys2Proof.Machine

/-! ### Fetches (R80, R81, R102) -/

/-- A line of this context's tour is on its way. -/
def State.lineAsked (s : State) (g line : Nat) : Bool :=
  (s.replay ++ s.held).any fun o => o.origin == .tourLine g line

/-- Read a tour line at an FPA. -/
def State.readTourLine (s : State) (g line fpa : Nat) : State × Option Nat :=
  let c := s.ctx g
  s.request (g / 16) (.tourLine g line) none c.gal ftRead (s.dataVc c.gal) 1 fpa 0 []
    (s.trOf (g / 16) c.gal c.pasid (128 * line))

/-- Fetch the header (R85 check 4), or the line of the next instruction (R81). -/
def State.fetchTour (s : State) (g line : Nat) (want : Want) : State :=
  let stop (s : State) (st : Nat) : State := if want == .header then s.launchFail g st else s.instrFail g st
  if s.lineAsked g line then s
  else if !fvaOk (128 * line) then stop s stMalformed
  else
    match s.ctxTranslate g want (128 * line) true false with
    | (s, .wait) => s
    | (s, .fail st) => stop s st
    | (s, .ok fpa) =>
      match s.readTourLine g line fpa with
      | (s, none) => s
      | (s, some st) => stop s st

/-- Prefetch: at most four lines, under translations that a cache holds or that are asked for ahead (R81, R432). -/
def State.prefetch (s : State) (g : Nat) : State :=
  let c := s.ctx g
  let need := c.instrFva c.pc / 128
  let last := c.instrFva (c.count - 1) / 128
  (List.range 3).foldl (fun s k =>
    let line := need + 1 + k
    if line ≤ last && !s.lineAsked g line && !(s.ctx g).ibuf.any (fun l => l.1 == line) then
      match if fvaOk (128 * line) then s.lookAhead g c.gal c.pasid (128 * line) else (s, none) with
      | (s, some fpa) => (s.readTourLine g line fpa).1
      | (s, none) => s
    else s) s

/-- Read the descriptor of an operation (R102, R125). -/
def State.fetchDesc (s : State) (g i : Nat) (o : Op) : State :=
  let c := s.ctx g
  if (s.replay ++ s.held).any fun x => x.origin == .descRead g i then s
  else
    match s.ctxTranslate g (.op i) o.descFva true false with
    | (s, .wait) => s
    | (s, .fail st) => s.collFailed g i st true false
    | (s, .ok fpa) =>
      match s.request (g / 16) (.descRead g i) none c.gal ftRead (s.dataVc c.gal) 1 fpa 0 []
          (s.trOf (g / 16) c.gal c.pasid o.descFva) with
      | (s, none) => s
      | (s, some st) => s.collFailed g i st true false

/-- A descriptor arrives, or its read fails (R102, R125). -/
def State.descArrives (s : State) (g i : Nat) (what : Fetched) : State :=
  match s.op? g i, what with
  | none, _ => s
  | some _, .failed st => s.collFailed g i st true false
  | some o, .data b =>
    if o.phase != .desc then s
    else
      match o.kind with
      | .copy | .gather | .scatter => s.xferDesc g i b
      | .mcast => s.mcastDesc g i b
      | .reduce | .dispatch | .combine => s.collDesc g i b
      | .signal => s

/-! ### The line stream (R96, R104) -/

/-- The operation whose lines come next: every earlier operation has sent all of its lines. -/
def Ctx.streamHead (c : Ctx) : Option Op :=
  c.ops.find? fun o =>
    o.kind != .signal && (o.phase == .desc || o.phase == .ranges || o.phase == .joined || o.phase == .running)

/-- What an operation comes to after a step or an answer. -/
def State.opSettle (s : State) (g i : Nat) : State :=
  match s.op? g i with
  | none => s
  | some o =>
    match o.kind with
    | .copy | .gather | .scatter => s.xferSettle g i
    | .mcast => if o.phase == .running || o.phase == .sent then s.mcSettle g i else s
    | .reduce | .dispatch | .combine => s.collSettle g i
    | .signal => s

/-- One step of the line stream. -/
def State.streamStep (s : State) (g : Nat) : State × Bool :=
  match (s.ctx g).streamHead with
  | none => (s, false)
  | some o =>
    if o.phase == .desc then (s.fetchDesc g o.idx o, false)
    else
      let (s, more) := match o.kind with
        | .copy | .gather | .scatter => s.xferStep g o.idx
        | .mcast => s.mcastStep g o.idx
        | .reduce | .dispatch | .combine => s.collStep g o.idx
        | .signal => (s, false)
      let s := s.opSettle g o.idx
      (s, more || (s.ctx g).streamHead.map (·.idx) != some o.idx)

/-- The context may act: its tour runs, it is not PARKED, and its stream waits for no translation (R96). -/
def State.mayStream (s : State) (g : Nat) : Bool :=
  (s.ctx g).running && (s.ctx g).state != .parked && !s.streamWaits (g / 16) (.ctx g)

/-- Lines that the context's operations may still send. -/
def Ctx.linesLeft (c : Ctx) : Nat := (c.ops.map fun o => o.x.total + 4096).sum + 4096

/-- One thing that the context's stream does, if the stream may go on and the thing is due. -/
def State.actWhen (s : State) (g : Nat) (due : Ctx → Bool) (f : State → State) : State :=
  if s.mayStream g && due (s.ctx g) then f s else s

/-- The context waits for its atomic. -/
def Ctx.atomicDue (c : Ctx) : Bool :=
  match c.block with
  | .atomic _ => true
  | _ => false

/-- What a context does beside its lines: end record, header, atomic, tour line, status arrays. -/
def State.act (s : State) (g : Nat) : State :=
  let s := s.actWhen g (fun c => c.endRec == 1) fun s => s.sendEndRecord g
  let s := s.actWhen g (fun c => !c.started) fun s =>
    match (s.ctx g).headerLines.find? fun l => !(s.ctx g).ibuf.any fun x => x.1 == l with
    | some l => s.fetchTour g l .header
    | none => s
  let s := s.actWhen g Ctx.atomicDue fun s =>
    if (s.replay ++ s.held).any fun o => o.origin == .atomic g then s else s.sendAtomic g
  let s := s.actWhen g (fun c => c.started && c.block == .line) fun s =>
    s.fetchTour g ((s.ctx g).instrFva (s.ctx g).pc / 128) .line
  ((s.ctx g).ops.map (·.idx)).foldl (fun s i => s.actWhen g (fun _ => true) fun s => s.opSettle g i) s

/-- Every context of a port does what it does beside its lines. -/
def State.actAll (s : State) (p : Nat) : State := (List.range 16).foldl (fun s n => s.act (ctxIdx p n)) s

/-! ### Answers to packets (R61, R88, R106, R115, R130, R138, R146, R214) -/

/-- The delivery of result lines to one member has failed: it ends with that status once its contribution is sent,
and the instance goes on (R347, R522). A member at another module is told. -/
def State.deliveryLost (s : State) (sched inst rank status : Nat) : State :=
  let mine (p : Nat) : Option (Nat × Op) :=
    (s.memberOp p sched inst).filter fun x => x.2.col.rank == rank
  match (List.range 48).findSome? mine with
  | some (g, o) =>
    (s.modCol g o.idx fun c =>
      { c with delivery := if c.delivery = stOk then status else c.delivery }).collSettle g o.idx
  | none =>
    let at_ := (s.red.insts.filter fun i => i.sched == sched && i.inst == inst).findSome? fun i =>
      (i.members.find? fun m => m.rank == rank).map fun m => (i.gallery, m)
    match at_ with
    | some (gal, m) =>
      (s.redSend 0x3F (.home sched inst) rkResult gal m.node (some m.port) sched inst [rank, status] []).1
    | none => s

/-- One reference to a result packet for each member that receives it, on VC4 (R330), to the member's port, with the
offset of its lines beside the node. A target with no route is lost (R522). -/
def State.resultOut (s : State) (id : Nat) (k : ResultPkt) : List (Nat × Nat × Nat) → State
  | [] => s
  | x :: t =>
    match s.request 0x3F (.resultCopy k.sched k.inst x.1) (some id) k.gallery (ftRed + rkResult) 4
        (k.bytes.length / 128) (x.2.1 * 2 ^ 52 + k.off) (redParam (some x.2.2) 0) k.bytes none with
    | (s, none) => (s.out (.red "RESULT" x.2.1 x.2.2 k.sched k.inst [x.1, k.off] k.bytes)).resultOut id k t
    | (s, some st) => ((s.mcRelease id).deliveryLost k.sched k.inst x.1 st).resultOut id k t

/-- Send result packets in order until one does not fit within mc_limit; the rest wait (R330, R523). The word of an
abort goes to each member's port (R344). -/
def State.resultsGo (s : State) : List ResultPkt → State
  | [] => { s with red := { s.red with outbox := [] } }
  | k :: t =>
    match k.ends with
    | some (status, pathLost) =>
      (k.dests.foldl (fun s x =>
        s.sendAbort k.gallery x.2.1 (some x.2.2) k.sched k.inst status pathLost none) s).resultsGo t
    | none =>
    match s.mcCopy (packetCells k.bytes) k.dests.length true with
    | (s, none) => { s with red := { s.red with outbox := k :: t } }
    | (s, some id) => (s.resultOut id k k.dests).resultsGo t

/-- Result packets that wait for room are sent (R523). -/
def State.pumpResults (s : State) : State := s.resultsGo s.red.outbox

/-- A write of a context's operation is lost: a FENCE that covers it says so (R141, R283). -/
def State.lostWrite (s : State) (g status : Nat) : State :=
  if status = stLost && !s.lostFor.contains g then { s with lostFor := g :: s.lostFor } else s

/-- A packet has its answer: its status, and the data or value that came. -/
def State.resolve (s : State) (o : Outst) (status : Nat) (bs : Bytes) : State :=
  let what : Fetched := if status = stOk then .data bs else .failed status
  match o.origin with
  | .epReq p tag =>
    match (s.docent p).reqs.find? fun q => q.tag == tag with
    | some q => s.finishReq p q status bs
    | none => s
  | .opWrite g i first _ =>
    let s := s.lostWrite g status
    match s.op? g i with
    | some x =>
      if x.kind == .reduce || x.kind == .combine then s.collAnswered g i first status
      else s.xferAnswered g i first status o.dest
    | none => s
  | .srcRead g i first lines =>
    (s.srcArrives g i first lines (fieldN o.hdr 128 64) (!o.noFill) what).opSettle g i
  | .tableRead g i line => (s.tableArrives g i line what).opSettle g i
  | .tourLine g line => s.tourLineArrives g line what
  | .descRead g i => s.descArrives g i what
  | .mcWrite g i t => ((s.lostWrite g status).mcAnswered g i t status).opSettle g i
  | .mcRead g i l => (s.mcReadArrives g i l what).opSettle g i
  | .statusWrite g i => ((s.lostWrite g status).mcStatusAnswered g i status).opSettle g i
  | .signal g i =>
    if status = stOk then s.modOp g i fun x => { x with phase := .done stOk } else s.opFailed g i status 0
  | .wait g => s.waitAnswered g status (leNat (bs.take 8))
  | .atomic g => s.atomicAnswered g status (leNat (bs.take 8))
  | .endRecord g => if status = stOk then s.finishTour g true else s.endRecordFailed g status
  | .writeBack p gal pasid fva => if status = stOk then s else s.wbFailed p gal pasid fva status
  | .collSend g i => (s.lostWrite g status).collAnswered g i 0 status
  | .collRead g i kind idx => s.collArrives g i kind idx what
  | .collRed g i kind =>
    if status != stOk then s.collFailed g i status true (status == stLost)
    else if kind = rkExpertOutput then s.collAnswered g i 0 stOk
    else s
  | .resultCopy sched inst rank =>
    let s := o.group.elim s s.mcRelease
    if status = stOk then s else s.deliveryLost sched inst rank status
  | .home _ _ | .withdrawal | .mgmt => s

/-- A packet fails before it could be sent. -/
def State.unsent (s : State) (o : Outst) (status : Nat) : State :=
  (if o.isResult then s else s.mcUnsent [o]).resolve o status []

/-- The packet carries a request of the end-point of a port. -/
def Outst.ofEp (o : Outst) : Option Nat :=
  match o.origin with
  | .epReq p _ => some p
  | _ => none

/-- Packets that waited are sent, or fail (R276); those of end-point requests take turns with the contexts' lines. -/
def State.flushHeld (s : State) : State :=
  let (s, failed) := s.pumpHeld fun o => o.ofEp.isNone
  failed.foldl (fun s f => s.unsent f.1 f.2) s

/-! ### Turns of a port (R105) -/

/-- What comes of a held packet now, unless it must wait on: its failure, if it fails. -/
def State.heldNow (s : State) (o : Outst) : Option (State × Option Nat) :=
  match { s with held := s.held.filter fun x => x.uid != o.uid }.trySend o with
  | (_, .held) => none
  | (s, .sent) => some (s, none)
  | (s, .failed st) => some (s, some st)

/-- A request of the end-point that may go on: not yet sent, and waiting for no translation. -/
def State.epDue (s : State) (p : Nat) : Option EpReq :=
  (s.docent p).reqs.find? fun q => !q.sent && !s.cat.quiescing && !s.streamWaits p (.ep p q.tag)

/-- One packet of the end-point's own requests; `false` if none can go. -/
def State.epTurn (s : State) (p : Nat) : State × Bool :=
  let after (s : State) : State := s.modDocent p fun d => { d with epTurn := false }
  match (s.held.filter fun o => o.ofEp == some p).findSome? fun o => (s.heldNow o).map fun r => (o, r) with
  | some (_, s, none) => (after s, true)
  | some (o, s, some st) => (after (s.unsent o st), true)
  | none =>
    match s.epDue p with
    | some q => (after (s.epAdvance p q.tag), true)
    | none => (s, false)

/-- One step of the line stream of the next context, in round-robin order, that has one to take. -/
def State.lineTurn (s : State) (p : Nat) : State × Bool :=
  let last := (s.docent p).lastLine
  ((List.range 16).map fun k => (last + 1 + k) % 16).foldl (fun (acc : State × Bool) n =>
    if acc.2 || !acc.1.mayStream (ctxIdx p n) then acc
    else
      match acc.1.streamStep (ctxIdx p n) with
      | (s, true) => (s.modDocent p fun d => { d with lastLine := n, epTurn := true }, true)
      | (s, false) => (s, false)) (s, false)

/-- The end-point's requests and the contexts' lines alternate until nothing more can go. -/
def State.turns (s : State) (p : Nat) : Nat → State
  | 0 => s
  | fuel + 1 =>
    let ep := (s.docent p).epTurn
    match if ep then s.epTurn p else s.lineTurn p with
    | (s, true) => s.turns p fuel
    | (s, false) =>
      match if ep then s.lineTurn p else s.epTurn p with
      | (s, true) => s.turns p fuel
      | (s, false) => s

/-- Turns that a port may still need. -/
def State.turnsLeft (s : State) (p : Nat) : Nat :=
  ((List.range 16).map fun n => (s.ctx (ctxIdx p n)).linesLeft).sum + s.held.length
    + 2 * (s.docent p).reqs.length

/-- Packets that waited are sent or fail, and what waited for a queue entry goes on; then every context of a port
acts, the lines take their turns, tour lines are prefetched, and the issue slot is granted. -/
def State.drive (s : State) (p : Nat) : State :=
  let s := (s.flushHeld.queueFreed p).actAll p
  let s := (s.turns p (s.turnsLeft p)).actAll p
  let s := (List.range 16).foldl (fun s n =>
    s.actWhen (ctxIdx p n) (fun c => c.started && c.state != .ending) fun s => s.prefetch (ctxIdx p n)) s
  s.grantSlot p

/-- Result packets and held packets go on, and every port with a running tour, a waiting packet or a request that is
not yet sent acts. -/
def State.driveAll (s : State) : State :=
  let busy (p : Nat) : Bool :=
    (s.ctxs.any fun c => c.1 / 16 == p && c.2.running) || (s.held.any fun o => o.src == p)
      || (s.docent p).reqs.any fun q => !q.sent
  (((List.range 48).filter busy).foldl (fun s p => s.drive p) s).flushHeld.pumpResults

/-! ### Streams and page requests (R431, R437 to R442) -/

/-- A stream goes on after its translation (R200 step 6a). -/
def State.resumeStream (s : State) (p : Nat) (st : Stream) : State :=
  match st with
  | .ctx g => if s.pageWaits st then s else (s.unpark g).drive p
  | .ep _ tag => s.epAdvance p tag

/-- Note something of an access that a context waits for. -/
def State.noteAccess (s : State) (g : Nat) (x : StreamWait) (f : Access → Access) : State :=
  s.modCtx g fun c =>
    let a := (c.accesses.find? fun a => a.isFor x.fva x.r x.w).getD
      { fva := x.fva, r := x.r, w := x.w, successes := 0, status := none }
    { c with accesses := f a :: c.accesses.filter fun a => !a.isFor x.fva x.r x.w }

/-- The access of a stream fails with a status (R421, R439, R440); a context's once its stream comes to it again (R200
step 6b). -/
def State.accessFail (s : State) (p : Nat) (x : StreamWait) (status : Nat) : State :=
  let s := s.endStream p x.st
  match x.st with
  | .ctx g => ((s.noteAccess g x fun a => { a with status := some status }).unpark g).drive p
  | .ep _ tag =>
    match (s.docent p).reqs.find? fun q => q.tag == tag with
    | some q => s.finishReq p q status []
    | none => s

/-- Success responses that the present access of a stream has had (R440). -/
def State.streamSuccesses (s : State) (p : Nat) (x : StreamWait) : Nat :=
  match x.st with
  | .ctx g => ((s.ctx g).accesses.find? fun a => a.isFor x.fva x.r x.w).elim 0 (·.successes)
  | .ep _ tag => ((s.docent p).reqs.find? fun q => q.tag == tag).elim 0 (·.successes)

/-- Count a Success response for a stream (R440). -/
def State.addSuccess (s : State) (p : Nat) (x : StreamWait) : State :=
  match x.st with
  | .ctx g => s.noteAccess g x fun a => { a with successes := a.successes + 1 }
  | .ep _ tag =>
    let more (q : EpReq) : EpReq := { q with successes := q.successes + 1 }
    s.modDocent p fun d => { d with reqs := modifyFirst (fun q => q.tag == tag) more d.reqs }

/-- The port and context of a record, whether an end-point request asked, and its tag or the pc (R449,
R450). -/
def State.streamInfo (s : State) : Stream → Nat × Nat × Bool × Nat
  | .ctx g =>
    let c := s.ctx g
    let pc := match c.want with
      | .op i => (s.op? g i).elim c.pc (·.pc)
      | _ => c.pc
    (g / 16, g % 16, false, pc)
  | .ep p tag =>
    (p, ((s.docent p).reqs.find? fun q => q.tag == tag).elim 0 fun q => (EHdr.dec q.hdr).ctx, true, tag)

/-- A translation without the permission needed: a page request follows, unless the function's PRI is
Stopped or three Success responses have not helped (R423, R437, R439, R440). -/
def State.pageNeed (s : State) (p gal pasid : Nat) (x : StreamWait) (gotR gotW : Bool) : State :=
  if s.streamSuccesses p x ≥ 3 then s.accessFail p x (if gotR || gotW then stDenied else stFault)
  else
    match s.galFn gal with
    | none => s.accessFail p x stFault
    | some f =>
      if (s.fn f).priStopped then s.accessFail p x stFault
      else
        let (port, ctx, isEp, info) := s.streamInfo x.st
        let q : PageReq :=
          { gal := gal, pasid := pasid, fva := x.fva, r := x.r && !gotR, w := x.w && !gotW, port := port
            ctx := ctx, isEp := isEp, info := info, streams := [x], abandoned := false }
        let s := match x.st with
          | .ctx g => s.park g
          | .ep _ _ => s
        ((s.modFn f fun y => y.addPage q).sendPage f).grantSlot p

/-- A stream translates again: from a cache, or by a new request, during which a context stays PARKED (R424, R438,
R439). -/
def State.translateStream (s : State) (p gal pasid : Nat) (x : StreamWait) : State :=
  match s.lookup p x.st gal pasid x.fva x.r x.w with
  | (s, some _) => s.resumeStream p x.st
  | (s, none) =>
    match s.askAts p gal pasid x with
    | (s, none) => s
    | (s, some e) => s.accessFail p x e

/-- A stream asks for its translation again, whether its context is PARKED or not. -/
def State.retry (s : State) (p : Nat) (x : StreamWait) : State :=
  match x.st with
  | .ctx g =>
    if (s.ctx g).state == .parked then s.translateStream p (s.ctx g).gal (s.ctx g).pasid x else s.drive p
  | .ep _ tag => s.epAdvance p tag

/-- Streams that waited for an ATS slot try again, oldest first (R431). -/
def State.slotFreed (s : State) (p : Nat) : State :=
  let waiting := (s.docent p).atsWait
  let s := s.modDocent p fun d => { d with atsWait := [] }
  waiting.foldl (fun s x => s.retry p x) s

end Sys2Proof.Machine
end

