-- ==== Sys2Proof/Machine/Path.lean ====
section
/-! DEFINITION. Paths that fail: marks, replay and loss (R279, R280, R504, R521, R608, R609, R818); and which packet an
answer is for (R277, R496, R502). -/

namespace Sys2Proof.Machine

/-! ### Loss (R818) -/

/-- A destination module has no route left: one event per module, and PATH_LOSS counts it (R818, R837). -/
def State.nodeUnreachable (s : State) (dest : Nat) : State :=
  if s.cat.lostNodes.contains dest || dest = s.node then s
  else
    ({ s with cat :=
      { s.cat with
        lostNodes := dest :: s.cat.lostNodes
        lossEvents := wrapAdd 32 s.cat.lossEvents 1
        lossNode := dest } }).curEvent 0x0A 0 0 dest

/-- Send a packet again on a route of the bank of its epoch: from plaintext, under its own generation while the module
holds that, else under the current one (R279, R280, R653). On the same route this is the same ciphertext. A docent's
copy of a multicast packet goes again by itself; a home's reference is queued again (R521). -/
def State.resend (s : State) (o : Outst) (r : Nat) : State :=
  let h := FHdr.dec o.hdr
  let h := h.onRoute ((s.bank h.epoch).routeWord (fpaNode h.fpa) r)
  let g := s.gal h.gallery
  let h := if o.dest = s.node || g.inWindow h.keyGen then h else { h with keyGen := g.gen }
  let c := s.sealFab h o.dest 0 o.payload
  s.enqueue (swcIn o.src) h c.1 c.2 (if o.isResult then o.group else none)

/-- The packet takes another route: its copies so far went by the routes that it had. -/
def Outst.reroute (o : Outst) (r : Nat) (w : Word) : Outst :=
  { o with
    past := o.past ++ List.replicate (o.copies - o.past.length) o.route
    route := r, copies := if o.listed then o.copies else o.copies + 1
    hdr := ((FHdr.dec o.hdr).onRoute w).enc }

/-- Packets of the replay stores that a test selects have lost their path: each is sent again over the next
route to the same destination module, in sequence order, or is lost (R270, R279, R280). -/
def State.replayOver (s : State) (hit : Outst → Bool) : State × List Outst :=
  (s.replay.filter hit).foldl
    (fun (acc : State × List Outst) o =>
      let h := FHdr.dec o.hdr
      match acc.1.replayRoute h.epoch o.src (fpaNode h.fpa) o.dest with
      | some r =>
        let w := (acc.1.bank h.epoch).routeWord (fpaNode h.fpa) r
        let move (x : Outst) : Outst := if x.uid == o.uid then x.reroute r w else x
        let s := { acc.1 with replay := acc.1.replay.map move }
        (if o.listed then s else s.resend o r, acc.2)
      | none => ({ acc.1 with replay := acc.1.replay.filter fun x => x.uid != o.uid }, acc.2 ++ [o]))
    (s, [])

/-- Mark the route that a packet uses as failed, in the bank of its epoch (R280, R504). -/
def State.markRoute (s : State) (o : Outst) : State :=
  let h := FHdr.dec o.hdr
  let m := (h.epoch, o.src, fpaNode h.fpa, o.route)
  if s.cat.marks.contains m then s else { s with cat := { s.cat with marks := s.cat.marks ++ [m] } }

/-- Lost packets complete with LOST (R69, R279). -/
def State.loseAll (s : State) (lost : List Outst) : State :=
  lost.foldl (fun s o => (s.nodeUnreachable o.dest).resolve o stLost []) s

/-- The route that a packet uses has failed (R279, R504). -/
def State.routeFailed (s : State) (o : Outst) : State :=
  let h := FHdr.dec o.hdr
  let (s, lost) := (s.markRoute o).replayOver fun x =>
    let k := FHdr.dec x.hdr
    x.src == o.src && fpaNode k.fpa == fpaNode h.fpa && x.route == o.route && k.epoch == h.epoch
  s.loseAll lost

/-! ### Which packet an answer is for (R277, R496, R502, R652) -/

/-- The sender that a response is for: its last route entry (R502). -/
def respTo (h : FHdr) : Nat := routeEntry h.route h.hopsM1

/-- The module `at_` lies on route `r` to the packet's node. -/
def State.passes (s : State) (o : Outst) (r at_ : Nat) : Bool :=
  let k := FHdr.dec o.hdr
  let b := s.bank k.epoch
  (List.range (routeHopsM1 (b.routeWord (fpaNode k.fpa) r) + 1)).any fun i => b.hop (fpaNode k.fpa) r i == at_

/-- The packet that a response answers: by sender, destination module and sequence; an ACK of a module on the
way answers a packet one of whose routes passes there (R504, R652). -/
def State.answered? (s : State) (h : FHdr) : Option Outst :=
  let same (o : Outst) : Bool := o.src == respTo h && o.dseq == h.dseq && fieldN o.hdr 120 6 == h.gallery
  match s.replay.find? fun o => same o && o.dest == h.srcNode with
  | some o => some o
  | none =>
    s.replay.find? fun o => same o && (o.route :: o.past).any fun r => r < 4 && s.passes o r h.srcNode

/-- The module `at_` says that a copy of a packet found its route failed. A copy that went by a route already replaced
is meant first, and is done with; else the present route has failed (R279, R504). DEDUCED: log entry 92. -/
def State.copyFailed (s : State) (o : Outst) (at_ : Nat) : State :=
  match o.past.find? fun r => r < 4 && s.passes o r at_ with
  | some r =>
    let forget (x : Outst) : Outst :=
      if x.uid == o.uid then { x with past := x.past.erase r ++ [4] } else x
    { s with replay := s.replay.map forget }
  | none => s.routeFailed o

/-- The packet leaves its replay store (R276, R281). -/
def State.release (s : State) (o : Outst) : State := { s with replay := s.replay.filter fun x => x.uid != o.uid }

/-- The port's contexts act after an answer. -/
def State.afterAnswer (s : State) (src : Nat) : State := if src < 48 then s.drive src else s.driveAll

/-- The incident of a target that did not answer (R63, R450). -/
def State.targetTimeoutRecord (s : State) (o : Outst) : State :=
  let gal := fieldN o.hdr 120 6
  let fva := (o.tr.map (·.2.1)).getD 0
  let pasid := (o.tr.map (·.1)).getD 0
  let put (port ctx infoA infoB : Nat) : State :=
    s.galIncident gal
      { cls := 0x03, status := stLost, gal := gal, port := port, ctx := ctx, pasid := pasid, addr := fva
        infoA := infoA, infoB := infoB }
  let ofCtx (g pc : Nat) : State := put (g / 16) (g % 16) 1024 pc
  let opPc (g i : Nat) : Nat := (s.op? g i).elim (s.ctx g).pc (·.pc)
  match o.origin with
  | .epReq p tag =>
    put p (((s.docent p).reqs.find? fun q => q.tag == tag).elim 0 fun q => (EHdr.dec q.hdr).ctx) tag 0
  | .opWrite g i _ _ | .srcRead g i _ _ | .tableRead g i _ | .descRead g i | .mcWrite g i _ | .mcRead g i _
  | .statusWrite g i | .signal g i | .collSend g i | .collRead g i _ _ => ofCtx g (opPc g i)
  | .tourLine g _ | .wait g | .atomic g | .endRecord g => ofCtx g (s.ctx g).pc
  | .writeBack p _ _ _ => put p 0 1024 0
  | _ => s

end Sys2Proof.Machine
end

