-- ==== Sys2Proof/Machine/Home.lean ====
section
/-! DEFINITION. The home of an instance (R299, R308, R309, R328 to R353, R372 to R381, R389, R400 to R405):
joins, claims and drawers, summation and merging, results, offsets, combined tokens, and the end of an
instance. -/

namespace Sys2Proof.Machine

/-! ### Instances and members -/

/-- The instance of a schedule and number that a test selects. -/
def State.instOf (s : State) (sched inst : Nat) (ok : Instance → Bool) : Option Instance :=
  s.red.insts.find? fun i => i.sched == sched && i.inst == inst && ok i

/-- Two records stand for one instance of one group. -/
def Instance.same (i j : Instance) : Bool := i.sched == j.sched && i.inst == j.inst && i.group == j.group

/-- Change an instance. -/
def State.modInst (s : State) (i : Instance) (f : Instance → Instance) : State :=
  { s with red := { s.red with insts := modifyFirst (fun j => j.same i) f s.red.insts } }

/-- The instance as it now stands. -/
def State.instNow (s : State) (i : Instance) : Instance := (s.red.insts.find? fun j => j.same i).getD i

/-- The shape word of an instance (R308). -/
def Instance.shape (i : Instance) : Shape := Shape.dec i.digest

/-- The first rank of the group, and the number of its ranks (R295). -/
def Instance.lo (i : Instance) : Nat := i.group * i.b
def Instance.ranks (i : Instance) : List Nat := (List.range (min i.b (i.n - i.lo))).map fun k => i.lo + k

/-- Every member of the home's group has joined (R328). -/
def Instance.allJoined (i : Instance) : Bool := i.members.length == i.ranks.length

/-- The instance is in progress (R299). -/
def Instance.live (i : Instance) : Bool := !i.aborted

/-- Ranks of the group that contribute (R306). -/
def Instance.givers (i : Instance) : List Nat :=
  i.ranks.filter fun r => i.digest / 2 ^ 60 != 4 || i.shape.root == r

/-- Elements of chunk `c`, and the number of chunks (R305, R323). -/
def Instance.elems (i : Instance) (c : Nat) : Nat :=
  min (chunkElems i.shape.inF) (i.shape.count - c * chunkElems i.shape.inF)
def Instance.chunks (i : Instance) : Nat := ceilDiv i.shape.count (chunkElems i.shape.inF)

/-- Members of the group that receive the result (R306, R370). -/
def Instance.receivers (i : Instance) : List HomeMember :=
  i.members.filter fun m => (i.shape.kind != 5 && i.shape.kind != 7) || m.rank == i.shape.root

/-- A message of the home to a member, on VC4 (R334, R407). -/
def State.toMember (s : State) (i : Instance) (m : HomeMember) (kind : Nat) (nums : List Nat) : State :=
  (s.redSend 0x3F (.home i.sched i.inst) kind i.gallery m.node (some m.port) i.sched i.inst (m.rank :: nums) []).1

/-- A body for another home, in pieces of 1 KiB, each in a message of its own with its offset (R14, R350). -/
def State.toHomeNode (s : State) (i : Instance) (node kind : Nat) (nums : List Nat) (bs : Bytes) : State :=
  (pieces1k bs).zipIdx.foldl (fun s p =>
    (s.redSend 0x3F (.home i.sched i.inst) kind i.gallery node none i.sched i.inst
      (nums ++ [1024 * p.2]) p.1).1) s

/-- Result bytes in packets of up to 16 lines that stay in one aligned 2,048 B block (R330). -/
def resultPieces (i : Instance) (dests : List (Nat × Nat × Nat)) (off : Nat) : Nat → Bytes → List ResultPkt
  | 0, _ => []
  | fuel + 1, bs =>
    if bs.length = 0 then []
    else
      let n := 2048 - off % 2048
      { sched := i.sched, inst := i.inst, group := i.group, gallery := i.gallery, dests := dests, off := off
        bytes := bs.take n, ends := none } :: resultPieces i dests (off + n) fuel (bs.drop n)

/-- Result bytes to the members that receive them, as one multicast copy per packet, after those that wait for
room (R330, R523). -/
def State.sendResult (s : State) (i : Instance) (ms : List HomeMember) (off : Nat) (bs : Bytes) : State :=
  if ms.isEmpty then s
  else
    let new := resultPieces i (ms.map fun m => (m.rank, m.node, m.port)) off (bs.length / 2048 + 2) bs
    { s with red := { s.red with outbox := s.red.outbox ++ new } }.pumpResults

/-- A result packet of the instance waits for room, and its chunk holds its drawers (R523). -/
def State.resultWaits (s : State) (i : Instance) : Bool :=
  s.red.outbox.any fun k => k.sched == i.sched && k.inst == i.inst && k.group == i.group

/-! ### Drawers (R323, R335, R339) -/

/-- Pieces of the pool from `pos` on that are not held, `need` drawers in all. -/
def freePieces : List (Nat × Nat) → Nat → Nat → List (Nat × Nat)
  | [], pos, need => if need = 0 then [] else [(pos, need)]
  | h :: t, pos, need =>
    let n := min need (h.1 - pos)
    let rest := freePieces t (max pos (h.1 + h.2)) (need - n)
    if n = 0 then rest else (pos, n) :: rest

/-- Put a piece into an ascending list. -/
def putPiece : List (Nat × Nat) → Nat × Nat → List (Nat × Nat)
  | [], x => [x]
  | h :: t, x => if x.1 < h.1 then x :: h :: t else h :: putPiece t x

/-- Drawers of the pieces. -/
def piecesSize (ps : List (Nat × Nat)) : Nat := (ps.map Prod.snd).sum

/-- The drawer at place `k` of the pieces. -/
def pieceAt : List (Nat × Nat) → Nat → Nat
  | [], _ => 0
  | h :: t, k => if k < h.2 then h.1 + k else pieceAt t (k - h.2)

/-- Vault address of byte `x` of an instance's drawers. -/
def Instance.vpa (i : Instance) (x : Nat) : Nat := vpaDrawer (pieceAt i.drawers (x / 65536)) + x % 65536

/-- Write bytes into an instance's drawers. -/
def State.dwWrite (s : State) (i : Instance) (x : Nat) : Nat → Bytes → State
  | 0, _ => s
  | fuel + 1, bs =>
    if bs.length = 0 then s
    else
      let n := 65536 - x % 65536
      (s.vmWrite (i.vpa x) (bs.take n)).dwWrite i (x + n) fuel (bs.drop n)

/-- Read bytes of an instance's drawers: none if a codeword fails correction. -/
def State.dwRead (s : State) (i : Instance) (x n : Nat) : Nat → State × Option Bytes
  | 0 => (s, some [])
  | fuel + 1 =>
    if n = 0 then (s, some [])
    else
      let k := min n (65536 - x % 65536)
      match s.vmRead (i.vpa x) k with
      | (s, none) => (s, none)
      | (s, some bs) =>
        match s.dwRead i (x + k) (n - k) fuel with
        | (s, none) => (s, none)
        | (s, some t) => (s, some (bs ++ t))

/-- Where the slot of a rank's chunk begins in the drawers (R323). -/
def Instance.slot (i : Instance) (rank chunk : Nat) : Nat :=
  ((rank - i.lo) * i.depth + chunk % i.depth) * 65536

/-- Where the outputs of a choice begin in the drawers of a combine home (R367). -/
def Instance.tokenSlot (i : Instance) (rank token choice : Nat) : Nat :=
  let tb := shapeTb i.digest
  let per := ceilDiv (shapeTmax i.digest * shapeK i.digest * tb) 65536
  (rank - i.lo) * per * 65536 + (token * shapeK i.digest + choice) * tb

/-! ### The end of an instance at its home (R339, R341 to R346, R823) -/

/-- Its drawers go to be zeroed, and its claim leaves its FIFO (R339, R344). -/
def State.freeInst (s : State) (i : Instance) : State :=
  let mine (c : Nat × Nat × Nat × Nat) : Bool := c.2.1 == i.sched && c.2.2.1 == i.inst && c.2.2.2 == i.group
  { s with red :=
    { s.red with
      claims := s.red.claims.filter fun c => !mine c
      zeroing := if i.drawers.isEmpty then s.red.zeroing else s.red.zeroing ++ [(i.gallery, i.drawers)] } }

/-- Groups and home nodes of a schedule, in the bank of an epoch. -/
def State.homesOf (s : State) (e : Bool) (sched : Nat) : List (Nat × Nat) :=
  match (s.bank e).sched sched with
  | some sc => (List.range sc.groups).map fun g => (g, ((s.bank e).homeOf sc g).1)
  | none => []

/-- The kind of an instance's digest. -/
def Instance.kind (i : Instance) : Nat := i.digest / 2 ^ 60 % 16

/-- After an abort the instance goes on for the chunks whose summation had begun at every home: several homes share
them (R344, R352). -/
def Instance.lingers (i : Instance) : Bool := 1 < i.groups && i.kind ≤ 5 && i.claim == .granted

/-- An instance is over: its drawers are freed, and its members are told behind the results sent before (R344). -/
def State.overInst (s : State) (i : Instance) (status : Nat) (pathLost : Bool) : State :=
  let s := s.freeInst i
  let word : ResultPkt :=
    { sched := i.sched, inst := i.inst, group := i.group, gallery := i.gallery
      dests := i.members.map fun m => (m.rank, m.node, m.port), off := 0, bytes := []
      ends := some (status, pathLost) }
  { s with red :=
    { s.red with
      insts := s.red.insts.filter fun j => !j.same i, outbox := s.red.outbox ++ [word] } }.pumpResults

/-- A home of the instance has said how many chunks it had begun, or cannot be reached any more (R352, R353). -/
def State.begunOf (s : State) (i : Instance) (g : Nat) : Option Nat :=
  match i.begun.find? fun b => b.1 == g with
  | some b => some b.2
  | none =>
    let node := ((s.homesOf i.epoch i.sched).find? fun x => x.1 == g).elim s.node (·.2)
    if node != s.node && (s.newRoute 0x3F node 4).isNone then some 0 else none

/-- Aborted instances of several homes end once every chunk that all of them had begun has been delivered (R344,
R352). DESIGN CHOICE: the homes tell one another how many chunks they had begun (log entry 93). -/
def State.settleAborts (s : State) : State :=
  let done (i : Instance) : Bool :=
    let qs := (List.range i.groups).map (s.begunOf i)
    i.aborted && qs.all (·.isSome) && qs.any fun q => q.all (· ≤ i.sentChunks)
  (s.red.insts.filter done).foldl (fun s i =>
    let e := s.red.ended.find? fun e => e.1 == i.sched && e.2.1 == i.inst
    s.overInst i (e.elim stWithdrawn (·.2.2.1)) (e.elim false (·.2.2.2))) s

/-- The instance aborts at this home: its first cause stands, the other homes are told, its later contributions are
discarded and its drawers are freed (R341, R342, R344, R346). `e` names the bank where no instance of it is here. -/
def State.abortOne (s : State) (e : Bool) (sched inst status : Nat) (pathLost : Bool) : State :=
  if s.red.ended.any fun x => x.1 == sched && x.2.1 == inst then s
  else
    let mine := s.red.insts.filter fun i => i.sched == sched && i.inst == inst
    let e := mine.head?.elim e (·.epoch)
    let homes := s.homesOf e sched
    let begun := (homes.filter fun x => x.2 == s.node).map fun x =>
      (x.1, (mine.find? fun i => i.group == x.1 && i.lingers).elim 0 (·.next))
    let others := ((homes.filter fun x => x.2 != s.node).map (·.2)).eraseDups
    let gal := ((s.bank e).sched sched).elim 0 (·.gallery)
    let gone := s.red.waiting.filter fun m => m.sched.toNat == sched && m.inst == inst
    let mark (i : Instance) : Instance :=
      if i.sched == sched && i.inst == inst && i.lingers then { i with aborted := true, copies := [], begun := begun }
      else i
    let s := { s with red :=
      { s.red with
        insts := s.red.insts.map mark
        waiting := s.red.waiting.filter fun m => !(m.sched.toNat == sched && m.inst == inst)
        ended := (sched, inst, status, pathLost) :: s.red.ended
        aborted := wrapAdd 32 s.red.aborted 1 } }
    let s := (mine.filter fun i => !i.lingers).foldl (fun s i => s.overInst i status pathLost) s
    let s := gone.foldl (fun s m =>
      s.sendAbort m.gallery.val m.node.toNat (some m.port) sched inst status pathLost none) s
    (others.foldl (fun s n =>
      begun.foldl (fun s b => s.sendAbort gal n none sched inst status pathLost (some b)) s) s).settleAborts

/-- An instance aborts; after a lost path every later instance of its schedule does so too (R341, R823). -/
def State.abortInst (s : State) (e : Bool) (sched inst status : Nat) (pathLost : Bool) : State :=
  let s := s.abortOne e sched inst status pathLost
  if pathLost && !s.red.pathLost.contains sched then
    let later := (s.red.insts.filter fun i => i.sched == sched && inst < i.inst && i.live).map (·.inst)
    later.eraseDups.foldl (fun s n => s.abortOne e sched n stWithdrawn true)
      { s with red := { s.red with pathLost := sched :: s.red.pathLost } }
  else s

/-! ### Credits, grants and offsets (R325, R326, R335, R389, R400) -/

/-- The first credits of a member: `depth` chunks of those it contributes (R325 step 5). -/
def State.firstCredits (s : State) (i : Instance) (m : HomeMember) : State :=
  if i.kind = 0xA || i.kind = 0xB || !i.givers.contains m.rank then s
  else
    let n := if i.shape.sparse then i.depth else min i.depth i.chunks
    (List.range n).foldl (fun s c => s.toMember i m rkCredit [c]) s

/-- The capacity rule of R389 for one expert: offsets and kept counts in rank order, and the total. -/
def capacityRule (cap : Nat) : List Nat → Nat → List (Nat × Nat) × Nat
  | [], used => ([], used)
  | c :: t, used =>
    let kept := min c (cap - used)
    let r := capacityRule cap t (used + kept)
    ((used, kept) :: r.1, r.2)

/-- The offsets go out once every member has joined and the claim is granted (R388 steps 4 and 5, R389). -/
def State.sendOffsets (s : State) (i : Instance) : State :=
  if i.kind != 0xA || i.offsetsSent || i.claim != .granted || !i.allJoined then s
  else
    match (s.bank i.epoch).sched i.sched with
    | none => s
    | some sc =>
      let es := (s.bank i.epoch).experts sc
      let byRank := i.ranks.filterMap fun r => i.members.find? fun m => m.rank == r
      let cols := es.zipIdx.map fun e => capacityRule e.1.2.2 (byRank.map fun m => m.counts.getD e.2 0) 0
      let dropped := ((es.zipIdx.map fun e => (byRank.map fun m => m.counts.getD e.2 0).sum).sum
        - (cols.map (·.2)).sum)
      let bases := es.map fun e =>
        ((byRank.find? fun m => m.rank == e.1).bind fun m => m.experts[e.2.1]?).getD (0, 0)
      let recvOf (m : HomeMember) : List Nat :=
        (List.range m.experts.length).map fun l =>
          ((es.zip cols).find? fun x => x.1.1 == m.rank && x.1.2.1 == l).elim 0 fun x => x.2.2
      let s := { s with red := { s.red with dropped := wrapAdd 32 s.red.dropped dropped } }
      let s := s.modInst i fun i => { i with offsetsSent := true }
      byRank.foldl (fun s m =>
        s.toMember i m rkOffsets
          (cols.map (fun c => (c.1.getD (m.rank - i.lo) (0, 0)).1)
            ++ cols.map (fun c => (c.1.getD (m.rank - i.lo) (0, 0)).2)
            ++ recvOf m ++ bases.flatMap fun b => [b.1, b.2])) s

/-- The grant of a combine home is announced to every member of the instance (R400). -/
def State.announce (s : State) (i : Instance) : State :=
  if i.kind != 0xB then s
  else
    match (s.bank i.epoch).sched i.sched with
    | none => s
    | some sc =>
      (List.range i.n).foldl (fun s r =>
        let at_ := (s.bank i.epoch).rankOf sc r
        (s.redSend 0x3F (.home i.sched i.inst) rkGrant i.gallery at_.1 (some at_.2) i.sched i.inst [r, i.group]
          []).1) s

/-! ### Joins (R299, R308, R309, R332, R335, R338, R346, R888) -/

/-- The limits of R299 allow one more instance of a schedule. -/
def State.limitsAdmit (s : State) (sched : Nat) : Bool :=
  (s.red.insts.filter (·.live)).length < 256
    && (s.red.insts.filter fun i => i.live && i.sched == sched).length < 4

/-- A new instance places its claim, unless the schedule has lost a path, the footprint exceeds the quota, or the
gallery does not own inst_so here (R332, R335, R338, R823). -/
def State.placeClaim (s : State) (i : Instance) : State :=
  if s.red.pathLost.contains i.sched then s.abortInst i.epoch i.sched i.inst stWithdrawn true
  else if i.footprint > (s.gal i.gallery).maxDrawers then s.abortInst i.epoch i.sched i.inst stQuota false
  else if i.instSo / 32768 = 1 && !s.soOwned (i.instSo % 16384) i.gallery then
    s.abortInst i.epoch i.sched i.inst stDenied false
  else
    (s.modInst i fun i => { i with claim := .queued }) |> fun s =>
      { s with red := { s.red with claims := s.red.claims ++ [(i.gallery, i.sched, i.inst, i.group)] } }

/-- The records of an instance in the two banks are the same (R309). -/
def State.sameRecord (s : State) (id : Nat) : Bool :=
  let slice (k : Bank) : Bytes := (k.sched id).elim [] fun sc => k.slice sc.off sc.len
  slice s.cat.bank0 == slice s.cat.bank1

/-- A join is answered with the status of its instance's abort (R346, R888). -/
def State.refuseJoin (s : State) (m : JoinMsg) (status : Nat) (pathLost : Bool) : State :=
  s.sendAbort m.gallery.val m.node.toNat (some m.port) m.sched.toNat m.inst status pathLost none

/-- An admitted join: the digest and the epoch are compared, and the member joins (R308, R309, R325 step 4). -/
def State.joinMember (s : State) (i : Instance) (m : JoinMsg) (rank : Nat) : State :=
  if m.shape.toNat != i.digest || (m.epoch != i.epoch && !s.sameRecord i.sched) then
    (s.abortInst i.epoch i.sched i.inst stMismatch false).refuseJoin m stMismatch false
  else if i.members.any fun x => x.rank == rank then s
  else
    let x : HomeMember :=
      { rank := rank, node := m.node.toNat, port := m.port, chunks := 0, coverage := 0, ended := false
        ahead := [], withdrawn := false, counts := m.counts, experts := m.experts }
    let s := s.modInst i fun i => { i with members := i.members ++ [x] }
    let i := s.instNow i
    let s := if i.claim == .granted then s.firstCredits i x else s
    s.sendOffsets i

/-- A join that its schedule's record names is taken up: by its instance, or by a new one, or it waits (R299,
R335). -/
def State.takeJoin (s : State) (m : JoinMsg) (sc : Sched) (rank : Nat) : State :=
  let id := m.sched.toNat
  let g := rank / sc.b
  match s.red.ended.find? fun e => e.1 == id && e.2.1 == m.inst with
  | some e => s.refuseJoin m e.2.2.1 e.2.2.2
  | none =>
    match s.instOf id m.inst fun i => i.group == g with
    | some i => s.joinMember i m rank
    | none =>
      if !s.limitsAdmit id then { s with red := { s.red with waiting := s.red.waiting ++ [m] } }
      else
        let k := s.bank m.epoch
        let i : Instance :=
          { sched := id, inst := m.inst, gallery := sc.gallery, epoch := m.epoch, n := sc.n, b := sc.b
            group := g, groups := sc.groups, depth := sc.depth, digest := sc.digest
            footprint := (k.homeOf sc g).2, instSo := sc.instSo, joinTimeout := sc.joinTimeout, members := []
            claim := .notPlaced, drawers := [], copies := [], next := 0, partials := [], finished := []
            arriving := [], sentChunks := 0, emitted := 0, tail := [], sentBytes := 0, candN := 0, candSeen := 0
            merged := false, tokens := [], tokenNext := [], offsetsSent := false, aborted := false, begun := [] }
        let s := ({ s with red := { s.red with insts := s.red.insts ++ [i] } }).placeClaim i
        match s.red.ended.find? fun e => e.1 == id && e.2.1 == m.inst with
        | some e => s.refuseJoin m e.2.2.1 e.2.2.2
        | none => s.joinMember (s.instNow i) m rank

/-- The record of a join's schedule and the joining member's rank in it, in the bank of its epoch (R888). -/
def State.joinRecord (s : State) (m : JoinMsg) : Option (Sched × Nat) :=
  let k := s.bank m.epoch
  match k.sched m.sched.toNat with
  | none => none
  | some sc =>
    if sc.gallery ≠ m.gallery then none
    else (k.rankAt sc m.node.toNat m.port).map fun r => (sc, r)

/-- A join reaches its home (R308, R888). -/
def State.doJoin (s : State) (m : JoinMsg) : State :=
  if !s.epochUsable m.epoch then { s with cat := { s.cat with late := satAdd 16 s.cat.late 1 } }
  else
    match s.joinRecord m with
    | none =>
      let id := m.sched.toNat
      let s := if (s.instOf id m.inst fun i => i.live).isSome then s.abortInst m.epoch id m.inst stWithdrawn false else s
      s.refuseJoin m stNoSchedule false
    | some (sc, r) => s.takeJoin m sc r

/-- A reduction-engine packet is taken, and what waited for it to be handled goes on (R331, R344). -/
def State.redTake (s : State) (kind : Nat) (pkt : FabPkt) (act : State → Bytes → State) : State :=
  (s.redArrive kind pkt act).settleMembers

/-- JOIN (R308): a join reaches a home. -/
def execJoin (m : JoinMsg) (pkt : FabPkt) (s : State) : Host.Outcome State Fault Refusal :=
  .next (s.redTake rkJoin pkt fun s _ => s.doJoin m)

/-- A waiting join may now be taken up: its instance exists, has aborted, or fits the limits (R299). -/
def State.admittable (s : State) (m : JoinMsg) : Bool :=
  let id := m.sched.toNat
  s.limitsAdmit id || s.red.ended.any (fun e => e.1 == id && e.2.1 == m.inst)
    || (match s.joinRecord m with
      | some (sc, r) => (s.instOf id m.inst fun i => i.group == r / sc.b).isSome
      | none => true)

/-- JOIN_ADMITTED (R299): the oldest waiting join that the limits now allow is taken up. -/
def execJoinAdmitted (s : State) : Host.Outcome State Fault Refusal :=
  match s.red.waiting.find? fun m => s.admittable m with
  | none => .next s
  | some m => .next (({ s with red := { s.red with waiting := s.red.waiting.erase m } }).doJoin m)

/-- CLAIM_GRANT (R336): the claim at the head of a gallery's FIFO is granted whole if it fits the quota; credits,
offsets or the announcement follow. -/
def execClaimGrant (g : GalNo) (s : State) : Host.Outcome State Fault Refusal :=
  match s.red.claims.find? fun c => c.1 == g.val with
  | none => .next s
  | some c =>
    match s.instOf c.2.1 c.2.2.1 fun i => i.group == c.2.2.2 && i.claim == .queued with
    | none => .next s
    | some i =>
      let free := 655360 - piecesSize s.red.held
      if (s.gal g).granted + i.footprint > (s.gal g).maxDrawers || i.footprint > free then .next s
      else
        let ps := freePieces s.red.held 0 i.footprint
        let s := s.modGal g fun x => { x with granted := x.granted + i.footprint }
        let s := { s with red :=
          { s.red with
            claims := removeFirst (fun d => d == c) s.red.claims
            held := ps.foldl putPiece s.red.held } }
        let s := s.modInst i fun i => { i with claim := .granted, drawers := ps }
        let i := s.instNow i
        let s := i.members.foldl (fun s m => s.firstCredits i m) s
        .next ((s.sendOffsets i).announce i)

/-- DRAWER_ZEROING_DONE (R339): the oldest drawers being zeroed hold zeros and return to the pool and to the
quota. -/
def execDrawerZeroingDone (s : State) : Host.Outcome State Fault Refusal :=
  match s.red.zeroing with
  | [] => .next s
  | (g, ps) :: t =>
    let s := ps.foldl (fun s x => s.vmZero (vpaDrawer x.1) (65536 * x.2)) s
    .next
      (({ s with red :=
        { s.red with zeroing := t, held := s.red.held.filter fun h => !ps.contains h } }).modGal g fun x =>
          { x with granted := x.granted - piecesSize ps })

/-! ### Contributions (R323, R326, R344, R373, R374) -/

/-- Chunks that have committed in turn widen a member's coverage (R374). -/
def HomeMember.advance : Nat → HomeMember → HomeMember
  | 0, x => x
  | n + 1, x =>
    match x.ahead.find? fun a => a.1 == x.chunks with
    | none => x
    | some a =>
      HomeMember.advance n
        { x with
          chunks := x.chunks + 1
          coverage := if a.2.2 then x.coverage else a.2.1
          ended := x.ended || a.2.2
          ahead := removeFirst (fun b => b.1 == x.chunks) x.ahead }

/-- A whole sparse chunk has committed: windows that it covers up to, and its end mark (R374). -/
def HomeMember.commit (x : HomeMember) (chunk windows : Nat) (last : Bool) : HomeMember :=
  HomeMember.advance (x.ahead.length + 1) { x with ahead := x.ahead ++ [(chunk, windows, last)] }

/-- A piece of a sparse chunk of `records` records, from byte `off` of the chunk on, goes into the chunk's slot; the
piece that ends it names the chunk's last window (R323, R373, R374). -/
def State.sparseChunk (s : State) (i : Instance) (x : HomeMember) (chunk off records : Nat) (bs : Bytes) (last : Bool) :
    State :=
  let f := i.shape.inF
  let w := windowSize f
  let total := records * recBytes f
  let mine (c : ChunkCopy) : Bool := c.rank == x.rank && c.chunk == chunk
  let taken (c : ChunkCopy) : Bool := c.rank == x.rank && c.chunk != chunk && c.chunk % i.depth == chunk % i.depth
  if chunk < x.chunks || x.chunks + i.depth ≤ chunk || x.ended || (i.copies.any fun c => taken c || (mine c && c.whole))
      || records > w || off + bs.length > total then s
  else
    let old := (i.copies.find? mine).getD
      { rank := x.rank, chunk := chunk, amount := 0, whole := false, lastWindow := none }
    let lw := ((recordsOf f (bs.length / recBytes f) bs).getLast?.elim 0 (·.1)) / w
    let copy : ChunkCopy :=
      { old with
        amount := old.amount + bs.length, whole := decide (old.amount + bs.length ≥ total)
        lastWindow := if !last && off + bs.length = total then some lw else old.lastWindow }
    let move (y : HomeMember) : HomeMember :=
      if y.rank == x.rank && copy.whole then y.commit chunk (copy.lastWindow.elim 0 (· + 1)) last else y
    (s.dwWrite i (i.slot x.rank chunk + off) 2 bs).modInst i fun i =>
      { i with copies := (i.copies.filter fun c => !mine c) ++ [copy], members := i.members.map move }

/-- Lines of a dense chunk go into the chunk's slot (R323). -/
def State.denseChunk (s : State) (i : Instance) (rank chunk off : Nat) (bs : Bytes) : State :=
  let need := fmtBytes i.shape.inF (i.elems chunk)
  if !i.givers.contains rank || chunk < i.next || chunk ≥ min i.chunks (i.next + i.depth)
      || off + bs.length > need then s
  else
    let mine (c : ChunkCopy) : Bool := c.rank == rank && c.chunk == chunk
    let got := ((i.copies.find? mine).elim 0 (·.amount)) + bs.length
    let copy : ChunkCopy :=
      { rank := rank, chunk := chunk, amount := got, whole := decide (got ≥ need), lastWindow := none }
    (s.dwWrite i (i.slot rank chunk + off) 2 bs).modInst i fun i =>
      { i with copies := (i.copies.filter fun c => !mine c) ++ [copy] }

/-- A contribution reaches the home; what finds no slot is discarded (R323, R344). -/
def State.doContribution (s : State) (m : MemberId) (chunk off records : Nat) (bs : Bytes) (last : Bool) :
    State :=
  match s.instOf m.sched.toNat m.inst fun i => i.live && i.claim == .granted && i.ranks.contains m.rank with
  | none => s
  | some i =>
    match i.members.find? fun x => x.rank == m.rank with
    | none => s
    | some x =>
      if i.kind = 0xA || i.kind = 0xB then s
      else if i.shape.sparse then s.sparseChunk i x chunk off records bs last
      else s.denseChunk i m.rank chunk off bs

/-- CONTRIBUTION (R323): contribution lines are written into the chunk's drawer slot. -/
def execContribution (m : MemberId) (chunk off records : Nat) (lines : Bytes) (last : Bool) (pkt : FabPkt)
    (s : State) : Host.Outcome State Fault Refusal :=
  .next (s.redTake rkContribution pkt fun s _ => s.doContribution m chunk off records lines last)

/-! ### Summation and delivery (R320, R328 to R333, R349 to R351) -/

/-- Bytes of one accumulator of a partial: FP32, or the result's width (R349). -/
def accBytes (inF outF : Nat) : Nat := if isInt inF then elemBits outF / 8 else 4

/-- Accumulators as bytes, and bytes as accumulators. -/
def packAcc (n : Nat) (acc : List Nat) : Bytes := acc.flatMap fun a => natLe n a
def unpackAcc (n : Nat) (bs : Bytes) : List Nat := (List.range (bs.length / n)).map fun k => getLe bs (k * n) n

/-- Combine vectors element by element in list order (R320). -/
def foldVectors (op inF outF : Nat) : List (List Nat) → List Nat
  | [] => []
  | v :: t => t.foldl (fun acc x => List.zipWith (redStep op inF outF) acc x) v

/-- The chunk of a group from its ranks' copies in rank order (R320 stage 1): accumulators for a reduction, the
pieces one after the other for ALL_GATHER, the root's bytes for BROADCAST (R333). -/
def Instance.stage1 (i : Instance) (c : Nat) (pieces : List Bytes) : Bytes :=
  let h := i.shape
  if h.kind = 3 || h.kind = 4 then pieces.flatten
  else
    packAcc (accBytes h.inF h.outF)
      (foldVectors h.op h.inF h.outF
        (pieces.map fun b => (decodeElems h.inF b (i.elems c)).map (accOf h.inF h.outF)))

/-- The groups' partials of a chunk, in group order, combined (R320 stage 2, R333). -/
def Instance.stage2 (i : Instance) (ps : List Bytes) : Bytes :=
  let h := i.shape
  if h.kind = 3 || h.kind = 4 then ps.flatten
  else
    let n := accBytes h.inF h.outF
    packAcc n (foldVectors h.op h.inF h.outF (ps.map (unpackAcc n)))

/-- The finished chunk of a result: converted to out_fmt, or as it came (R318, R319, R333, R350). -/
def Instance.convert (i : Instance) (acc : Bytes) : Bytes :=
  let h := i.shape
  if h.kind = 3 || h.kind = 4 then acc
  else encodeElems h.inF h.outF (unpackAcc (accBytes h.inF h.outF) acc)

/-- Bytes of the finished chunk `c`. -/
def Instance.finBytes (i : Instance) (c : Nat) : Nat :=
  let h := i.shape
  if h.kind = 3 then i.n * fmtBytes h.inF (i.elems c)
  else if h.kind = 4 then fmtBytes h.inF (i.elems c)
  else fmtBytes h.outF (i.elems c)

/-- What the finished chunk `c` gives a member: offset in its result buffer and bytes (R306, R333). -/
def Instance.resultPart (i : Instance) (c : Nat) (fin : Bytes) (rank : Nat) : List (Nat × Bytes) :=
  let h := i.shape
  let ce := chunkElems h.inF
  if h.kind = 3 then
    let piece := fmtBytes h.inF (i.elems c)
    (List.range i.n).map fun r =>
      (r * fmtBytes h.inF h.count + c * chunkBytes h.inF, (fin.drop (r * piece)).take piece)
  else if h.kind = 4 then [(c * chunkBytes h.inF, fin)]
  else if h.kind = 2 then
    let shard := h.count / i.n
    let lo := max (c * ce) (rank * shard)
    let hi := min (c * ce + i.elems c) ((rank + 1) * shard)
    if hi ≤ lo then []
    else
      [(fmtBytes h.outF (lo - rank * shard),
        (fin.drop (fmtBytes h.outF (lo - c * ce))).take (fmtBytes h.outF (hi - lo)))]
  else [(fmtBytes h.outF (c * ce), fin)]

/-- Members that receive the same lines of a chunk (R306, R330). -/
def Instance.sharers (i : Instance) : List (List HomeMember) :=
  if i.shape.kind = 2 then i.receivers.map fun m => [m] else [i.receivers]

/-- Chunks that are finished go to the members of the group, in chunk order (R330, R350). -/
def State.deliver (s : State) (i : Instance) : Nat → State
  | 0 => s
  | fuel + 1 =>
    match s.red.insts.find? fun j => j.same i with
    | none => s
    | some i =>
      match i.finished.find? fun f => f.1 == i.sentChunks with
      | none => s
      | some f =>
        let s := i.sharers.foldl (fun s ms =>
          (i.resultPart f.1 f.2 (ms.head?.elim 0 (·.rank))).foldl (fun s r => s.sendResult i ms r.1 r.2) s) s
        let s := s.modInst i fun i =>
          { i with finished := i.finished.filter fun x => x.1 != f.1, sentChunks := i.sentChunks + 1 }
        s.deliver i fuel

/-- A chunk is finished at this home or arrives finished: it waits for its turn (R330, R350). -/
def State.finishChunk (s : State) (i : Instance) (c : Nat) (bs : Bytes) : State :=
  if c < i.sentChunks || i.finished.any fun f => f.1 == c then s
  else
    let s := s.modInst i fun i => { i with finished := i.finished ++ [(c, bs)] }
    s.deliver i (i.finished.length + 1)

/-- The home node of a group of an instance. -/
def State.groupHome (s : State) (i : Instance) (g : Nat) : Nat :=
  match (s.bank i.epoch).sched i.sched with
  | some sc => ((s.bank i.epoch).homeOf sc g).1
  | none => s.node

/-- Ranks of a group that contribute. -/
def Instance.giversOf (i : Instance) (g : Nat) : Nat :=
  (((List.range (min i.b (i.n - g * i.b))).map (g * i.b + ·)).filter fun r =>
    i.kind != 4 || i.shape.root == r).length

/-- Bytes of a group's partial of chunk `c` (R333, R349). -/
def Instance.partBytes (i : Instance) (g c : Nat) : Nat :=
  let h := i.shape
  if h.kind = 3 || h.kind = 4 then i.giversOf g * fmtBytes h.inF (i.elems c)
  else accBytes h.inF h.outF * i.elems c

/-- Where the drawers hold a group's partial of a chunk, its first 64 KiB (R349, R367). DESIGN CHOICE: log entry 26. -/
def Instance.partSlot (i : Instance) (g c : Nat) : Nat :=
  (i.ranks.length * i.depth + g * i.depth + c / i.groups % i.depth) * 65536

/-- Bytes of a partial from an offset on are put into the drawers, and what lies beyond the slot beside them. -/
def State.putPartial (s : State) (i : Instance) (g c off : Nat) (bs : Bytes) : State :=
  let inSlot := bs.take (65536 - off)
  let beyond := bs.drop (65536 - off)
  let mine (p : PartialIn) : Bool := p.group == g && p.chunk == c
  let old := (i.partials.find? mine).getD { group := g, chunk := c, come := 0, rest := [] }
  let p : PartialIn :=
    { old with
      come := old.come + bs.length
      rest := if beyond.isEmpty then old.rest else old.rest ++ [(max off 65536, beyond)] }
  (s.dwWrite i (i.partSlot g c + off) 3 inSlot).modInst i fun i =>
    { i with partials := (i.partials.filter fun x => !mine x) ++ [p] }

/-- Pieces of bytes, each with its offset, in ascending order. -/
def putAt : List (Nat × Bytes) → Nat × Bytes → List (Nat × Bytes)
  | [], x => [x]
  | y :: t, x => if x.1 < y.1 then x :: y :: t else y :: putAt t x
def joinPieces (l : List (Nat × Bytes)) : Bytes := ((l.foldl putAt []).map (·.2)).flatten

/-- The partials of a chunk in group order, read back; none if a drawer read fails correction. -/
def State.readPartials (s : State) (i : Instance) (c : Nat) : List PartialIn → State × Option (List Bytes)
  | [] => (s, some [])
  | p :: t =>
    match s.dwRead i (i.partSlot p.group c) (min (i.partBytes p.group c) 65536) 3 with
    | (s, none) => (s, none)
    | (s, some b) =>
      match s.readPartials i c t with
      | (s, none) => (s, none)
      | (s, some bs) => (s, some ((b ++ joinPieces p.rest) :: bs))

/-- Bytes of a partial of a chunk that this home owns: with the partial of every group whole, stage 2 runs, the result
is converted, and the finished chunk goes to every home (R350). -/
def State.addPartial (s : State) (i : Instance) (group c off : Nat) (bs : Bytes) : State :=
  let whole (p : PartialIn) : Bool := p.come ≥ i.partBytes p.group c
  if c < i.sentChunks || off + bs.length > i.partBytes group c
      || (i.partials.any fun p => p.group == group && p.chunk == c && whole p) then s
  else
    let s := s.putPartial i group c off bs
    let i := s.instNow i
    let ps := (List.range i.groups).filterMap fun g => i.partials.find? fun p => p.group == g && p.chunk == c && whole p
    if ps.length ≠ i.groups then s
    else
      match s.readPartials i c ps with
      | (s, none) => s.abortInst i.epoch i.sched i.inst stDataError false
      | (s, some xs) =>
        let fin := i.convert (i.stage2 xs)
        let s := s.modInst i fun i => { i with partials := i.partials.filter fun p => p.chunk != c }
        let others := (List.range i.groups).filter fun g => g != i.group
        let s := others.foldl (fun s g => s.toHomeNode i (s.groupHome i g) rkFinished [c] fin) s
        (s.finishChunk (s.instNow i) c fin).settleAborts

/-- The copies of a chunk are read in rank order; none if a drawer read fails correction. -/
def State.readCopies (s : State) (i : Instance) (c : Nat) : List Nat → State × Option (List Bytes)
  | [] => (s, some [])
  | r :: t =>
    match s.dwRead i (i.slot r c) (fmtBytes i.shape.inF (i.elems c)) 2 with
    | (s, none) => (s, none)
    | (s, some b) =>
      match s.readCopies i c t with
      | (s, none) => (s, none)
      | (s, some bs) => (s, some (b :: bs))

/-- The next chunk may be summed (R328); with several homes, once its slot for partials is free (R349). -/
def Instance.ready (i : Instance) : Bool :=
  i.live && i.claim == .granted && i.allJoined && i.kind ≤ 5 && i.next < i.chunks
    && (i.groups == 1 || i.next < i.sentChunks + i.depth * i.groups)
    && i.givers.all fun r => i.copies.any fun c => c.rank == r && c.chunk == i.next && c.whole

/-- The next chunk of an instance is summed: its copies are read in rank order, their slots' credits return, and
the chunk is finished, or its partial goes to its owner (R326, R328 to R333, R349, R350). -/
def State.sumChunk (s : State) (i : Instance) : State :=
  let c := i.next
  match s.readCopies i c i.givers with
  | (s, none) => s.abortInst i.epoch i.sched i.inst stDataError false
  | (s, some pieces) =>
    let s := s.modInst i fun i => { i with next := c + 1, copies := i.copies.filter fun x => x.chunk != c }
    let s := (i.members.filter fun m => i.givers.contains m.rank && c + i.depth < i.chunks).foldl
      (fun s m => s.toMember i m rkCredit [c + i.depth]) s
    let p := i.stage1 c pieces
    if i.groups = 1 then s.finishChunk (s.instNow i) c (i.convert p)
    else if c % i.groups = i.group then s.addPartial (s.instNow i) i.group c 0 p
    else
      let s := s.putPartial (s.instNow i) i.group c 0 p
      s.toHomeNode i (s.groupHome i (c % i.groups)) rkPartial [i.group, c] p

/-- The place of an instance in the order of service. -/
def jobKey (x : Nat × Nat × Nat) : Nat := x.2.1 * 2 ^ 18 + x.1 * 64 + x.2.2
def Instance.job (i : Instance) : Nat × Nat × Nat := (i.sched, i.inst, i.group)

/-- The instance of a list with the least place. -/
def leastJob : List Instance → Option Instance
  | [] => none
  | i :: t =>
    match leastJob t with
    | none => some i
    | some j => some (if jobKey i.job ≤ jobKey j.job then i else j)

/-- The instance that the slices serve next, in one round robin of all instances with a ready job, after the one they
served last (R329, R406). DESIGN CHOICE: the model serves a chunk or a window at a time (log entry 94). -/
def State.nextJob (s : State) (ready : Instance → Bool) : Option Instance :=
  let jobs := s.red.insts.filter fun i => ready i && !s.resultWaits i
  match s.red.lastJob with
  | none => leastJob jobs
  | some k => (leastJob (jobs.filter fun i => jobKey k < jobKey i.job)).or (leastJob jobs)

/-- The slices serve an instance. -/
def State.served (s : State) (i : Instance) : State := { s with red := { s.red with lastJob := some i.job } }

/-! ### Sparse merging (R372 to R381) -/

/-- Put one record of the next rank into an ascending list of accumulators (R375). -/
def mergeOne (step : Nat → Nat → Nat) : List (Nat × Nat) → Nat × Nat → List (Nat × Nat)
  | [], x => [x]
  | a :: t, x =>
    if x.1 < a.1 then x :: a :: t
    else if x.1 = a.1 then (a.1, step a.2 x.2) :: t
    else a :: mergeOne step t x

/-- The merged records of a window, from each rank's records in rank order (R375). -/
def mergeRanks (step : Nat → Nat → Nat) (ranks : List (List (Nat × Nat))) : List (Nat × Nat) :=
  ranks.foldl (fun acc rs => rs.foldl (mergeOne step) acc) []

/-- A record's value decoded (R312, R375), and a merged accumulator converted (R318). -/
def sparseIn (inF outF v : Nat) : Nat :=
  let w := v % 2 ^ elemBits inF
  accOf inF outF (if isInt inF then w else denseToFp32 inF w)
def sparseOut (inF outF a : Nat) : Nat := if isInt inF then a else fp32ToDense outF a

/-- The ranking key of R379: a NaN above any number, then the magnitude. -/
def topkKey (inF outF a : Nat) : Nat :=
  if isInt inF then (sext (elemBits outF) a).natAbs
  else if decFp32 a = .nan then 2 ^ 32 else a % 2 ^ 31

/-- Put a record into a list by falling key, and rising index among equal keys (R379). -/
def putRanked (key : Nat → Nat) : List (Nat × Nat) → Nat × Nat → List (Nat × Nat)
  | [], x => [x]
  | a :: t, x =>
    if key a.2 < key x.2 || (key a.2 == key x.2 && x.1 < a.1) then x :: a :: t else a :: putRanked key t x

/-- The records that TOPK selects, in ascending index (R379). -/
def topkSelect (key : Nat → Nat) (k : Nat) (rs : List (Nat × Nat)) : List (Nat × Nat) :=
  ((rs.foldl (putRanked key) []).take k).foldl (mergeOne fun a _ => a) []

/-- Result bytes join the stream; whole lines are sent, and at the stream's end the padded last line and then the
header line (R377, R378). -/
def State.sparseEmit (s : State) (i : Instance) (rs : List (Nat × Nat)) (atEnd : Bool) (unselected : Nat) :
    State :=
  let h := i.shape
  let bytes := i.tail ++ recordBytes h.outF (rs.map fun r => (r.1, sparseOut h.inF h.outF r.2))
  let whole := if atEnd then ceilDiv bytes.length 128 * 128 else bytes.length / 128 * 128
  let now := sliceB bytes 0 whole
  let n := i.emitted + rs.length
  let s := s.sendResult i i.receivers (128 + i.sentBytes) now
  let s := if atEnd then s.sendResult i i.receivers 0 (natLe 8 n ++ natLe 8 unselected ++ zeros 112) else s
  s.modInst i fun i =>
    { i with emitted := n, tail := bytes.drop whole, sentBytes := i.sentBytes + whole, merged := atEnd }

/-- The next window may be merged: every rank's coverage has reached it (R374). -/
def Instance.windowReady (i : Instance) : Bool :=
  i.live && i.claim == .granted && i.allJoined && i.shape.sparse && !i.merged
    && i.members.all fun m => m.ended || i.next < m.coverage

/-- The records of a window in a rank's chunks, read from its drawers; none if a read fails correction. -/
def State.windowRecords (s : State) (i : Instance) (w : Nat) :
    List ChunkCopy → State × Option (List (Nat × Nat))
  | [] => (s, some [])
  | c :: t =>
    let f := i.shape.inF
    match s.dwRead i (i.slot c.rank c.chunk) c.amount 2 with
    | (s, none) => (s, none)
    | (s, some b) =>
      match s.windowRecords i w t with
      | (s, none) => (s, none)
      | (s, some rs) =>
        (s, some (((recordsOf f (c.amount / recBytes f) b).filter fun r => r.1 / windowSize f == w).map
          (fun r => (r.1, sparseIn f i.shape.outF r.2)) ++ rs))

/-- The records of a window of every rank, in rank order. -/
def State.windowRanks (s : State) (i : Instance) (w : Nat) : List Nat → State × Option (List (List (Nat × Nat)))
  | [] => (s, some [])
  | r :: t =>
    match s.windowRecords i w (i.copies.filter fun c => c.rank == r && c.whole) with
    | (s, none) => (s, none)
    | (s, some x) =>
      match s.windowRanks i w t with
      | (s, none) => (s, none)
      | (s, some xs) => (s, some (x :: xs))

/-- The place of the TOPK candidates in the drawers, 16 bytes each: index and accumulator (R367, R380). -/
def Instance.candSlot (i : Instance) : Nat := i.n * i.depth * 65536

/-- Candidates as bytes, and bytes as candidates. -/
def candBytes (cs : List (Nat × Nat)) : Bytes := cs.flatMap fun c => natLe 8 c.1 ++ natLe 8 c.2
def candsOf (n : Nat) (bs : Bytes) : List (Nat × Nat) :=
  (List.range n).map fun k => (getLe bs (16 * k) 8, getLe bs (16 * k + 8) 8)

/-- Merged records join the candidates of a TOPK, which the drawers hold; with the last window the selected ones are
sent (R379, R380). The best of what has been merged so far are all that can be selected. -/
def State.topkMerge (s : State) (i : Instance) (merged : List (Nat × Nat)) (last : Bool) : State :=
  let h := i.shape
  match s.dwRead i i.candSlot (16 * i.candN) 18 with
  | (s, none) => s.abortInst i.epoch i.sched i.inst stDataError false
  | (s, some b) =>
    let pick := topkSelect (topkKey h.inF h.outF) h.count (candsOf i.candN b ++ merged)
    let seen := i.candSeen + merged.length
    let keep (j : Instance) : Instance := { j with candN := pick.length, candSeen := seen }
    if last then s.sparseEmit i pick true (seen - pick.length)
    else (s.dwWrite i i.candSlot 18 (candBytes pick)).modInst i keep

/-- The next window of a sparse instance is merged (R374, R375, R377, R379, R380). -/
def State.mergeWindow (s : State) (i : Instance) : State :=
  let h := i.shape
  let w := i.next
  match s.windowRanks i w i.ranks with
  | (s, none) => s.abortInst i.epoch i.sched i.inst stDataError false
  | (s, some ranks) =>
    let merged := mergeRanks (redStep h.op h.inF h.outF) ranks
    let done (c : ChunkCopy) : Bool := c.lastWindow == some w
    let s := (i.copies.filter done).foldl (fun s c =>
      match i.members.find? fun m => m.rank == c.rank with
      | some m => s.toMember i m rkCredit [c.chunk + i.depth]
      | none => s) s
    let s := { s with red := { s.red with windows := wrapAdd 32 s.red.windows 1 } }
    let s := s.modInst i fun i => { i with next := w + 1, copies := i.copies.filter fun c => !done c }
    let last := w + 1 = 2 ^ 32 / windowSize h.inF
    let i := s.instNow i
    if h.kind = 8 then s.topkMerge i merged last else s.sparseEmit i merged last 0

/-! ### The slices (R328, R329, R350, R374, R406) -/

/-- An instance has a ready job of a kind. -/
def Instance.jobReady (i : Instance) : Bool := i.ready || i.windowReady

/-- CHUNK_SUMMATION (R328): the home sums the next chunk of the instance whose turn it is. -/
def execChunkSummation (sched : BitVec 12) (inst : Nat) (s : State) : Host.Outcome State Fault Refusal :=
  match (s.nextJob Instance.jobReady).filter fun i => i.sched == sched.toNat && i.inst == inst && i.ready with
  | none => .next s
  | some i => .next ((s.served i).sumChunk i)

/-- WINDOW_MERGE (R374): the next window of the sparse instance whose turn it is. -/
def execWindowMerge (sched : BitVec 12) (inst : Nat) (s : State) : Host.Outcome State Fault Refusal :=
  match (s.nextJob Instance.jobReady).filter fun i => i.sched == sched.toNat && i.inst == inst && i.windowReady with
  | none => .next s
  | some i => .next ((s.served i).mergeWindow i)

/-- PARTIAL (R350): bytes of a stage-1 partial reach the owner home of their chunk. A chunk of an aborted instance is
completed if its summation had begun here (R344, R352). -/
def execPartialChunk (sched : BitVec 12) (inst group chunk off : Nat) (bs : Bytes) (pkt : FabPkt) (s : State) :
    Host.Outcome State Fault Refusal :=
  let owner (i : Instance) : Bool :=
    i.group == chunk % i.groups && 1 < i.groups && group < i.groups && group != i.group && i.claim == .granted
      && chunk < i.chunks && (i.live || chunk < i.next)
  .next (s.redTake rkPartial pkt fun s _ =>
    match s.instOf sched.toNat inst owner with
    | none => s
    | some i => s.addPartial i group chunk off bs)

/-- Bytes of a finished chunk from another owner: once it is whole it waits for its turn (R350). -/
def State.finishedIn (s : State) (i : Instance) (c off : Nat) (bs : Bytes) : State :=
  if c < i.sentChunks || (i.finished.any fun f => f.1 == c) || c ≥ i.chunks || off + bs.length > i.finBytes c then s
  else
    let s := s.modInst i fun i => { i with arriving := i.arriving ++ [(c, off, bs)] }
    let got := ((s.instNow i).arriving.filter fun x => x.1 == c).map (·.2)
    if (got.map fun x => x.2.length).sum < i.finBytes c then s
    else
      let s := s.modInst i fun i =>
        { i with
          arriving := i.arriving.filter fun x => x.1 != c, partials := i.partials.filter fun p => p.chunk != c }
      (s.finishChunk (s.instNow i) c (joinPieces got)).settleAborts

/-- FINISHED_CHUNK (R350): an owner's finished chunk reaches a home, which multicasts it to its group in chunk
order. -/
def execFinishedChunk (sched : BitVec 12) (inst chunk off : Nat) (bs : Bytes) (pkt : FabPkt) (s : State) :
    Host.Outcome State Fault Refusal :=
  let due (i : Instance) : Bool :=
    i.sched == sched.toNat && i.inst == inst && 1 < i.groups && chunk % i.groups != i.group
  .next (s.redTake rkFinished pkt fun s _ =>
    (s.red.insts.filter due).foldl (fun s i => s.finishedIn i chunk off bs) s)

/-! ### Combine at a home (R402 to R404) -/

/-- The token of a rank. -/
def Instance.token? (i : Instance) (rank token : Nat) : Option TokenState :=
  i.tokens.find? fun t => t.rank == rank && t.token == token

/-- Change the state of a token, which is created when first named. -/
def State.modToken (s : State) (i : Instance) (rank token : Nat) (f : TokenState → TokenState) : State :=
  let t := (i.token? rank token).getD
    { rank := rank, token := token, known := false, weights := [], delivered := [], present := []
      partly := [] }
  s.modInst i fun i =>
    { i with tokens := (i.tokens.filter fun x => !(x.rank == rank && x.token == token)) ++ [f t] }

/-- Every delivered choice of the token is present (R404). -/
def TokenState.complete (t : TokenState) : Bool :=
  t.known && (t.delivered.zipIdx.all fun d => !d.1 || t.present.contains d.2)

/-- The outputs of a token's delivered choices, each with its weight, in choice order; none if a read fails
correction. -/
def State.readChoices (s : State) (i : Instance) (t : TokenState) :
    List Nat → State × Option (List (Nat × Bytes))
  | [] => (s, some [])
  | j :: rest =>
    match s.dwRead i (i.tokenSlot t.rank t.token j) (shapeTb i.digest) 2 with
    | (s, none) => (s, none)
    | (s, some b) =>
      match s.readChoices i t rest with
      | (s, none) => (s, none)
      | (s, some bs) => (s, some ((t.weights.getD j 0, b) :: bs))

/-- The combined token (R403). -/
def combineToken (fmt tb : Nat) (xs : List (Nat × Bytes)) : Bytes :=
  let m := tb * 8 / elemBits fmt
  match xs.map fun x => (decodeElems fmt x.2 m).map (fp32Mul x.1) with
  | [] => zeros tb
  | v :: t => encodeElems fmt fmt (t.foldl (fun acc x => List.zipWith fp32Add acc x) v)

/-- Tokens of a rank that are complete are combined and sent in ascending order (R404). -/
def State.sendTokens (s : State) (i : Instance) (rank : Nat) : Nat → State
  | 0 => s
  | fuel + 1 =>
    match s.red.insts.find? fun j => j.same i, i.members.find? fun m => m.rank == rank with
    | some i, some m =>
      let k := Tab.get 0 i.tokenNext rank
      match i.token? rank k with
      | none => s
      | some t =>
        if !t.complete then s
        else
          let tb := shapeTb i.digest
          match s.readChoices i t ((List.range (shapeK i.digest)).filter fun j => t.delivered.getD j false) with
          | (s, none) => s.abortInst i.epoch i.sched i.inst stDataError false
          | (s, some xs) =>
            let s := s.sendResult i [m] (k * tb) (combineToken (shapeCfmt i.digest) tb xs)
            (s.modInst i fun i =>
              { i with
                tokenNext := Tab.set 0 i.tokenNext rank (k + 1)
                tokens := i.tokens.filter fun x => !(x.rank == rank && x.token == k) }).sendTokens i rank fuel
    | _, _ => s

/-- The granted combine instance of a rank's home. -/
def State.combineHome (s : State) (m : MemberId) : Option Instance :=
  s.instOf m.sched.toNat m.inst fun i =>
    i.live && i.claim == .granted && i.kind == 0xB && i.ranks.contains m.rank

/-- Bytes of a choice's output have come: with the last of them it is present. -/
def TokenState.more (t : TokenState) (choice n tb : Nat) : TokenState :=
  let got := (t.partly.find? fun p => p.1 == choice).elim 0 (·.2) + n
  let rest := t.partly.filter fun p => p.1 != choice
  if got ≥ tb then { t with present := choice :: t.present, partly := rest } else { t with partly := (choice, got) :: rest }

/-- Bytes of an expert's output of a token go into the drawers of the home of the token's rank, which combines the
token once it is complete (R401, R403, R404). -/
def State.doExpertOutput (s : State) (m : MemberId) (token choice off : Nat) (bs : Bytes) : State :=
  match s.combineHome m with
  | none => s
  | some i =>
    let tb := shapeTb i.digest
    if token ≥ shapeTmax i.digest || choice ≥ shapeK i.digest || token < Tab.get 0 i.tokenNext m.rank
        || off + bs.length > tb || ((i.token? m.rank token).any fun t => t.present.contains choice) then s
    else
      let s := s.dwWrite i (i.tokenSlot m.rank token choice + off) 3 bs
      (s.modToken i m.rank token fun t => t.more choice bs.length tb).sendTokens i m.rank (i.tokens.length + 2)

/-- EXPERT_OUTPUT (R401): an expert's output of a token, or a piece of it, reaches the home of the token's rank. -/
def execExpertOutput (m : MemberId) (token choice off : Nat) (bs : Bytes) (pkt : FabPkt) (s : State) :
    Host.Outcome State Fault Refusal :=
  .next (s.redTake rkExpertOutput pkt fun s _ => s.doExpertOutput m token choice off bs)

/-- A member's weights and marks of a token reach its home (R402). -/
def State.doWeights (s : State) (m : MemberId) (token : Nat) (weights : List Word) (delivered : List Bool) : State :=
  match s.combineHome m with
  | none => s
  | some i =>
    if token ≥ shapeTmax i.digest || token < Tab.get 0 i.tokenNext m.rank then s
    else
      let s := s.modToken i m.rank token fun t =>
        if t.known then t
        else
          { t with
            known := true
            weights := (weights.map fun w => w.toNat % 2 ^ 32).take (shapeK i.digest)
            delivered := delivered.take (shapeK i.digest) }
      s.sendTokens i m.rank (i.tokens.length + 2)

/-- COMBINE_WEIGHTS (R402). -/
def execCombineWeights (m : MemberId) (token : Nat) (weights : List Word) (delivered : List Bool) (pkt : FabPkt)
    (s : State) : Host.Outcome State Fault Refusal :=
  .next (s.redTake rkWeights pkt fun s _ => s.doWeights m token weights delivered)

/-! ### What reaches a member (R326, R331, R346, R347, R389, R400) -/

/-- The operation of a port that a packet for a member is for, while it runs. -/
def State.memberFor (s : State) (p : Port) (m : MemberId) : Option (Nat × Op) :=
  (s.memberOp p m.sched.toNat m.inst).filter fun x =>
    match x.2.phase with
    | .done _ => false
    | _ => x.2.col.rank == m.rank

/-- CREDIT (R326): the member may send the lines of one more chunk. -/
def execCredit (p : Port) (m : MemberId) (chunk : Nat) (pkt : FabPkt) (s : State) :
    Host.Outcome State Fault Refusal :=
  .next (s.redTake rkCredit pkt fun s _ =>
    match s.memberFor p m with
    | none => s
    | some (g, o) =>
      (s.modCol g o.idx fun c =>
        { c with credits := if c.credits.contains chunk then c.credits else c.credits ++ [chunk] }).drive p)

/-- Result lines of a member, from the home's packet with sequence `dseq`, are written at the kept translations; after
a failed delivery they are released (R331, R347). -/
def State.resultArrives (s : State) (p : Port) (m : MemberId) (dseq off : Nat) (lines : Bytes) : State :=
  match s.memberFor p m with
  | none => s
  | some (g, o) =>
    if o.col.delivery != stOk || o.kind == .dispatch then s
    else
      let sparse := o.kind == .reduce && (Shape.dec o.shapeWord).sparse
      let s := s.writeResult g o.idx dseq ((s.resultRange o).1 + off) (lines.length / 128 + 2) lines
      let s := if sparse && off = 0 then s.modCol g o.idx fun c => { c with final := true } else s
      (s.collSettle g o.idx).drive p

/-- Word that lines for a member were lost on the way (R347, R522). -/
def State.resultLost (s : State) (p : Port) (m : MemberId) (status : Nat) : State :=
  match s.memberFor p m with
  | none => s
  | some (g, o) =>
    ((s.modCol g o.idx fun c => { c with delivery := if c.delivery = stOk then status else c.delivery }).collSettle
      g o.idx).drive p

/-- RESULT (R331): a result packet, or word that one was lost, reaches the docent of a member, which checks it, takes it
once, and acknowledges it (R278, R347, R521, R651). -/
def execResult (p : Port) (m : MemberId) (off : Nat) (lost : Option Nat) (pkt : FabPkt) (s : State) :
    Host.Outcome State Fault Refusal :=
  .next (s.redTake rkResult pkt fun s lines =>
    match lost with
    | some status => s.resultLost p m status
    | none => s.resultArrives p m (FHdr.dec pkt.hdr).dseq off lines)

/-- OFFSETS (R389): offsets, kept counts and receive counts reach a member, which places its tokens and writes
its receive counts. -/
def execOffsets (p : Port) (m : MemberId) (off kept recv : List Nat) (bases : List (Nat × Nat)) (pkt : FabPkt)
    (s : State) : Host.Outcome State Fault Refusal :=
  .next (s.redTake rkOffsets pkt fun s _ =>
    match s.memberFor p m with
    | none => s
    | some (g, o) =>
      if o.kind != .dispatch || o.col.final then s
      else
        (s.modCol g o.idx fun c =>
          { c with off := off, keptCnt := kept, recv := recv, bases := bases, final := true }).drive p)

/-- A home's grant reaches a member, which may then send expert outputs to it, and its weights if the home is its own.
A grant that comes before the operation issues is kept (R400). -/
def State.grantIn (s : State) (p : Port) (m : MemberId) (group : Nat) : State :=
  match s.memberFor p m with
  | some (g, o) =>
    (s.modCol g o.idx fun c =>
      { c with grants := if c.grants.contains group then c.grants else c.grants ++ [group] }).drive p
  | none =>
    let key := p.val * 4096 + m.sched.toNat
    if Tab.get 0 s.cat.instNo key ≤ m.inst && !s.red.early.contains (p.val, m.sched.toNat, m.inst, group) then
      { s with red := { s.red with early := s.red.early ++ [(p.val, m.sched.toNat, m.inst, group)] } }
    else s

/-- GRANT_ANNOUNCEMENT (R400): a home's grant reaches a member. -/
def execGrantAnnouncement (p : Port) (m : MemberId) (group : Nat) (pkt : FabPkt) (s : State) :
    Host.Outcome State Fault Refusal :=
  .next (s.redTake rkGrant pkt fun s _ => s.grantIn p m group)

/-! ### How an instance ends (R332, R340 to R347, R395, R396, R404) -/

/-- Every result of the instance has been sent at this home. -/
def Instance.allSent (i : Instance) : Bool :=
  if i.kind = 0xA then i.offsetsSent
  else if i.kind = 0xB then i.allJoined && i.tokens.isEmpty
  else if i.shape.sparse then i.merged
  else i.allJoined && i.sentChunks == i.chunks

/-- A member of this module still has result lines, writes or lines of its own under way. -/
def State.memberBusy (s : State) (sched inst p : Nat) : Bool :=
  match s.memberOp p sched inst with
  | none => false
  | some (_, o) =>
    match o.phase with
    | .done _ => false
    | .sent => o.col.unacked != 0 || s.resultNeed o != some 0
    | _ => true

/-- A member that receives no result completes with the instance (R340). -/
def State.completeIdle (s : State) (sched inst p : Nat) : State :=
  match s.memberOp p sched inst with
  | none => s
  | some (g, o) =>
    if o.phase == .sent && o.col.unacked = 0 && s.resultNeed o == some 0 then
      (s.modOp g o.idx fun o => { o with phase := .done stOk }).drive p
    else s

/-- INSTANCE_COMPLETE (R332): every member of an instance has ended. Members without a result complete; the home
adds 1 to inst_so if every one completed with OK, of a COMBINE every one of its group, and its drawers are zeroed (R339,
R340, R347, R395, R404). `failed` names the ranks that completed with another status. -/
def execInstanceComplete (sched : BitVec 12) (inst : Nat) (failed : List Nat) (s : State) :
    Host.Outcome State Fault Refusal :=
  let id := sched.toNat
  let mine := s.red.insts.filter fun i => i.sched == id && i.inst == inst && i.live
  if (List.range 48).any (s.memberBusy id inst) || mine.any (fun i => !i.allSent || s.resultWaits i) then .next s
  else
    let s := (List.range 48).foldl (fun s p => s.completeIdle id inst p) s
    let close (s : State) (i : Instance) : State :=
      let s := s.freeInst i
      let s := { s with red := { s.red with insts := s.red.insts.filter fun j => !j.same i } }
      let allOk := failed.all fun r => i.kind == 0xB && !i.ranks.contains r
      if allOk && i.instSo / 32768 = 1 && !(i.members.any (·.withdrawn)) then
        s.soAddOf (i.instSo % 16384) i.gallery 1
      else s
    .next (mine.foldl close s)

/-- A member leaves an instance whose offsets have been sent: it alone is affected (R396). -/
def State.memberLeft (s : State) (i : Instance) (rank : Nat) : State :=
  let leave (x : HomeMember) : HomeMember := if x.rank == rank then { x with withdrawn := true } else x
  s.modInst i fun i => { i with members := i.members.map leave }

/-- A member's withdrawal reaches its home, which aborts the instance, unless it is a DISPATCH whose offsets have been
sent (R342, R396). -/
def State.doWithdrawal (s : State) (e : Bool) (m : MemberId) (pathLost : Bool) : State :=
  match s.instOf m.sched.toNat m.inst fun i => i.live && i.offsetsSent with
  | some i => s.memberLeft i m.rank
  | none => s.abortInst e m.sched.toNat m.inst stWithdrawn pathLost

/-- WITHDRAWAL (R342): a member's withdrawal reaches its home. -/
def execWithdrawal (m : MemberId) (pathLost : Bool) (pkt : FabPkt) (s : State) : Host.Outcome State Fault Refusal :=
  .next (s.redTake rkWithdrawal pkt fun s _ => s.doWithdrawal (FHdr.dec pkt.hdr).epoch m pathLost)

/-- The member of a port is told of its instance's abort: it ends with that status once the results that the home sent
before are delivered (R341, R344 to R346, R822). -/
def State.memberAborted (s : State) (sched inst : Nat) (a : AbortNote) (p : Nat) : State :=
  match s.memberOp p sched inst with
  | none => s
  | some (g, o) =>
    match o.phase with
    | .done _ => s
    | _ => s.modCol g o.idx fun c => { c with abortAt := c.abortAt.orElse fun _ => some a }

/-- An abort reaches a home of the schedule: its instance aborts too, now or when it would begin, and what the other
home had begun is noted (R342, R346, R352). -/
def State.homeAborted (s : State) (e : Bool) (sched inst status : Nat) (pathLost : Bool)
    (begun : Option (Nat × Nat)) : State :=
  if !(s.homesOf e sched).any fun x => x.2 == s.node then s
  else if s.red.insts.any fun i => i.sched == sched && i.inst == inst && i.offsetsSent then s
  else
    let s := s.abortInst e sched inst status pathLost
    match begun with
    | none => s
    | some b =>
      let note (i : Instance) : Instance :=
        if i.sched == sched && i.inst == inst && i.aborted && !i.begun.any fun x => x.1 == b.1 then
          { i with begun := i.begun ++ [b] }
        else i
      { s with red := { s.red with insts := s.red.insts.map note } }.settleAborts

/-- ABORT (R344): an abort reaches this module: the member of one port, or a home of the schedule and the members of
every port whose home has sent it. -/
def execAbort (sched : BitVec 12) (inst : Nat) (status : Nat) (pathLost : Bool) (only : Option Port)
    (begun : Option (Nat × Nat)) (pkt : FabPkt) (s : State) : Host.Outcome State Fault Refusal :=
  let id := sched.toNat
  let h := FHdr.dec pkt.hdr
  let a : AbortNote := { status := status, pathLost := pathLost, node := h.srcNode, dseq := h.dseq }
  let hears (s : State) (p : Nat) : Bool :=
    (s.memberOp p id inst).any fun x => s.homeNode x.2 x.2.col.rank == h.srcNode
  let s := s.redTake rkAbort pkt fun s _ =>
    match only with
    | some p => s.memberAborted id inst a p
    | none =>
      let s := s.homeAborted h.epoch id inst status pathLost begun
      if begun.isSome then s
      else ((List.range 48).filter (hears s)).foldl (fun s p => s.memberAborted id inst a p) s
  .next s.driveAll

/-- JOIN_TIMEOUT (R343): not every member of a home's group has joined within join_timeout. -/
def execJoinTimeout (sched : BitVec 12) (inst : Nat) (s : State) : Host.Outcome State Fault Refusal :=
  match s.instOf sched.toNat inst fun i => i.live && i.joinTimeout != 0 && !i.allJoined with
  | none => .next s
  | some i => .next (s.abortInst i.epoch i.sched i.inst stJoinTimeout false)

end Sys2Proof.Machine
end

