-- ==== Sys2Proof/Machine/Forward.lean ====
section
/-! DEFINITION. The switch core (R503 to R518, R529) and path failure across the module (R341, R353, R606 to
R609). -/

namespace Sys2Proof.Machine

/-! ### Path failure (R279, R341, R353, R606 to R609) -/

/-- The home of an operation's member has no route left: the operation fails with LOST (R341, R353). -/
def State.memberPath (s : State) (p : Nat) : State :=
  (List.range 16).foldl (fun s n =>
    let g := ctxIdx p n
    (s.ctx g).ops.foldl (fun s o =>
      let joined := match o.phase with
        | .joined | .running | .sent => o.kind == .reduce || o.kind == .dispatch || o.kind == .combine
        | _ => false
      let home := s.homeNode o o.col.rank
      if joined && home != s.node && (s.newRoute p home 4).isNone then s.collFailed g o.idx stLost true true
      else s) s) s

/-- A home has lost its path to some members: the instance aborts, but of a DISPATCH whose offsets have been sent only
those members are affected (R341, R396). -/
def State.membersLost (s : State) (i : Instance) : State :=
  let gone := i.members.filter fun m => m.node != s.node && (s.newRoute 0x3F m.node 4).isNone
  if i.offsetsSent then gone.foldl (fun s m => s.memberLeft i m.rank) s
  else if gone.isEmpty then s
  else s.abortInst i.epoch i.sched i.inst stWithdrawn true

/-- A home has lost its path to another home of the instance (R353). -/
def State.homesLost (s : State) (i : Instance) : State :=
  if (s.homesOf i.epoch i.sched).any fun x => x.2 != s.node && (s.newRoute 0x3F x.2 4).isNone then
    s.abortInst i.epoch i.sched i.inst stWithdrawn true
  else s

/-- Members and homes that lost their path to each other end (R341, R353). -/
def State.pathCheck (s : State) : State :=
  let s := ((List.range 48).filter fun p => s.ctxs.any fun c => c.1 / 16 == p && c.2.running).foldl
    (fun s p => s.memberPath p) s
  ((s.red.insts.filter (·.live)).foldl (fun s i => (s.membersLost i).homesLost i) s).settleAborts

/-- A notice: the module and port that went down, and that port's count (R606). -/
def noticeNode (b : BitVec 128) : Nat := fieldN b 0 12
def noticePort (b : BitVec 128) : Nat := fieldN b 16 6
def noticeBits (node port downs : Nat) : BitVec 128 :=
  BitVec.ofNat 128 (node % 4096 + port % 64 * 2 ^ 16 + downs % 256 * 2 ^ 24 + 2 ^ 32)

/-- Forward a notice in CTRL flits on every other trunk port that is ACTIVE or IDLE (R606). -/
def State.floodNotice (s : State) (from_ : Nat) (b : BitVec 128) : State :=
  let ports := (List.range 48).filter fun p =>
    p != from_ && s.role p == 2 && ((s.link p).state == .active || (s.link p).state == .idle)
  ports.foldl (fun s p =>
    (s.leaveIdle p).ctrlOut p false none false [b.toNat]) s

/-- A notice reaches the module: one not seen among the last 1,024 is forwarded, every route that crosses the
link is marked failed, and outstanding packets are replayed (R279, R606, R608). -/
def State.noticeArrives (s : State) (from_ : Nat) (b : BitVec 128) : State :=
  if !bitN b 32 || s.cat.notices.contains b.toNat then s
  else
    let l := (noticeNode b, noticePort b)
    let s := { s with cat :=
      { s.cat with
        notices := (b.toNat :: s.cat.notices).take 1024
        deadLinks := if s.cat.deadLinks.contains l then s.cat.deadLinks else s.cat.deadLinks ++ [l] } }
    let s := s.floodNotice from_ b
    let (s, lost) := s.replayOver fun o =>
      let h := FHdr.dec o.hdr
      (s.bank h.epoch).crosses (fpaNode h.fpa) o.route l.1 l.2
    ((s.loseAll lost).pathCheck).driveAll

/-- NOTICE (R606): a link-down notice arrives by a trunk port. -/
def execNotice (p : Port) (body : BitVec 128) (s : State) : Host.Outcome State Fault Refusal :=
  .next (s.noticeArrives p body)

/-- PATH_TIMEOUT (R609): packets to another module are outstanding and no acknowledgement came for path_timeout;
the routes that they use are marked failed. -/
def execPathTimeout (src : BitVec 6) (dest : NodeId) (s : State) : Host.Outcome State Fault Refusal :=
  let mine (o : Outst) : Bool := o.src == src.toNat && o.dest == dest.toNat && !o.listed
  let hits := s.replay.filter mine
  if hits.isEmpty || dest.toNat = s.node then .next s
  else
    let s := hits.foldl (fun s o => s.markRoute o) s
    let (s, lost) := s.replayOver fun o => mine o
    .next ((s.loseAll lost).pathCheck.driveAll)

/-- BE_RETX_EXPIRY (R529): a best-effort packet is sent again on the same route with the same sequence, or ends
with RESEND_LIMIT after 64 resends. -/
def execBeRetxExpiry (src : BitVec 6) (dest : NodeId) (dseq : BitVec 32) (s : State) :
    Host.Outcome State Fault Refusal :=
  let mine (o : Outst) : Bool :=
    o.src == src.toNat && o.dest == dest.toNat && o.dseq == dseq.toNat && fieldN o.hdr 12 3 == 7
  match s.replay.find? mine with
  | none => .next s
  | some o =>
    if o.resends ≥ 64 then .next (((s.release o).resolve o stResendLimit []).afterAnswer o.src)
    else
      let again (x : Outst) : Outst := { x with resends := x.resends + 1, copies := x.copies + 1 }
      .next ({ s with replay := modifyFirst mine again s.replay }.resend o o.route)

/-! ### Forwarding (R503 to R518) -/

/-- The packet cannot be forwarded by its route (R496, R504). -/
def State.routeError (s : State) (h : FHdr) : Bool :=
  let e := routeEntry h.route h.hopPtr
  let last := h.hopPtr == h.hopsM1
  !ftypeKnown h.ftype || h.hopPtr > h.hopsM1
    || (if e < 48 then
          if last then !h.resp && !h.toPort && !linkCarries (s.link e)
          else s.role e != 2 || !linkCarries (s.link e)
        else !(last && (e == 0x3E || e == 0x3F)))

/-- The VC on which a packet leaves the module (R507). -/
def outVc (h : FHdr) : Nat :=
  let line := h.dlMask / 2 ^ h.hopPtr % 2 = 1
  if line && (h.vc = 0 || h.vc = 2 || h.vc = 4) then h.vc + 1 else h.vc

/-- The packet leaves the shared buffer: its cells are free, and its credit returns to a trunk input (R516,
R517, R592). -/
def State.unbuffer (s : State) (b : Buffered) : State :=
  let s := { s with swc := { s.swc with buf := s.swc.buf.erase b } }
  let s := match b.mc with
    | some id => s.mcCrossed id
    | none => s
  let fromLink := b.inp < 48 && s.role b.inp = 2 && fieldN b.hdr 196 12 ≠ s.node
  (if fromLink then s.linkFree b.inp b.vc (packetCells b.payload) else s).letIn

/-- A packet that fails correction is discarded; a request's source receives DATA_ERROR. Every reference of a
multicast packet that has not crossed fails with it (R518, R524). -/
def State.bufferError (s : State) (b : Buffered) : State :=
  let s := { s with swc := { s.swc with bufUe := satAdd 16 s.swc.bufUe 1 } }
  let all := if b.mc.isSome then s.swc.buf.filter fun x => x.mc == b.mc else [b]
  all.foldl (fun s x => (s.unbuffer x).bareAck 48 (FHdr.dec x.hdr) stDataError false) s

/-- A packet for the next module waits: its link retrains, or its VC there lacks credit for the whole packet
(R513, R600). -/
def State.mustWait (s : State) (b : Buffered) : Bool :=
  let h := FHdr.dec b.hdr
  let l := s.link (routeEntry h.route h.hopPtr)
  !s.routeError h && h.hopPtr != h.hopsM1
    && (l.state == .retrain || l.credit (outVc h) < packetCells b.payload)

/-- The head of a queue crosses the switch core. A packet of a reserved type is counted and gets no answer (R496,
R503, R504). -/
def State.forward (s : State) (b : Buffered) : State :=
  let h := FHdr.dec b.hdr
  let e := routeEntry h.route h.hopPtr
  if s.routeError h then
    let s := s.unbuffer b
    let s := { s with swc := { s.swc with routeErr := satAdd 16 s.swc.routeErr 1 } }
    if ftypeKnown h.ftype then s.bareAck 48 h stLost true else s
  else if h.hopPtr = h.hopsM1 then
    let s := s.unbuffer b
    { s with arrived := s.arrived ++ [(b.hdr, b.payload, b.tag)] }
  else
    let h' := { h with hopPtr := h.hopPtr + 1, vc := outVc h }
    ((s.unbuffer b).out (.trunk e h'.enc b.payload)).linkSend e h'.vc 1 h'.enc b.payload b.tag

/-! ### Which VC an output serves, and which pairs match (R513, R514) -/

/-- An input, or an output, carries a packet that crosses: it is locked (R513). -/
def Swc.inLocked (w : Swc) (inp : Nat) : Bool := w.locks.any fun l => l.1 == inp
def Swc.outLocked (w : Swc) (out : Nat) : Bool := w.locks.any fun l => l.2.1 == out

/-- The packets at the heads of the queues from unlocked inputs to an output that may cross now (R512, R513). -/
def State.eligible (s : State) (out : Nat) : List Buffered :=
  let heads (l : List Buffered) (b : Buffered) : List Buffered :=
    if l.any fun x => x.inp == b.inp && x.vc == b.vc then l else l ++ [b]
  ((s.swc.buf.filter fun b => b.out == out).foldl heads []).filter fun b => !s.swc.inLocked b.inp && !s.mustWait b

/-- The service of an output's VCs. -/
def State.arb (s : State) (out : Nat) : Arb := Tab.get Arb.reset s.swc.arbs out

/-- The quantum of the deficit round robin (R514). -/
def quantum : Nat := 2112

/-- The packet fits the deficit of the VC whose turn it is. -/
def Arb.fits (a : Arb) (b : Buffered) : Bool := b.vc == a.turn && packetBytes b.payload ≤ Tab.get 0 a.deficit b.vc

/-- VC0 to VC5 in the order in which their turns come, the present one last. -/
def Arb.order (a : Arb) : List Nat := (List.range 6).map fun k => (a.turn + 1 + k) % 6

/-- The packets that an output serves next among those that may cross: VC7 where it is due its slot in 64, VC6 unless
the others are due theirs, VC0 to VC5 by deficit round robin, then VC7 (R514). -/
def Arb.pick (a : Arb) (bs : List Buffered) : List Buffered :=
  let of (v : Nat) : List Buffered := bs.filter fun b => b.vc == v
  let low := bs.filter fun b => b.vc < 6
  if 63 ≤ a.wait7 && !(of 7).isEmpty then of 7
  else if !(of 6).isEmpty && (a.debt6 = 0 || bs.all fun b => b.vc == 6) then of 6
  else if low.any a.fits then low.filter a.fits
  else if !low.isEmpty then (a.order.find? fun v => !(of v).isEmpty).elim [] of
  else of 7

/-- A packet of `cells` cells takes its slots at its output (R514). -/
def Arb.serve (a : Arb) (bs : List Buffered) (b : Buffered) : Arb :=
  let cells := packetCells b.payload
  let size := packetBytes b.payload
  let others := bs.any fun x => x.vc != 6
  let a := { a with
    debt6 := if b.vc = 6 then (if others then 15 * cells else 0) else a.debt6 - cells
    wait7 := if b.vc = 7 || !bs.any (fun x => x.vc == 7) then 0 else a.wait7 + cells }
  if b.vc < 6 then
    if a.fits b then { a with deficit := Tab.modify 0 a.deficit b.vc (· - size) }
    else
      let kept := if bs.any fun x => x.vc == a.turn then a.deficit else Tab.set 0 a.deficit a.turn 0
      { a with turn := b.vc, deficit := Tab.modify 0 kept b.vc (· + quantum - size) }
  else a

/-- The number in a list that comes next at a pointer, going round the 81 inputs or outputs (R513). -/
def nextAt (ptr : Nat) (l : List Nat) : Option Nat :=
  let d (x : Nat) : Nat := (x + 81 - ptr) % 81
  l.foldl (fun b x => match b with
    | some y => if d x < d y then some x else b
    | none => some x) none

/-- What each unlocked output asks for: the heads of the queues on the VC that it serves next (R513, R514). -/
def State.requests (s : State) : List (Nat × List Buffered) :=
  let outs := ((s.swc.buf.map (·.out)).eraseDups).filter fun o => !s.swc.outLocked o
  (outs.map fun o => (o, (s.arb o).pick (s.eligible o))).filter fun r => !r.2.isEmpty

/-- One round of request, grant and accept among the inputs and outputs that are not yet matched: the new pairs of
input and output (R513). -/
def Swc.matchRound (w : Swc) (reqs : List (Nat × List Buffered)) (done : List (Nat × Nat)) : List (Nat × Nat) :=
  let free (i : Nat) : Bool := done.all fun p => p.1 != i
  let grants : List (Nat × Nat) := (reqs.filter fun r => done.all fun p => p.2 != r.1).filterMap fun r =>
    (nextAt (Tab.get 0 w.grantPtr r.1) ((r.2.map (·.inp)).filter free)).map fun i => (i, r.1)
  ((grants.map (·.1)).eraseDups).filterMap fun i =>
    (nextAt (Tab.get 0 w.acceptPtr i) ((grants.filter fun g => g.1 == i).map (·.2))).map fun o => (i, o)

/-- The pointers advance past the partners accepted in round 1 (R513). -/
def Swc.advance (w : Swc) (pairs : List (Nat × Nat)) : Swc :=
  pairs.foldl (fun w p =>
    { w with
      grantPtr := Tab.set 0 w.grantPtr p.2 ((p.1 + 1) % 81), acceptPtr := Tab.set 0 w.acceptPtr p.1 ((p.2 + 1) % 81) }) w

/-- A queue that is empty locks no pair (R539). -/
def Swc.dropLocks (w : Swc) : Swc :=
  { w with locks := w.locks.filter fun l => w.buf.any fun b => b.inp == l.1 && b.out == l.2.1 && b.vc == l.2.2 }

/-- The packet at the head of the queue of a matched pair. -/
def pairHead (reqs : List (Nat × List Buffered)) (p : Nat × Nat) : Option Buffered :=
  (reqs.find? fun r => r.1 == p.2).bind fun r => r.2.find? fun b => b.inp == p.1

/-- A matched pair locks for the packet at the head of its queue, which its output has then served (R513, R514). -/
def Swc.lock (w : Swc) (x : Buffered × Arb) : Swc :=
  { w with
    arbs := Tab.set Arb.reset w.arbs x.1.out x.2
    locks := w.locks ++ [(x.1.inp, x.1.out, x.1.vc)] }

/-- Match the unlocked inputs and outputs, in three rounds (R513). -/
def State.matchSlot (s : State) : State :=
  let s := { s with swc := s.swc.dropLocks }
  let reqs := s.requests
  let one := s.swc.matchRound reqs []
  let two := one ++ s.swc.matchRound reqs one
  let all := two ++ s.swc.matchRound reqs two
  let pairs := (all.filterMap fun p => pairHead reqs p).map fun b => (b, (s.arb b.out).serve (s.eligible b.out) b)
  { s with swc := pairs.foldl Swc.lock (s.swc.advance one) }

/-- The packet of a locked pair has crossed: the pair unlocks (R513). -/
def State.unlock (s : State) (inp out : Nat) : State :=
  { s with swc := { s.swc with locks := s.swc.locks.filter fun l => l.1 != inp || l.2.1 != out } }

/-- PACKET_FORWARD (R503): inputs and outputs are matched, and the packet at the head of the queue of an input, an
output and a VC crosses if its pair is locked for it (R513, R514). -/
def execPacketForward (inp out : Nat) (vc : BitVec 3) (corrected : Nat) (failed : Bool) (s : State) :
    Host.Outcome State Fault Refusal :=
  let s := s.matchSlot
  match s.swc.buf.find? fun b => b.inp == inp && b.out == out && b.vc == vc.toNat with
  | none => .next s
  | some b =>
    if !s.swc.locks.contains (inp, out, vc.toNat) then .next s
    else
      let s := s.unlock inp out
      let s := { s with swc := { s.swc with bufCe := wrapAdd 32 s.swc.bufCe corrected } }
      let s := if failed then s.bufferError b else s.forward b
      .next (if b.mc.isSome then s.driveAll else s)

end Sys2Proof.Machine
end

