-- ==== Sys2Proof/Machine/Answer.lean ====
section
/-! DEFINITION. Answers that reach their source (R277, R281, R496, R650, R652). -/

namespace Sys2Proof.Machine

/-- The payload of a response, authenticated under one of the counts that its copies can bear; from this module it
is not encrypted (R649, R650). -/
def State.openResp (s : State) (h : FHdr) (o : Outst) (payload tag : Bytes) : Option Bytes :=
  if h.srcNode = s.node then some payload
  else (List.range o.copies).findSome? fun rep => s.openFab h rep payload tag

/-- A response of type `ft` arrives: its header, the packet that it answers, and its payload if it is authenticated
(R652, R807). -/
def State.receiveResp (s : State) (ft : Nat) (hdr : Header) (payload tag : Bytes) :
    State × Option (FHdr × Outst × Option Bytes) :=
  let h := FHdr.dec hdr
  if h.ftype ≠ ft then (s, none)
  else
    let s := s.unqueue hdr payload
    if s.epochUsable h.epoch then (s, (s.answered? h).map fun o => (h, o, s.openResp h o payload tag))
    else ({ s with cat := { s.cat with late := satAdd 16 s.cat.late 1 } }, none)

/-- A WAIT has been listed at its sync object (R270). -/
def State.listWait (s : State) (o : Outst) : State :=
  let list (x : Outst) : Outst := if x.uid == o.uid then { x with listed := true } else x
  { s with replay := s.replay.map list }

/-- ACK (R277): a packet is acknowledged, or fails, or its route has failed (R504, R652); a path that is lost may end
members and instances (R341). -/
def execAck (hdr : Header) (tag : Bytes) (timedOut : Bool) (s : State) : Host.Outcome State Fault Refusal :=
  match s.receiveResp ftAck hdr [] tag with
  | (s', none) => .next s'
  | (s', some (h, o, plain)) =>
    let status := h.param % 256
    if h.param / 32768 = 1 then .next (((s'.copyFailed o h.srcNode).pathCheck).driveAll)
    else if status = stOk && plain.isNone then .next s'
    else
      let ft := fieldN o.hdr 0 8
      if status = stOk && ft = ftSync then .next ((s'.listWait o).afterAnswer o.src)
      else if status = stOk && (ft = ftRead || ft = ftAtomic) then .next s'
      else
        let s' := if timedOut && status = stLost then s'.targetTimeoutRecord o else s'
        .next (((s'.release o).resolve o status []).afterAnswer o.src)

/-- DATA (R496): the lines that a READ asked for; only an authenticated response brings data (R652). -/
def execData (hdr : Header) (payload tag : Bytes) (s : State) : Host.Outcome State Fault Refusal :=
  match s.receiveResp ftData hdr payload tag with
  | (s', some (_, o, some bs)) =>
    if fieldN o.hdr 0 8 ≠ ftRead then .next s'
    else .next (((s'.release o).resolve o stOk (sliceB bs 0 (128 * fieldN o.hdr 16 5))).afterAnswer o.src)
  | (s', _) => .next s'

/-- VALUE (R496): the completion of a SYNC or an ATOMIC, with its status and value. -/
def execValue (hdr : Header) (payload tag : Bytes) (s : State) : Host.Outcome State Fault Refusal :=
  match s.receiveResp ftValue hdr payload tag with
  | (s', some (h, o, some bs)) =>
    let ft := fieldN o.hdr 0 8
    if ft ≠ ftSync && ft ≠ ftAtomic then .next s'
    else .next (((s'.release o).resolve o (h.param % 256) (sliceB bs 0 8)).afterAnswer o.src)
  | (s', _) => .next s'

end Sys2Proof.Machine
end

