-- ==== Sys2Proof/Machine/Ecdsa.lean ====
section
/-! DEFINITION. Signatures: ECDSA on P-384 over SHA-384, as R622, R640, R669 and R735 name it. Points are held in
Jacobian form: (x, y, z) is the affine point (x / z², y / z³), and z = 0 the point at infinity. -/

namespace Sys2Proof.Machine

/-! ### The curve -/

/-- The prime of the field, the coefficient b, the order of the base point, and the base point. -/
def ecP : Nat := 2 ^ 384 - 2 ^ 128 - 2 ^ 96 + 2 ^ 32 - 1
def ecB : Nat := 0xb3312fa7e23ee7e4988e056be3f82d19181d9c6efe8141120314088f5013875ac656398d8a2ed19d2a85c8edd3ec2aef
def ecN : Nat := 0xffffffffffffffffffffffffffffffffffffffffffffffffc7634d81f4372ddf581a0db248b0a77aecec196accc52973
def ecGx : Nat := 0xaa87ca22be8b05378eb1c71ef320ad746e1d3b628ba79b9859f741e082542a385502f25dbf55296c3a545e3872760ab7
def ecGy : Nat := 0x3617de4a96262c6f5d9e98bf9292dc29f8f41dbd289a147ce9da3113b5f0b8c00a60b1ce1d7e819d7a431d7c90ea0e5f

/-- The difference in the field. -/
def ecSub (a b : Nat) : Nat := (a + ecP - b % ecP) % ecP

/-- The affine point lies on y² = x³ − 3x + b. -/
def onCurve (x y : Nat) : Bool :=
  x < ecP && y < ecP && y * y % ecP == ecSub (x * x % ecP * x + ecB) (3 * x)

/-- A point in Jacobian form. -/
structure Jac where
  x : Nat
  y : Nat
  z : Nat
deriving DecidableEq, Repr

/-- A point whose coordinates are computed. -/
def Jac.of (x y z : Nat) : Jac := withNat x fun x => withNat y fun y => withNat z fun z => { x := x, y := y, z := z }

/-- Twice a point. -/
def Jac.double (a : Jac) : Jac :=
  withNat (a.z * a.z % ecP) fun d =>
  withNat (a.y * a.y % ecP) fun c =>
  withNat (a.x * c % ecP) fun b =>
  withNat (3 * (ecSub a.x d * (a.x + d)) % ecP) fun t =>
  withNat (ecSub (t * t) (8 * b)) fun x =>
    Jac.of x (ecSub (t * ecSub (4 * b) x) (8 * (c * c))) (ecSub ((a.y + a.z) * (a.y + a.z)) (c + d))

/-- The sum of a point and an affine point. -/
def Jac.plus (a : Jac) (qx qy : Nat) : Jac :=
  if a.z = 0 then Jac.of qx qy 1
  else
    withNat (a.z * a.z % ecP) fun zz =>
    withNat (ecSub (qx * zz) a.x) fun h =>
    withNat (ecSub (qy * (a.z * zz % ecP)) a.y) fun r =>
    if h = 0 then (if r = 0 then a.double else Jac.of 1 1 0)
    else
      withNat (h * h % ecP) fun hh =>
      withNat (h * hh % ecP) fun hhh =>
      withNat (a.x * hh % ecP) fun v =>
      withNat (ecSub (r * r) (hhh + 2 * v)) fun x =>
        Jac.of x (ecSub (r * ecSub v x) (a.y * hhh)) (a.z * h % ecP)

/-- u·G + v·Q, from the highest of the bits of u and v on. -/
def ecSum (u v qx qy : Nat) : Nat → Jac → Jac
  | 0, a => a
  | n + 1, a =>
    let b := a.double
    let b := if u / 2 ^ n % 2 = 1 then b.plus ecGx ecGy else b
    let b := if v / 2 ^ n % 2 = 1 then b.plus qx qy else b
    withNat b.x fun x => withNat b.y fun y => withNat b.z fun z => ecSum u v qx qy n { x := x, y := y, z := z }

/-- A power modulo the order, from the highest of the exponent's bits on. -/
def ecPow (b e : Nat) : Nat → Nat → Nat
  | 0, acc => acc
  | n + 1, acc =>
    withNat (if e / 2 ^ n % 2 = 1 then acc * acc % ecN * b % ecN else acc * acc % ecN) fun a => ecPow b e n a

/-! ### Verification -/

/-- One of the two 48-byte numbers of a public key or a signature: multi-byte fields are little-endian (R24). DEDUCED:
log entry 98. -/
def ecHalf (bs : Bytes) (k : Nat) : Nat := getLe bs (48 * k) 48

/-- The signature r, s over a message verifies under the public key x, y: ECDSA P-384 over SHA-384 (R640, R669, R735). -/
def ecdsaOk (key msg sig : Bytes) : Bool :=
  let r := ecHalf sig 0
  let s := ecHalf sig 1
  let qx := ecHalf key 0
  let qy := ecHalf key 1
  if r = 0 || ecN ≤ r || s = 0 || ecN ≤ s || !onCurve qx qy then false
  else
    withNat (leNat (sha384 msg).reverse) fun e =>
    withNat (ecPow s (ecN - 2) 384 1) fun w =>
    withNat (e * w % ecN) fun u =>
    withNat (r * w % ecN) fun v =>
      let a := ecSum u v qx qy 384 { x := 1, y := 1, z := 0 }
      a.z != 0 && (a.x == r * (a.z * a.z % ecP) % ecP || (r + ecN < ecP && a.x == (r + ecN) * (a.z * a.z % ecP) % ecP))

end Sys2Proof.Machine
end

