-- ==== Sys2Proof/Machine/Link.lean ====
section
/-! DEFINITION. The link layer of a port (R556 to R620): training, flits, retry, credits, electrical idle, lane
failure and the port states. -/

namespace Sys2Proof.Machine

/-! ### Lanes (R556 to R559, R566, R597) -/

/-- PORT_STAT.failed (R613). -/
def State.failedLanes (s : State) (p : Nat) : Nat := laneBits fun i => (s.lane p i).failed

/-- The width code that a set of usable lanes gives: 3 for ×8, 1 and 2 for ×4, 0 for none (R566, R613). -/
def widthOf (ok : Nat) : Nat :=
  if ok % 256 = 255 then 3 else if ok % 16 = 15 then 1 else if ok / 16 % 16 = 15 then 2 else 0

/-- Change every lane of a port. -/
def State.modLanes (s : State) (p : Nat) (f : Nat → Lane → Lane) : State :=
  (List.range 8).foldl (fun s i => s.modLane p i (f i)) s

/-- The FFE presets (R558): pre and post. -/
def ffePreset (n : Nat) : Nat × Nat :=
  match n with
  | 0 => (0, 0)
  | 1 => (0, 8)
  | 2 => (0, 16)
  | 3 => (4, 8)
  | 4 => (4, 12)
  | 5 => (8, 8)
  | 6 => (8, 16)
  | _ => (4, 20)

/-- A step of a tap: 0 hold, 1 up, 2 down; none out of range (R557, R564). -/
def tapStep (v code limit : Nat) : Option Nat :=
  if code = 1 then (if v + 1 ≤ limit then some (v + 1) else none)
  else if code = 2 then (if 1 ≤ v then some (v - 1) else none)
  else some v

/-- The partner's FFE request on a lane: applied, or refused with at_limit (R559). -/
def Lane.request (x : Lane) (req preset : Nat) : Lane :=
  let mode := req / 64 % 4
  if mode = 0 then { x with atLimit := false }
  else if x.ffeManual then { x with atLimit := true }
  else if mode = 1 then
    { x with preNow := (ffePreset (preset % 8)).1, postNow := (ffePreset (preset % 8)).2, atLimit := false }
  else if mode = 2 then
    match tapStep x.preNow (req / 16 % 4) 16, tapStep x.postNow (req / 4 % 4) 24 with
    | some a, some b => { x with preNow := a, postNow := b, atLimit := false }
    | _, _ => { x with atLimit := true }
  else { x with atLimit := false }

/-- Mark lanes failed and write LANE_FAILED with the width that remains (R597, R610). -/
def State.failLanes (s : State) (p : Nat) (lanes : List Nat) : State :=
  let new := lanes.filter fun i => !(s.lane p i).failed
  if new.isEmpty then s
  else
    let s := new.foldl (fun s i => s.modLane p i fun x => { x with failed := true }) s
    s.incident 0
      { cls := 0x09, port := p
        infoA := laneBits (fun i => new.contains i) + s.failedLanes p * 2 ^ 8 + widthOf (s.laneOk p) * 2 ^ 16 }

/-! ### Port states (R599 to R605) -/

/-- What the port carried is discarded, and its training ends (R602). -/
def Link.clear (l : Link) : Link :=
  { l with
    txIdle := false, rxIdle := false, width := 0, trainStep := 0, retrainFails := 0, retrained := false, nakHeld := false
    unacked := [], replayRun := 0, limit := [], consumed := [], crTotal := [], freed := [], due := false
    waiting := [], asm := none, skipVc := none, sinceFill := 0, elastic := 8 }

/-- The port is out of service until it is lifted or restored (R599). -/
def Link.isOut (l : Link) : Bool := l.state == .expelled || l.state == .mappedOut

/-- A port becomes MAPPED_OUT (R603, R610). -/
def State.mapOut (s : State) (p : Nat) : State :=
  let l := s.link p
  let s := (s.modLink p fun l => { l.clear with state := .mappedOut }).incident 0
    { cls := 0x0A, port := p, infoA := l.attempts % 256 + l.flaps % 256 * 256 }
  { s with tel := { s.tel with portMapOuts := Tab.modify 0 s.tel.portMapOuts p (satAdd 16 · 1) } }

/-- The link of a port is lost: what it carried is discarded; a trunk port's notice goes out; an end-point
port's target requests end with LOST (R602, R606). -/
def State.linkLost (s : State) (p : Nat) (st : LinkState) : State :=
  let s := s.modLink p fun l => { l.clear with state := st, downs := satAdd 8 l.downs 1 }
  let s := s.modLanes p fun _ x => { x with cdrLock := false, signal := false }
  let s := { s with tel := { s.tel with portDowns := Tab.modify 0 s.tel.portDowns p (satAdd 16 · 1) } }
  if s.role p = 2 then s.noticeArrives p (noticeBits s.node p (s.link p).downs)
  else
    let tgts := (s.docent p).tgts
    let s := s.modDocent p fun d => { d with tgts := [] }
    let s := { s with epIn := s.epIn.filter fun x => x.1 != p }
    tgts.foldl (fun s q => s.targetAnswer p q stLost []) s

/-- A port goes DOWN with a PORT_DOWN record, and is mapped out if that happens too often in an hour (R601 to
R603, R610). -/
def State.goDown (s : State) (p cause : Nat) : State :=
  let downs := satAdd 8 (s.link p).downs 1
  let s := s.incident 0 { cls := 0x08, port := p, infoA := cause + downs * 256 }
  let s := (s.linkLost p .down).modLink p fun l => { l with flaps := l.flaps + 1 }
  if (s.link p).flaps > (s.link p).flapLimit then s.mapOut p else s

/-- A training attempt fails: the port stays DOWN, and is mapped out after eight (R603). -/
def State.trainFailed (s : State) (p : Nat) : State :=
  let s := s.modLink p fun l => { l.clear with state := .down, attempts := l.attempts + 1 }
  let s := s.modLanes p fun _ x => { x with cdrLock := false, signal := false }
  if (s.link p).attempts ≥ 8 then s.mapOut p else s

/-- A full training starts at step 1, with the transmitters at P3 or at their manual taps; a port of role unused,
without a usable lane or without a clock is DISABLED (R791). Before any bank is installed, only steps 1 to 4 run, in DISABLED (R558, R559,
R565, R567, R774). -/
def State.startTraining (s : State) (p : Nat) : State :=
  let start (x : Lane) : Lane :=
    { x with
      preNow := if x.ffeManual then x.txPre else 4
      postNow := if x.ffeManual then x.txPost else 8
      cdrLock := false, signal := false, eqDone := false, badFrames := 0, ts2Run := 0, ts2Last := 0
      atLimit := false }
  if s.laneOk p = 0 || (s.cat.installed && s.role p = 0) || !s.portOn p then
    s.modLink p fun l => { l.clear with state := .disabled }
  else
    let st : LinkState := if s.cat.installed then .training else .disabled
    ((s.modLink p fun l => { l.clear with state := st, trainStep := 1, trainRefused := false }).modLanes p
      fun _ x => start x).out (.training p 1)

/-- A retrain starts at step 2, with everything else kept (R568, R569). -/
def State.startRetrain (s : State) (p : Nat) : State :=
  let start (x : Lane) : Lane := { x with badFrames := 0, ts2Run := 0, ts2Last := 0 }
  let s := s.modLink p fun l =>
    { l with state := .retrain, trainStep := 2, retrains := satAdd 16 l.retrains 1, txIdle := false, rxIdle := false
             replayRun := 0 }
  let s := { s with tel := { s.tel with portRetrains := Tab.modify 0 s.tel.portRetrains p (satAdd 16 · 1) } }
  ((s.modLanes p fun _ x => start x).out (.training p 2)).sendTs p 1

/-- A retrain that counts towards the four of R601: the fourth takes the port DOWN. -/
def State.failedRetrain (s : State) (p : Nat) : State :=
  let s := s.modLink p fun l => { l with retrainFails := l.retrainFails + 1 }
  if (s.link p).retrainFails ≥ 4 then s.goDown p 2 else s.startRetrain p

/-- A retrain of R588: it counts towards the four if it follows one after which no ack has advanced (R601). -/
def State.retrainAgain (s : State) (p : Nat) : State :=
  if (s.link p).retrained then s.failedRetrain p else s.startRetrain p

/-- Lanes of the port fail while it carries flits: the port retrains on the set that is left, or goes DOWN if
none is (R597, R598, R601). -/
def State.lanesFail (s : State) (p : Nat) (lanes : List Nat) : State :=
  let inSet := lanes.any fun i => (widthLanes (s.link p).width).contains i
  let s := s.failLanes p lanes
  if !inSet then s
  else if widthOf (s.laneOk p) = 0 then s.goDown p 3
  else s.startRetrain p

/-! ### Acknowledgement, replay and credit (R583 to R592) -/

/-- Replay every unacknowledged flit; sixteen replays in a row from one sequence put the port into RETRAIN (R586,
R588). -/
def State.replayFlits (s : State) (p : Nat) : State :=
  match (s.link p).unacked with
  | [] => s
  | f :: t =>
    let run := if (s.link p).replayAt = f.seq && 1 ≤ (s.link p).replayRun then (s.link p).replayRun + 1 else 1
    let s := s.modLink p fun l =>
      { l with replays := wrapAdd 24 l.replays 1, replayRun := run, replayAt := f.seq }
    let s := (f :: t).foldl (fun s f => s.sendData p f) s
    if run < 16 then s else s.retrainAgain p

/-- An ack frees every flit up to it; one out of range is a protocol error (R586). -/
def State.ackFlits (s : State) (p ack : Nat) : State :=
  let l := s.link p
  let n := (ack + 65536 - ((l.unacked.head?.elim l.txSeq (·.seq)) + 65535) % 65536) % 65536
  if n > l.unacked.length then s.protoErr p
  else if n = 0 then s
  else
    s.modLink p fun l =>
      { l with unacked := l.unacked.drop n, retrainFails := 0, retrained := false, replayRun := 0 }

/-- The fields that every DATA and CTRL flit carries: ack, nak and credit return. A replay goes before any new flit
(R571, R584, R586, R592). -/
def State.flitFields (s : State) (p : Nat) (h : Word) : State :=
  let s := if bitN h 53 then
      s.modLink p fun l => { l with crTotal := Tab.set 0 l.crTotal (fieldN h 50 3) (fieldN h 38 12) }
    else s
  let s := s.ackFlits p (fieldN h 22 16)
  (if bitN h 54 then s.replayFlits p else s).linkPump p

/-- A discard that triggers a NAK: one is sent, and no further one until the expected flit comes (R583, R585). -/
def State.sendNak (s : State) (p : Nat) : State :=
  if (s.link p).nakHeld then s
  else
    let s := s.modLink p fun l => { l with nakHeld := true, naksSent := wrapAdd 24 l.naksSent 1 }
    (s.leaveIdle p).sendCtrl p true none

/-- Count the corrected symbols of a good flit, per lane of the set in position order (R575, R615, R620). -/
def State.countCorrected (s : State) (p : Nat) (corrected : List Nat) : State :=
  if corrected.all (· == 0) then s
  else
    let s := s.modLink p fun l => { l with corrected := wrapAdd 32 l.corrected 1 }
    ((widthLanes (s.link p).width).zip corrected).foldl
      (fun s x => s.modLane p x.1 fun y => { y with corrSym := wrapAdd 32 y.corrSym x.2 }) s

/-- A flit that fails R575 is counted, discarded, and triggers a NAK (R583, R615). -/
def State.badFlit (s : State) (p : Nat) : State :=
  (s.modLink p fun l => { l with bad := wrapAdd 32 l.bad 1 }).sendNak p

/-! ### Reception of packets (R576 to R578) -/

/-- A packet whole: a fabric packet enters the shared buffer, an end-point packet waits for the docent. -/
def State.packetIn (s : State) (p cls : Nat) (bs : Bytes) : State :=
  if cls = 0 then { s with epIn := s.epIn ++ [(p, bs)] }
  else
    s.enqueue p (FHdr.dec (BitVec.ofNat 256 (leNat (bs.take 32)))) ((bs.drop 32).take (bs.length - 48))
      (bs.drop (bs.length - 16)) none

/-- The class of packets that the port's role carries (R576, R578). -/
def State.linkClass (s : State) (p : Nat) : Nat := if s.role p = 2 then 1 else 0

/-- Packets that begin in a body from a 16 B boundary on. A packet of the wrong class is dropped and its credit goes
back (R576 to R578). -/
def State.parseBody (s : State) (p vc : Nat) (body : Bytes) : Nat → Nat → State
  | _, 0 => s
  | off, fuel + 1 =>
    if off + 16 > 224 then s
    else
      let len := getLe body off 2
      let cls := getLe body (off + 2) 1
      if len = 0 then s
      else if len < 32 || len > 2096 then
        (s.protoErr p).modLink p fun l => { l with asm := none, skipVc := some vc }
      else if cls ≠ s.linkClass p then
        ((s.protoErr p).modLink p fun l => { l with asm := none, skipVc := some vc }).linkFree p vc (ceilDiv len 128)
      else
        let pad := ceilDiv len 16 * 16
        let got := (body.drop (off + 16)).take pad
        if got.length < pad then
          s.modLink p fun l => { l with asm := some { vc := vc, cls := cls, need := len, got := got } }
        else (s.packetIn p cls (got.take len)).parseBody p vc body (off + 16 + pad) fuel

/-- The body of an accepted DATA flit (R576 to R578). -/
def State.takeBody (s : State) (p vc sop : Nat) (body : Bytes) : State :=
  let l := s.link p
  if l.skipVc = some vc && sop = 15 then s
  else
    let s := if l.skipVc = some vc then s.modLink p fun l => { l with skipVc := none } else s
    match l.asm with
    | none => if sop = 15 then s else s.parseBody p vc body (16 * sop) 14
    | some a =>
      let pad := ceilDiv a.need 16 * 16
      let more := body.take (pad - a.got.length)
      let got := a.got ++ more
      if got.length < pad then s.modLink p fun l => { l with asm := some { a with got := got } }
      else
        let s := (s.modLink p fun l => { l with asm := none }).packetIn p a.cls (got.take a.need)
        if sop = 15 then s else s.parseBody p vc body (16 * sop) 14

/-- The port receives flits. -/
def Link.receives (l : Link) : Bool := l.state == .active || l.state == .idle

/-- What the elastic buffer holds after a flit enters it, or after a FILLER that it deletes, while the link clock takes
`n` flits; below 4 a FILLER is inserted (R580). -/
def elasticNext (level n : Nat) (enters : Bool) : Nat :=
  let l := min 16 (level + enters.toNat - n)
  if l < 4 then l + 1 else l

/-- A flit comes to the elastic buffer: above 12 the buffer deletes a FILLER. How many flits the link clock has taken
since the last one is free (R580). DESIGN CHOICE: log entry 95. -/
def State.elastic (s : State) (p : Nat) (filler : Bool) : State :=
  let n := (Config.linkTicks s.freeCtr).toNat
  (s.draw).modLink p fun l =>
    { l with elastic := elasticNext l.elastic n (!(filler && 12 < l.elastic)) }

/-- A flit arrives on the lanes of the set: its header, its body and the places of corrected symbols, if it is good
(R560 to R562, R575). -/
def State.flitArrives (s : State) (p : Nat) (lanes : List (List Pam)) : State × Option (Word × Bytes × List Nat) :=
  let r := s.unwire p lanes
  (r.1, flitRead r.2)

/-- Corrected symbols of each lane position (R575). -/
def perLane (w : Nat) (places : List Nat) : List Nat :=
  (List.range w).map fun i => (places.filter fun j => j % w == i).length

/-- Count the corrected symbols of a good flit by lane. -/
def State.countPlaces (s : State) (p : Nat) (places : List Nat) : State :=
  s.countCorrected p (perLane (widthLanes (s.link p).width).length places)

/-- A good DATA flit (R583). -/
def State.dataIn (s : State) (p : Nat) (hdr : Word) (body : Bytes) : State :=
  let s := s.flitFields p hdr
  let d := (fieldN hdr 6 16 + 65536 - (s.link p).rxSeq) % 65536
  if !(s.link p).receives then s
  else if d = 0 then
    let s := s.modLink p fun l => { l with rxSeq := wrapAdd 16 l.rxSeq 1, nakHeld := false }
    (s.takeBody p (fieldN hdr 59 3) (fieldN hdr 55 4) body).sendCtrl p false none
  else if d ≥ 32768 then s
  else s.sendNak p

/-- A good CTRL flit: ack, nak, credit return, the announcement of idle, and up to 14 notices (R572, R593, R606). -/
def State.ctrlIn (s : State) (p : Nat) (hdr : Word) (body : Bytes) : State :=
  let s := s.flitFields p hdr
  let s := if bitN hdr 5 && (s.link p).receives then
      s.modLink p fun l => { l with rxIdle := true, state := .idle }
    else s
  (List.range 14).foldl (fun s k => s.noticeArrives p (BitVec.ofNat 128 (getLe body (16 * k) 16))) s

/-- DATA_FLIT (R583): the symbols of a DATA flit, or of a flit that is bad. Symbols cut for another lane set than the
link's are no good flit. -/
def execDataFlit (p : Port) (lanes : List (List Pam)) (s : State) : Host.Outcome State Fault Refusal :=
  if !(s.link p).receives then .next s
  else if !Sys2Proof.lanesOk lanes then .fault .operandLength
  else if !lanesFit (s.link p).width lanes then .next ((s.elastic p false).badFlit p)
  else
    match s.flitArrives p lanes with
    | (s', none) => .next ((s'.elastic p false).badFlit p)
    | (s', some (hdr, body, places)) =>
      if fieldN hdr 62 2 = 3 then .next ((s'.elastic p false).badFlit p)
      else if fieldN hdr 62 2 ≠ 0 then .next s
      else .next (((s'.elastic p false).countPlaces p places).dataIn p hdr body)

/-- CTRL_FLIT (R572): the symbols of a CTRL flit. -/
def execCtrlFlit (p : Port) (lanes : List (List Pam)) (s : State) : Host.Outcome State Fault Refusal :=
  if !(s.link p).receives then .next s
  else if !Sys2Proof.lanesOk lanes then .fault .operandLength
  else if !lanesFit (s.link p).width lanes then .next s
  else
    match s.flitArrives p lanes with
    | (_, none) => .next s
    | (s', some (hdr, body, places)) =>
      if fieldN hdr 62 2 ≠ 1 then .next s
      else .next (((s'.elastic p false).countPlaces p places).ctrlIn p hdr body)

/-- FILLER (R581): the symbols of a FILLER are checked, and it is discarded; the elastic buffer may delete it before
(R580). -/
def execFiller (p : Port) (lanes : List (List Pam)) (s : State) : Host.Outcome State Fault Refusal :=
  if !(s.link p).receives then .next s
  else if !Sys2Proof.lanesOk lanes then .fault .operandLength
  else if !lanesFit (s.link p).width lanes then .next s
  else
    match s.flitArrives p lanes with
    | (_, none) => .next s
    | (s', some (hdr, _, places)) =>
      if fieldN hdr 62 2 ≠ 2 then .next s
      else .next ((s'.elastic p true).countPlaces p places)

/-- RETRY_TIMEOUT (R587): the oldest unacknowledged flit has waited too long, and the transmitter replays. -/
def execRetryTimeout (p : Port) (s : State) : Host.Outcome State Fault Refusal :=
  if (s.link p).receives then .next (s.replayFlits p) else .next s

/-! ### Training frames (R564 to R569) -/

/-- Byte `i` of a frame. -/
def frameByte (f : Header) (i : Nat) : Nat := fieldN f (8 * i) 8

/-- The marker and the check of a frame are right (R564). -/
def frameOk (f : Header) : Bool :=
  let bs := headerBytes f
  bs.take 8 == [0x4B, 0x4B, 0xB4, 0xB4, 0x4B, 0x4B, 0xB4, 0xB4] && crc16 ((bs.drop 8).take 22) == getLe bs 30 2

/-- Lanes that take part in the training: usable, with CDR lock. -/
def State.trainLanes (s : State) (p : Nat) : List Nat :=
  (List.range 8).filter fun i => bitN (s.link p).laneMask i && !(s.lane p i).failed && (s.lane p i).cdrLock

/-- Go to a step of the training: TS1 goes out in steps 2 to 4, and TS2 in step 5 (R565). -/
def State.toStep (s : State) (p n : Nat) : State :=
  let clear (x : Lane) : Lane :=
    if n = 4 then { x with badFrames := 0 } else if n = 5 then { x with ts2Run := 0, ts2Last := 0 } else x
  (((s.modLink p fun l => { l with trainStep := n }).modLanes p fun _ x => clear x).out (.training p n)).sendTs p
    (if n = 5 then 2 else 1)

/-- A lane may train: enabled and not failed. -/
def State.laneUsable (s : State) (p i : Nat) : Bool := bitN (s.link p).laneMask i && !(s.lane p i).failed

/-- CDR_LOCK (R565): a lane detects signal and locks; the first to do so ends step 1. -/
def execCdrLock (p : Port) (i : LaneNo) (s : State) : Host.Outcome State Fault Refusal :=
  let l := s.link p
  if !s.laneUsable p i || (l.trainStep ≠ 1 && l.trainStep ≠ 2) || l.state == .retrain then .next s
  else
    let s := s.modLane p i fun x => { x with signal := true, cdrLock := true }
    .next (if (s.link p).trainStep = 1 then s.toStep p 2 else s)

/-- A good TS1 frame of the right lane: polarity, CTLE, the partner's request and its eq_done. A TS1 that shows the taps
and at_limit answers it (R556, R559, R563, R565 steps 2 and 3). -/
def State.ts1Good (s : State) (p i : Nat) (f : Header) (inverted : Bool) (ctle : Nat) : State :=
  let full := (s.link p).state != .retrain
  let s := s.modLane p i fun x =>
    let x := { x with inverted := inverted }
    if !full then x
    else
      { x.request (frameByte f 11) (frameByte f 12) with
        ctleNow := if x.ctleManual then x.ctleCode else min ctle 48, eqDone := bitN f 89 }
  let s := s.sendFrames p 1 [i]
  let n := (s.link p).trainStep
  let s := if n = 2 then s.toStep p (if full then 3 else 4) else s
  if (s.link p).trainStep = 3 && (s.trainLanes p).all fun i => (s.lane p i).eqDone then s.toStep p 4 else s

/-- TS1 (R564): a training frame on a lane. In place of flits it puts the port into RETRAIN (R588). -/
def execTs1 (p : Port) (i : LaneNo) (frame : Header) (inverted : Bool) (ctle : Nat) (s : State) :
    Host.Outcome State Fault Refusal :=
  let ok := frameOk frame && frameByte frame 8 = 1
  let s := if ok && (s.link p).receives then s.retrainAgain p else s
  let n := (s.link p).trainStep
  if n < 2 || n > 4 || !s.laneUsable p i then .next s
  else if !ok then
    .next (if n = 4 then s.modLane p i fun x => { x with badFrames := x.badFrames + 1 } else s)
  else if frameByte frame 9 % 8 ≠ i.val then
    .next (if (s.link p).state == .training then s.trainFailed p else s)
  else .next (s.ts1Good p i frame inverted ctle)

/-- TRAINING_WINDOW_EXPIRY (R565 step 4): lanes with more than 4 bad frames, or that never locked, fail; TS2
follows. Without a bank the lanes go to idle (R774). -/
def execTrainingWindowExpiry (p : Port) (s : State) : Host.Outcome State Fault Refusal :=
  if (s.link p).trainStep ≠ 4 then .next s
  else
    let retrain := (s.link p).state == .retrain
    let bad := (List.range 8).filter fun i =>
      s.laneUsable p i && ((s.lane p i).badFrames > 4 || (!retrain && !(s.lane p i).cdrLock))
    let s := s.failLanes p bad
    if (s.link p).state == .disabled then .next (s.modLink p fun l => { l with trainStep := 0 })
    else if widthOf (s.laneOk p) = 0 then .next (if retrain then s.goDown p 3 else s.trainFailed p)
    else .next (s.toStep p 5)

/-- The role and the identity of a TS2 frame are those that the active bank expects (R567). -/
def State.ts2Fits (s : State) (p : Nat) (f : Header) : Bool :=
  let w := (s.bank s.cat.epoch).portWord p
  if s.role p = 1 then frameByte f 10 = 3
  else s.role p = 2 && frameByte f 10 = 2 && fieldN f 128 12 = portPeerNode w && fieldN f 144 6 = portPeerPort w

/-- The TS2 frames are complete: flits start; after a retrain the transmitter resumes from the partner's next_seq
(R565 step 6, R569, R582, R590). -/
def State.trained (s : State) (p : Nat) (f : Header) (ok : Nat) : State :=
  let retrain := (s.link p).state == .retrain
  let node := if s.role p = 2 then fieldN f 128 12 else 0
  let port := if s.role p = 2 then fieldN f 144 6 else 0
  let outside := (List.range 8).filter fun i =>
    !(widthLanes (widthOf ok)).contains i && !bitN (BitVec.ofNat 8 ok) i
  let s := s.failLanes p outside
  let credits := (List.range 8).foldl (fun t v => Tab.set 0 t v (frameByte f (20 + v))) ([] : Tab Nat)
  let s := s.modLink p fun l =>
    let l := { l with state := .active, trainStep := 0, attempts := 0, width := widthOf ok, peerNode := node
                      peerPort := port }
    if retrain then { l with retrainFails := if l.unacked.isEmpty then 0 else l.retrainFails
                             retrained := !l.unacked.isEmpty }
    else { l.clear with state := .active, width := widthOf ok, rxSeq := 0, txSeq := 0, limit := credits }
  let s := (s.out (.training p 6)).loadScramblers p true true
  if !retrain then s.linkPump p
  else
    let s := s.ackFlits p ((fieldN f 224 16 + 65535) % 65536)
    (((s.link p).unacked.foldl (fun s f => s.sendData p f) s).payDue p).linkPump p

/-- TS2 (R567): role and identity are checked, the lane set is chosen from both sides' lane_ok, a TS2 answers each
frame, and after 16 identical frames on every lane of the set flits start (R565 steps 5 and 6, R566). In place of flits it puts the port
into RETRAIN (R588). -/
def execTs2 (p : Port) (i : LaneNo) (frame : Header) (s : State) : Host.Outcome State Fault Refusal :=
  let ok := frameOk frame && frameByte frame 8 = 2
  if ok && (s.link p).receives then .next (s.retrainAgain p)
  else if (s.link p).trainStep ≠ 5 || !ok || frameByte frame 9 % 8 ≠ i.val
      || !s.laneUsable p i then .next s
  else if !s.ts2Fits p frame then
    let s := s.incident 0
      { cls := 0x0B, port := p
        infoA := frameByte frame 10 + fieldN frame 128 12 * 256 + fieldN frame 144 6 * 2 ^ 20 }
    .next ((s.goDown p 4).modLink p fun l => { l with trainRefused := true })
  else
    let ok := (BitVec.ofNat 8 (s.laneOk p) &&& BitVec.ofNat 8 (frameByte frame 19)).toNat
    if widthOf ok = 0 then
      .next (if (s.link p).state == .retrain then s.goDown p 3 else s.trainFailed p)
    else
      let s := s.modLane p i fun x =>
        { x with ts2Run := if x.ts2Last == frame && 1 ≤ x.ts2Run then x.ts2Run + 1 else 1, ts2Last := frame }
      let s := s.sendFrames p 2 [i]
      if (widthLanes (widthOf ok)).all fun j => 16 ≤ (s.lane p j).ts2Run then
        .next (s.trained p frame ok)
      else .next s

/-- Lanes of the active set that have lost lock (R597). -/
def State.unlocked (s : State) (p : Nat) : List Nat :=
  (widthLanes (s.link p).width).filter fun i => !(s.lane p i).cdrLock

/-- TS_EXIT (R594): an idle-exit burst of the partner; its direction is awake again, its scramblers restart. A lane that
lost lock in idle is marked now, and the port retrains (R611). From a direction that has not announced idle the frames
stand in place of flits (R588). -/
def execTsExit (p : Port) (s : State) : Host.Outcome State Fault Refusal :=
  if (s.link p).state == .idle && (s.link p).rxIdle then
    let s := (s.modLink p fun l =>
      { l with rxIdle := false, state := if l.txIdle then .idle else .active }).loadScramblers p false true
    .next (if (s.unlocked p).isEmpty then s else s.lanesFail p (s.unlocked p))
  else .next (if (s.link p).receives then s.retrainAgain p else s)

/-! ### Lane failure, the dead timer, retries and idle (R593 to R605) -/

/-- LANE_CDR_LOSS (R597): a lane loses lock while ACTIVE. While the partner's direction idles, the failure is marked
at the next burst (R611). -/
def execLaneCdrLoss (p : Port) (i : LaneNo) (s : State) : Host.Outcome State Fault Refusal :=
  if !(s.link p).receives || !s.laneUsable p i then .next s
  else
    let s := s.modLane p i fun x => { x with cdrLock := false }
    .next (if (s.link p).rxIdle then s else s.lanesFail p [i])

/-- LANE_SER_EXCEEDED (R597): a lane's corrected symbols exceed 2^ser_log2 within one millisecond. -/
def execLaneSerExceeded (p : Port) (i : LaneNo) (s : State) : Host.Outcome State Fault Refusal :=
  if (s.link p).receives && s.laneUsable p i then .next (s.lanesFail p [i]) else .next s

/-- DEAD_TIMER_EXPIRY (R601): nothing has arrived for dead_ns while the partner has not announced idle. -/
def execDeadTimerExpiry (p : Port) (s : State) : Host.Outcome State Fault Refusal :=
  if linkCarries (s.link p) && !(s.link p).rxIdle then .next (s.goDown p 1) else .next s

/-- A DOWN port that may train again (R567, R603). -/
def Link.mayRetry (l : Link) : Bool := l.state == .down && !l.trainRefused

/-- DOWN_RETRY_TIMER (R603): the next full training of a DOWN port starts. -/
def execDownRetryTimer (p : Port) (s : State) : Host.Outcome State Fault Refusal :=
  if (s.link p).mayRetry then .next (if (s.link p).attempts ≥ 8 then s.mapOut p else s.startTraining p) else .next s

/-- SIGNAL_DETECT (R603): a DOWN port detects its partner's step-1 signal on an enabled lane, and trains. -/
def execSignalDetect (p : Port) (i : LaneNo) (s : State) : Host.Outcome State Fault Refusal :=
  if (s.link p).mayRetry && bitN (s.link p).laneMask i then
    .next ((s.startTraining p).modLane p i fun x => { x with signal := true })
  else .next s

/-- STEP_1_NO_SIGNAL (R603): step 1 finds no signal, and the attempt fails. Without a bank the lanes go to idle. -/
def execStep1NoSignal (p : Port) (s : State) : Host.Outcome State Fault Refusal :=
  if (s.link p).trainStep ≠ 1 then .next s
  else if (s.link p).state == .disabled then .next (s.modLink p fun l => { l with trainStep := 0 })
  else .next (s.trainFailed p)

/-- RETRAIN_BOUND_EXPIRY (R601): a retrain has not completed within 250 µs; the fourth in a row takes the port
DOWN. -/
def execRetrainBoundExpiry (p : Port) (s : State) : Host.Outcome State Fault Refusal :=
  if (s.link p).state == .retrain then .next (s.failedRetrain p) else .next s

/-- IDLE_ENTRY (R593): a quiet direction announces idle and stops driving its lanes. From T1 on, idle_en does not
matter (R780). -/
def execIdleEntry (p : Port) (s : State) : Host.Outcome State Fault Refusal :=
  let l := s.link p
  if l.sends && (l.idleEn || 1 ≤ s.pwr.tier) && l.waiting.isEmpty && l.unacked.isEmpty then
    .next ((s.ctrlOut p false none true []).modLink p fun l =>
      { l with txIdle := true, due := false, state := .idle })
  else .next s

/-- IDLE_EXIT (R594): a DATA flit, an ack or a credit return is due; a burst wakes the link. -/
def execIdleExit (p : Port) (s : State) : Host.Outcome State Fault Refusal :=
  if (s.link p).txIdle && ((s.link p).due || !(s.link p).waiting.isEmpty) then .next (s.leaveIdle p) else .next s

/-- IDLE_BURST (R595): after 50 µs of idle a burst and fillers keep the receiver in lock; the direction idles
again. -/
def execIdleBurst (p : Port) (s : State) : Host.Outcome State Fault Refusal :=
  if (s.link p).txIdle then
    let s := s.sendBurst p
    .next (((List.range 500).foldl (fun s _ => s.sendFiller p) s).ctrlOut p false none true [])
  else .next s

/-- An action or a mask write is ignored (R604, R605). -/
def State.linkRefused (s : State) (p : Nat) : State := s.modLink p fun l => { l with refused := true }

/-- RETRAIN (R604): a retrain in ACTIVE or IDLE, a full training in DOWN, ignored in EXPELLED. -/
def State.doRetrain (s : State) (p : Nat) : State :=
  match (s.link p).state with
  | .expelled => s.linkRefused p
  | .active | .idle => s.startRetrain p
  | .down => s.startTraining p
  | _ => s

def execRetrain (p : Port) (s : State) : Host.Outcome State Fault Refusal :=
  if s.pageOpen p then .next (s.doRetrain p) else .next s

/-- RESTORE (R604): the failed lanes, the flap count and MAPPED_OUT are cleared, and a full training starts; one
that runs goes on (R611). -/
def State.doRestore (s : State) (p : Nat) : State :=
  if (s.link p).state == .expelled then s.linkRefused p
  else
    let s := s.modLanes p fun _ x => { x with failed := false }
    let s := s.modLink p fun l => { l with flaps := 0, attempts := 0 }
    if (s.link p).state == .training then s else s.startTraining p

def execRestore (p : Port) (s : State) : Host.Outcome State Fault Refusal :=
  if s.pageOpen p then .next (s.doRestore p) else .next s

/-- LANE_MASK_WRITE (R605): in SERVICE the mask holds from the port's next training, and a port whose training was
refused trains again (R567); in any other state it is ignored. -/
def State.doLaneMask (s : State) (p : Nat) (mask : BitVec 8) : State :=
  if s.ctl.state != .service then s.linkRefused p
  else
    let s := s.modLink p fun l => { l with laneMask := mask }
    if (s.link p).state == .down && (s.link p).trainRefused then s.startTraining p else s

def execLaneMaskWrite (p : Port) (mask : BitVec 8) (s : State) : Host.Outcome State Fault Refusal :=
  if s.pageOpen p then .next (s.doLaneMask p mask) else .next s

end Sys2Proof.Machine
end

