-- ==== Sys2Proof/Machine/Cmd.lean ====
section
/-! DEFINITION. The checks that every taken command passes (R709, R710), and the commands NOP and of reserved
opcodes. -/

namespace Sys2Proof.Machine

/-- The opcodes of R710. -/
def cmdKnown (op : Nat) : Bool :=
  [0x01, 0x02, 0x03, 0x10, 0x11, 0x12, 0x13, 0x14, 0x18, 0x19, 0x20, 0x28, 0x29, 0x30].contains op

/-- The opcode is permitted on the ring of function `f` (R710). -/
def cmdAllowed (f op : Nat) : Bool := f == 0 || op == 0x01 || op == 0x03

/-- The oldest taken command of a function that has not been performed and that a test selects. -/
def State.takenBy (s : State) (f : Nat) (p : Taken → Bool) : Option Taken :=
  (s.fn f).taken.find? fun t => !t.started && p t

/-- The parameter block lies in the slice, 128 B aligned; a block of no bytes lies anywhere (R705, R709). -/
def Taken.blockIn (t : Taken) : Bool :=
  t.paramLen == 0 || (t.paramLen ≤ 65536 && t.paramOff % 128 == 0 && t.paramOff + t.paramLen ≤ sliceBytes)

/-- Vault address of a command's parameter block. -/
def Taken.blockVpa (t : Taken) : Nat := vpaSlice t.fn + t.paramOff

/-- Read a command's parameter block: none if it fails correction (R709 check 1). -/
def State.readBlock (s : State) (t : Taken) : State × Option Bytes :=
  if t.paramLen = 0 || !t.blockIn then (s, some []) else s.vmRead t.blockVpa t.paramLen

/-- What R709 checks for an opcode: the lengths that fit, the reserved bytes of the args and of the block, and
the module states that permit it. -/
structure CmdForm where
  lenOk : Nat → Bool
  argsOk : Bytes → Bool
  blockOk : Bytes → Bool
  states : List ModState

/-- Every arg byte is zero. -/
def noArgs (args : Bytes) : Bool := argZeroFrom args 16

/-- A command fails a check of R709; a REHANG's failure is the status of the last REHANG as well (R835). -/
def State.refuse (s : State) (t : Taken) (status : Nat) : State :=
  (if t.opcode = 0x20 then { s with cat := { s.cat with lastStatus := status } } else s).complete t status 0

/-- Perform a taken command: the checks of R709, then the effect, which completes it. A permitted state is
checked last, and its failure gives WRONG_STATE (R710). -/
def State.runTaken (s : State) (t : Taken) (c : CmdForm) (act : State → Taken → Bytes → State) : State :=
  match s.readBlock t with
  | (s, none) => s.refuse t stDataError
  | (s, some b) =>
    if t.rsv || !t.blockIn || !c.lenOk t.paramLen || !c.argsOk t.args || !c.blockOk b then
      s.refuse t stMalformed
    else if !c.states.contains s.ctl.state then s.refuse t stWrongState
    else act s t b

/-- Perform the physical function's oldest taken command that a test selects, while the curator serves commands
(R731). -/
def State.runPf (s : State) (p : Taken → Bool) (c : CmdForm) (act : State → Taken → Bytes → State) : State :=
  if !s.cur.up then s
  else
    match s.takenBy 0 p with
    | none => s
    | some t => s.runTaken t c act

/-- The states SERVICE, OPERATIONAL and DRAIN. -/
def servingStates : List ModState := [.service, .operational, .drain]

/-- IF_VERSION: major 0x0001, minor 0x0000 (R719). -/
def ifVersion : Nat := 0x10000

/-- NOP (R710): its value is IF_VERSION. -/
def execNop (f : FnNo) (s : State) : Host.Outcome State Fault Refusal :=
  if !s.cur.up then .next s
  else
    match s.takenOf f 0x01 with
    | none => .next s
    | some t =>
      .next (s.runTaken t
        { lenOk := fun n => n == 0, argsOk := noArgs, blockOk := fun _ => true, states := servingStates }
        fun s t _ => s.complete t stOk ifVersion)

/-- A G0_KEY command whose code is none of R647, or whose block holds none: too short, or outside the slice. -/
def State.g0CodeBad (s : State) (t : Taken) : Bool :=
  t.opcode == 0x12
    && !(t.blockIn && t.paramLen ≥ 128 && (let c := leNat (s.vmBytes t.blockVpa 2); 4 ≤ c && c ≤ 8))

/-- RESERVED_COMMAND (R710): a reserved opcode fails with UNSUPPORTED, and one that this function's ring does
not permit with DENIED (R709). A G0_KEY with a code that R647 does not list does not fit its opcode. -/
def execReservedCommand (f : FnNo) (s : State) : Host.Outcome State Fault Refusal :=
  if !s.cur.up then .next s
  else
    match s.takenBy f fun t => !cmdKnown t.opcode || !cmdAllowed t.fn t.opcode || s.g0CodeBad t with
    | none => .next s
    | some t =>
      match s.readBlock t with
      | (s, none) => .next (s.complete t stDataError 0)
      | (s, some _) =>
        .next (
          if !cmdKnown t.opcode then s.complete t stUnsupported 0
          else if !cmdAllowed t.fn t.opcode then s.complete t stDenied 0
          else (if t.blockIn then s.vmZero t.blockVpa t.paramLen else s).complete t stMalformed 0)

end Sys2Proof.Machine
end

