-- ==== Sys2Proof/Machine/VaultOps.lean ====
section
/-! DEFINITION. Shelf extents (R471 to R474), the scrub (R483 to R485) and failed dies (R827). -/

namespace Sys2Proof.Machine

/-- Units of the shelf pool (R492). -/
def shelfUnits : Nat := 3712

/-- Two unit ranges overlap. -/
def unitsMeet (b n c m : Nat) : Bool := b < c + m && c < b + n

/-- The units are in use by this extent: enabled, or still being zeroed (R472). -/
def Extent.uses (x : Extent) (b n : Nat) : Bool :=
  (x.en && unitsMeet b n x.base x.size) || x.zeroing.any fun z => unitsMeet b n z.1 z.2

/-- The units are in use by an extent other than extent `i` of gallery `g` (R472). -/
def State.unitsTaken (s : State) (g i b n : Nat) : Bool :=
  s.gals.any fun e => e.2.extents.any fun x => !(e.1 == g && x.1 == i) && x.2.uses b n

/-- The range may be enabled (R472). -/
def State.extentFits (s : State) (g i b n : Nat) : Bool :=
  n != 0 && b + n ≤ shelfUnits && !s.unitsTaken g i b n

def Gallery.extent (x : Gallery) (i : Nat) : Extent := Tab.get Extent.reset x.extents i

/-- The extent after en, base and size are written (R473). -/
def Extent.write (x : Extent) (en : Bool) (base size : Nat) : Extent :=
  let old := if x.en then [(x.base, x.size)] else []
  if x.en && en && x.base == base && x.size == size then x
  else
    { en := en, ready := false, size := size, base := base
      zeroing := x.zeroing ++ old ++ (if en then [(base, size)] else []) }

/-- A write of SHELF_EXT_g_i: a range that may not be enabled is stored with en 0 (R472, R473, R492). -/
def State.extWrite (s : State) (g i : Nat) (v : Word) : State :=
  let base := fieldN v 0 12
  let size := fieldN v 16 12
  let en := bitN v 63
  let ok := en && s.extentFits g i base size
  let s := if en && !ok then { s with vault := { s.vault with shelfConflict := true } } else s
  s.modGal g fun x =>
    { x with extents := Tab.modify Extent.reset x.extents i fun e => e.write ok base size }

/-- The RWL fields of a gallery are locked: a tenant gallery's from its accession until it is FREE, G0's at
every time but G0_SETUP (R632, R634). -/
def State.galLocked (s : State) (g : Nat) : Bool := g = 0 || (s.gal g).state != .free

/-- SHELF_EXT_WRITE (R473): a write of the register; a locked one is ignored (R19). -/
def execShelfExtWrite (g : GalNo) (i : Fin 4) (v : Word) (s : State) : Host.Outcome State Fault Refusal :=
  if !s.blockOpen 5 || s.galLocked g then .next s else .next (s.extWrite g i v)

/-- The ranges of an extent become zero, and an enabled extent becomes ready (R473). -/
def State.extZeroed (s : State) (g i : Nat) : State :=
  let x := (s.gal g).extent i
  let s := x.zeroing.foldl (fun s z => s.vmZero (vpaShelf (z.1 * 0x200000)) (z.2 * 0x200000)) s
  s.modGal g fun y =>
    { y with extents := Tab.modify Extent.reset y.extents i fun e => { e with ready := e.en, zeroing := [] } }

/-- EXTENT_ZEROING_DONE (R473). -/
def execExtentZeroingDone (g : GalNo) (i : Fin 4) (s : State) : Host.Outcome State Fault Refusal :=
  if ((s.gal g).extent i).zeroing.isEmpty then .next s else .next (s.extZeroed g i)

/-! ### The scrub -/

/-- Bytes of the vault (R463, R468). -/
def vaultBytes : Nat := 0xC00000000

/-- The codeword lies in a free drawer, or in a shelf unit outside every extent (R485). -/
def State.cwFree (s : State) (cw : Nat) : Bool :=
  let a := 64 * cw
  if vpaRegion a = 3 then
    let d := (a - 0x200000000) / 65536
    !s.red.held.any fun x => x.1 ≤ d && d < x.1 + x.2
  else if vpaRegion a = 2 then
    let u := (a - 0x30000000) / 0x200000
    !s.gals.any fun g => g.2.extents.any fun x => x.2.uses u 1
  else false

/-- The codeword is the last of its die in a pass. -/
def lastOfDie (cw : Nat) : Bool := vaultBytes ≤ 64 * cw + 64 + 128 * 23 && cw % 2 = 1

/-- A die has been read whole: its pass is counted, and its codewords may be recorded again (R485, R490). -/
def State.passDone (s : State) (d : Nat) : State :=
  let s := s.modDie d fun x => { x with passes := wrapAdd 16 x.passes 1 }
  { s with vault := { s.vault with recorded := s.vault.recorded.filter fun c => vpaDie (64 * c) != d } }

/-- The scrub finds an uncorrectable codeword: counted; recorded once a pass; zeroed where nobody owns it
(R485). -/
def State.scrubBad (s : State) (cw : Nat) : State :=
  let a := 64 * cw
  let seen := s.vault.recorded.contains cw
  let s :=
    if seen then
      let s := (s.lifeUe cw).modDie (vpaDie a) fun d =>
        { d with uncorrectable := satAdd 16 d.uncorrectable 1, ueHour := d.ueHour + 1 }
      { s with vault := { s.vault with lastRegion := vpaRegion a, lastDie := vpaDie a, lastVpa := a } }
    else
      let s := s.vmUncorrectable cw true
      { s with vault := { s.vault with recorded := cw :: s.vault.recorded } }
  if s.cwFree cw then s.vmZero a 64 else s

/-- SCRUB_READ (R485): the conservator reads a codeword in which `errs` symbols are erroneous. -/
def execScrubRead (cw errs : Nat) (s : State) : Host.Outcome State Fault Refusal :=
  if !s.powered || !s.vault.initDone || !s.vault.scrubEn || 64 * cw ≥ vaultBytes then .next s
  else
    let n := max (Tab.get 0 s.vault.bad cw) errs
    let s := { s with vault := { s.vault with bad := Tab.set 0 s.vault.bad cw n } }
    let s := if n = 0 then s else if n = 1 then s.vmCorrected cw else s.scrubBad cw
    .next (if lastOfDie cw then s.passDone (vpaDie (64 * cw)) else s)

/-- DIE_FAILED (R827): 64 uncorrectable reads fell on the die within one hour. -/
def execDieFailed (d : DieNo) (s : State) : Host.Outcome State Fault Refusal :=
  let x := s.die d
  if x.failed || x.ueHour < 64 then .next s
  else .next ((s.modDie d fun x => { x with failed := true }).curEvent 0x0B 0 0 d)

end Sys2Proof.Machine
end

