-- ==== Sys2Proof/Machine/FabKeys.lean ====
section
/-! DEFINITION. Fabric secrets, steps and pair keys (R648 to R659), and the curators' messages. -/

namespace Sys2Proof.Machine

/-- A rotation: a slot installation, a retirement or a step (R659, R682). -/
def State.rotated (s : State) : State := { s with sec := { s.sec with rotations := wrapAdd 24 s.sec.rotations 1 } }

/-- The counts of packets sent under the gallery's present generation start again (R658). -/
def State.resetGen (s : State) (gal : Nat) : State :=
  { s with genCount := s.genCount.filter fun e => e.1 / 262144 != gal }

/-- Erase the pair keys of a gallery that a test selects by generation (R655). -/
def State.erasePairs (s : State) (gal : Nat) (drop : Nat → Bool) : State :=
  { s with sec := { s.sec with pairs := s.sec.pairs.filter fun x => !(x.1 == gal && drop x.2.1) } }

/-- Install S[gen], with the lead, the period and the member list (R640, R648, R655). -/
def State.installRoot (s : State) (gal gen : Nat) (secret : Bytes) (lead period : Nat) (members : List NodeId) :
    State :=
  ((s.modGal gal fun g =>
    { g with
      root := true, gen := gen, prev := none, cur := secret, next := fabricStepSecret secret, lead := lead
      period := period, members := members, stepRun := none, stepAsked := false }).resetGen gal).erasePairs gal
    fun _ => true

/-- Erase a gallery's fabric secrets and pair keys (R673 step 2). -/
def State.eraseRoot (s : State) (gal : Nat) : State :=
  ((s.modGal gal fun g =>
    { g with
      root := false, gen := 0, prev := none, cur := [], next := [], lead := 0, period := 0, members := []
      stepRun := none, stepAsked := false }).resetGen gal).erasePairs gal fun _ => true

/-- The gallery advances to g + 1; earlier secrets than S[g] and their pair keys are erased (R655). -/
def State.advance (s : State) (gal : Nat) : State :=
  let g := s.gal gal
  let s := s.modGal gal fun g =>
    { g with gen := (g.gen + 1) % 65536, prev := some g.cur, cur := g.next, next := fabricStepSecret g.next }
  ((s.resetGen gal).erasePairs gal fun n => n != g.gen && n != (g.gen + 1) % 65536).rotated

/-- A curator message of some kinds arrives while the curator runs: its gallery is the header's (R496, R656). -/
def State.mgmtArrive (s : State) (mine : Nat → Bool) (pkt : FabPkt) (act : State → FHdr → Bytes → State) : State :=
  if !s.cur.up then s else (s.takeOnce ftMgmt (fun _ => 80) (fun b => mine (getLe b 0 1)) pkt act).driveAll

/-- The generation that a curator message carries (R656). -/
def mgmtGen (b : Bytes) : Nat := getLe b 2 2

/-- A STEP of a gallery to a generation: the member advances to g + 1 and replies; a gallery being deaccessed replies
without advancing (R656, R679). -/
def State.stepTo (s : State) (g lead gen : Nat) : State :=
  let x := s.gal g
  let reply (s : State) : State := s.mgmtSend mkReply g lead gen
  if x.state == .deaccessioning then reply s
  else if !x.root then s
  else if gen = x.gen then reply s
  else if gen = (x.gen + 1) % 65536 then reply (s.advance g)
  else s

/-- STEP (R656). -/
def execStep (pkt : FabPkt) (s : State) : Host.Outcome State Fault Refusal :=
  .next (s.mgmtArrive (· == mkStep) pkt fun s h b => s.stepTo h.gallery h.srcNode (mgmtGen b))

/-- A member has replied: when all have, the step completes, and a step asked for meanwhile begins (R656). -/
def State.stepReplied (s : State) (g member gen : Nat) : State :=
  match (s.gal g).stepRun with
  | none => s
  | some r =>
    if r.gen != gen then s
    else
      let left := r.waiting.filter fun m => m.toNat != member
      if left.isEmpty then
        let s := s.modGal g fun x => { x with stepRun := none }
        if (s.gal g).stepAsked then s.askStep g else s
      else s.modGal g fun x => { x with stepRun := some { r with waiting := left } }

/-- STEP_REPLY (R656). -/
def execStepReply (pkt : FabPkt) (s : State) : Host.Outcome State Fault Refusal :=
  .next (s.mgmtArrive (· == mkReply) pkt fun s h b => s.stepReplied h.gallery h.srcNode (mgmtGen b))

/-- STEP_PERIOD_EXPIRY (R657): `period` milliseconds have passed since the last step. -/
def execStepPeriodExpiry (g : GalNo) (s : State) : Host.Outcome State Fault Refusal :=
  if (s.gal g).period = 0 then .next s else .next (s.askStep g).driveAll

/-- PAIR_KEY_DERIVED (R654): packets that waited for the key are sent. -/
def execPairKeyDerived (g : GalNo) (gen : BitVec 16) (a b : NodeId) (resp : Bool) (s : State) :
    Host.Outcome State Fault Refusal :=
  if !(s.gal g).inWindow gen.toNat || (a.toNat != s.node && b.toNat != s.node) then .next s
  else .next (s.addPair g gen.toNat a.toNat b.toNat resp).driveAll

/-- MGMT (R496): a curator message. Of those that have no row of their own the manual names one, the report that a
sequence has advanced by 2^30, on which the lead starts a step (R657); any other kind is only acknowledged. -/
def execMgmt (pkt : FabPkt) (s : State) : Host.Outcome State Fault Refusal :=
  .next (s.mgmtArrive (fun k => k != mkStep && k != mkReply) pkt fun s h b =>
    if getLe b 0 1 = mkReport then s.askStep h.gallery else s)

end Sys2Proof.Machine
end

