-- ==== Sys2Proof/Machine/Spdm.lean ====
section
/-! DEFINITION. The SPDM responder (R622 to R625), IDE key management (R660) and TDISP (R661, R663). -/

namespace Sys2Proof.Machine

/-! ### Sessions -/

def State.session (s : State) (id : Nat) : Option Session := s.sec.sessions.find? fun x => x.id == id

/-- The session is open: FINISH has completed. -/
def State.sessionOpen (s : State) (id : Nat) : Bool := (s.session id).any (·.open_)

/-- A session ends; the galleries that it controlled have no controlling session (R642). -/
def State.endSession (s : State) (id : Nat) : State :=
  let free (_ : Nat) (g : Gallery) : Gallery := if g.session == some id then { g with session := none } else g
  { s with
    sec := { s.sec with sessions := s.sec.sessions.filter fun x => x.id != id }
    gals := Tab.mapVals Gallery.reset free s.gals }

/-- Every session ends (R731). -/
def State.endAllSessions (s : State) : State := s.sec.sessions.foldl (fun s x => s.endSession x.id) s

/-! ### The responder (R622 to R625): it answers only while the curator runs (R757) -/

/-- Algorithms have been negotiated on this transport. -/
def State.negotiated (s : State) (mctp : Bool) : Bool := if mctp then s.sec.negMctp else s.sec.negDoe

def State.setNegotiated (s : State) (mctp v : Bool) : State :=
  if mctp then { s with sec := { s.sec with negMctp := v } } else { s with sec := { s.sec with negDoe := v } }

/-- Answer while the curator runs. -/
def State.answering (s : State) (act : State → State) : State := if s.cur.up then act s else s

/-- Answer a request that needs negotiated algorithms. -/
def State.afterNegotiation (s : State) (mctp : Bool) (act : State → State) : State :=
  s.answering fun s => if s.negotiated mctp then act s else s.out (.spdmError "UnexpectedRequest")

/-- GET_VERSION (R622): version 1.2. -/
def execGetVersion (mctp : Bool) (s : State) : Host.Outcome State Fault Refusal :=
  .next (s.answering fun s => (s.setNegotiated mctp false).out (.spdm "VERSION" [0x12]))

/-- GET_CAPABILITIES (R622): the requests that the module supports are the rows of R622. -/
def execGetCapabilities (_mctp : Bool) (s : State) : Host.Outcome State Fault Refusal :=
  .next (s.answering fun s => s.out (.spdm "CAPABILITIES" []))

/-- NEGOTIATE_ALGORITHMS (R622): the module supports one algorithm of each kind, and no other. -/
def execNegotiateAlgorithms (mctp offersAll : Bool) (s : State) : Host.Outcome State Fault Refusal :=
  .next (s.answering fun s =>
    if offersAll then (s.setNegotiated mctp true).out (.spdm "ALGORITHMS" [])
    else (s.setNegotiated mctp false).out (.spdmError "InvalidRequest"))

/-- GET_DIGESTS (R623): slot 0 holds the chain, the other slots are empty. -/
def execGetDigests (mctp : Bool) (s : State) : Host.Outcome State Fault Refusal :=
  .next (s.afterNegotiation mctp fun s => s.out (.spdm "DIGESTS" (1 :: natLe 48 Config.certDigest.toNat)))

/-- GET_CERTIFICATE (R623): bytes of the chain of slot 0. -/
def execGetCertificate (mctp : Bool) (slot off len : Nat) (s : State) : Host.Outcome State Fault Refusal :=
  .next (s.afterNegotiation mctp fun s =>
    if slot ≠ 0 || Config.certLen ≤ off then s.out (.spdmError "InvalidRequest")
    else
      s.out (.spdm "CERTIFICATE"
        ((List.range (min len (Config.certLen - off))).map fun i => Config.certByte (off + i))))

/-- CHALLENGE (R623): signed with the identity key; the module's nonce and the signature are free. -/
def execChallenge (mctp : Bool) (slot : Nat) (_nonce : Bytes) (s : State) : Host.Outcome State Fault Refusal :=
  .next (s.afterNegotiation mctp fun s =>
    if slot ≠ 0 then s.out (.spdmError "InvalidRequest")
    else
      s.draw.out (.spdm "CHALLENGE_AUTH"
        (natLe 48 Config.certDigest.toNat ++ natLe 32 (Config.nonce s.freeCtr).toNat
          ++ natLe 96 (Config.signature s.freeCtr).toNat)))

/-- The set body of R667. -/
def State.quorumBody (s : State) : Bytes :=
  natLe 1 s.sec.quorum.length ++ natLe 1 s.sec.k ++ zeros 6 ++ s.sec.quorum.flatten

/-- The gallery record of R625: 192 bytes. -/
def Gallery.record (g : Gallery) : Bytes :=
  sliceB g.block 0 128 ++ natLe 1 (galStateCode g.state) ++ zeros 3
    ++ (match g.claimant with
        | some k => sha384 k
        | none => zeros 48) ++ zeros 12

/-- The content of a measurement (R625). -/
def State.measurement (s : State) (idx : Nat) : Option Bytes :=
  if idx = 1 then some (natLe 48 Config.romDigest.toNat)
  else if idx = 2 then some (sliceB s.cur.digest 0 48)
  else if idx = 3 then some (natLe 4 s.cur.fwVersion ++ natLe 4 s.flash.fusedSvn)
  else if idx = 4 then some (sliceB (s.bank s.cat.epoch).digest 0 48 ++ natLe 1 s.cat.epoch.toNat)
  else if idx = 5 then some (if s.sec.quorum.isEmpty then zeros 48 else sha384 s.quorumBody)
  else if idx = 6 then some (natLe 2 (modStateCode s.ctl.state * 4096 + s.node))
  else if 0x41 ≤ idx && idx ≤ 0x7F then some (s.gal (idx - 0x40)).record
  else none

/-- The form of a measurement: a digest, or raw (R625). -/
def measRaw (idx : Nat) : Bool := !(idx == 1 || idx == 2 || idx == 5)

/-- A measurement block in the DMTF format: index, specification 1, size, value type and size, value. -/
def measBlock (idx : Nat) (v : Bytes) : Bytes :=
  natLe 1 idx ++ [1] ++ natLe 2 (v.length + 3)
    ++ natLe 1 ((if measRaw idx then 128 else 0) + (Config.measType idx).toNat) ++ natLe 2 v.length ++ v

/-- The indices that GET_MEASUREMENTS may name. -/
def measIndices : List Nat := [1, 2, 3, 4, 5, 6] ++ (List.range 63).map fun i => 0x41 + i

/-- GET_MEASUREMENTS (R625): one measurement, all (0xFF), or their number (0). -/
def execGetMeasurements (mctp : Bool) (index : Nat) (signed : Bool) (s : State) :
    Host.Outcome State Fault Refusal :=
  .next (s.afterNegotiation mctp fun s =>
    let blocks := (if index = 0xFF then measIndices else if index = 0 then [] else [index]).filterMap fun i =>
      (s.measurement i).map fun v => measBlock i v
    if index ≠ 0 && blocks.isEmpty then s.out (.spdmError "InvalidRequest")
    else
      let sig := if signed then natLe 96 (Config.signature s.freeCtr).toNat else []
      (if signed then s.draw else s).out (.spdm "MEASUREMENTS"
        (natLe 1 (if index = 0 then measIndices.length else blocks.length) ++ blocks.flatten ++ sig)))

/-- Sessions on a transport, and how many may be open at once (R624). -/
def State.sessionsOn (s : State) (mctp : Bool) : Nat := (s.sec.sessions.filter fun x => x.mctp == mctp).length
def sessionLimit (mctp : Bool) : Nat := if mctp then 2 else 64

/-- KEY_EXCHANGE (R624). -/
def execKeyExchange (mctp : Bool) (s : State) : Host.Outcome State Fault Refusal :=
  .next (s.afterNegotiation mctp fun s =>
    if s.sessionsOn mctp ≥ sessionLimit mctp then s.out (.spdmError "Busy")
    else
      let id := s.sec.nextSession
      let x : Session := { id := id, mctp := mctp, open_ := false, keyPhase := 0 }
      let s : State := { s with sec := { s.sec with sessions := s.sec.sessions ++ [x], nextSession := id + 1 } }
      s.out (.spdm "KEY_EXCHANGE_RSP" (natLe 4 id)))

/-- Change a session. -/
def State.modSession (s : State) (id : Nat) (f : Session → Session) : State :=
  { s with sec := { s.sec with sessions := modifyFirst (fun x => x.id == id) f s.sec.sessions } }

/-- FINISH (R622): the handshake's proof opens the session, or ends it. -/
def execFinish (session : Nat) (ok : Bool) (s : State) : Host.Outcome State Fault Refusal :=
  .next (s.answering fun s =>
    match s.session session with
    | none => s.out (.spdmError "InvalidSession")
    | some x =>
      if x.open_ then s.out (.spdmError "UnexpectedRequest")
      else if ok then (s.modSession session fun x => { x with open_ := true }).out (.spdm "FINISH_RSP" [])
      else (s.endSession session).out (.spdmError "DecryptError"))

/-- Answer inside an open session. -/
def State.inSession (s : State) (session : Nat) (act : State → State) : State :=
  s.answering fun s => if s.sessionOpen session then act s else s.out (.spdmError "InvalidSession")

/-- HEARTBEAT (R622). -/
def execHeartbeat (session : Nat) (s : State) : Host.Outcome State Fault Refusal :=
  .next (s.inSession session fun s => s.out (.spdm "HEARTBEAT_ACK" []))

/-- KEY_UPDATE (R622). -/
def execKeyUpdate (session : Nat) (s : State) : Host.Outcome State Fault Refusal :=
  .next (s.inSession session fun s =>
    (s.modSession session fun x => { x with keyPhase := x.keyPhase + 1 }).out (.spdm "KEY_UPDATE_ACK" []))

/-- END_SESSION (R642). -/
def execEndSession (session : Nat) (s : State) : Host.Outcome State Fault Refusal :=
  .next (s.inSession session fun s => (s.endSession session).out (.spdm "END_SESSION_ACK" []))

/-! ### IDE key management (R660): in a secured session on DOE -/

/-- Answer an IDE_KM request. -/
def State.ideKm (s : State) (session : Option Nat) (act : State → State) : State :=
  s.answering fun s =>
    match session.bind s.session with
    | some x => if x.open_ && !x.mctp then act s else s.out (.spdmError "UnexpectedRequest")
    | none => s.out (.spdmError "UnexpectedRequest")

/-- QUERY (R660): 64 selective streams, one for each function, and no link stream. -/
def execQuery (session : Option Nat) (s : State) : Host.Outcome State Fault Refusal :=
  .next (s.ideKm session fun s => s.out (.spdm "QUERY_RESP" [64, 0]))

/-- Change a function's stream. -/
def State.modIde (s : State) (f : Nat) (g : IdeStream → IdeStream) : State :=
  s.modFn f fun x => { x with ide := g x.ide }

/-- KEY_PROG (R660): the keys of one of the two key sets. -/
def execKeyProg (session : Option Nat) (f : FnNo) (keySet : Bool) (key : Bytes) (s : State) :
    Host.Outcome State Fault Refusal :=
  if key.length ≠ 32 then .fault .operandLength
  else
    .next (s.ideKm session fun s =>
      (s.modIde f fun x => if keySet then { x with key1 := key } else { x with key0 := key }).out
        (.spdm "KP_ACK" []))

/-- The key set holds a key. -/
def IdeStream.keyed (x : IdeStream) (keySet : Bool) : Bool := !(if keySet then x.key1 else x.key0).isEmpty

def IdeStream.setGo (x : IdeStream) (keySet v : Bool) : IdeStream :=
  if keySet then { x with go1 := v } else { x with go0 := v }

/-- K_SET_GO (R660): the stream uses the key set, which holds a key. -/
def execKSetGo (session : Option Nat) (f : FnNo) (keySet : Bool) (s : State) : Host.Outcome State Fault Refusal :=
  .next (s.ideKm session fun s =>
    if (s.fn f).ide.keyed keySet then (s.modIde f fun x => x.setGo keySet true).out (.spdm "K_GOSTOP_ACK" [])
    else s.out (.spdmError "InvalidRequest"))

/-- K_SET_STOP (R660). -/
def execKSetStop (session : Option Nat) (f : FnNo) (keySet : Bool) (s : State) :
    Host.Outcome State Fault Refusal :=
  .next (s.ideKm session fun s => (s.modIde f fun x => x.setGo keySet false).out (.spdm "K_GOSTOP_ACK" []))

/-! ### TDISP (R661, R663) -/

/-- Answer a TDISP request for a virtual function: the physical function is no TDI (R661). -/
def State.tdisp (s : State) (f : Nat) (act : State → State) : State :=
  s.answering fun s => if f = 0 then s.out (.spdmError "INVALID_INTERFACE") else act s

def State.tdispBad (s : State) : State := s.out (.spdmError "INVALID_INTERFACE_STATE")

/-- GET_TDISP_VERSION (R661): version 1.0. -/
def execGetTdispVersion (f : FnNo) (s : State) : Host.Outcome State Fault Refusal :=
  .next (s.tdisp f fun s => s.out (.spdm "TDISP_VERSION" [0x10]))

/-- GET_TDISP_CAPABILITIES (R661). -/
def execGetTdispCapabilities (f : FnNo) (s : State) : Host.Outcome State Fault Refusal :=
  .next (s.tdisp f fun s => s.out (.spdm "TDISP_CAPABILITIES" []))

/-- LOCK_INTERFACE_REQUEST (R661): a function bound to a gallery that is ACCESSIONED or CLAIMED. The start nonce of
the response is free. -/
def execLockInterfaceRequest (f : FnNo) (s : State) : Host.Outcome State Fault Refusal :=
  .next (s.tdisp f fun s =>
    let x := s.fn f
    let st := (s.gal x.gal).state
    if x.gal ≠ 0 && (st == .accessioned || st == .claimed) && x.tdi = 0 then
      (s.draw.modFn f fun x => { x with tdi := 1 }).out
        (.spdm "LOCK_INTERFACE_RESPONSE" (natLe 32 (Config.nonce s.freeCtr).toNat))
    else s.tdispBad)

/-- The interface report (R661): the control page, the BAR2 ranges, the gallery number. -/
def State.tdiReport (s : State) (f : Nat) : Bytes :=
  let g := (s.fn f).gal
  let shelf (x : Extent) : Bytes := natLe 8 (0x200000000 + x.base * 0x200000) ++ natLe 8 (x.size * 0x200000)
  natLe 8 0 ++ natLe 8 0x10000 ++ natLe 8 0 ++ natLe 8 sliceBytes
    ++ (((s.gal g).extents.filter fun x => x.2.en).flatMap fun x => shelf x.2) ++ natLe 1 g

/-- GET_DEVICE_INTERFACE_REPORT (R661): of a locked or running TDI. -/
def execGetDeviceInterfaceReport (f : FnNo) (s : State) : Host.Outcome State Fault Refusal :=
  .next (s.tdisp f fun s =>
    if (s.fn f).tdi = 1 || (s.fn f).tdi = 2 then s.out (.spdm "DEVICE_INTERFACE_REPORT" (s.tdiReport f))
    else s.tdispBad)

/-- GET_DEVICE_INTERFACE_STATE (R661). -/
def execGetDeviceInterfaceState (f : FnNo) (s : State) : Host.Outcome State Fault Refusal :=
  .next (s.tdisp f fun s => s.out (.spdm "DEVICE_INTERFACE_STATE" (natLe 1 (s.fn f).tdi)))

/-- START_INTERFACE_REQUEST (R661): a locked TDI enters RUN. -/
def execStartInterfaceRequest (f : FnNo) (s : State) : Host.Outcome State Fault Refusal :=
  .next (s.tdisp f fun s =>
    if (s.fn f).tdi = 1 then
      (s.modFn f fun x => { x with tdi := 2 }).out (.spdm "START_INTERFACE_RESPONSE" [])
    else s.tdispBad)

/-- A TDI enters ERROR: its gallery is suspended, and the cached translations of the gallery are dropped (R417,
R663). -/
def State.tdiError (s : State) (f : Nat) : State :=
  let g := (s.fn f).gal
  let s := s.modFn f fun x => { x with tdi := 3 }
  if g = 0 then s
  else
    let st := (s.gal g).state
    let s := if st == .active || st == .claimed || st == .accessioned then s.setGalState g .suspended 3 else s
    s.dropTranslations g

end Sys2Proof.Machine
end

