-- ==== Sys2Proof/Machine/Gallery.lean ====
section
/-! DEFINITION. Accession (R630 to R632), G0's resources (R634, R635) and deaccession (R672 to R676). -/

namespace Sys2Proof.Machine

/-! ### The accession block (R630) -/

/-- The fields of an accession block. -/
structure AccBlock where
  gallery : Nat
  vf : Nat
  legacy : Bool
  be : Bool
  slots : Nat
  drawers : Nat
  cidx : Nat
  ucache : Nat
  prTimeout : Nat
  waiters : Nat
  pcache : Nat
  soBase : Nat
  soBlocks : Nat
  ext : List Word
  cir : Nat
  pir : Nat
  drainTimeout : Nat
  nctx : Nat
  ports : BitVec 64
  /-- Port, context and PASID of each entry. -/
  ctxs : List (Nat × Nat × Nat)
deriving DecidableEq, Repr

/-- Context entries of a block, from byte 128 (R630). -/
def blockCtxs (b : Bytes) (n : Nat) : List Nat := (List.range n).map fun i => getLe b (128 + 4 * i) 4

/-- Port, context and PASID of an entry (R630). -/
def ctxEntry (v : Nat) : Nat × Nat × Nat := (v / 2 ^ 26 % 64, v / 2 ^ 22 % 16, v % 2 ^ 20)

/-- The fields of a block (R630). -/
def AccBlock.dec (b : Bytes) : AccBlock :=
  { gallery := getLe b 0 1 % 64, vf := getLe b 1 1, legacy := getLe b 2 1 % 2 = 1
    be := getLe b 2 1 / 2 % 2 = 1, slots := getLe b 3 1, drawers := getLe b 4 4, cidx := getLe b 8 4
    ucache := getLe b 12 2, prTimeout := getLe b 14 2, waiters := getLe b 16 2, pcache := getLe b 18 2
    soBase := getLe b 20 2, soBlocks := getLe b 22 2
    ext := (List.range 4).map fun i => BitVec.ofNat 64 (getLe b (24 + 8 * i) 8)
    cir := getLe b 56 2, pir := getLe b 58 2, drainTimeout := getLe b 60 2, nctx := getLe b 62 2
    ports := BitVec.ofNat 64 (getLe b 64 8), ctxs := (blockCtxs b (getLe b 62 2)).map ctxEntry }

/-- The length fits the number of entries. -/
def blockLenOk (b : Bytes) : Bool := 128 ≤ b.length && b.length == 128 + 4 * getLe b 62 2

/-- Reserved bytes and bits of a block are zero (R630). -/
def blockZerosOk (b : Bytes) : Bool :=
  getLe b 0 1 < 64 && getLe b 2 1 < 4 && zeroB b 72 56
    && (blockCtxs b (getLe b 62 2)).all fun v => v / 2 ^ 20 % 4 == 0

/-- The ports that a block lists. -/
def AccBlock.portList (a : AccBlock) : List Nat := (List.range 48).filter fun p => bitN a.ports p

/-- Reserved bits of an extent value are zero (R492). -/
def extValueOk (v : Word) : Bool := fieldN v 28 34 == 0 && fieldN v 12 4 == 0

/-- The fields that both accession and G0_SETUP check for range (R630, R631 check 1). -/
def State.blockRange (s : State) (a : AccBlock) : Bool :=
  1 ≤ a.slots && a.slots ≤ 4 && a.drawers < 2 ^ 20 && a.cidx < 2 ^ 25 && a.ucache < 2 ^ 13 && a.waiters < 2 ^ 15
    && a.pcache < 2 ^ 15 && a.soBase ≤ 255 && a.soBlocks ≤ 256 && a.soBase + a.soBlocks ≤ 256
    && a.ext.all extValueOk && a.cir < 1024 && a.pir < 1024 && a.ports.toNat < 2 ^ 48
    && a.portList.all (fun p => s.role p == 1)
    && a.ctxs.all (fun e => a.portList.contains e.1)
    && (a.ctxs.map fun e => ctxIdx e.1 e.2.1).eraseDups.length == a.ctxs.length

/-- Stored values of the quotas (R218, R286, R358, R456, R547). -/
def AccBlock.drawersS (a : AccBlock) : Nat := min a.drawers 655360
def AccBlock.cidxS (a : AccBlock) : Nat := min a.cidx 16777216
def AccBlock.ucacheS (a : AccBlock) : Nat := min a.ucache 4096
def AccBlock.waitersS (a : AccBlock) : Nat := min a.waiters 16384
def AccBlock.pcacheS (a : AccBlock) : Nat := min a.pcache 16384
def AccBlock.pirS (a : AccBlock) : Nat := max a.pir a.cir

/-! ### Resources -/

/-- Slots of a port that belong to a gallery, ascending; slots that belong to none. -/
def State.slotsOf (s : State) (p g : Nat) : List Nat :=
  (List.range 64).filter fun k => ((s.docent p).slot k).owner == some g
def State.freeSlots (s : State) (p : Nat) : List Nat :=
  (List.range 64).filter fun k => ((s.docent p).slot k).owner.isNone

/-- Sync objects of the blocks named (R242, R630). -/
def AccBlock.sos (a : AccBlock) : List Nat := (List.range (64 * a.soBlocks)).map fun i => 64 * a.soBase + i

/-- Sums over the galleries other than `g`. -/
def State.sumGals (s : State) (g : Nat) (f : Gallery → Nat) : Nat :=
  ((s.gals.filter fun e => e.1 != g).map fun e => f e.2).sum
def State.sumPcache (s : State) (p g : Nat) : Nat :=
  (((s.docent p).pcQuota.filter fun e => e.1 != g).map Prod.snd).sum

/-- Every sum bound holds with the block's values for gallery `g` (R219, R269, R337, R456). -/
def State.sumsOk (s : State) (g : Nat) (a : AccBlock) : Bool :=
  s.sumGals g (·.maxDrawers) + a.drawersS ≤ 655360 && s.sumGals g (·.cidxMax) + a.cidxS ≤ 16777216
    && s.sumGals g (·.ucacheMax) + a.ucacheS ≤ 4096 && s.sumGals g (·.maxWaiters) + a.waitersS ≤ 16384
    && a.portList.all fun p => s.sumPcache p g + a.pcacheS ≤ 16384

/-- Base, size and en of an extent value. -/
def extBase (v : Word) : Nat := fieldN v 0 12
def extSize (v : Word) : Nat := fieldN v 16 12
def extEn (v : Word) : Bool := bitN v 63

/-- The enabled extents of a block do not overlap one another. -/
def extsApart : List Word → Bool
  | [] => true
  | v :: t =>
    (!extEn v || t.all fun w => !extEn w || !unitsMeet (extBase v) (extSize v) (extBase w) (extSize w))
      && extsApart t

/-- The extents of a block obey R472 for gallery `g`: each may overlap only its own old range. -/
def State.extsOk (s : State) (g : Nat) (a : AccBlock) : Bool :=
  let one (i : Nat) (v : Word) : Bool :=
    !extEn v || (extSize v != 0 && extBase v + extSize v ≤ shelfUnits
      && !s.gals.any fun e => e.2.extents.any fun x => !(e.1 == g && x.1 == i)
        && (if e.1 == g && (a.ext.getD x.1 0 |> fun w => extEn w && extBase w == x.2.base && extSize w == x.2.size)
            then false
            else x.2.uses (extBase v) (extSize v)))
  extsApart a.ext && (List.range 4).all fun i => one i (a.ext.getD i 0)

/-! ### Slots, bindings and sync objects -/

/-- Zeroize a slot and raise its generation; it belongs to `owner` from now on (R643). -/
def State.zeroizeSlot (s : State) (p k : Nat) (owner : Option Nat) : State :=
  s.modDocent p fun d =>
    d.modSlot k fun x =>
      { x with installed := false, key := [], gen := wrapAdd 16 x.gen 1, rxCtr := 0, txCtr := 0, owner := owner }

/-- The send slot of a gallery at a port is one of these no more. -/
def State.dropSend (s : State) (p g : Nat) (gone : List Nat) : State :=
  s.modDocent p fun d =>
    let k := Tab.get 0 d.sendSlot g
    if k != 0 && gone.contains (k - 1) then
      { d with sendSlot := Tab.set 0 d.sendSlot g 0, activated := d.activated.filter (· != g) }
    else d

/-- Free slots of a gallery at a port. -/
def State.releaseSlots (s : State) (p g : Nat) (ks : List Nat) : State :=
  (ks.foldl (fun s k => s.zeroizeSlot p k none) s).dropSend p g ks

/-- Give the lowest-numbered free slots of a port to a gallery (R632 step 2). -/
def State.takeSlots (s : State) (p g n : Nat) : State :=
  ((s.freeSlots p).take n).foldl
    (fun s k => s.modDocent p fun d => d.modSlot k fun x => { x with owner := some g }) s

/-- A context is unbound (R27): what its last tour left in CTX_STATE and CTX_OPS stays (R159, R160). -/
def State.unbind (s : State) (g : Nat) : State :=
  s.modCtx g fun c => { Ctx.reset with lastStatus := c.lastStatus, pc := c.pc, toursEnded := c.toursEnded }

/-- A context is bound (R27, R632 step 4), and counts its tours from 0 (R160). -/
def State.bind (s : State) (g gal pasid : Nat) : State :=
  s.modCtx g fun c =>
    { Ctx.reset with
      bound := true, gal := gal, pasid := pasid, state := .idle, lastStatus := c.lastStatus, pc := c.pc }

/-- A sync object is released: its value is 0 (R242), and a WAIT still listed on it is aborted. -/
def State.releaseSo (s : State) (n : Nat) : State :=
  let o := s.so n
  o.waiters.foldl (fun s w => s.waitDone w stAborted o.value) (s.setSo n SyncObj.reset)

/-- The registers of a gallery at this module (R632 step 1). -/
def State.applyRegs (s : State) (g : Nat) (a : AccBlock) (block : Bytes) : State :=
  let s := s.modGal g fun x =>
    { x with
      legacy := a.legacy, be := a.be, pir := a.pirS, cir := a.cir, slotsPerPort := a.slots
      maxDrawers := a.drawersS, prTimeout := a.prTimeout, ucacheMax := a.ucacheS, cidxMax := a.cidxS
      maxWaiters := a.waitersS, drainTimeout := a.drainTimeout, ports := a.ports.setWidth 48
      block := sliceB block 0 128 }
  let s := a.portList.foldl (fun s p =>
    s.modDocent p fun d => { d with pcQuota := Tab.set 0 d.pcQuota g a.pcacheS }) s
  (List.range 4).foldl (fun s i => s.extWrite g i (a.ext.getD i 0)) s

/-! ### GALLERY_ACCESSION (R630 to R632) -/

/-- Every check of R631, in order. -/
def State.accessionCheck (s : State) (a : AccBlock) : Option Nat :=
  if !(1 ≤ a.gallery && 1 ≤ a.vf && a.vf ≤ 63 && 1 ≤ a.nctx && a.nctx ≤ 768 && 1 ≤ a.drainTimeout
      && a.drainTimeout ≤ 1000 && s.blockRange a) then some stMalformed
  else if (s.gal a.gallery).state != .free || (s.fn a.vf).gal != 0
      || a.ctxs.any (fun e => (s.ctx (ctxIdx e.1 e.2.1)).bound) then some stWrongState
  else if a.portList.all (fun p => a.slots ≤ (s.freeSlots p).length)
      && a.sos.all (fun n => (s.so n).owner.isNone) && s.extsOk a.gallery a && s.sumsOk a.gallery a then none
  else some stNoResource

/-- What R632 does, in its order. -/
def State.doAccession (s : State) (a : AccBlock) (block : Bytes) : State :=
  let g := a.gallery
  let s := s.applyRegs g a block
  let s := a.portList.foldl (fun s p => s.takeSlots p g a.slots) s
  let s := a.sos.foldl (fun s n => s.setSo n { SyncObj.reset with owner := some g }) s
  let s := a.ctxs.foldl (fun s e => s.bind (ctxIdx e.1 e.2.1) g e.2.2) s
  let s := s.modFn a.vf fun x => { x with gal := g }
  s.modGal g fun x => { x with fn := a.vf }

/-- GALLERY_ACCESSION (R631). -/
def execGalleryAccession (s : State) : Host.Outcome State Fault Refusal :=
  .next (s.runPf (fun t => t.opcode == 0x10)
    { lenOk := fun n => 128 ≤ n, argsOk := noArgs, blockOk := fun b => blockLenOk b && blockZerosOk b
      states := [.operational] }
    fun s t b =>
      let a := AccBlock.dec b
      match s.accessionCheck a with
      | some st => s.complete t st 0
      | none => ((s.doAccession a b).complete t stOk 0).setGalState a.gallery .accessioned 1)

/-! ### G0_SETUP and G0_RELEASE (R634, R635) -/

/-- Contexts bound to G0. -/
def State.g0Ctxs (s : State) : List Nat := (s.ctxs.filter fun c => c.2.bound && c.2.gal == 0).map Prod.fst

/-- Slots that G0 will hold on a listed port: those it keeps, lowest first, and the free ones that it takes. -/
def State.g0Slots (s : State) (a : AccBlock) (p : Nat) : List Nat :=
  let kept := (s.slotsOf p 0).take a.slots
  kept ++ (s.freeSlots p).take (a.slots - kept.length)

/-- The lowest of some slots. -/
def lowest (l : List Nat) : Option Nat := l.foldl (fun m k => some (m.elim k (min k))) none

/-- A context of G0 keeps its binding: same PASID, same key slot (R634). -/
def State.g0Same (s : State) (a : AccBlock) (e : Nat × Nat × Nat) : Bool :=
  let c := s.ctx (ctxIdx e.1 e.2.1)
  c.bound && c.gal == 0 && c.pasid == e.2.2 && lowest (s.slotsOf e.1 0) == lowest (s.g0Slots a e.1)

/-- The checks of R631 as R634 changes them. -/
def State.g0Check (s : State) (a : AccBlock) : Option Nat :=
  let idx := a.ctxs.map fun e => ctxIdx e.1 e.2.1
  if !(a.gallery == 0 && a.vf == 0 && a.drainTimeout == 0 && a.nctx ≤ 768 && s.blockRange a) then some stMalformed
  else if a.ctxs.any (fun e => let c := s.ctx (ctxIdx e.1 e.2.1); c.bound && c.gal != 0) then some stWrongState
  else if !(a.portList.all (fun p => (s.g0Slots a p).length == a.slots)
      && a.sos.all (fun n => (s.so n).owner.isNone || (s.so n).owner == some 0) && s.extsOk 0 a
      && s.sumsOk 0 a) then some stNoResource
  else if a.ctxs.any (fun e =>
        let c := s.ctx (ctxIdx e.1 e.2.1)
        c.bound && !s.g0Same a e && c.state != .idle)
      || s.g0Ctxs.any (fun g => !idx.contains g && (s.ctx g).state != .idle) then some stBusy
  else none

/-- The end-point requests of a context whose binding goes, and which still wait for a translation, end with ABORTED;
their page requests are abandoned (R61, R442, R462). -/
def State.endCtxRequests (s : State) (g : Nat) : State :=
  let mine := (s.docent (g / 16)).reqs.filter fun q => !q.sent && (EHdr.dec q.hdr).ctx == g % 16
  mine.foldl (fun s q => s.finishReq (g / 16) q stAborted []) s

/-- What R634 does on acceptance, in its order. -/
def State.doG0Setup (s : State) (a : AccBlock) (block : Bytes) : State :=
  let idx := a.ctxs.map fun e => ctxIdx e.1 e.2.1
  let same := a.ctxs.filter fun e => s.g0Same a e
  let s := (s.g0Ctxs.filter fun g => !idx.contains g).foldl (fun s g => (s.endCtxRequests g).unbind g) s
  let keep (p : Nat) : List Nat := if a.portList.contains p then (s.slotsOf p 0).take a.slots else []
  let s := (List.range 48).foldl (fun s p =>
    s.releaseSlots p 0 ((s.slotsOf p 0).filter fun k => !(keep p).contains k)) s
  let mine := (s.sos.filter fun o => o.2.owner == some 0).map Prod.fst
  let s := (mine.filter fun n => !a.sos.contains n).foldl (fun s n => s.releaseSo n) s
  let s := (List.range 48).foldl (fun s p =>
    if a.portList.contains p then s
    else s.modDocent p fun d => { d with pcQuota := Tab.set 0 d.pcQuota 0 0 }) s
  let s := s.applyRegs 0 a block
  let s := a.portList.foldl (fun s p => s.takeSlots p 0 (a.slots - (s.slotsOf p 0).length)) s
  let s := a.sos.foldl (fun s n =>
    if (s.so n).owner == some 0 then s else s.setSo n { SyncObj.reset with owner := some 0 }) s
  (a.ctxs.filter fun e => !same.contains e).foldl
    (fun s e => (s.endCtxRequests (ctxIdx e.1 e.2.1)).bind (ctxIdx e.1 e.2.1) 0 e.2.2) s

/-- G0_SETUP (R634). -/
def execG0Setup (s : State) : Host.Outcome State Fault Refusal :=
  .next (s.runPf (fun t => t.opcode == 0x13)
    { lenOk := fun n => 128 ≤ n, argsOk := noArgs, blockOk := fun b => blockLenOk b && blockZerosOk b
      states := [.service] }
    fun s t b =>
      let a := AccBlock.dec b
      match s.g0Check a with
      | some st => s.complete t st 0
      | none => (s.doG0Setup a b).complete t stOk 0)

/-- Free the listed contexts, and G0's slots on every port where no G0 context then remains (R635). -/
def State.doG0Release (s : State) (gs : List Nat) : State :=
  let s := gs.foldl (fun s g => (s.endCtxRequests g).unbind g) s
  (List.range 48).foldl (fun s p =>
    if s.g0Ctxs.any fun g => g / 16 == p then s else s.releaseSlots p 0 (s.slotsOf p 0)) s

/-- The block of G0_RELEASE is well formed but for its ranges (R635). -/
def releaseForm (b : Bytes) : Bool :=
  128 ≤ b.length && b.length == 128 + 4 * getLe b 0 2 && zeroB b 2 126
    && (blockCtxs b (getLe b 0 2)).all fun v => v % 2 ^ 22 == 0

/-- G0_RELEASE (R635). -/
def execG0Release (s : State) : Host.Outcome State Fault Refusal :=
  .next (s.runPf (fun t => t.opcode == 0x14)
    { lenOk := fun n => 128 ≤ n, argsOk := noArgs, blockOk := releaseForm, states := servingStates }
    fun s t b =>
      let es := (blockCtxs b (getLe b 0 2)).map ctxEntry
      let gs := es.map fun e => ctxIdx e.1 e.2.1
      if es.isEmpty || es.length > 768 || es.any (fun e => e.1 ≥ 48) then s.complete t stMalformed 0
      else if gs.any (fun g => !(s.ctx g).bound || (s.ctx g).gal != 0) then s.complete t stWrongState 0
      else if gs.any (fun g => (s.ctx g).state != .idle) then s.complete t stBusy 0
      else (s.doG0Release gs).complete t stOk 0)

/-! ### Deaccession (R672 to R676) -/

/-- The contexts of a gallery end their tours and lose their bindings (R118, R673 step 1). -/
def State.clearBindings (s : State) (g : Nat) : State :=
  ((s.ctxs.filter fun c => c.2.bound && c.2.gal == g).map Prod.fst).foldl (fun s c =>
    ((s.abortTour c).endStream (c / 16) (.ctx c)).unbind c) s

/-- The end-point requests of a gallery that still wait for a translation end with ABORTED, and so do their
page requests (R442, R673 step 1). -/
def State.endRequests (s : State) (g : Nat) (all : Bool) : State :=
  (s.docents.flatMap fun d => (d.2.reqs.filter fun q => q.gal == g && (all || !q.sent)).map fun q => (d.1, q)).foldl
    (fun s q => s.finishReq q.1 q.2 stAborted []) s

/-- Every listed WAIT of the gallery completes with ABORTED (R273). -/
def State.abortWaits (s : State) (g : Nat) : State :=
  s.sos.foldl (fun s o =>
    let mine := o.2.waiters.filter fun w => w.gal == g
    let keep := { o.2 with waiters := o.2.waiters.filter fun w => w.gal != g }
    mine.foldl (fun s w => s.waitDone w stAborted o.2.value) (if mine.isEmpty then s else s.setSo o.1 keep)) s

/-- The instances of the gallery abort at this home, and its waiting joins are answered (R357). -/
def State.abortGallery (s : State) (g : Nat) : State :=
  let ids := (s.red.insts.filter fun i => i.gallery == g && i.live).map (fun i => (i.epoch, i.sched, i.inst))
    ++ (s.red.waiting.filter fun m => m.gallery.val == g).map fun m => (m.epoch, m.sched.toNat, m.inst)
  ids.eraseDups.foldl (fun s i => s.abortInst i.1 i.2.1 i.2.2 stAborted false) s

/-- Step 1 of deaccession (R673); one that runs already goes on, and a further command waits with it (R679). -/
def State.deaccStart (s : State) (g cause : Nat) (t : Option Taken) : State :=
  let s := match t with
    | some t => (s.startTaken t).modGal g fun x => { x with deaccTokens := x.deaccTokens ++ [t] }
    | none => s
  if (s.gal g).state == .deaccessioning then s
  else
    let s := s.setGalState g .deaccessioning cause
    let s := s.clearBindings g
    let s := s.endRequests g false
    let s := s.abortWaits g
    let s := s.abortGallery g
    (s.modGal g fun x => { x with deaccStep := 2, deaccCause := cause }).driveAll

/-- GALLERY_DEACCESSION (R672): it completes at step 6. -/
def execGalleryDeaccession (s : State) : Host.Outcome State Fault Refusal :=
  .next (s.runPf (fun t => t.opcode == 0x11)
    { lenOk := fun n => n == 0
      argsOk := fun a => argLe a 16 1 < 64 && argZeroFrom a 17
      blockOk := fun _ => true, states := [.operational, .drain] }
    fun s t _ =>
      let g := argLe t.args 16 1
      if g = 0 then s.complete t stMalformed 0
      else if (s.gal g).state == .free then s.complete t stWrongState 0
      else s.deaccStart g 1 (some t))

/-- STOP_INTERFACE_REQUEST (R663): deaccession of the TDI's gallery starts; its translations are dropped (R417). A
TDI without a gallery is unlocked at once. -/
def execStopInterfaceRequest (f : FnNo) (s : State) : Host.Outcome State Fault Refusal :=
  .next (s.tdisp f fun s =>
    let g := (s.fn f).gal
    let s := if g = 0 then s.modFn f fun x => { x with tdi := 0 }
      else if (s.gal g).state == .deaccessioning then s
      else (s.dropTranslations g).deaccStart g 3 none
    s.out (.spdm "STOP_INTERFACE_RESPONSE" []))

/-- A packet of this gallery, by its header. -/
def ofGal (g : Nat) (h : Header) : Bool := fieldN h 120 6 == g

/-- No packet of the gallery remains in a replay store, a crypto stage or the shared buffer (R673 step 2). -/
def State.galDrained (s : State) (g : Nat) : Bool :=
  !s.replay.any (fun o => ofGal g o.hdr) && !s.held.any (fun o => ofGal g o.hdr)
    && !(s.swc.buf ++ s.swc.waiting).any (fun b => ofGal g b.hdr) && !s.arrived.any (fun x => ofGal g x.1)
    && !s.red.outbox.any (fun k => k.gallery == g)
    && !s.docents.any fun d => d.2.tgts.any fun q => ofGal g q.hdr

/-- Step 3 of deaccession: the gallery's cached translations and port-cache lines are dropped, and the invalidations
that waited for it may complete (R215, R676). -/
def State.dropCaches (s : State) (g : Nat) : State :=
  let dropD (_ : Nat) (d : Docent) : Docent :=
    { d with
      tlb := d.tlb.filter fun e => e.gal != g, pcache := d.pcache.filter fun l => l.gal != g
      oneShot := d.oneShot.filter fun x => x.2.gal != g }
  let free (i : Inval) : Inval := if i.gal == g then { i with held := false } else i
  let dropF (_ : Nat) (f : Fn) : Fn := { f with invals := f.invals.map free }
  { s with
    docents := Tab.mapVals Docent.reset dropD s.docents
    trn := { s.trn with cidx := s.trn.cidx.filter fun e => e.gal != g }
    fns := Tab.mapVals Fn.reset dropF s.fns }

/-- Steps 2 and 3 end, and step 4 begins: secrets and pair keys are erased, caches dropped, and the shelf extents
closed (R673). -/
def State.deaccErase (s : State) (g : Nat) : State :=
  let s := (s.eraseRoot g).dropCaches g
  let close (_ : Nat) (x : Extent) : Extent := x.write false x.base x.size
  s.modGal g fun x => { x with deaccStep := 4, extents := Tab.mapVals Extent.reset close x.extents }

/-- DEACCESSION_DRAINED (R673): step 2 completes by itself. -/
def execDeaccessionDrained (g : GalNo) (s : State) : Host.Outcome State Fault Refusal :=
  if (s.gal g).deaccStep ≠ 2 || !s.galDrained g then .next s else .next (s.deaccErase g)

/-- Discard whatever remains of the gallery; each request from another module is answered with LOST (R673, R674). -/
def State.discardGal (s : State) (g : Nat) : State :=
  let lost := ((s.swc.buf ++ s.swc.waiting).filter fun b => ofGal g b.hdr).map (fun b => (b.inp, b.hdr))
    ++ (s.arrived.filter fun x => ofGal g x.1).map fun x => (48, x.1)
  let tgts := s.docents.flatMap fun d => (d.2.tgts.filter fun q => ofGal g q.hdr).map fun q => (d.1, q.hdr)
  let s := { s with swc := { s.swc with waiting := s.swc.waiting.filter fun b => !ofGal g b.hdr } }
  let s := (s.swc.buf.filter fun b => ofGal g b.hdr).foldl (fun s b => s.unbuffer b) s
  let s := s.mcUnsent ((s.replay.filter fun o => ofGal g o.hdr && o.isResult)
    ++ s.held.filter fun o => ofGal g o.hdr)
  let dropD (_ : Nat) (d : Docent) : Docent := { d with tgts := d.tgts.filter fun q => !ofGal g q.hdr }
  let s := { s with
    red := { s.red with outbox := s.red.outbox.filter fun k => k.gallery != g }
    replay := s.replay.filter fun o => !ofGal g o.hdr
    held := s.held.filter fun o => !ofGal g o.hdr
    arrived := s.arrived.filter fun x => !ofGal g x.1
    docents := Tab.mapVals Docent.reset dropD s.docents }
  let s := s.endRequests g true
  (lost ++ tgts).foldl (fun s x =>
    let h := FHdr.dec x.2
    if h.srcNode == s.node then s else s.bareAck x.1 h stLost false) s

/-- DRAIN_TIMEOUT_EXPIRY (R673): what remains is discarded. -/
def execDrainTimeoutExpiry (g : GalNo) (s : State) : Host.Outcome State Fault Refusal :=
  if (s.gal g).deaccStep ≠ 2 then .next s else .next ((s.discardGal g).deaccErase g)

/-- Step 4 of deaccession: the gallery's drawers, extents, sync objects and ring slice are zero (R673, R714). -/
def State.zeroGallery (s : State) (g : Nat) : State :=
  let s := (s.red.insts.filter fun i => i.gallery == g).foldl (fun s i => s.freeInst i) s
  let mine := s.red.zeroing.filter fun z => z.1 == g
  let pieces := mine.flatMap fun z => z.2
  let s := pieces.foldl (fun s x => s.vmZero (vpaDrawer x.1) (65536 * x.2)) s
  let s := { s with red :=
    { s.red with
      insts := s.red.insts.filter fun i => i.gallery != g
      zeroing := s.red.zeroing.filter fun z => z.1 != g
      held := s.red.held.filter fun x => !pieces.contains x } }
  let s := (List.range 4).foldl (fun s i => s.extZeroed g i) s
  let objs := (s.sos.filter fun o => o.2.owner == some g).map Prod.fst
  let s := objs.foldl (fun s n => s.releaseSo n) s
  s.vmZero (vpaSlice (s.gal g).fn) sliceBytes

/-- Step 5 of deaccession: every slot is zeroized; the IDE stream stops; the TDI is unlocked (R673). -/
def State.deaccKeys (s : State) (g : Nat) : State :=
  let s := (List.range 48).foldl (fun s p =>
    (s.releaseSlots p g (s.slotsOf p g)).modDocent p fun d =>
      { d with
        pcQuota := Tab.set 0 d.pcQuota g 0, sendSlot := Tab.set 0 d.sendSlot g 0
        activated := d.activated.filter (· != g), markers := Tab.set Marker.reset d.markers g Marker.reset }) s
  s.modFn (s.gal g).fn fun x => { x with ide := IdeStream.reset, tdi := 0 }

/-- Step 6 of deaccession: the function is unbound and its rings are disabled, the gallery is FREE with nothing of
its own, and every command completes (R673, R714). -/
def State.deaccFree (s : State) (g : Nat) : State :=
  let x := s.gal g
  let off (_ : Nat) (r : Ring) : Ring := { r with en := false }
  let s := s.modFn x.fn fun f => { f with gal := 0, rings := Tab.mapVals Ring.reset off f.rings }
  let s := { s with gals := Tab.erase s.gals g }
  let s := x.deaccTokens.foldl (fun s t => s.complete t stOk 0) s
  s.galStateRecord g (galStateCode .deaccessioning) x.deaccCause 0

/-- DEACCESSION_ZEROED (R673): step 4 completes, and steps 5 and 6 follow. The curator does them. -/
def execDeaccessionZeroed (g : GalNo) (s : State) : Host.Outcome State Fault Refusal :=
  if (s.gal g).deaccStep ≠ 4 || !s.cur.up then .next s
  else .next (((s.zeroGallery g).deaccKeys g).deaccFree g)

end Sys2Proof.Machine
end

