-- ==== Sys2Proof/Machine/Tenant.lean ====
section
/-! DEFINITION. Tenant messages (R637 to R645, R884), the same payloads for G0 (R647), and quorum-signed actions
(R667 to R671). -/

namespace Sys2Proof.Machine

/-! ### Key slots (R643 to R645) -/

/-- Install a key: both counters are 0; with no send slot yet, the slot becomes it (R644, R645). -/
def State.installKey (s : State) (p k g : Nat) (key : Bytes) : State :=
  (s.modDocent p fun d =>
    let d := d.modSlot k fun x => { x with installed := true, key := key, rxCtr := 0, txCtr := 0 }
    if Tab.get 0 d.sendSlot g = 0 then { d with sendSlot := Tab.set 0 d.sendSlot g (k + 1) } else d).rotated

/-- Retire a slot: zeroized, its generation raised, still the gallery's (R640, R643). -/
def State.retireKey (s : State) (p k g : Nat) : State := (s.zeroizeSlot p k (some g)).rotated

/-- Make a slot the send slot (R645). -/
def State.activateKey (s : State) (p k g : Nat) : State :=
  s.modDocent p fun d =>
    { d with sendSlot := Tab.set 0 d.sendSlot g (k + 1), activated := g :: d.activated.filter (· != g) }

/-- The slot is the gallery's send slot. -/
def State.isSend (s : State) (p k g : Nat) : Bool := Tab.get 0 (s.docent p).sendSlot g == k + 1

/-- The slot is in the state that the message needs (R884 check 7). -/
def State.slotFits (s : State) (code p k g : Nat) : Bool :=
  let x := (s.docent p).slot k
  if code = 4 then !x.installed
  else if code = 5 then x.installed && !s.isSend p k g
  else if code = 6 then x.installed
  else true

/-- The effect of a key message, codes 4 to 8 (R640, R647). -/
def State.keyEffect (s : State) (code g : Nat) (m : TenantMsg) : State :=
  if code = 4 then (s.installKey m.port m.slot g (sliceB m.material 0 32)).drive m.port
  else if code = 5 then s.retireKey m.port m.slot g
  else if code = 6 then s.activateKey m.port m.slot g
  else if code = 7 then
    (s.installRoot g m.gen (sliceB m.material 0 48) m.lead m.period m.members).driveAll
  else if code = 8 then (s.askStep g).driveAll
  else s

/-! ### Messages (R639, R884) -/

/-- Bytes of material that a message uses (R640). -/
def materialLen (code : Nat) : Nat :=
  if code = 2 || code = 3 then 96 else if code = 4 then 32 else if code = 7 then 48 else 0

/-- Reserved bytes are zero and fields lie in range: check 2 of R884. -/
def msgForm (m : TenantMsg) : Bool :=
  !m.reserved && m.gallery < 64 && m.port < 48 && m.slot < 64 && m.gen < 65536 && m.period < 65536 && m.lead < 4096
    && m.material.length ≤ 96 && (m.material.drop (materialLen m.code)).all (· == 0)
    && (if m.code = 7 then 1 ≤ m.count && m.count ≤ 1024 && m.members.length == m.count else m.members.isEmpty)

/-- The generation concerned: the slot's, or the fabric's. -/
def State.msgGen (s : State) (m : TenantMsg) : Nat :=
  if 4 ≤ m.code && m.code ≤ 6 then ((s.docent m.port).slot m.slot).gen
  else if m.code = 7 || m.code = 8 then (s.gal m.gallery).gen
  else 0

/-- The response of R639. -/
def State.tenantAnswer (s : State) (m : TenantMsg) (status : Nat) (entries : Bytes) : State :=
  let g := s.gal m.gallery
  s.out (.tenant (m.code % 32768 + 32768) status (galStateCode g.state)
    (if status = stOk then s.msgGen m else 0) (sliceB g.challenge 0 16) entries)

/-- The states in which a message is accepted (R640). -/
def msgStates (code : Nat) (st : GalState) : Bool :=
  match st with
  | .free => code == 1
  | .accessioned => code == 1 || code == 2 || code == 10
  | .claimed => code == 1 || (3 ≤ code && code ≤ 7) || code == 9 || code == 10
  | .active => code == 1 || (3 ≤ code && code ≤ 6) || code == 8 || code == 10
  | .suspended => code == 1 || code == 3 || code == 10
  | .deaccessioning => code == 1 || code == 10

/-- What a claimant signs to resume: the string, the gallery and its challenge (R640). The manual gives the gallery no
width; it takes one byte, as in the message. DEDUCED: log entry 98. -/
def Gallery.resumeText (x : Gallery) (g : Nat) : Bytes := ascii "IVX48 resume" ++ natLe 1 g ++ sliceB x.challenge 0 16

/-- The message is signed by the recorded claimant (R640, R641). -/
def State.claimantSigned (s : State) (m : TenantMsg) : Bool :=
  match (s.gal m.gallery).claimant with
  | some key => ecdsaOk key ((s.gal m.gallery).resumeText m.gallery) (sliceB m.material 0 96)
  | none => false

/-- Checks 1 to 7 of R884, for a message whose code R640 lists. -/
def State.msgCheck (s : State) (sid : Nat) (m : TenantMsg) : Option Nat :=
  let g := s.gal m.gallery
  if !msgForm m then some stMalformed
  else if m.gallery = 0 then some stDenied
  else if (4 ≤ m.code && g.session != some sid) || (m.code = 3 && !s.claimantSigned m) then
    some stUnauthorised
  else if 4 ≤ m.code && m.code ≤ 6 && ((s.docent m.port).slot m.slot).owner != some m.gallery then some stDenied
  else if !msgStates m.code g.state || (m.code = 8 && g.lead != s.node) then some stWrongState
  else if !s.slotFits m.code m.port m.slot m.gallery then some stWrongState
  else none

/-- A tenant message: outside an open session an SPDM error; otherwise checked, and answered (R638, R884). -/
def State.tenantMsg (s : State) (session : Option Nat) (code : Nat) (m : TenantMsg)
    (act : State → Nat → State) : State :=
  if m.code ≠ code then s
  else
    s.answering fun s =>
      match session with
      | none => s.out (.spdmError "UnexpectedRequest")
      | some sid =>
        if !s.sessionOpen sid then s.out (.spdmError "UnexpectedRequest")
        else
          match s.msgCheck sid m with
          | some st => s.tenantAnswer m st []
          | none => act s sid

/-- The 48 entries of GAL_QUERY (R640). -/
def State.queryEntries (s : State) (g : Nat) : Bytes :=
  (List.range 48).flatMap fun p =>
    let k := Tab.get 0 (s.docent p).sendSlot g
    let mask := ((s.slotsOf p g).map fun i => 2 ^ i).sum
    natLe 8 mask ++ natLe 1 (k - 1) ++ zeros 1
      ++ natLe 2 (if k = 0 then 0 else ((s.docent p).slot (k - 1)).gen) ++ zeros 4

/-- GAL_QUERY (R640). -/
def execGalQuery (session : Option Nat) (m : TenantMsg) (s : State) : Host.Outcome State Fault Refusal :=
  .next (s.tenantMsg session 1 m fun s _ => s.tenantAnswer m stOk (s.queryEntries m.gallery))

/-- A new resume challenge (R640). -/
def State.newChallenge (s : State) (g : Nat) : State :=
  s.draw.modGal g fun x => { x with challenge := natLe 16 (Config.challenge s.freeCtr).toNat }

/-- GAL_CLAIM (R640): the claimant is recorded, and this session controls the gallery. -/
def execGalClaim (session : Option Nat) (m : TenantMsg) (s : State) : Host.Outcome State Fault Refusal :=
  .next (s.tenantMsg session 2 m fun s sid =>
    let s := (s.modGal m.gallery fun g =>
      { g with claimant := some (sliceB m.material 0 96), session := some sid }).newChallenge m.gallery
    (s.setGalState m.gallery .claimed 2).tenantAnswer m stOk [])

/-- GAL_RESUME (R641): this session controls the gallery, and a new challenge is drawn. -/
def execGalResume (session : Option Nat) (m : TenantMsg) (s : State) : Host.Outcome State Fault Refusal :=
  .next (s.tenantMsg session 3 m fun s sid =>
    ((s.modGal m.gallery fun g => { g with session := some sid }).newChallenge m.gallery).tenantAnswer m stOk [])

/-- A key message with its effect. -/
def State.keyMsg (s : State) (session : Option Nat) (code : Nat) (m : TenantMsg) : State :=
  s.tenantMsg session code m fun s _ => (s.keyEffect code m.gallery m).tenantAnswer m stOk []

/-- GAL_KEY_INSTALL (R644). -/
def execGalKeyInstall (session : Option Nat) (m : TenantMsg) (s : State) : Host.Outcome State Fault Refusal :=
  .next (s.keyMsg session 4 m)

/-- GAL_KEY_RETIRE (R643). -/
def execGalKeyRetire (session : Option Nat) (m : TenantMsg) (s : State) : Host.Outcome State Fault Refusal :=
  .next (s.keyMsg session 5 m)

/-- GAL_KEY_ACTIVATE (R645). -/
def execGalKeyActivate (session : Option Nat) (m : TenantMsg) (s : State) : Host.Outcome State Fault Refusal :=
  .next (s.keyMsg session 6 m)

/-- GAL_FABRIC_ROOT (R648). -/
def execGalFabricRoot (session : Option Nat) (m : TenantMsg) (s : State) : Host.Outcome State Fault Refusal :=
  .next (s.keyMsg session 7 m)

/-- GAL_FABRIC_STEP (R657): at the lead only. -/
def execGalFabricStep (session : Option Nat) (m : TenantMsg) (s : State) : Host.Outcome State Fault Refusal :=
  .next (s.keyMsg session 8 m)

/-- What R637 asks of a gallery that is CLAIMED. -/
def State.mayOpen (s : State) (g : Nat) : Bool :=
  let x := s.gal g
  x.root && (s.fn x.fn).tdi == 2
    && (List.range 48).all fun p => !bitN x.ports p
      || ((s.docent p).activated.contains g && (s.sendSlotOf p g).isSome)

/-- GAL_OPEN (R637). -/
def execGalOpen (session : Option Nat) (m : TenantMsg) (s : State) : Host.Outcome State Fault Refusal :=
  .next (s.tenantMsg session 9 m fun s _ =>
    if s.mayOpen m.gallery then (s.setGalState m.gallery .active 2).tenantAnswer m stOk []
    else s.tenantAnswer m stWrongState [])

/-- GAL_DEACCESS (R672). -/
def execGalDeaccess (session : Option Nat) (m : TenantMsg) (s : State) : Host.Outcome State Fault Refusal :=
  .next (s.tenantMsg session 10 m fun s _ => (s.deaccStart m.gallery 2 none).tenantAnswer m stOk [])

/-- RESERVED_TENANT_MESSAGE (R884): a code that R640 does not list. -/
def execReservedTenantMessage (session : Option Nat) (m : TenantMsg) (s : State) :
    Host.Outcome State Fault Refusal :=
  if 1 ≤ m.code && m.code ≤ 10 then .next s
  else
    .next (s.answering fun s =>
      match session with
      | none => s.out (.spdmError "UnexpectedRequest")
      | some sid =>
        if s.sessionOpen sid then s.tenantAnswer m stUnsupported [] else s.out (.spdmError "UnexpectedRequest"))

/-! ### G0's keys (R647) -/

/-- The payload of R639 in a parameter block. -/
def TenantMsg.dec (b : Bytes) : TenantMsg :=
  let count := getLe b 12 2
  { code := getLe b 0 2, gallery := getLe b 2 1 % 64, port := getLe b 3 1 % 64, slot := getLe b 4 1 % 64
    gen := getLe b 6 2, period := getLe b 8 2, lead := getLe b 10 2 % 4096, count := count
    material := sliceB b 16 96
    reserved := getLe b 2 1 ≥ 64 || getLe b 3 1 ≥ 64 || getLe b 4 1 ≥ 64 || !zeroB b 5 1 || getLe b 10 2 ≥ 4096
      || !zeroB b 14 2 || !zeroB b 112 16
      || (getLe b 0 2 == 7 && (List.range count).any fun i => getLe b (128 + 2 * i) 2 ≥ 4096)
    members := if getLe b 0 2 = 7 then
      (List.range count).map fun i => BitVec.ofNat 12 (getLe b (128 + 2 * i) 2) else [] }

/-- The length of a G0_KEY block fits its code (R710). -/
def g0KeyLen (b : Bytes) : Bool :=
  b.length == 128 + (if getLe b 0 2 = 7 then 2 * getLe b 12 2 else 0)

/-- Checks of a G0_KEY: the form, gallery 0, the slot's owner and state, the lead (R641, R647, R884). -/
def State.g0KeyCheck (s : State) (m : TenantMsg) : Option Nat :=
  if !msgForm m then some stMalformed
  else if m.gallery ≠ 0 then some stDenied
  else if 4 ≤ m.code && m.code ≤ 6 && ((s.docent m.port).slot m.slot).owner != some 0 then some stDenied
  else if m.code = 8 && (!(s.gal 0).root || (s.gal 0).lead != s.node) then some stWrongState
  else if !s.slotFits m.code m.port m.slot 0 then some stWrongState
  else none

/-- A G0_KEY command of a code, under the checks of R709: whatever they give, its block is overwritten with zeros before
the completion (R621, R647). -/
def State.g0Key (s : State) (code : Nat) : State :=
  let mine (t : Taken) : Bool :=
    t.opcode == 0x12 && leNat (s.vmBytes t.blockVpa 2) == code && t.blockIn && t.paramLen ≥ 128
  if !s.cur.up then s
  else
    match s.takenBy 0 mine with
    | none => s
    | some t =>
      let ends (s : State) (st : Nat) : State := (s.vmZero t.blockVpa t.paramLen).complete t st 0
      match s.readBlock t with
      | (s, none) => ends s stDataError
      | (s, some b) =>
        let m := TenantMsg.dec b
        if t.rsv || !noArgs t.args || !g0KeyLen b then ends s stMalformed
        else if !s.serving then ends s stWrongState
        else
          match s.g0KeyCheck m with
          | some st => ends s st
          | none => ends (s.keyEffect code 0 m) stOk

/-- G0_KEY_INSTALL (R647). -/
def execG0KeyInstall (s : State) : Host.Outcome State Fault Refusal := .next (s.g0Key 4)

/-- G0_KEY_RETIRE (R647). -/
def execG0KeyRetire (s : State) : Host.Outcome State Fault Refusal := .next (s.g0Key 5)

/-- G0_KEY_ACTIVATE (R647). -/
def execG0KeyActivate (s : State) : Host.Outcome State Fault Refusal := .next (s.g0Key 6)

/-- G0_FABRIC_ROOT (R647): an earlier secret is replaced at once. -/
def execG0FabricRoot (s : State) : Host.Outcome State Fault Refusal := .next (s.g0Key 7)

/-- G0_FABRIC_STEP (R647). -/
def execG0FabricStep (s : State) : Host.Outcome State Fault Refusal := .next (s.g0Key 8)

/-! ### The quorum set (R667) -/

/-- The body of a set: n, k, zeros and n keys. -/
def setBodyOk (b : Bytes) : Bool :=
  let n := getLe b 0 1
  let k := getLe b 1 1
  1 ≤ k && k ≤ n && n ≤ 7 && zeroB b 2 6 && b.length == 8 + 96 * n

/-- The set becomes this body, and measurement 0x05 changes (R626, R667). -/
def State.installSet (s : State) (b : Bytes) : State :=
  { s with sec :=
    { s.sec with
      quorum := (List.range (getLe b 0 1)).map fun i => sliceB b (8 + 96 * i) 96
      k := getLe b 1 1 } }.measChanged 5

/-- QUORUM_SET (R667): in SERVICE only. -/
def execQuorumSet (s : State) : Host.Outcome State Fault Refusal :=
  .next (s.runPf (fun t => t.opcode == 0x18)
    { lenOk := fun n => 104 ≤ n && n ≤ 680, argsOk := noArgs, blockOk := setBodyOk, states := [.service] }
    fun s t b => (s.installSet b).complete t stOk 0)

/-! ### Quorum requests (R668 to R671) -/

/-- Length of the body without a set. -/
def quorumLen (b : Bytes) : Nat := 64 + 100 * getLe b 1 1

/-- Targets that an action may name: a port for EXPEL_PORT and LIFT_PORT, a node id for EXPEL_PEER. -/
def quorumTargetOk (action target : Nat) : Bool :=
  if action = 1 || action = 4 then target < 48 else target < 4096

/-- The body is well formed (R668, R670). -/
def quorumForm (b : Bytes) : Bool :=
  let action := getLe b 0 1
  let sigs := getLe b 1 1
  1 ≤ action && action ≤ 7 && 1 ≤ sigs && sigs ≤ 7 && quorumTargetOk action (getLe b 2 2) && getLe b 4 2 < 4096
    && zeroB b 6 2 && zeroB b 12 52
    && (List.range sigs).all (fun i => zeroB b (65 + 100 * i) 3)
    && (if action = 7 then setBodyOk (b.drop (quorumLen b)) else b.length == quorumLen b)

/-- What each signer signs: the string, the first 64 bytes of the body, the digest of the module's identity key, and for
REPLACE_SET the new set's body (R669). -/
def State.quorumText (s : State) (b : Bytes) : Bytes :=
  ascii "IVX48 quorum" ++ sliceB b 0 64 ++ sha384 s.flash.identity
    ++ (if getLe b 0 1 = 7 then b.drop (quorumLen b) else [])

/-- Distinct signers of the set whose signatures verify (R669). -/
def State.signers (s : State) (b : Bytes) : Nat :=
  let signer (i : Nat) : Nat := getLe b (64 + 100 * i) 1
  let good (i : Nat) : Bool :=
    signer i < s.sec.quorum.length
      && ecdsaOk (s.sec.quorum.getD (signer i) []) (s.quorumText b) (sliceB b (68 + 100 * i) 96)
  (((List.range (getLe b 1 1)).filter good).map signer).eraseDups.length

/-- A QUORUM_ACTION record (R678). -/
def State.quorumRecord (s : State) (b : Bytes) (status verified : Nat) : State :=
  s.incident 0
    { cls := 0x0D, status := status
      infoA := getLe b 0 1 + verified * 256 + (getLe b 2 2 % 4096) * 65536 + getLe b 8 4 * 2 ^ 32 }

/-- A port is taken out of service (R602, R670). The manual gives the PORT_DOWN record of an expulsion no cause
code: it is free. -/
def State.expel (s : State) (p : Nat) : State :=
  if (s.link p).state == .expelled then s
  else
    let downs := satAdd 8 (s.link p).downs 1
    let s := (s.draw).incident 0 { cls := 0x08, port := p, infoA := (Config.freeByte s.freeCtr).toNat + downs * 256 }
    s.linkLost p .expelled

/-- An EXPELLED port becomes DOWN and trains (R603, R670). -/
def State.lift (s : State) (p : Nat) : State :=
  if (s.link p).state == .expelled then
    (s.modLink p fun l => { l with state := .down, attempts := 0, trainRefused := false }).startTraining p
  else s

/-- OPERATIONAL becomes DRAIN (R5, R6). -/
def State.enterDrain (s : State) : State :=
  ({ s with ctl := { s.ctl with lastStatus := stOk } } : State).setModState .drain

/-- A state request by quorum (R6, R670, R721). -/
def State.quorumDrain (s : State) : State × Nat :=
  if s.ctl.target.isSome then ({ s with ctl := { s.ctl with lastStatus := stBusy } }, stBusy)
  else if s.ctl.state == .operational then (s.enterDrain, stOk)
  else ({ s with ctl := { s.ctl with lastStatus := stWrongState } }, stWrongState)

/-- The effect of an authorised action (R670). -/
def State.quorumAct (s : State) (action : Nat) (b : Bytes) : State × Nat :=
  let target := getLe b 2 2
  let ports := List.range 48
  if action = 1 then (s.expel target, stOk)
  else if action = 2 then
    ((ports.filter fun p => s.role p == 2 && (s.link p).peerNode == target).foldl (fun s p => s.expel p) s, stOk)
  else if action = 3 then
    let s := ports.foldl (fun s p => s.expel p) s
    if s.ctl.state == .operational then s.quorumDrain else (s, stOk)
  else if action = 4 then (s.lift target, stOk)
  else if action = 5 then (ports.foldl (fun s p => s.lift p) s, stOk)
  else if action = 6 then s.quorumDrain
  else (s.installSet (b.drop (quorumLen b)), stOk)

/-- A well-formed request: a set must be installed; the module, the sequence and the signatures must be right
(R667, R669). -/
def State.quorumRequest (s : State) (b : Bytes) : State × Nat :=
  if s.sec.quorum.isEmpty then (s, stWrongState)
  else
    let n := s.signers b
    if getLe b 4 2 = s.node && getLe b 8 4 = s.sec.nextSeq && s.sec.k ≤ n then
      let s := { s with sec := { s.sec with nextSeq := wrapAdd 32 s.sec.nextSeq 1 } }
      (s.quorumRecord b stOk n).quorumAct (getLe b 0 1) b
    else (s.quorumRecord b stUnauthorised n, stUnauthorised)

/-- A request of this action, by the command ring or by the I3C sideband (R668, R758). -/
def State.quorumRow (s : State) (mine : Nat → Bool) (via : QuorumVia) : State :=
  let run (s : State) (b : Bytes) : State × Nat := if quorumForm b then s.quorumRequest b else (s, stMalformed)
  match via with
  | .ring =>
    s.runPf (fun t => t.opcode == 0x19 && mine (leNat (s.vmBytes t.blockVpa 1)))
      { lenOk := fun n => 164 ≤ n, argsOk := noArgs, blockOk := fun _ => true, states := servingStates }
      fun s t b => match run s b with
        | (s, st) => (s.complete t st 0).driveAll
  | .i3c b =>
    if !s.cur.up || !s.serving || !mine (getLe b 0 1) then s
    else
      match run s b with
      | (s, st) => (s.out (.i3c "QUORUM_REQUEST" (natLe 1 st))).driveAll

/-- EXPEL_PORT (R670). -/
def execExpelPort (via : QuorumVia) (s : State) : Host.Outcome State Fault Refusal :=
  .next (s.quorumRow (· == 1) via)

/-- EXPEL_PEER (R670). -/
def execExpelPeer (via : QuorumVia) (s : State) : Host.Outcome State Fault Refusal :=
  .next (s.quorumRow (· == 2) via)

/-- ISOLATE (R670). -/
def execIsolate (via : QuorumVia) (s : State) : Host.Outcome State Fault Refusal :=
  .next (s.quorumRow (· == 3) via)

/-- LIFT_PORT (R670). -/
def execLiftPort (via : QuorumVia) (s : State) : Host.Outcome State Fault Refusal :=
  .next (s.quorumRow (· == 4) via)

/-- LIFT_ALL (R670). -/
def execLiftAll (via : QuorumVia) (s : State) : Host.Outcome State Fault Refusal :=
  .next (s.quorumRow (· == 5) via)

/-- DRAIN (R670). -/
def execDrain (via : QuorumVia) (s : State) : Host.Outcome State Fault Refusal :=
  .next (s.quorumRow (· == 6) via)

/-- REPLACE_SET (R670). -/
def execReplaceSet (via : QuorumVia) (s : State) : Host.Outcome State Fault Refusal :=
  .next (s.quorumRow (· == 7) via)

/-- RESERVED_QUORUM_ACTION (R670): MALFORMED. -/
def execReservedQuorumAction (via : QuorumVia) (s : State) :
    Host.Outcome State Fault Refusal :=
  .next (s.quorumRow (fun a => a == 0 || 7 < a) via)

end Sys2Proof.Machine
end

