-- ==== Sys2Proof/Machine/Translate.lean ====
section
/-! DEFINITION. What the host's translation agent sends (R420 to R448, R462): ATS completions and their
timeouts, PRG responses and their timeouts, and invalidations. -/

namespace Sys2Proof.Machine

/-! ### ATS completions (R421 to R423, R431, R440, R445) -/

/-- A TRANSLATION_ERROR record of a request (R421, R450): one, for its first stream. A look-ahead, for which no stream
waits, has no access to fail and leaves none. DEDUCED: log entry 90. -/
def State.translationError (s : State) (a : AtsReq) (status : Nat) (log2 : Option Nat) : State :=
  match a.streams.head? with
  | none => s
  | some x =>
    let (port, ctx, _, _) := s.streamInfo x.st
    s.galIncident a.gal
      { cls := 0x02, status := stFault, gal := a.gal, port := port, ctx := ctx, pasid := a.pasid
        addr := x.fva, infoA := status % 256 + (log2.getD 0x3F) % 64 * 256 }

/-- The access of every stream of a request fails with FAULT. -/
def State.failStreams (s : State) (p : Nat) (xs : List StreamWait) : State :=
  xs.foldl (fun s x => s.accessFail p x stFault) s

/-- The access of every stream of a request fails with FAULT, and a record says so (R421). -/
def State.atsFailed (s : State) (p : Nat) (a : AtsReq) (status : Nat) (log2 : Option Nat) : State :=
  (s.translationError a status log2).failStreams p a.streams

/-- Send a request again, its streams waiting on (R421, R445). -/
def State.atsAgain (s : State) (p : Nat) (a : AtsReq) (retried : Bool) : State :=
  match s.galFn a.gal with
  | none => s.failStreams p a.streams
  | some f =>
    if !s.mayTranslate a.gal then s.failStreams p a.streams
    else
      (s.modDocent p fun d =>
        { d with ats := d.ats ++ [{ a with stale := false, retried := retried }] }).out
        (.ats f a.pasid (a.page * 2 ^ 21) 1 false)

/-- The page of a completion (R421): 1 GiB where the range has it, else 2 MiB. -/
def pageOf (a : AtsReq) (fva lg addr : Nat) (r w : Bool) : TlbEntry :=
  let big := lg ≥ 30
  let base := fva / pageBytes big * pageBytes big
  { gal := a.gal, pasid := a.pasid, big := big, page := fva / pageBytes big
    fpa := addr + base % 2 ^ lg, r := r, w := w }

/-- A stream goes on with a new page, or needs a page request for the permission that it lacks (R422,
R423). -/
def State.usePage (s : State) (p gal pasid : Nat) (e : TlbEntry) (x : StreamWait) : State :=
  if !e.grants x.r x.w then s.pageNeed p gal pasid x e.r e.w
  else
    let cached := (s.docent p).tlb.any fun y => y.covers gal pasid x.fva && y.grants x.r x.w
    let s := if cached then s
      else s.modDocent p fun d => { d with oneShot := (x.st, e) :: d.oneShot }
    let s := s.resumeStream p x.st
    s.modDocent p fun d => { d with oneShot := d.oneShot.filter fun y => !(y.1 == x.st && y.2 == e) }

/-- Take a translation (R421, R424): both caches are filled, and every stream goes on. -/
def State.takePage (s : State) (p : Nat) (a : AtsReq) (lg addr : Nat) (r w : Bool) : State :=
  let e := pageOf a (a.page * 2 ^ 21) lg addr r w
  let s := (s.fillCidx e).fillUcache p e
  a.streams.foldl (fun s x => s.usePage p a.gal a.pasid e x) s

/-- ATS_COMPLETION (R421). -/
def execAtsCompletion (p : Port) (req : Nat) (res : AtsResult) (s : State) :
    Host.Outcome State Fault Refusal :=
  match (s.docent p).ats.find? fun a => a.id == req with
  | none => .next s
  | some a =>
    let s := s.modDocent p fun d => { d with ats := d.ats.filter fun x => x.id != req }
    let s := if a.stale then s.atsAgain p a a.retried
      else
        match res with
        | .error st => s.atsFailed p a st none
        | .trans lg addr r w u =>
          if u then s.atsFailed p a 0 lg
          else if !r && !w then
            a.streams.foldl (fun s x => s.pageNeed p a.gal a.pasid x false false) s
          else
            match lg with
            | none => s.atsFailed p a 0 none
            | some lg =>
              if lg < 21 || addr.toNat % 2 ^ lg ≠ 0 then s.atsFailed p a 0 (some lg)
              else s.takePage p a lg addr.toNat r w
    .next (((s.slotFreed p).drive p))

/-- ATS_COMPLETION_TIMEOUT (R421): the request is sent once more; a second timeout fails the access. -/
def execAtsCompletionTimeout (p : Port) (req : Nat) (s : State) : Host.Outcome State Fault Refusal :=
  match (s.docent p).ats.find? fun a => a.id == req with
  | none => .next s
  | some a =>
    let s := s.modDocent p fun d => { d with ats := d.ats.filter fun x => x.id != req }
    let s := if a.stale then s.atsAgain p a false
      else if a.retried then s.atsFailed p a 0xFF none
      else s.atsAgain p a true
    .next ((s.slotFreed p).drive p)

/-! ### Page requests (R437 to R443) -/

/-- PAGE_REQUEST (R437): the function's oldest waiting page request is recorded and sent, if there is ring
space and allocation. -/
def execPageRequest (f : FnNo) (s : State) : Host.Outcome State Fault Refusal := .next (s.sendPage f)

/-- The port of a stream. -/
def Stream.port : Stream → Nat
  | .ctx g => g / 16
  | .ep p _ => p

/-- Every stream of a page request fails, each at its own address (R436, R439, R441). -/
def State.refusePage (s : State) (q : PageReq) : State :=
  q.streams.foldl (fun s x => s.accessFail x.st.port x stFault) s

/-- A stream translates again after a Success response (R439): from a cache, or by a new request, during
which a context stays PARKED (R438). -/
def State.translateAgain (s : State) (q : PageReq) (x : StreamWait) : State :=
  (s.addSuccess x.st.port x).translateStream x.st.port q.gal q.pasid x

/-- PRI of a function stops: every other page request pending on it fails with FAULT; indexes already sent
stay in use (R439, R442, R462). -/
def State.stopPri (s : State) (f idx : Nat) : State :=
  let x := s.fn f
  let open_ := (x.prgs.filter fun q => !q.2.abandoned).map Prod.snd
  let give (q : Nat × PageReq) : Nat × PageReq := (q.1, { q.2 with abandoned := true })
  let s := s.modFn f fun x => { x with priStopped := true, waiting := [], prgs := x.prgs.map give }
  let s := s.incident f { cls := 0x06, gal := (s.fnGal f).getD 0, infoA := idx }
  (open_ ++ x.waiting).foldl (fun s q => s.refusePage q) s

/-- PRG_RESPONSE (R439). -/
def execPrgResponse (f : FnNo) (idx : BitVec 9) (code : PrgCode) (s : State) :
    Host.Outcome State Fault Refusal :=
  match (s.fn f).prgs.find? fun q => q.1 == idx.toNat with
  | none => .next { s with trn := { s.trn with stray := satAdd 16 s.trn.stray 1 } }
  | some (_, q) =>
    let s := s.modFn f fun x => { x with prgs := x.prgs.filter fun q => q.1 != idx.toNat }
    let s := match code with
      | .success => if q.abandoned then s else q.streams.foldl (fun s st => s.translateAgain q st) s
      | .invalidRequest =>
        if q.abandoned then s
        else ({ s with trn := { s.trn with refused := wrapAdd 24 s.trn.refused 1 } }).refusePage q
      | .responseFailure =>
        if q.abandoned then s
        else
          let s := s.stopPri f idx.toNat
          ({ s with trn := { s.trn with refused := wrapAdd 24 s.trn.refused 1 } }).refusePage q
    .next ((s.sendPage f).driveAll)

/-- PR_TIMEOUT_EXPIRY (R441): an unanswered page request is handled as Invalid Request; its index stays in
use (R442). -/
def execPrTimeoutExpiry (f : FnNo) (idx : BitVec 9) (s : State) : Host.Outcome State Fault Refusal :=
  match (s.fn f).prgs.find? fun q => q.1 == idx.toNat with
  | none => .next s
  | some (_, q) =>
    if q.abandoned || (s.gal q.gal).prTimeout = 0 then .next s
    else
      let give (x : Nat × PageReq) : Nat × PageReq := (x.1, { x.2 with abandoned := true })
      let s := s.modFn f fun x => { x with prgs := modifyFirst (fun q => q.1 == idx.toNat) give x.prgs }
      let s := { s with trn := { s.trn with refused := wrapAdd 24 s.trn.refused 1 } }
      .next ((s.refusePage q).driveAll)

/-! ### Invalidations (R444, R445, R448) -/

/-- Begin an invalidation: steps 1, 2 and 4 of R445 at once, and note what step 3 waits for: every packet generated
under a dropped entry, whether sent or waiting to be sent, and the write-backs of step 4. -/
def State.beginInval (s : State) (f itag gal : Nat) (pasid : Option Nat) (base len log2 : Nat) (held : Bool) :
    State :=
  let s := s.invalidate gal pasid base len
  let i : Inval :=
    { itag := itag, gal := gal, pasid := pasid, base := base, log2 := log2
      waits := s.invalWaits gal pasid base len, held := held }
  s.modFn f fun x => { x with invals := x.invals ++ [i] }

/-- ATS_INVALIDATE_REQUEST (R444): at most 32 per function at once (R448). A function without a gallery has
nothing cached. -/
def execAtsInvalidateRequest (f : FnNo) (itag : BitVec 5) (pasid : Option (BitVec 20)) (base : Word)
    (log2Range : Nat) (s : State) : Host.Outcome State Fault Refusal :=
  if (s.fn f).invals.length ≥ 32 || (s.fn f).invals.any (fun i => i.itag == itag.toNat) then .next s
  else
    match s.fnGal f with
    | none =>
      .next (s.modFn f fun x =>
        { x with invals := x.invals ++
            [{ itag := itag.toNat, gal := 64, pasid := none, base := 0, log2 := 0, waits := [], held := false }] })
    | some g =>
      let held := (s.gal g).deaccStep = 2 || (s.gal g).deaccStep = 3
      .next ((s.beginInval f itag.toNat g (pasid.map (·.toNat)) base.toNat (2 ^ log2Range) log2Range
        held).driveAll)

/-- Steps 3 to 5 of R445 are met. -/
def State.invalDone (s : State) (i : Inval) : Bool :=
  let sent := i.waits.all fun n => !(s.replay ++ s.held).any fun o => o.uid == n
  let kept := s.ctxs.any fun c =>
    c.2.bound && c.2.gal == i.gal && i.pasid.all (· == c.2.pasid)
      && c.2.ops.any fun o => o.col.kept.any fun k => overlaps k.1 (2 ^ k.2.1) i.base (2 ^ i.log2)
  sent && !kept && !i.held

/-- INVALIDATE_COMPLETION (R445): every step is met, and the completion returns. -/
def execInvalidateCompletion (f : FnNo) (itag : BitVec 5) (s : State) :
    Host.Outcome State Fault Refusal :=
  match (s.fn f).invals.find? fun i => i.itag == itag.toNat with
  | none => .next s
  | some i =>
    if !s.invalDone i then .next s
    else
      .next (({ s with trn := { s.trn with inval := wrapAdd 24 s.trn.inval 1 } }.modFn f fun x =>
        { x with invals := x.invals.filter fun i => i.itag != itag.toNat }).out (.invalDone f itag.toNat))

end Sys2Proof.Machine
end

