-- ==== Sys2Proof/Machine/Rings.lean ====
section
/-! DEFINITION. The host interface (R685 to R725): rings, doorbells, interrupts, BAR2, the sync portal, function
resets, configuration space, and the state commands. -/

namespace Sys2Proof.Machine

/-- Rings of a function (R696). -/
def ringExists (f r : Nat) : Bool := r < 3 || (f = 0 && r < 5)

/-! ### Taking commands (R700 to R707, R885) -/

/-- The function's command ring may give its next command: R686, R702, R707, R731, and R673 for a gallery being
deaccessed. -/
def State.mayTake (s : State) (f : Nat) : Bool :=
  let x := s.fn f
  let c := x.ring 0
  let d := x.ring 1
  s.cur.up && s.serving && !x.d3hot && c.en && !c.stopped && c.pi != c.ci && d.en && !d.stopped
    && d.used + (x.taken.filter fun t => !t.discard).length < d.size
    && !(x.gal != 0 && (s.gal x.gal).state == .deaccessioning)

/-- Take one command (R705 to R709): an entry that fails correction completes at once with DATA_ERROR; its opcode is
not known. -/
def State.takeOne (s : State) (f : Nat) : State :=
  let x := s.fn f
  let c := x.ring 0
  let (s, e) := s.vmRead (ringSlot f 0 c c.ci) 64
  let s := s.modFn f fun x =>
    { x.modRing 0 fun r => { r with ci := wrapAdd 32 r.ci 1 } with cmdsTaken := wrapAdd 32 x.cmdsTaken 1 }
  match e with
  | none =>
    s.draw.ringPut f 1
      (completionBytes 0xFFFFFFFF c.ci (Config.freeWord s.freeCtr).toNat stDataError 0)
  | some bs =>
    let k := CmdEntry.dec bs
    let t : Taken :=
      { fn := f, uid := x.nextUid, seq := c.ci, cmdId := k.cmdId, opcode := k.opcode, paramOff := k.paramOff
        paramLen := k.paramLen, args := k.args, rsv := k.rsv, started := false, discard := false }
    s.modFn f fun x => { x with taken := x.taken ++ [t], nextUid := x.nextUid + 1 }

/-- Take commands while R707 allows it. -/
def State.takeLoop (s : State) (f : Nat) : Nat → State
  | 0 => s
  | n + 1 => if s.mayTake f then (s.takeOne f).takeLoop f n else s

def State.takeAll (s : State) (f : Nat) : State := s.takeLoop f ((s.fn f).ring 1).size

/-- One turn of each function: at most one command of each is taken (R707). -/
def State.takeTurn (s : State) : State :=
  (s.fns.map Prod.fst).foldl (fun s f => if s.mayTake f then s.takeOne f else s) s

/-- Turns while a command may be waiting. -/
def State.takeTurns (s : State) : Nat → State
  | 0 => s
  | n + 1 => s.takeTurn.takeTurns n

/-- The functions' commands are taken in round robin (R707): as many turns as the longest command ring has entries
waiting. -/
def State.takeEvery (s : State) : State :=
  s.takeTurns ((s.fns.map fun x => (x.2.ring 0).used).foldl max 0)

/-- A write of the command ring's pi: beyond the ring it stops the ring; with the ring disabled it is lost (R700,
R702, R727). -/
def State.doorbell (s : State) (f pi : Nat) : State :=
  if !((s.fn f).ring 0).en then s
  else
    (s.modFn f fun x => x.modRing 0 fun r =>
      let r := { r with pi := pi }
      { r with stopped := r.stopped || r.used > r.size }).takeAll f

/-- COMMAND_DOORBELL (R700). -/
def execCommandDoorbell (f : FnNo) (pi : BitVec 32) (s : State) : Host.Outcome State Fault Refusal :=
  if !s.barOpen f then .next s else .next (s.doorbell f pi.toNat)

/-- Waiting page requests are recorded and sent while there is room (R437, R455). -/
def State.sendPages (s : State) (f : Nat) : State :=
  (s.fn f).waiting.foldl (fun s _ => s.sendPage f) s

/-- A write of a module ring's ci: outside the range from its value to pi it stops the ring (R701, R702). -/
def State.consumer (s : State) (f r ci : Nat) : State :=
  let g := (s.fn f).ring r
  if r = 0 || !ringExists f r || !g.en then s
  else
    let ok := (ci + 2 ^ 32 - g.ci) % 2 ^ 32 ≤ g.used
    let s := s.modFn f fun x => x.modRing r fun g => { g with ci := ci, stopped := g.stopped || !ok }
    if r = 1 then s.takeAll f else if r = 2 then s.sendPages f else s

/-- CONSUMER_INDEX_WRITE (R702). -/
def execConsumerIndexWrite (f : FnNo) (r : Fin 5) (ci : BitVec 32) (s : State) :
    Host.Outcome State Fault Refusal :=
  if !s.barOpen f then .next s else .next (s.consumer f r ci.toNat)

/-! ### RING_CFG (R698, R699, R704) -/

/-- Bytes of the slice that a ring takes: first and end. -/
def ringSpan (r log2 base : Nat) : Nat × Nat := (base * 4096, base * 4096 + 2 ^ log2 * ringEntry r)

/-- The ring ends within the slice and overlaps no other enabled ring of the function (R699). -/
def Fn.ringFits (x : Fn) (r log2 base : Nat) : Bool :=
  let a := ringSpan r log2 base
  a.2 ≤ sliceBytes && (List.range 5).all fun k =>
    let g := x.ring k
    let b := ringSpan k g.log2 g.base
    k == r || !g.en || a.2 ≤ b.1 || b.2 ≤ a.1

/-- RING_CFG takes a written value (R698): base and size only while en is 0; refused is cleared by a 1. -/
def Ring.config (g : Ring) (v : Word) : Ring :=
  let lg := fieldN v 32 4
  let g := { g with refused := g.refused && !bitN v 61 }
  if g.en then g
  else { g with log2 := if 6 ≤ lg && lg ≤ 14 then lg else 6, base := fieldN v 12 10 }

/-- en changes from 0 to 1: the indices are 0, the ring is not stopped, and its records are numbered from 0 (R452,
R699). -/
def Fn.enableRing (x : Fn) (r : Nat) : Fn :=
  let x := x.modRing r fun g => { g with en := true, stopped := false, pi := 0, ci := 0 }
  if r = 2 then { x with incSeq := 0 } else if r = 3 then { x with logSeq := 0 }
  else if r = 4 then { x with specSeq := 0 } else x

/-- A write of RING_CFG_r (R698, R699, R704). -/
def State.ringCfg (s : State) (f r : Nat) (v : Word) : State :=
  if !ringExists f r then s
  else
    let was := ((s.fn f).ring r).en
    let s := s.modFn f fun x => x.modRing r fun g => g.config v
    let g := (s.fn f).ring r
    if !bitN v 63 then s.modFn f fun x => x.modRing r fun g => { g with en := false }
    else if was then s
    else if (s.fn f).ringFits r g.log2 g.base then
      let s := s.modFn f fun x => x.enableRing r
      if r = 1 then s.takeAll f else if r = 2 then s.sendPages f else s
    else s.modFn f fun x => x.modRing r fun g => { g with refused := true }

/-- RING_ENABLE (R699): a write that sets en. -/
def execRingEnable (f : FnNo) (r : Fin 5) (v : Word) (s : State) : Host.Outcome State Fault Refusal :=
  if !s.barOpen f || !bitN v 63 then .next s else .next (s.ringCfg f r v)

/-- RING_DISABLE (R704): a write that clears en. -/
def execRingDisable (f : FnNo) (r : Fin 5) (v : Word) (s : State) : Host.Outcome State Fault Refusal :=
  if !s.barOpen f || bitN v 63 then .next s else .next (s.ringCfg f r v)

/-! ### Interrupts (R686, R687, R715 to R718) -/

/-- A cause of a function is pending (R716). -/
def State.causePending (s : State) (f c : Nat) : Bool :=
  let x := s.fn f
  let unread (r : Nat) : Bool := (x.ring r).pi != (x.ring r).ci
  if c = 0 then unread 1 else if c = 1 then unread 2
  else if f ≠ 0 then false
  else if c = 2 then unread 3 else if c = 3 then unread 4 else c == 4 && s.ctl.changed

def Fn.int (x : Fn) (c : Nat) : IntMap := Tab.get IntMap.reset x.ints c
def Fn.vec (x : Fn) (v : Nat) : Msix := Tab.get Msix.reset x.msix v

/-- The function may send messages: bus mastering and MSI-X are enabled, and it is in D0 (R686, R687). -/
def Fn.mayInterrupt (x : Fn) : Bool := x.busMaster && x.msixEn && !x.d3hot

/-- A vector's message is due: sent, or left pending in the PBA (R687, R718). -/
def State.msixDue (s : State) (f v : Nat) : State :=
  let x := s.fn f
  if x.mayInterrupt && !(x.vec v).masked then
    (s.modFn f fun x => { x with msix := Tab.modify Msix.reset x.msix v fun m => { m with pending := false } }).out
      (.msix (32 * f + v))
  else s.modFn f fun x => { x with msix := Tab.modify Msix.reset x.msix v fun m => { m with pending := true } }

/-- Pending messages that may now be sent are sent. -/
def State.flushMsix (s : State) (f : Nat) : State :=
  ((s.fn f).msix.filter fun m => m.2.pending).foldl (fun s m => s.msixDue f m.1) s

/-- MSI_X_MESSAGE (R718): a cause that is pending and armed sends its vector's message, and its arm is cleared. -/
def execMsiXMessage (f : FnNo) (c : Fin 5) (s : State) : Host.Outcome State Fault Refusal :=
  let i := (s.fn f).int c
  if i.arm && s.causePending f c then
    .next ((s.modFn f fun x =>
      { x with ints := Tab.modify IntMap.reset x.ints c fun i => { i with arm := false } }).msixDue f i.vector)
  else .next s

/-! ### BAR2 (R662, R690 to R693) -/

/-- Where a BAR2 access lies: a vault address, or none if it is not owned or falls in no range (R690, R692). -/
def State.bar2Vpa (s : State) (f off len : Nat) : Option Nat :=
  if off + len ≤ sliceBytes then some (vpaSlice f + off)
  else if 0x100000000 ≤ off && off + len ≤ 0x100000000 + stagingBytes then
    if f = 0 then some (vpaStaging + (off - 0x100000000)) else none
  else if 0x200000000 ≤ off && off + len ≤ 0x200000000 + shelfBytes then
    match s.fnGal f with
    | some g => if s.shelfOwned g (off - 0x200000000) len then some (vpaShelf (off - 0x200000000)) else none
    | none => none
  else none

/-- A memory request in a form that a running TDI does not accept (R662). -/
def State.teeRefused (s : State) (f : Nat) (tee : Bool) : Bool := (s.fn f).tdi == 2 && !tee

/-- Count a refused access (R692). -/
def State.bar2Refuse (s : State) (f : Nat) : State :=
  s.modFn f fun x => { x with bar2Refused := wrapAdd 32 x.bar2Refused 1 }

/-- BAR2_READ (R692): the bytes, Unsupported Request, or Completer Abort where correction fails (R479). -/
def execBar2Read (f : FnNo) (off len : Nat) (tee : Bool) (s : State) : Host.Outcome State Fault Refusal :=
  if !s.barOpen f || s.teeRefused f tee then .next (s.out (.bar2Unsupported f))
  else
    match s.bar2Vpa f off len with
    | none => .next ((s.bar2Refuse f).out (.bar2Unsupported f))
    | some a =>
      match s.vmRead a len with
      | (s, some bs) => .next (s.out (.bar2 f bs))
      | (s, none) => .next (s.out (.bar2Abort f))

/-- BAR2_WRITE (R693): partial codewords are merged (R481); an access that is not owned is discarded and counted
(R692). -/
def execBar2Write (f : FnNo) (off : Nat) (bs : Bytes) (tee : Bool) (s : State) :
    Host.Outcome State Fault Refusal :=
  if !s.barOpen f then .next s
  else if s.teeRefused f tee then .next (s.out (.bar2Unsupported f))
  else
    match s.bar2Vpa f off bs.length with
    | none => .next (s.bar2Refuse f)
    | some a => .next (s.vmMerge a bs).1

/-! ### The sync portal and SO_VALUE (R284, R289 to R291) -/

/-- The result registers of the portal. A failed operation returns no value: the register is then free. -/
def State.portalDone (s : State) (f status : Nat) (v : Option Word) : State :=
  match v with
  | some v => s.modFn f fun x => { x with soResult := v, soStatus := status }
  | none => s.draw.modFn f fun x => { x with soResult := Config.freeWord s.freeCtr, soStatus := status }

/-- A portal operation (R289 to R291). -/
def State.portal (s : State) (f so sub : Nat) : State :=
  let x := s.fn f
  if f = 0 || !s.barOpen f then s
  else if sub > soCas then s.portalDone f stMalformed none
  else if x.gal = 0 || !s.soOwned so x.gal then s.portalDone f stDenied none
  else
    let old := (s.so so).value
    let s := if sub = soRead then s else s.soCommit so (syncApply sub old x.opA x.opB)
    s.portalDone f stOk (some old)

/-- GAL_SO_READ (R291). -/
def execGalSoRead (f : FnNo) (so : SoNo) (s : State) : Host.Outcome State Fault Refusal :=
  .next (s.portal f so.toNat soRead)

/-- GAL_SO_ADD (R291). -/
def execGalSoAdd (f : FnNo) (so : SoNo) (s : State) : Host.Outcome State Fault Refusal :=
  .next (s.portal f so.toNat soAdd)

/-- GAL_SO_SET (R291). -/
def execGalSoSet (f : FnNo) (so : SoNo) (s : State) : Host.Outcome State Fault Refusal :=
  .next (s.portal f so.toNat soSet)

/-- GAL_SO_MIN (R291). -/
def execGalSoMin (f : FnNo) (so : SoNo) (s : State) : Host.Outcome State Fault Refusal :=
  .next (s.portal f so.toNat soMin)

/-- GAL_SO_MAX (R291). -/
def execGalSoMax (f : FnNo) (so : SoNo) (s : State) : Host.Outcome State Fault Refusal :=
  .next (s.portal f so.toNat soMax)

/-- GAL_SO_CAS (R291). -/
def execGalSoCas (f : FnNo) (so : SoNo) (s : State) : Host.Outcome State Fault Refusal :=
  .next (s.portal f so.toNat soCas)

/-- A write of SO_VALUE_n: a SET of an object of G0; otherwise ignored (R284). -/
def State.soWrite (s : State) (n : Nat) (v : Word) : State := if s.soOwned n 0 then s.soCommit n v else s

/-- SO_VALUE_WRITE (R284). -/
def execSoValueWrite (so : SoNo) (v : Word) (s : State) : Host.Outcome State Fault Refusal :=
  if !s.blockOpen 1 then .next s else .next (s.soWrite so.toNat v)

/-! ### TOUR_LAUNCH (R84, R85, R712) -/

/-- The args of TOUR_LAUNCH are well formed (R712). -/
def launchArgs (a : Bytes) : Bool :=
  argLe a 16 1 < 48 && argLe a 17 1 < 16 && zeroB a 2 6 && argLe a 24 8 % 16 == 0 && fvaOk (argLe a 24 8)
    && argZeroFrom a 40

/-- TOUR_LAUNCH (R84): the checks of R709 and R712, the binding (DENIED), the gallery's state (R628), then BUSY. -/
def execTourLaunch (f : FnNo) (s : State) : Host.Outcome State Fault Refusal :=
  if !s.cur.up then .next s
  else
    match s.takenOf f 0x03 with
    | none => .next s
    | some t =>
      .next (s.runTaken t
        { lenOk := fun n => n == 0, argsOk := launchArgs, blockOk := fun _ => true
          states := [.off, .standby, .boot, .service, .operational, .drain, .recovery] }
        fun s t _ =>
          let p := argLe t.args 16 1
          let g := ctxIdx p (argLe t.args 17 1)
          let c := s.ctx g
          if !c.bound || s.fnGal f != some c.gal then s.complete t stDenied 0
          else if c.gal ≠ 0 && (s.gal c.gal).state != .active then s.complete t stWrongState 0
          else if s.launchBusy g then s.complete t stBusy 0
          else ((s.startTaken t).launch g (argLe t.args 24 8) (argLe t.args 32 8) (.ring t)).drive p)

/-! ### Module states on command (R5 to R8, R713, R890) -/

/-- The status of the last state request (R721). -/
def State.stateStatus (s : State) (st : Nat) : State := { s with ctl := { s.ctl with lastStatus := st } }

/-- STATE_SET (R713). In a module state that permits no STATE_SET it fails with WRONG_STATE as well (R710), and
last_status takes that status (R721). -/
def execStateSet (s : State) : Host.Outcome State Fault Refusal :=
  .next (s.runPf (fun t => t.opcode == 0x02)
    { lenOk := fun n => n == 0, argsOk := fun a => argZeroFrom a 17, blockOk := fun _ => true
      states := [.off, .standby, .boot, .service, .operational, .drain, .recovery] }
    fun s t _ =>
      let wanted := argLe t.args 16 1
      let bad (st : Nat) : State := (s.stateStatus st).complete t st 0
      if s.ctl.target.isSome then bad stBusy
      else if wanted = 4 && s.ctl.state == .service then
        let s := s.startTaken t
        { s with ctl := { s.ctl with target := some .operational, atomicsStopped := true, token := some t } }
      else if wanted = 5 && s.ctl.state == .operational then s.enterDrain.complete t stOk 5
      else bad stWrongState)

/-- An atomic is outstanding: in a replay store, waiting to be sent, at an end-point, or on its way to be handled
here (R8). -/
def State.atomicsOut (s : State) : Bool :=
  let isAtomic (h : Header) : Bool := fieldN h 0 8 == ftAtomic
  s.replay.any (fun o => isAtomic o.hdr) || s.held.any (fun o => isAtomic o.hdr)
    || s.arrived.any (fun x => isAtomic x.1)
    || s.docents.any (fun d => d.2.tgts.any (fun q => q.opcode == eoTAtomic)
        || d.2.reqs.any fun q => (EHdr.dec q.hdr).opcode == eoAtomic)
    || s.ctxs.any fun c => match c.2.block with | .atomic _ => true | _ => false

/-- ENTER_OPERATIONAL (R8): every outstanding atomic has completed. -/
def execEnterOperational (s : State) : Host.Outcome State Fault Refusal :=
  if s.ctl.target != some .operational || s.ctl.state != .service || s.atomicsOut then .next s
  else
    let token := s.ctl.token
    let s := { s with ctl :=
      { s.ctl with target := none, token := none, atomicsStopped := false, lastStatus := stOk } }
    let s := s.setModState .operational
    .next (match token with
      | some t => s.complete t stOk 4
      | none => s)

/-- DRAIN_EXIT (R890): every tenant gallery is FREE. -/
def execDrainExit (s : State) : Host.Outcome State Fault Refusal :=
  if s.ctl.state == .drain && s.allFree then .next (s.setModState .service) else .next s

/-! ### Function resets and configuration space (R442, R686 to R688, R724, R725) -/

/-- The registers that a function-level reset clears (R724, R725). -/
def Fn.clearHost (x : Fn) : Fn := { x with rings := [], ints := [], msix := [] }

/-- A function-level reset of a virtual function (R724). -/
def State.flrVf (s : State) (f : Nat) : State :=
  let s := s.modFn f fun x =>
    { x.clearHost with
      opA := 0, opB := 0
      taken := x.taken.map fun t => { t with discard := true } }
  if (s.fn f).tdi = 1 || (s.fn f).tdi = 2 then s.tdiError f else s

/-- Every virtual function. -/
def State.flrVfs (s : State) : State := (List.range 63).foldl (fun s i => s.flrVf (i + 1)) s

/-- FLR_VF (R724). -/
def execFlrVf (vf : FnNo) (s : State) : Host.Outcome State Fault Refusal :=
  if vf = 0 || !s.serving then .next s else .next (s.flrVf vf).driveAll

/-- A function-level reset of the physical function (R725). -/
def State.flrPf (s : State) : State :=
  let s := s.modFn 0 fun x => { x.clearHost with vfEnable := false }
  let s := { s with ctl := { s.ctl with changed := false } }
  s.flrVfs

/-- FLR_PF (R725). -/
def execFlrPf (s : State) : Host.Outcome State Fault Refusal :=
  if !s.ctl.hostReady then .next s else .next s.flrPf.driveAll

/-- PRI of a function is disabled: its indexes are free, and what waits for it fails with FAULT (R417, R442). -/
def State.priOff (s : State) (f : Nat) : State :=
  let x := s.fn f
  let open_ := (x.prgs.filter fun q => !q.2.abandoned).map Prod.snd ++ x.waiting
  open_.foldl (fun s q => s.refusePage q)
    (s.modFn f fun x => { x with pri := false, prgs := [], waiting := [] })

/-- The function's gallery loses its cached translations (R417). -/
def State.fnDrop (s : State) (f : Nat) : State :=
  match s.fnGal f with
  | some g => s.dropTranslations g
  | none => s

/-- A field of a function's configuration space takes a value (R435, R439, R442, R686, R687, R725). -/
def State.setCfg (s : State) (f : Nat) : CfgWrite → State
  | .busMaster v =>
    let s := s.modFn f fun x => { x with busMaster := v }
    if v then (s.flushMsix f).sendPages f else s.fnDrop f
  | .memorySpace v => s.modFn f fun x => { x with memorySpace := v }
  | .d3hot v =>
    let s := s.modFn f fun x => { x with d3hot := v }
    if v then s else (s.flushMsix f).takeAll f
  | .vfEnable v =>
    if f ≠ 0 then s
    else
      let s := s.modFn 0 fun x => { x with vfEnable := v }
      if v then s else s.flrVfs
  | .ats v =>
    let s := s.modFn f fun x => { x with ats := v }
    if v then s else s.fnDrop f
  | .pri v =>
    if v then s.modFn f fun x => { x with pri := true, priStopped := if x.pri then x.priStopped else false }
    else (s.priOff f).fnDrop f
  | .msix v =>
    let s := s.modFn f fun x => { x with msixEn := v }
    if v then s.flushMsix f else s
  | .priAlloc n => (s.modFn f fun x => { x with priAlloc := n.toNat }).sendPages f

/-- CONFIGURATION_WRITE (R687): once the host interface is ready; VF Enable ignores writes in BOOT and RECOVERY
(R722). -/
def execConfigurationWrite (f : FnNo) (w : CfgWrite) (s : State) : Host.Outcome State Fault Refusal :=
  if !s.ctl.hostReady then .next s
  else
    match w with
    | .vfEnable _ => if s.serving then .next (s.setCfg f w).driveAll else .next s
    | _ => .next (s.setCfg f w).driveAll

/-- What a configuration field of function `f` holds: its identity and capabilities (R17, R419, R685), and what the
host has set. A virtual function has no SR-IOV fields. -/
def State.cfgField (s : State) (f : Nat) : CfgField → Option Nat
  | .vendorId => some 0x1F6A
  | .deviceId => some (if f = 0 then 0x480 else 0x481)
  | .classCode => some 0x120000
  | .maxPayload => some 512
  | .totalVfs => if f = 0 then some 63 else none
  | .initialVfs => if f = 0 then some 63 else none
  | .firstVfOffset => if f = 0 then some 1 else none
  | .vfStride => if f = 0 then some 1 else none
  | .atsStu => some 9
  | .atsQueueDepth => some 0
  | .atsPageAligned => some 1
  | .atsGlobalInvalidate => some 0
  | .priCapacity => some 512
  | .pasidWidth => some 20
  | .pasidExecute => some 0
  | .pasidPrivileged => some 0
  | .busMaster => some (s.fn f).busMaster.toNat
  | .memorySpace => some (s.fn f).memorySpace.toNat
  | .d3hot => some (s.fn f).d3hot.toNat
  | .vfEnable => if f = 0 then some (s.fn 0).vfEnable.toNat else none
  | .ats => some (s.fn f).ats.toNat
  | .pri => some (s.fn f).pri.toNat
  | .priStopped => some (s.fn f).priStopped.toNat
  | .priAlloc => some (s.fn f).priAlloc
  | .msix => some (s.fn f).msixEn.toNat

/-- A configuration read: none while the host interface is not ready (Configuration Request Retry Status, R722), for a
virtual function that is not enabled, or for a field that the function does not have. -/
def State.cfgRead (s : State) (f : Nat) (x : CfgField) : Option Nat :=
  if !s.ctl.hostReady || (f != 0 && !(s.fn 0).vfEnable) then none else s.cfgField f x

/-- The configuration space of a function after a conventional reset (R688). -/
def State.resetCfg (s : State) (f : Nat) : State :=
  let s := ((s.priOff f).fnDrop f).modFn f fun x =>
    { x with
      busMaster := false, memorySpace := false, d3hot := false, vfEnable := false, ats := false, priAlloc := 0
      msixEn := false, priStopped := false }
  s

/-- CONVENTIONAL_RESET (R688): the configuration space of every function, and the effects of a function-level reset
on every function. -/
def execConventionalReset (s : State) : Host.Outcome State Fault Refusal :=
  if !s.powered then .next s
  else
    let s := (List.range 64).foldl (fun s f => s.resetCfg f) s
    .next s.flrPf.driveAll

end Sys2Proof.Machine
end

