-- ==== Sys2Proof/Machine/Power.lean ====
section
/-! DEFINITION. Power caps, throttle tiers, emergencies, the reference, clock enables and shared pins (R770 to R801).
-/

namespace Sys2Proof.Machine

def State.modPwr (s : State) (f : Power → Power) : State := { s with pwr := f s.pwr }

/-! ### Caps and tiers (R778 to R782) -/

/-- The cap in force (R778). -/
def Power.cap (p : Power) : Nat := min p.bmcCap p.drvCap

/-- The shallowest tier whose rated maximum draw is at or below a cap (R780, R782 step 1). -/
def tierFor (cap : Nat) : Nat := if 1050 ≤ cap then 0 else if 850 ≤ cap then 1 else if 650 ≤ cap then 2 else 3

/-- A cap as it is stored (R778). -/
def capStored (w : Nat) : Nat := min w 1050

/-- The tier that the choice may not be shallower than: an emergency, the fast-throttle input, and two failed coolant
sensors (R772, R782 step 4, R785, R793). -/
def Power.floor (p : Power) : Nat :=
  if p.emergency || p.fthr || p.fthrHold then 3
  else if bitN p.sensorFail 3 && bitN p.sensorFail 4 then 1
  else 0

/-- Enter a tier. -/
def Power.toTier (p : Power) (t : Nat) : Power :=
  if t = p.tier then p else { p with tier := t, tierAge := 0, belowFor := 0 }

/-- Enter a tier, or stay in a deeper one. -/
def Power.deepen (p : Power) (t : Nat) : Power := p.toTier (max p.tier t)

/-- The caps are set: where that changes the cap in force, the tier is at least the one whose rated draw meets it
(R781, R782 step 1). -/
def Power.setCaps (p : Power) (bmc drv : Nat) : Power :=
  let old := p.cap
  let p := { p with bmcCap := bmc, drvCap := drv }
  let p := { p with capNotMet := decide (p.cap < p.sample.power) }
  if p.cap = old then p else p.deepen (tierFor p.cap)

/-- The average of R781 against the cap (R781, R782 steps 2 to 4). -/
def Power.average (p : Power) (x : Sample) : Power :=
  let above := decide (p.cap < x.power)
  let p := { p with sample := x, capNotMet := above, tierAge := min (p.tierAge + 1) 100 }
  if above then
    let p := { p with belowFor := 0 }
    if p.tierAge < 100 then p else p.toTier (min 3 (p.tier + 1))
  else if x.power + 200 ≤ p.cap then
    let p := { p with belowFor := min (p.belowFor + 1) 1000 }
    if 1000 ≤ p.belowFor && p.floor < p.tier then p.toTier (p.tier - 1) else p
  else { p with belowFor := 0 }

/-- Field by field. -/
def zipSample (f : Nat → Nat → Nat) (a b : Sample) : Sample :=
  { power := f a.power b.power, volts := f a.volts b.volts, amps := f a.amps b.amps, die := f a.die b.die
    vault := f a.vault b.vault, pstage := f a.pstage b.pstage, inlet := f a.inlet b.inlet
    outlet := f a.outlet b.outlet }

/-- Updates in one second. -/
def secondUpdates : Nat := 100000

/-- The reading joins the present window of 1 s (R666, R828). -/
def Power.window (p : Power) (x : Sample) : Power :=
  let sum := zipSample (· + ·) p.winSum x
  if p.winCount + 1 < secondUpdates then { p with winCount := p.winCount + 1, winSum := sum }
  else { p with winCount := 0, winSum := Sample.zero, coarse := zipSample (fun a _ => a / secondUpdates) sum sum }

/-- The value of a POWER_CAP completion: the cap in force, and the floor (R779). -/
def Power.capValue (p : Power) : Nat := p.cap + 450 * 65536

/-- The POWER_CAP that waits is completed (R779, R794). -/
def State.capDone (s : State) : State :=
  match s.pwr.capToken with
  | none => s
  | some (t, cap) =>
    (s.modPwr fun p => { p with capToken := none }).complete t
      (if s.pwr.sample.power ≤ cap then stOk else stCapNotMet) s.pwr.capValue

/-- The POWER_CAP that waits completes once the average is at or below its cap (R779). -/
def State.capCheck (s : State) : State :=
  match s.pwr.capToken with
  | none => s
  | some (_, cap) => if s.pwr.sample.power ≤ cap then s.capDone else s

/-- POWER_CAP (R778, R779, R794). -/
def execPowerCap (s : State) : Host.Outcome State Fault Refusal :=
  .next (s.runPf (fun t => t.opcode == 0x30)
    { lenOk := fun n => n == 0, argsOk := fun a => argZeroFrom a 18, blockOk := fun _ => true
      states := servingStates }
    fun s t _ =>
      let w := argLe t.args 16 2
      if w ≠ 0 && w < 450 then s.complete t stBelowFloor s.pwr.capValue
      else
        let cap := if w = 0 then 1050 else capStored w
        let s := (s.capDone.startTaken t).modPwr fun p =>
          { p.setCaps p.bmcCap cap with capToken := some (t, cap) }
        s.capCheck)

/-- POWER_CAP_TIMEOUT (R779): 10 ms have passed, and the cap stays in force. -/
def execPowerCapTimeout (s : State) : Host.Outcome State Fault Refusal := .next s.capDone

/-! ### The life-history figures that an average update moves (R828) -/

/-- The bin of a histogram: `v` above `base`, in steps of `w`; the last bin takes every value beyond it. -/
def histBin (v base w : Nat) : Nat := min ((v - base) / w) 63

/-- A minute passes: the bins of the last 1 s averages, and the tier (R828). -/
def State.lifeMinute (s : State) : State :=
  let x := s.pwr.coarse
  let bump (h : Tab Nat) (n bin : Nat) : Tab Nat := Tab.modify 0 h (64 * n + bin) (satAdd 32 · 1)
  { s with tel :=
    { s.tel with
      minuteTicks := 0
      tierMinutes := Tab.modify 0 s.tel.tierMinutes s.pwr.tier (satAdd 32 · 1)
      hist := bump (bump (bump (bump (bump s.tel.hist 0 (histBin x.die 0 2)) 1 (histBin x.vault 0 2)) 2
        (histBin x.inlet 0 1)) 3 (histBin x.power 0 20)) 4 (histBin x.volts 360 5) } }

/-- An average update passes in a minute of main power. -/
def State.lifeTick (s : State) : State :=
  if s.tel.minuteTicks + 1 < 60 * secondUpdates then
    { s with tel := { s.tel with minuteTicks := s.tel.minuteTicks + 1 } }
  else s.lifeMinute

/-- Average updates in one hour. -/
def hourUpdates : Nat := 3600 * secondUpdates

/-- Time in STANDBY is counted for the life history (R828). -/
def Power.inStandby (p : Power) (yes : Bool) : Power := if yes then { p with standbyFor := p.standbyFor + 1 } else p

/-- POWER_AVERAGE_UPDATE (R781, R782). -/
def execPowerAverageUpdate (x : Sample) (s : State) : Host.Outcome State Fault Refusal :=
  if s.ctl.state == .off then .next s
  else
    let s := s.modPwr fun p => ((p.average x).window x).inStandby (s.ctl.state == .standby)
    let s := if s.powered then s.lifeTick else s
    .next s.capCheck

/-! ### Emergencies (R784, R785) -/

/-- The bit of PWR_STAT.cause (R796). -/
def causeBit : EmergencyCause → Nat
  | .dieHotspot => 0
  | .vaultStack => 1
  | .powerStage => 2
  | .coolantInlet => 3
  | .coolantOutlet => 4
  | .mainInput => 5

/-- Bit `b` of a set of causes takes a value. -/
def causeSet (c : BitVec 8) (b : Nat) (v : Bool) : BitVec 8 :=
  if v then c ||| BitVec.ofNat 8 (2 ^ b) else c &&& ~~~ BitVec.ofNat 8 (2 ^ b)

/-- A cause of R784 is active: bit 7, the input current, is none. -/
def Power.anyCause (p : Power) : Bool := p.causes &&& 0x7F#8 != 0#8

/-- A cause becomes active: T3, and the hold of activation (R745, R785). -/
def State.causeOn (s : State) (b : Nat) : State :=
  { s.modPwr fun p => { p with causes := causeSet p.causes b true, emergency := true }.deepen 3 with
    cur := { s.cur with hold := true } }

/-- Main conversion may run again once every cause has cleared and main enable was set (R786). -/
def Power.mayUnlock (p : Power) : Power :=
  if p.lockedOut && p.enableSet && !p.anyCause then { p with lockedOut := false, enableSet := false } else p

/-- A cause clears; the emergency ends with the last of them (R784). -/
def State.causeOff (s : State) (b : Nat) : State :=
  s.modPwr fun p =>
    let p := { p with causes := causeSet p.causes b false }
    { p with emergency := p.anyCause }.mayUnlock

/-- The sensor behind a cause has failed and is ignored (R772). -/
def Power.ignored (p : Power) (c : EmergencyCause) : Bool :=
  let b := causeBit c
  b < 5 && bitN p.sensorFail b

/-- EMERGENCY_BEGIN (R784, R785). -/
def execEmergencyBegin (c : EmergencyCause) (s : State) : Host.Outcome State Fault Refusal :=
  if s.ctl.state == .off || s.pwr.ignored c then .next s else .next (s.causeOn (causeBit c))

/-- LEAK_ASSERT (R784): MISC_IN asserts while the leak input owns it. -/
def execLeakAssert (s : State) : Host.Outcome State Fault Refusal :=
  if !bitN s.own.en 2 then .next s else .next ((s.causeOn 6).modPwr fun p => { p with leakIn := true })

/-- FAST_THROTTLE_ASSERT (R793): MISC_IN asserts while the fast-throttle input owns it. -/
def execFastThrottleAssert (s : State) : Host.Outcome State Fault Refusal :=
  if !bitN s.own.en 3 then .next s
  else .next (s.modPwr fun p => { p with fthr := true, fthrHold := true }.deepen 3)

/-- The floor of the fast-throttle input lifts. -/
def Power.throttleOff (p : Power) : Power := { p with fthr := false, fthrHold := false }

/-- FAST_THROTTLE_HOLD_EXPIRY (R793): 1,000 ticks after deassertion. -/
def execFastThrottleHoldExpiry (s : State) : Host.Outcome State Fault Refusal :=
  .next (s.modPwr Power.throttleOff)

/-! ### Outputs and sense wires (R772) -/

/-- AUX3V3_SHORT (R772). -/
def execAux3v3Short (s : State) : Host.Outcome State Fault Refusal :=
  if s.ctl.state == .off then .next s else .next (s.modPwr fun p => { p with auxOutFault := true })

/-- AUX3V3_RETRY (R772). -/
def execAux3v3Retry (stillShort : Bool) (s : State) : Host.Outcome State Fault Refusal :=
  if !s.pwr.auxOutFault then .next s else .next (s.modPwr fun p => { p with auxOutFault := stillShort })

/-- SENSE_OPEN (R772). -/
def execSenseOpen (s : State) : Host.Outcome State Fault Refusal :=
  if s.ctl.state == .off then .next s else .next (s.modPwr fun p => { p with senseOpen := true })

/-- The place of a sensor in THERM_READ.fail (R797). -/
def sensorBit : Sensor → Nat
  | .die => 0
  | .vault => 1
  | .pstage => 2
  | .inlet => 3
  | .outlet => 4

/-- SENSOR_FAIL (R772): with both coolant sensors failed, the tier is at least T1. -/
def execSensorFail (x : Sensor) (s : State) : Host.Outcome State Fault Refusal :=
  if s.ctl.state == .off then .next s
  else
    .next (s.modPwr fun p =>
      let p := { p with sensorFail := p.sensorFail ||| BitVec.ofNat 5 (2 ^ sensorBit x) }
      p.deepen p.floor)

/-! ### Reference and clock settings (R787 to R791, R798, R800) -/

def State.modClk (s : State) (f : Clocks → Clocks) : State := { s with clk := f s.clk }

/-- The reference port is ACTIVE or IDLE (R788). -/
def State.refUp (s : State) : Bool :=
  let l := (s.link s.clk.refPort).state
  s.clk.refPort < 48 && (l == .active || l == .idle)

/-- REFERENCE_FALLBACK (R788): after the holdover the crystal is in use. -/
def execReferenceFallback (_ : FallbackCause) (s : State) : Host.Outcome State Fault Refusal :=
  if s.clk.refNow ≠ 1 then .next s
  else .next (s.modClk fun c => { c with refNow := 0, fallbacks := satAdd 8 c.fallbacks 1 })

/-- REFERENCE_REVERT (R788). -/
def execReferenceRevert (s : State) : Host.Outcome State Fault Refusal :=
  if s.clk.refSel = 1 && s.clk.revert && s.clk.refNow = 0 && s.refUp then
    .next (s.modClk fun c => { c with refNow := 1 })
  else .next s

/-- The nearest value within limits. -/
def clamp (lo hi v : Nat) : Nat := max lo (min hi v)

/-- A write of CLK_CTL that covers its lower or upper half (R20, R788, R790, R798). -/
def State.clkCtl (s : State) (v : Word) (lo hi : Bool) : State :=
  let s :=
    if !lo then s
    else
      let s := s.modClk fun c =>
        { c with
          refused := c.refused && !bitN v 14, refPort := fieldN v 8 6, revert := bitN v 2
          refSel := if fieldN v 0 2 = 1 then 1 else 0 }
      s.modClk fun c => { c with refNow := if c.refSel = 1 && s.refUp then 1 else 0 }
  if !hi then s
  else if s.ctl.state != .service then s.modClk fun c => { c with refused := true }
  else
    s.modClk fun c =>
      { c with curF := clamp 10 40 (fieldN v 48 8), vaultF := clamp 20 40 (fieldN v 40 8)
               coreF := clamp 28 56 (fieldN v 32 8) }

/-- CLK_CTL_WRITE (R798). -/
def execClkCtlWrite (v : Word) (s : State) : Host.Outcome State Fault Refusal :=
  if !s.barOpen 0 then .next s else .next (s.clkCtl v true true)

/-- Clock enables after a write, and whether the write cleared any outside SERVICE: those stay set (R791). -/
def gateWrite {n : Nat} (service : Bool) (old new : BitVec n) : BitVec n × Bool :=
  if service || old &&& ~~~new == 0#n then (new, false) else (old ||| new, true)

/-- A gated port is DISABLED, but one that is out of service stays so: what it carried is discarded, and its target
requests end with LOST (R602, R791). Its page reads zero meanwhile (R22). -/
def State.gatePort (s : State) (p : Nat) : State :=
  let s := s.modLink p fun l => { l.clear with state := if l.isOut then l.state else .disabled }
  let s := s.modLanes p fun _ x => { x with cdrLock := false, signal := false }
  let tgts := (s.docent p).tgts
  let s := s.modDocent p fun d => { d with tgts := [] }
  tgts.foldl (fun s q => s.targetAnswer p q stLost []) s

/-- A write of CLK_EN: blocks (R791, R800). -/
def State.clkEn (s : State) (v : Word) (lo hi : Bool) : State :=
  let s := if hi && bitN v 63 then s.modClk fun c => { c with enRefused := false } else s
  if !lo then s
  else
    s.modClk fun c =>
      let w := gateWrite (s.ctl.state == .service) c.blocks (v.setWidth 6)
      { c with blocks := w.1, enRefused := c.enRefused || w.2 }

/-- A write of CLK_EN_PORT (R791, R800): a gated port becomes DISABLED, and one that is clocked again trains, unless
it is out of service. -/
def State.clkEnPort (s : State) (ports : BitVec 48) : State :=
  let old := s.clk.ports
  let w := gateWrite (s.ctl.state == .service) old ports
  let s := s.modClk fun c => { c with ports := w.1, enRefused := c.enRefused || w.2 }
  (List.range 48).foldl (fun s p =>
    if bitN old p && !bitN w.1 p then s.gatePort p
    else if !bitN old p && bitN w.1 p && !(s.link p).isOut then s.startTraining p
    else s) s

/-- CLK_EN_WRITE (R791). -/
def execClkEnWrite (ports : Bool) (v : Word) (s : State) : Host.Outcome State Fault Refusal :=
  if !s.barOpen 0 then .next s
  else if ports then .next (s.clkEnPort (v.setWidth 48)).driveAll
  else .next (s.clkEn v true true)

/-! ### Shared pins and timers (R792, R793, R801) -/

/-- The features that need a resource which feature `b` needs, by their bit of OWN_CTL (R792). -/
def rivals (b : Nat) : List Nat :=
  match b with
  | 0 => [1]
  | 1 => [0, 6]
  | 2 => [3]
  | 3 => [2, 7]
  | 4 => [5]
  | 5 => [4]
  | 6 => [1]
  | _ => [3]

/-- The enables of R793: those left set keep their resources, and new ones take theirs in the order of priority, or
are refused. -/
def ownGrant (old want : BitVec 8) : BitVec 8 × Bool :=
  (List.range 8).foldl (fun (x : BitVec 8 × Bool) b =>
    if !bitN want b || bitN x.1 b then x
    else if (rivals b).any fun r => bitN x.1 r then (x.1, true)
    else (x.1 ||| BitVec.ofNat 8 (2 ^ b), x.2)) (old &&& want, false)

/-- A write of OWN_CTL (R792, R793, R801); an owner that gives up the fast-throttle input ends its floor. -/
def State.ownCtl (s : State) (v : Word) : State :=
  let g := ownGrant s.own.en (v.setWidth 8)
  let div := fieldN v 32 24
  let s := { s with own :=
    { conflict := (s.own.conflict && !bitN v 63) || g.2, tickDiv := if div = 0 then 1 else div, en := g.1 } }
  if bitN g.1 3 then s else s.modPwr Power.throttleOff

/-- OWN_CTL_WRITE (R793). -/
def execOwnCtlWrite (v : Word) (s : State) : Host.Outcome State Fault Refusal :=
  if !s.barOpen 0 then .next s else .next (s.ownCtl v)

end Sys2Proof.Machine
end

