-- ==== Sys2Proof/Machine/LifeHist.lean ====
section
/-! DEFINITION. Health scores (R826) and the life history (R828 to R831). -/

namespace Sys2Proof.Machine

def State.modTel (s : State) (f : Tel → Tel) : State := { s with tel := f s.tel }

/-! ### Life-history records (R828) -/

def lifeRecordLen : Nat := 4096
def recordSlots : Nat := 16384
def recordMagic : Nat := 0x484C5649

/-- Health of a port and of a die (R838). -/
def Tel.port (t : Tel) (p : Nat) : Health := Tab.get Health.reset t.portHealth p
def Tel.die (t : Tel) (d : Nat) : Health := Tab.get Health.reset t.dieHealth d

/-- Failed lanes of a port. -/
def State.failedCount (s : State) (p : Nat) : Nat := ((List.range 8).filter fun i => (s.lane p i).failed).length

/-- Bytes 0 to 4,091 of a record (R828). -/
def State.recordBody (s : State) (seq kind reason : Nat) : Bytes :=
  let t := s.tel
  natLe 4 recordMagic ++ natLe 4 seq ++ natLe 1 kind ++ natLe 1 reason ++ zeros 2 ++ natLe 4 s.cur.fwVersion
    ++ natLe 4 t.onHours ++ natLe 4 t.standbyHours ++ natLe 4 t.powerCycles ++ natLe 4 t.holdups
    ++ ((List.range 8).flatMap fun b => natLe 2 (Tab.get 0 t.shutdowns b))
    ++ natLe 4 t.restartsTotal ++ natLe 4 t.activations ++ natLe 1 s.flash.fusedSvn ++ natLe 1 t.modHealth.score
    ++ zeros 6
    ++ ((List.range 48).flatMap fun p =>
      natLe 2 (Tab.get 0 t.portDowns p) ++ natLe 2 (Tab.get 0 t.portRetrains p) ++ natLe 1 (s.failedCount p)
        ++ natLe 1 (t.port p).score ++ natLe 2 (Tab.get 0 t.portMapOuts p))
    ++ ((List.range 24).flatMap fun d =>
      natLe 5 (Tab.get 0 t.dieCorrected d) ++ natLe 2 (Tab.get 0 t.dieUe d) ++ natLe 1 (t.die d).score)
    ++ ((List.range 320).flatMap fun k => natLe 4 (Tab.get 0 t.hist k))
    ++ ((List.range 4).flatMap fun k => natLe 4 (Tab.get 0 t.tierMinutes k))
    ++ zeros 2156

/-- A whole record, with its CRC. -/
def State.record (s : State) (seq kind reason : Nat) : Bytes :=
  let b := s.recordBody seq kind reason
  b ++ natLe 4 (crc32 b)

/-- A record is whole: its magic and its CRC are right (R828, R830). -/
def recordValid (r : Bytes) : Bool :=
  r.length == lifeRecordLen && getLe r 0 4 == recordMagic && crc32 (r.take 4092) == getLe r 4092 4

/-- A table of `n` totals read from a record. -/
def readTotals (n : Nat) (f : Nat → Nat) : Tab Nat :=
  (List.range n).foldl (fun t k => Tab.set 0 t k (f k)) []

/-- Continue from the totals of a record (R830). -/
def Tel.load (t : Tel) (r : Bytes) : Tel :=
  { t with
    lhSeq := getLe r 4 4, onHours := getLe r 16 4, standbyHours := getLe r 20 4, powerCycles := getLe r 24 4
    holdups := getLe r 28 4, shutdowns := readTotals 8 fun b => getLe r (32 + 2 * b) 2
    restartsTotal := getLe r 48 4, activations := getLe r 52 4
    portDowns := readTotals 48 fun p => getLe r (64 + 8 * p) 2
    portRetrains := readTotals 48 fun p => getLe r (66 + 8 * p) 2
    portMapOuts := readTotals 48 fun p => getLe r (70 + 8 * p) 2
    dieCorrected := readTotals 24 fun d => getLe r (448 + 8 * d) 5
    dieUe := readTotals 24 fun d => getLe r (453 + 8 * d) 2
    hist := readTotals 320 fun k => getLe r (640 + 4 * k) 4
    tierMinutes := readTotals 4 fun k => getLe r (1920 + 4 * k) 4 }

/-- The telemetry on entry to BOOT: the totals of the newest valid record, and one entry into BOOT more (R828,
R830). -/
def Flash.boot (f : Flash) : Tel :=
  let ok := f.lifeHistory.filter recordValid
  let t := match ok with
    | [] => Tel.reset
    | r :: _ => { Tel.reset.load r with lhValid := ok.length }
  { t with powerCycles := satAdd 32 t.powerCycles 1 }

/-- Write a record; the oldest leaves a full store. One whose read-back fails leaves no record (R828, R829, R839).
-/
def State.writeRecord (s : State) (kind reason : Nat) (ok : Bool) : State :=
  if !ok then s.modTel fun t => { t with lhFail := satAdd 8 t.lhFail 1 }
  else
    let seq := if s.tel.lhValid = 0 then 0 else wrapAdd 32 s.tel.lhSeq 1
    { s with
      flash := { s.flash with lifeHistory := (s.record seq kind reason :: s.flash.lifeHistory).take recordSlots }
      tel := { s.tel with lhSeq := seq, lhValid := min (s.tel.lhValid + 1) recordSlots } }

/-- A hold-up record (R775, R777). -/
def State.holdUp (s : State) (reason : Nat) : State :=
  (s.modTel fun t => { t with holdups := satAdd 32 t.holdups 1 }).writeRecord 2 reason true

/-- LIFE_HISTORY_HOURLY (R829): an hour of main power ends. While the curator does not run, the record waits. -/
def execLifeHistoryHourly (ok : Bool) (s : State) : Host.Outcome State Fault Refusal :=
  if !s.powered then .next s
  else
    let s := s.modTel fun t => { t with onHours := satAdd 32 t.onHours 1 }
    if s.cur.up then .next (s.writeRecord 1 0 ok)
    else .next { s with cur := { s.cur with hourlyDue := true } }

/-- The "lifehist" file: every valid record in ascending sequence (R831). -/
def Flash.lifeFile (f : Flash) : Bytes := ((f.lifeHistory.filter recordValid).reverse).flatten

/-! ### Health (R826) -/

/-- The band of a score: GOOD, WATCH, REPLACE. -/
def healthBand (score : Nat) : Nat := if 80 ≤ score then 0 else if 50 ≤ score then 1 else 2

/-- A score from its penalties, as cause code and amount: the cause is the code of the largest, the lower code
where two are equal. -/
def scoreOf (pen : List (Nat × Nat)) : Health :=
  let score := 100 - (pen.map Prod.snd).sum
  let worst := pen.foldl (fun (w : Nat × Nat) x => if w.2 < x.2 then x else w) (0, 0)
  { band := healthBand score, cause := worst.1, score := score }

/-- A score of 0. -/
def scoreZero (cause : Nat) : Health := { band := 2, cause := cause, score := 0 }

/-- A difference of counters of `n` bits. -/
def diffN (n new old : Nat) : Nat := (new + 2 ^ n - old) % 2 ^ n

/-- A counter of a lane at the last scoring. -/
def Tel.laneWas (t : Tel) (p i : Nat) : Nat := Tab.get 0 t.laneLast (8 * p + i)

/-- A port's counters over the hour that ends. -/
def State.portHour (s : State) (p : Nat) : PortHour :=
  let l := s.link p
  let w := Tab.get PortHour.zero s.tel.portLast p
  { downs := diffN 8 l.downs w.downs, retrains := diffN 16 l.retrains w.retrains
    replays := diffN 24 l.replays w.replays
    worstLane := ((List.range 8).map fun i => diffN 32 (s.lane p i).corrSym (s.tel.laneWas p i)).foldl max 0 }

/-- The hours of port `p`, newest first. -/
def Tel.portHours (t : Tel) (p : Nat) : List PortHour := t.portHist.map fun h => Tab.get PortHour.zero h p

/-- A port's score (R826). -/
def State.portScore (s : State) (p : Nat) : Health :=
  let hs := s.tel.portHours p
  let sum (f : PortHour → Nat) : Nat := (hs.map f).sum
  let replays := sum (·.replays)
  let lane := (hs.map (·.worstLane)).foldl max 0
  if (s.link p).state == .mappedOut then scoreZero 6
  else
    scoreOf
      [(1, 25 * s.failedCount p), (2, min 40 (10 * sum (·.downs))), (3, min 30 (2 * sum (·.retrains))),
        (4, if 100000 * hs.length < replays then 20 else if 1000 * hs.length < replays then 10 else 0),
        (5, if 2 ^ 31 ≤ lane then 30 else if 2 ^ 30 ≤ lane then 15 else if 2 ^ 28 ≤ lane then 5 else 0)]

/-- A die's score (R826). -/
def State.dieScore (s : State) (d : Nat) : Health :=
  let hs := s.tel.dieHist.map fun h => Tab.get (0, 0) h d
  let corr := (hs.map Prod.fst).foldl max 0
  if (s.die d).failed then scoreZero 3
  else
    scoreOf
      [(1, if 2 ^ 20 ≤ corr then 20 else if 2 ^ 16 ≤ corr then 5 else 0),
        (2, min 60 (20 * (hs.map Prod.snd).sum))]

/-- The module's own score (R826). -/
def State.ownScore (s : State) : Health :=
  scoreOf [(1, 20 * (s.tel.modHist.map Prod.fst).sum), (2, 10 * (s.tel.modHist.map Prod.snd).sum)]

/-- Ports that are scored: those with a role. -/
def State.scoredPorts (s : State) : List Nat := (List.range 48).filter fun p => s.role p == 1 || s.role p == 2

/-- The counters of the hour that ends join the last 24, and become the counters at the last scoring. -/
def State.healthHour (s : State) : State :=
  let ports : Tab PortHour := (List.range 48).foldl (fun t p => Tab.set PortHour.zero t p (s.portHour p)) []
  let dieNow (d : Nat) : Nat × Nat := ((s.die d).corrected, (s.die d).uncorrectable)
  let dieHour (d : Nat) : Nat × Nat :=
    let w := Tab.get (0, 0) s.tel.dieLast d
    (diffN 32 (dieNow d).1 w.1, diffN 16 (dieNow d).2 w.2)
  let dies : Tab (Nat × Nat) := (List.range 24).foldl (fun t d => Tab.set (0, 0) t d (dieHour d)) []
  let mod := (diffN 16 s.swc.bufUe s.tel.modLast.1, s.cur.faultRestarts - s.tel.modLast.2)
  let portNow (p : Nat) : PortHour :=
    { downs := (s.link p).downs, retrains := (s.link p).retrains, replays := (s.link p).replays, worstLane := 0 }
  s.modTel fun t =>
    { t with
      portHist := (ports :: t.portHist).take 24, dieHist := (dies :: t.dieHist).take 24
      modHist := (mod :: t.modHist).take 24
      portLast := (List.range 48).foldl (fun u p => Tab.set PortHour.zero u p (portNow p)) []
      laneLast := (List.range 384).foldl (fun u k => Tab.set 0 u k (s.lane (k / 8) (k % 8)).corrSym) []
      dieLast := (List.range 24).foldl (fun u d => Tab.set (0, 0) u d (dieNow d)) []
      modLast := (s.swc.bufUe, s.cur.faultRestarts) }

/-- A HEALTH event where a part's band has changed (R826, R833). -/
def State.healthEvent (s : State) (part : Nat) (old new : Health) : State :=
  if old.band % 3 = new.band then s else s.curEvent 0x09 0 0 (new.score + new.band * 256 + part * 65536)

/-- Score a port. -/
def State.scorePort (s : State) (p : Nat) : State :=
  if s.role p = 1 || s.role p = 2 then
    let h := s.portScore p
    (s.modTel fun t => { t with portHealth := Tab.set Health.reset t.portHealth p h }).healthEvent p (s.tel.port p) h
  else
    s.modTel fun t =>
      { t with portHealth := Tab.set Health.reset t.portHealth p { Health.reset with band := 3 } }

/-- Score a die. -/
def State.scoreDie (s : State) (d : Nat) : State :=
  let h := s.dieScore d
  (s.modTel fun t => { t with dieHealth := Tab.set Health.reset t.dieHealth d h }).healthEvent (0x40 + d)
    (s.tel.die d) h

/-- Every part that bears on the module's score, with its score. -/
def State.parts (s : State) : List (Nat × Nat) :=
  (s.scoredPorts.map fun p => (p, (s.tel.port p).score))
    ++ ((List.range 24).map fun d => (0x40 + d, (s.tel.die d).score)) ++ [(0x60, s.ownScore.score)]

/-- Score the module: the least score of its parts, and the worst part (R826, R838). -/
def State.scoreModule (s : State) : State :=
  let w := s.parts.foldl (fun (w : Nat × Nat) x => if x.2 < w.2 then x else w) (0x60, 101)
  let h : Health := { band := healthBand w.2, cause := w.1, score := w.2 }
  (s.modTel fun t => { t with modHealth := h, updates := wrapAdd 32 t.updates 1 }).healthEvent 0x60 s.tel.modHealth h

/-- The hours of R603 and R827 begin again. -/
def State.newHour (s : State) : State :=
  let s := (List.range 48).foldl (fun s p => s.modLink p fun l => { l with flaps := 0 }) s
  (List.range 24).foldl (fun s d => s.modDie d fun x => { x with ueHour := 0 }) s

/-- HEALTH_SCORING (R826). -/
def execHealthScoring (s : State) : Host.Outcome State Fault Refusal :=
  if !s.powered then .next s
  else
    let s := s.healthHour
    let s := (List.range 48).foldl (fun s p => s.scorePort p) s
    let s := (List.range 24).foldl (fun s d => s.scoreDie d) s
    .next s.scoreModule.newHour

end Sys2Proof.Machine
end

