-- ==== Sys2Proof/Machine/Boot.lean ====
section
/-! DEFINITION. Images (R735 to R738), bring-up, loss of main input, module reset and BOOT (R770 to R777, R750). -/

namespace Sys2Proof.Machine

/-! ### Images (R735 to R738) -/

/-- The bytes of an area of the flash. -/
def FlashArea.image (a : FlashArea) : Bytes := memBytes a.bytes 0 a.len

/-- An area that holds an image. -/
def FlashArea.hold (bs : Bytes) : FlashArea := { len := bs.length, bytes := memPut [] 0 bs }

def imageKey (b : Bytes) : Nat := getLe b 6 1 % 4
def imageFlags (b : Bytes) : Nat := getLe b 7 1
def imageRevoke (b : Bytes) : Nat := imageFlags b / 16
def imageSvn (b : Bytes) : Nat := getLe b 8 4
def imageVersion (b : Bytes) : Nat := getLe b 12 4
def imageBody (b : Bytes) : Bytes := (b.drop 256).take (getLe b 16 4)

/-- An image without what follows its body. -/
def imageOnly (b : Bytes) : Bytes := b.take (256 + getLe b 16 4)

/-- The form of an image (R735, R738 check 2). -/
def imageForm (b : Bytes) : Bool :=
  let len := getLe b 16 4
  256 ≤ b.length && getLe b 0 4 == 0x46585649 && getLe b 4 2 == 1 && getLe b 6 1 < 4 && imageFlags b / 2 % 8 == 0
    && imageSvn b < 64 && len % 128 == 0 && 4096 ≤ len && len ≤ 134217472 && zeroB b 20 12 && zeroB b 80 48
    && zeroB b 224 32 && 256 + len ≤ b.length

/-- Bit `k` of a mask of key indices. -/
def keyIn (mask k : Nat) : Bool := mask / 2 ^ k % 2 == 1

/-- The public key that travels in an image, and the signature over its header (R735, R736). -/
def imagePub (b : Bytes) : Bytes := sliceB (imageBody b) 0 96
def imageSig (b : Bytes) : Bytes := sliceB b 128 96

/-- The image is signed under the key of its key index (R735, R736, R738 check 5). -/
def Flash.signed (f : Flash) (b : Bytes) : Bool :=
  sha384 (imagePub b) == f.romKeys.getD (imageKey b) [] && ecdsaOk (imagePub b) (b.take 128) (imageSig b)

/-- The verification of R738: OK, or the status of the first check that fails. `readOk` is check 1. -/
def Flash.verify (f : Flash) (b : Bytes) (readOk : Bool) : Nat :=
  if !readOk then stDataError
  else if !imageForm b then stImageInvalid
  else if keyIn f.revoked.toNat (imageKey b) || keyIn (imageRevoke b) (imageKey b) then stImageInvalid
  else if imageSvn b < f.fusedSvn then stDowngrade
  else if !f.signed b then stImageInvalid
  else if sha384 (imageBody b) != sliceB b 32 48 then stImageInvalid
  else stOk

/-- The digest of an image's header, for the activation record (R734). -/
def headerDigest (b : Bytes) : Bytes := sha384 (b.take 256)

/-- The fuses that step 6 of activation blows (R737). -/
def Flash.blow (f : Flash) (b : Bytes) : Flash :=
  { f with
    fusedSvn := if imageFlags b % 2 = 1 && f.fusedSvn < imageSvn b then imageSvn b else f.fusedSvn
    revoked := f.revoked ||| BitVec.ofNat 4 (imageRevoke b) }

/-- A CURATOR event about firmware (R763). -/
def State.fwEvent (s : State) (ev status cause core version svn : Nat) : State :=
  s.incident 0
    { cls := 0x0F, status := status, infoA := ev + cause * 2 ^ 8 + core * 2 ^ 12, infoB := svn + version * 2 ^ 32 }

/-- The curator runs this image from now on (R749, R765). -/
def State.runImage (s : State) (b : Bytes) : State :=
  { s with cur :=
    { s.cur with fwVersion := imageVersion b, svn := imageSvn b, digest := sha384 (imageOnly b) } }

/-- Step 6 of activation: the fuses, the activation record, the staged area, the event and the measurements (R746,
R749). -/
def State.activated (s : State) : State :=
  let b := s.flash.stagedArea.image
  let f := s.flash.blow b
  let s := { s with
    flash := { f with activation := none, stagedArea := FlashArea.empty }
    cur := { s.cur with fw := .none, actStep := 0, actBegun := false, overwriteRetried := false
                        stagedVersion := 0, stagedSvn := 0, lastStatus := stOk }
    tel := { s.tel with activations := satAdd 32 s.tel.activations 1 } }
  ((s.fwEvent 0x05 stOk 0 0 (imageVersion b) (imageSvn b)).measChanged 2).measChanged 3

/-! ### What survives (R5, R7, R23, R775, R777) -/

/-- The power controller's state after the module's main blocks are switched off, and on entry to BOOT: the inputs,
what the sense wires and sensors show, and the causes that persist. A leak needs OWN_CTL, which BOOT resets. -/
def Power.kept (p : Power) (boot : Bool) : Power :=
  let causes := if boot then p.causes &&& 0x3F#8 else p.causes
  let q := { Power.reset with
    auxGood := p.auxGood, mainGood := p.mainGood, present := p.present, lockedOut := p.lockedOut
    enableSet := p.enableSet, causes := causes, emergency := causes &&& 0x7F#8 != 0#8
    leakIn := p.leakIn && !boot, senseOpen := p.senseOpen, auxOutFault := p.auxOutFault, sensorFail := p.sensorFail
    standbyFor := if boot then p.standbyFor % hourUpdates else p.standbyFor }
  { q with tier := q.floor }

/-- The module with nothing left but its flash, its fuses, its power controller and its pins. -/
def State.bare (s : State) (st : ModState) : State :=
  { State.reset with
    pending := s.pending, outputs := s.outputs, freeCtr := s.freeCtr, flash := s.flash
    pwr := s.pwr.kept (st == .boot)
    ctl := { ModCtl.reset with state := st, perst := s.ctl.perst }
    cur := { Curator.reset with hold := s.cur.hold } }

/-- The whole hours in STANDBY join the totals (R828). -/
def Tel.standby (t : Tel) (hours : Nat) : Tel := { t with standbyHours := satAdd 32 t.standbyHours hours }

/-- Entry to BOOT: every field takes its reset value, and the lifetime totals continue (R23, R828, R830). -/
def State.enterBoot (s : State) : State :=
  { s.bare .boot with tel := s.flash.boot.standby (s.pwr.standbyFor / hourUpdates) }

/-- Steps 3, 5 and 6 of bring-up: the PLLs lock, the vault is zeroed, and every port with a lane enabled begins its
pre-training (R467, R773, R774, R787). -/
def State.bringUp (s : State) : State :=
  let s := { s with clk := { s.clk with locked := true }, vault := { s.vault with mem := [], bad := [], initDone := true } }
  (List.range 48).foldl (fun s p => s.startTraining p) s

/-- Loss of main input: the hold-up record is written, and everything but the standby rail's part is lost (R7,
R775). -/
def State.mainLost (s : State) (reason : Nat) : State :=
  let s := s.holdUp reason
  let s := s.modPwr fun p => { p with mainGood := false }
  s.bare (if s.pwr.auxGood then .standby else .off)

/-- A module reset (R777). -/
def State.moduleReset (s : State) : State := (s.holdUp 5).enterBoot.bringUp

/-- The standby rail comes up: OFF becomes STANDBY (R5, R773 step 1). -/
def State.railUp (s : State) : State :=
  if s.ctl.state == .off then { s with ctl := { s.ctl with state := .standby } } else s

/-- The stages are enabled once main is good and main conversion may run: STANDBY becomes BOOT, and bring-up begins
(R5, R773 step 2, R786). -/
def State.mainUp (s : State) : State :=
  if s.ctl.state == .standby && s.pwr.mainGood && !s.pwr.lockedOut then s.enterBoot.bringUp else s

/-- Main is gone while its conversion does not run: the standby rail falls with it if auxiliary power is absent (R5,
R770). -/
def State.standbyLost (s : State) : State :=
  let s := s.modPwr fun p => { p with mainGood := false }
  if s.ctl.state == .standby && !s.pwr.auxGood then s.bare .off else s

/-- AUX_POWER_GOOD (R5, R786). -/
def execAuxPowerGood (s : State) : Host.Outcome State Fault Refusal :=
  if s.pwr.auxGood then .next s
  else .next (s.modPwr fun p => { p with auxGood := true, lockedOut := false, enableSet := false }).railUp.mainUp

/-- AUX_POWER_LOST (R770): without main, the module is OFF. -/
def execAuxPowerLost (s : State) : Host.Outcome State Fault Refusal :=
  let s := s.modPwr fun p => { p with auxGood := false }
  .next (if s.ctl.state == .standby && !s.pwr.mainGood then s.bare .off else s)

/-- EMERGENCY_CLEAR (R784). -/
def execEmergencyClear (c : EmergencyCause) (s : State) : Host.Outcome State Fault Refusal :=
  if s.ctl.state == .off then .next s else .next (s.causeOff (causeBit c)).mainUp

/-- LEAK_CLEAR_EXPIRY (R784): MISC_IN has been deasserted for 1 s. -/
def execLeakClearExpiry (s : State) : Host.Outcome State Fault Refusal :=
  if !s.pwr.leakIn then .next s
  else .next ((s.causeOff 6).modPwr fun p => { p with leakIn := false }).mainUp

/-- PRESENT_ASSERTED (R776). -/
def execPresentAsserted (s : State) : Host.Outcome State Fault Refusal :=
  .next (s.modPwr fun p => { p with present := true })

/-- PRESENT_DEASSERTED (R771). -/
def execPresentDeasserted (s : State) : Host.Outcome State Fault Refusal :=
  let s := s.modPwr fun p => { p with present := false }
  .next (if s.powered then s.mainLost 2 else s.standbyLost)

/-- MAIN_POWER_GOOD (R5, R770, R771, R773, R786): without auxiliary power main feeds the standby rail, and OFF becomes
STANDBY; from STANDBY the module enters BOOT unless main conversion must stay off. In BOOT, whose clocks have not
locked, bring-up begins: that is how a run from reset begins. -/
def execMainPowerGood (s : State) : Host.Outcome State Fault Refusal :=
  if !s.pwr.present then .next s
  else if s.ctl.state == .boot && !s.clk.locked then .next (s.modPwr fun p => { p with mainGood := true }).bringUp
  else if s.powered then .next s
  else .next (s.modPwr fun p => { p with mainGood := true }).railUp.mainUp

/-- LOSS_OF_MAIN_INPUT (R775). -/
def execLossOfMainInput (r : LossReason) (s : State) : Host.Outcome State Fault Refusal :=
  if s.powered then
    .next (s.mainLost (match r with
      | .voltage => 1
      | .stageFault => 3))
  else .next s.standbyLost

/-- STAGE_FAULT (R772): loss of main input. -/
def execStageFault (s : State) : Host.Outcome State Fault Refusal :=
  if s.powered then .next (s.mainLost 3) else .next s

/-- A shutdown is counted per cause (R828). -/
def State.countShutdown (s : State) (bits : List Nat) : State :=
  s.modTel fun t =>
    { t with shutdowns := bits.foldl (fun u b => Tab.modify 0 u b (satAdd 16 · 1)) t.shutdowns }

/-- INPUT_OVERCURRENT (R772): handled as a short inside a conversion stage. -/
def execInputOvercurrent (s : State) : Host.Outcome State Fault Refusal :=
  if !s.powered then .next s
  else
    let s := s.modPwr fun p => { p with causes := causeSet p.causes 7 true }
    .next ((s.countShutdown [7]).mainLost 3)

/-- The bits of PWR_STAT.cause behind a shutdown (R786, R796). -/
def Power.shutdownBits (p : Power) : ShutdownCause → List Nat
  | .dieHotspot => [0]
  | .vaultStack => [1]
  | .powerStage => [2]
  | .overvoltage => [5]
  | .emergency30s => (List.range 7).filter fun b => bitN p.causes b

/-- SHUTDOWN (R786): main conversion is switched off, and stays off. -/
def execShutdown (c : ShutdownCause) (s : State) : Host.Outcome State Fault Refusal :=
  if !s.powered || (c = .emergency30s && !s.pwr.emergency) then .next s
  else
    let s := s.countShutdown (s.pwr.shutdownBits c)
    let s := s.modPwr fun p => { p with lockedOut := true, enableSet := false }
    .next (s.mainLost 4)

/-- PERST_DEASSERTED (R773). -/
def execPerstDeasserted (s : State) : Host.Outcome State Fault Refusal :=
  .next { s with ctl := { s.ctl with perst := false } }

/-- HOST_INTERFACE_READY (R773 step 4). -/
def execHostInterfaceReady (s : State) : Host.Outcome State Fault Refusal :=
  if s.powered && !s.ctl.perst then .next { s with ctl := { s.ctl with hostReady := true } } else .next s

/-! ### BOOT (R750, R773 step 8) -/

/-- The module enters RECOVERY (R5, R750, R754). -/
def State.enterRecovery (s : State) : State :=
  { s with cur := { s.cur with listened := true } }.setModState .recovery

/-- Step 2 of R750. A pending activation: the staged image is verified and overwrites the image area, or the record
is emptied and the staged area erased. Otherwise an image left in the staged area is verified: a good one is STAGED,
and any other is erased (R764). -/
def State.bootStaged (s : State) (readOk : Bool) : State × Bool :=
  let b := s.flash.stagedArea.image
  let good := s.flash.verify b readOk = stOk
  let erased := { s.flash with activation := none, stagedArea := FlashArea.empty }
  if s.flash.activation.isSome then
    if good then ({ s with flash := { s.flash with imageArea := s.flash.stagedArea } }, true)
    else ({ s with flash := erased }, false)
  else if s.flash.stagedArea.len = 0 then (s, false)
  else if good then
    ({ s with cur := { s.cur with fw := .staged, stagedVersion := imageVersion b, stagedSvn := imageSvn b } }, false)
  else ({ s with flash := erased }, false)

/-- Steps 3 and 4 of R750: the image area is verified; the image is loaded, or the module enters RECOVERY. Step 6 of a
pending activation follows the start. -/
def State.bootImage (s : State) (pending readOk : Bool) : State :=
  let b := s.flash.imageArea.image
  if s.flash.verify b readOk = stOk then
    let s := ({ s with cur := { s.cur with imageOk := true } } : State).runImage b
    if pending then s.activated else s
  else s.enterRecovery

/-- RECOVERY_LISTEN_EXPIRY (R747, R750). -/
def execRecoveryListenExpiry (stagedRead imageRead : Bool) (s : State) :
    Host.Outcome State Fault Refusal :=
  if s.ctl.state != .boot || s.cur.listened || !s.clk.locked then .next s
  else
    let s := { s with cur := { s.cur with listened := true } }
    if s.flash.recoverNext then
      .next { s with flash := { s.flash with recoverNext := false } }.enterRecovery
    else
      match s.bootStaged stagedRead with
      | (s, pending) => .next (s.bootImage pending imageRead)

/-- ENTER_SERVICE (R467, R773 step 8). -/
def execEnterService (s : State) : Host.Outcome State Fault Refusal :=
  if s.ctl.state == .boot && s.vault.initDone && s.cur.imageOk then
    .next (({ s with cur := { s.cur with up := true, coresUp := 0xF } } : State).setModState .service).driveAll
  else .next s

end Sys2Proof.Machine
end

