-- ==== Sys2Proof/Machine/Firmware.lean ====
section
/-! DEFINITION. Curator restarts, staging and activation (R728 to R751). -/

namespace Sys2Proof.Machine

def State.modCur (s : State) (f : Curator → Curator) : State := { s with cur := f s.cur }

/-! ### Restarts (R730 to R732) -/

/-- The curator stops; its sessions end (R730, R731). -/
def State.restart (s : State) (cause core : Nat) : State :=
  let s := s.endAllSessions
  let s := s.modTel fun t => { t with restartsTotal := satAdd 32 t.restartsTotal 1 }
  s.modCur fun c =>
    { c with
      up := false, coresUp := 0, restarts := satAdd 8 c.restarts 1, lastCause := cause, restartCore := core
      restartWaits := none, faultRestarts := if cause = 3 then c.faultRestarts else c.faultRestarts + 1 }

/-- The registrar is overwriting the image area, or verifies the staged area to do so (R732, R743). -/
def Curator.overwrites (c : Curator) : Bool := c.fw == .overwriting || (c.actStep == 4 && c.actBegun)

/-- A restart for a fault: it waits for an overwrite to complete (R732). -/
def State.faultRestart (s : State) (cause core : Nat) : State :=
  if !s.cur.up then s
  else if s.cur.overwrites then
    s.modCur fun c => { c with restartWaits := c.restartWaits <|> some (cause, core) }
  else s.restart cause core

/-- A restart that waited runs, with its own cause. -/
def State.waitedRestart (s : State) : State :=
  match s.cur.restartWaits with
  | some (cause, core) => s.restart cause core
  | none => s

/-- WATCHDOG_EXPIRY (R730). -/
def execWatchdogExpiry (core : Fin 4) (s : State) : Host.Outcome State Fault Refusal :=
  .next (s.faultRestart 1 core)

/-- CURATOR_MEMORY_ERROR (R730): a read of working memory (R468) failed correction, which R479 counts and records. -/
def execCuratorMemoryError (core : Fin 4) (cw : Nat) (s : State) : Host.Outcome State Fault Refusal :=
  if !s.cur.up || 64 * cw < 0x10000000 || 0x18000000 ≤ 64 * cw then .next s
  else .next ((s.vmUncorrectable cw false).faultRestart 2 core)

/-! ### Activation (R744 to R749) -/

/-- The next step of activation begins unless the hold keeps it (R745, R746). -/
def State.actNext (s : State) : State :=
  let n := s.cur.actStep
  if n = 0 || s.cur.actBegun then s
  else if s.cur.hold then (s.modCur fun c => { c with fw := .deferred }).waitedRestart
  else if n = 3 then s.modCur fun c => { c with fw := .overwriting, actBegun := true }
  else if n = 4 then
    { s with flash := { s.flash with imageArea := FlashArea.empty } }.modCur fun c =>
      { c with fw := .overwriting, actBegun := true }
  else if n = 5 then
    if s.cur.up then (s.modCur fun c => { c with fw := .restarting, actBegun := true }).restart 3 0 else s
  else s.activated

/-- Go on to a step. -/
def State.actStepTo (s : State) (n : Nat) : State :=
  (s.modCur fun c => { c with actStep := n, actBegun := false }).actNext

/-- FW_ACTIVATE (R744). -/
def execFwActivate (s : State) : Host.Outcome State Fault Refusal :=
  .next (s.runPf (fun t => t.opcode == 0x29)
    { lenOk := fun n => n == 0, argsOk := noArgs, blockOk := fun _ => true, states := servingStates }
    fun s t _ =>
      match s.cur.fw with
      | .none | .verifying | .writing => s.complete t stWrongState 0
      | .deferred | .overwriting | .restarting => s.complete t stBusy 0
      | .staged =>
        let s := { s with flash :=
          { s.flash with activation := some (headerDigest s.flash.stagedArea.image) } }
        let s := s.complete t (if s.cur.hold then stDeferred else stOk) 0
        let s := if s.cur.hold then s.fwEvent 0x04 stOk 0 0 s.cur.stagedVersion s.cur.stagedSvn else s
        s.actStepTo 3)

/-- ACTIVATION_HOLD_EXPIRY (R745): 1 s after the last emergency. -/
def execActivationHoldExpiry (s : State) : Host.Outcome State Fault Refusal :=
  if s.pwr.emergency || !s.cur.hold then .next s
  else .next (s.modCur fun c => { c with hold := false }).actNext

/-- Step 3 or 4 failed: the record is empty, the state is NONE, and the event carries the status (R747). -/
def State.actFailed (s : State) (status : Nat) : State :=
  let v := s.cur.stagedVersion
  let n := s.cur.stagedSvn
  let s := { s with flash := { s.flash with activation := none } }.modCur fun c =>
    { c with fw := .none, stagedVersion := 0, stagedSvn := 0, lastStatus := status }
  s.fwEvent 0x06 status 0 0 v n

/-- The activation is over. -/
def State.actOver (s : State) : State :=
  s.modCur fun c => { c with actStep := 0, actBegun := false, overwriteRetried := false }

/-- STAGED_VERIFY_DONE (R746 step 3, R747). -/
def execStagedVerifyDone (readOk : Bool) (s : State) : Host.Outcome State Fault Refusal :=
  if s.cur.actStep ≠ 3 || !s.cur.actBegun then .next s
  else
    let st := s.flash.verify s.flash.stagedArea.image readOk
    if st = stOk then .next (s.actStepTo 4) else .next (s.actFailed st).actOver.waitedRestart

/-- The image area holds the staged image. -/
def State.overwritten (s : State) : State :=
  { s with flash := { s.flash with imageArea := s.flash.stagedArea } }

/-- OVERWRITE_DONE (R732, R746 step 4, R747). After the first failure the activation is over, and the image area is
written once more so that the next start finds an image; if that fails too, the next BOOT enters RECOVERY. -/
def execOverwriteDone (readOk : Bool) (s : State) : Host.Outcome State Fault Refusal :=
  if s.cur.actStep ≠ 4 || !s.cur.actBegun then .next s
  else
    let st := s.flash.verify s.flash.stagedArea.image readOk
    let waits := s.cur.restartWaits.isSome
    if s.cur.overwriteRetried then
      if st = stOk then
        let s := s.overwritten.actOver
        .next (if waits then s.restart 3 0 else s)
      else
        .next { s with flash := { s.flash with recoverNext := true } }.actOver.waitedRestart
    else if st = stOk then
      let s := s.overwritten
      if waits && s.cur.up then
        .next ((s.modCur fun c => { c with actStep := 5, actBegun := true, fw := .restarting }).restart 3 0)
      else .next (s.actStepTo 5)
    else .next ((s.actFailed st).modCur fun c => { c with overwriteRetried := true })

/-- Steps of a fabric generation that waited for the curator begin (R659). -/
def State.askedSteps (s : State) : State :=
  (s.gals.filter fun g => g.2.stepAsked).foldl (fun s g => s.askStep g.1) s

/-! ### Staging (R740 to R742) -/

/-- FW_STAGE (R740, R764): the verification begins. -/
def execFwStage (s : State) : Host.Outcome State Fault Refusal :=
  .next (s.runPf (fun t => t.opcode == 0x28)
    { lenOk := fun n => n == 0, argsOk := fun a => argZeroFrom a 20, blockOk := fun _ => true
      states := servingStates }
    fun s t _ =>
      if s.cur.actStep ≠ 0 || !(s.cur.fw == .none || s.cur.fw == .staged) then s.complete t stBusy 0
      else
        (s.startTaken t).modCur fun c =>
          { c with fw := .verifying, stageLen := argLe t.args 16 4, stageToken := some t })

/-- The image in the vault's staging area, if every read of it passes correction. -/
def State.readStaging (s : State) (len : Nat) : State × Option Bytes :=
  if len ≤ stagingBytes then s.vmRead vpaStaging len else (s, some [])

/-- FW_STAGE_VERIFIED (R740, R741). A failure keeps an image that was staged before (R764). -/
def execFwStageVerified (readOk : Bool) (s : State) : Host.Outcome State Fault Refusal :=
  if s.cur.fw != .verifying || !s.cur.up then .next s
  else
    match s.cur.stageToken with
    | none => .next s
    | some t =>
      match s.readStaging s.cur.stageLen with
      | (s, b?) =>
        let b := b?.getD []
        let st := s.flash.verify b (readOk && b?.isSome)
        if st = stOk then
          let s := s.complete t stOk (imageSvn b + imageVersion b * 2 ^ 32)
          .next ({ s with flash := { s.flash with stagedArea := FlashArea.empty } }.modCur fun c =>
            { c with fw := .writing, stageToken := none, stagedVersion := 0, stagedSvn := 0, lastStatus := stOk })
        else
          .next ((s.complete t st 0).modCur fun c =>
            { c with fw := if s.flash.stagedArea.len = 0 then .none else .staged
                     stageToken := none, lastStatus := st })

/-- STAGE_WRITE_DONE (R741, R742): the image that the vault holds by now has been written and read back. -/
def execStageWriteDone (readOk : Bool) (s : State) : Host.Outcome State Fault Refusal :=
  if s.cur.fw != .writing || !s.cur.up then .next s
  else
    let r := s.readStaging s.cur.stageLen
    let s := r.1
    let b := r.2.getD []
    let st := s.flash.verify b (readOk && r.2.isSome)
    if st = stOk then
      let s := { s with flash := { s.flash with stagedArea := FlashArea.hold (imageOnly b) } }.modCur fun c =>
        { c with fw := .staged, stagedVersion := imageVersion b, stagedSvn := imageSvn b, lastStatus := stOk }
      .next (s.fwEvent 0x02 stOk 0 0 (imageVersion b) (imageSvn b))
    else
      let s := { s with flash := { s.flash with stagedArea := FlashArea.empty } }.modCur fun c =>
        { c with fw := .none, stagedVersion := 0, stagedSvn := 0, lastStatus := st }
      .next (s.fwEvent 0x03 st 0 0 (imageVersion b) (imageSvn b))

end Sys2Proof.Machine
end

