-- ==== Sys2Proof/Machine/Issue.lean ====
section
/-! DEFINITION. The rows of the tour instructions and of the events of a tour (R83 to R160): each is the
operation that Tour.lean describes, after which the port's contexts act. -/

namespace Sys2Proof.Machine

/-! ### Launches (R83 to R90) -/

/-- LAUNCH (R85): the request checks of R66, then BUSY, then the tour starts. -/
def execLaunch (p : Port) (hdr : Header) (payload tag : Bytes) (s : State) :
    Host.Outcome State Fault Refusal :=
  let e := EHdr.dec hdr
  if e.opcode ≠ eoLaunch then .next s
  else
    match (s.takeEp p hdr payload).epAuth p e payload tag with
    | (s', none) => .next s'
    | (s', some plain) =>
      let owner := (s'.slotOwner p e.slot).getD 0
      let g := ctxIdx p e.ctx
      if s'.tagBusy p e.tag then .next (s'.protoErr p)
      else if !epWellFormed e plain then .next (s'.epComplete p owner e stMalformed [])
      else
        match s'.epBinding p e with
        | some st => .next (s'.epComplete p owner e st [])
        | none =>
          if s'.launchBusy g then .next (s'.epComplete p owner e stBusy [])
          else .next ((s'.launch g e.address e.word (.ep e.tag)).drive p)

/-! ### Instructions -/

/-- A COPY, GATHER, SCATTER or MCAST issues (R100, R123, R125). -/
def State.issueBulk (s : State) (p : Port) (c : CtxNo) (opcode : Nat) (kind : OpKind) : State :=
  let g := ctxIdx p c
  match s.issuing p c opcode with
  | none => s
  | some t => (s.orFail g (s.bulkCheck g t false) fun s => s.enterOp g (Op.start s g t kind)).drive p

/-- COPY (R169). -/
def execCopy (p : Port) (c : CtxNo) (s : State) : Host.Outcome State Fault Refusal :=
  .next (s.issueBulk p c 0x10 .copy)

/-- GATHER (R177). -/
def execGather (p : Port) (c : CtxNo) (s : State) : Host.Outcome State Fault Refusal :=
  .next (s.issueBulk p c 0x11 .gather)

/-- SCATTER (R177). -/
def execScatter (p : Port) (c : CtxNo) (s : State) : Host.Outcome State Fault Refusal :=
  .next (s.issueBulk p c 0x12 .scatter)

/-- MCAST (R127). -/
def execMcast (p : Port) (c : CtxNo) (s : State) : Host.Outcome State Fault Refusal :=
  .next (s.issueBulk p c 0x18 .mcast)

/-- REDUCE (R301). -/
def execReduce (p : Port) (c : CtxNo) (s : State) : Host.Outcome State Fault Refusal :=
  .next ((s.issueColl p c 0x20 .reduce).drive p)

/-- DISPATCH (R387). -/
def execDispatch (p : Port) (c : CtxNo) (s : State) : Host.Outcome State Fault Refusal :=
  .next ((s.issueColl p c 0x28 .dispatch).drive p)

/-- COMBINE (R398). -/
def execCombine (p : Port) (c : CtxNo) (s : State) : Host.Outcome State Fault Refusal :=
  .next ((s.issueColl p c 0x29 .combine).drive p)

/-- SIGNAL (R108). -/
def execSignal (p : Port) (c : CtxNo) (s : State) : Host.Outcome State Fault Refusal :=
  .next ((s.doSignal p c).drive p)

/-- WAIT (R138). -/
def execWait (p : Port) (c : CtxNo) (s : State) : Host.Outcome State Fault Refusal :=
  .next ((s.doWait p c).drive p)

/-- FENCE (R141). -/
def execFence (p : Port) (c : CtxNo) (s : State) : Host.Outcome State Fault Refusal :=
  .next ((s.doFence p c).drive p)

/-- FLUSH (R144). -/
def execFlush (p : Port) (c : CtxNo) (s : State) : Host.Outcome State Fault Refusal :=
  .next ((s.doFlush p c).drive p)

/-- INVAL (R145). -/
def execInval (p : Port) (c : CtxNo) (s : State) : Host.Outcome State Fault Refusal :=
  .next ((s.doInval p c).drive p)

/-- LOOP (R149). -/
def execLoop (p : Port) (c : CtxNo) (s : State) : Host.Outcome State Fault Refusal :=
  .next ((s.doLoop p c).drive p)

/-- HALT (R150). -/
def execHalt (p : Port) (c : CtxNo) (s : State) : Host.Outcome State Fault Refusal :=
  .next ((s.doHalt p c).drive p)

/-- TOUR_ATOMIC (R151, R152). -/
def execTourAtomic (p : Port) (c : CtxNo) (s : State) : Host.Outcome State Fault Refusal :=
  .next ((s.doTourAtomic p c).drive p)

/-- RESERVED_TOUR_OPCODE (R120). -/
def execReservedTourOpcode (p : Port) (c : CtxNo) (s : State) : Host.Outcome State Fault Refusal :=
  .next ((s.doReservedTourOpcode p c).drive p)

/-! ### Events of a tour -/

/-- QUANTUM_EXPIRY (R93). -/
def execQuantumExpiry (p : Port) (s : State) : Host.Outcome State Fault Refusal :=
  .next (s.doQuantumExpiry p)

/-- What came for a read is a line of 128 B (R24). -/
def isLine : Fetched → Bool
  | .data bs => bs.length == 128
  | .failed _ => true

/-- The answer to a read that a docent made is here: its packet leaves the replay store. -/
def State.takeRead (s : State) (org : Origin) : State × Bool :=
  if (s.replay ++ s.held).any fun o => o.origin == org then
    ({ s with replay := removeFirst (fun o => o.origin == org) s.replay
              held := s.held.filter fun o => o.origin != org }, true)
  else (s, false)

/-- INSTRUCTION_LINE_ARRIVAL (R95): a tour line that was asked for reaches its context. -/
def execInstructionLineArrival (p : Port) (c : CtxNo) (line : Nat) (what : Fetched) (s : State) :
    Host.Outcome State Fault Refusal :=
  if !isLine what then .fault .operandLength
  else
    match s.takeRead (.tourLine (ctxIdx p c) line) with
    | (_, false) => .next s
    | (s', true) => .next ((s'.tourLineArrives (ctxIdx p c) line what).drive p)

/-- DESCRIPTOR_ARRIVAL (R102): the descriptor of an operation reaches its docent. -/
def execDescriptorArrival (p : Port) (c : CtxNo) (op : Nat) (what : Fetched) (s : State) :
    Host.Outcome State Fault Refusal :=
  if !isLine what then .fault .operandLength
  else
    match s.takeRead (.descRead (ctxIdx p c) op) with
    | (_, false) => .next s
    | (s', true) => .next ((s'.descArrives (ctxIdx p c) op what).drive p)

/-- OPERATION_RETIRE (R106). -/
def execOperationRetire (p : Port) (c : CtxNo) (s : State) : Host.Outcome State Fault Refusal :=
  .next ((s.doOperationRetire p c).drive p)

/-- TOUR_END (R115). -/
def execTourEnd (p : Port) (c : CtxNo) (s : State) : Host.Outcome State Fault Refusal :=
  .next ((s.doTourEnd p c).drive p)

/-- FENCE_COMPLETE (R283). -/
def execFenceComplete (p : Port) (c : CtxNo) (s : State) : Host.Outcome State Fault Refusal :=
  .next ((s.doFenceComplete p c).drive p)

/-- FLUSH_COMPLETE (R146). -/
def execFlushComplete (p : Port) (c : CtxNo) (s : State) : Host.Outcome State Fault Refusal :=
  .next ((s.doFlushComplete p c).drive p)

end Sys2Proof.Machine
end

