-- ==== Sys2Proof/Machine/Catalogue.lean ====
section
/-! DEFINITION. Catalogue images: their validity (R293, R294, R367, R499, R500, R508, R607, R802, R803), and the
changes that cannot be banked (R810). -/

namespace Sys2Proof.Machine

/-- The reasons of CATALOGUE_INVALID (R832). -/
def cvFormat : Nat := 1
def cvRoute : Nat := 2
def cvDateLine : Nat := 3
def cvVc6 : Nat := 4
def cvSchedule : Nat := 5
def cvSparse : Nat := 6
def cvCapacity : Nat := 7

/-- Bytes of an image before its schedule records, and the largest image (R802). -/
def catFixed : Nat := 0x69000
def catMax : Nat := 0x869000

/-- An image as a bank. -/
def Bank.ofBytes (bs : Bytes) (quiesce : Bool) : Bank :=
  { len := bs.length, bytes := memPut [] 0 bs, digest := sha384 bs, quiesce := quiesce }

/-- No byte of a range is other than zero. -/
def Bank.zeroIn (k : Bank) (off n : Nat) : Bool := k.bytes.all fun c => c.1 < off || off + n ≤ c.1 || c.2 == 0

/-! ### Format (R802, R803) -/

/-- The header (R802). -/
def Bank.headerOk (k : Bank) : Bool :=
  k.le 0 4 == 0x47435649 && k.le 4 2 == 1 && k.le 6 2 < 4096 && k.le 8 4 == k.len && catFixed ≤ k.len
    && k.len ≤ catMax && k.le 12 4 == k.len - catFixed && k.zeroIn 16 240

/-- A port table entry: role 3 is invalid, and only a trunk has a neighbour (R508, R803). -/
def portWordOk (w : Word) : Bool :=
  portRole w < 3 && fieldN w 2 4 == 0 && (portRole w == 2 || (portPeerNode w == 0 && portPeerPort w == 0))

/-- Requirement table entry of a gallery: units and slots (R803). -/
def Bank.needUnits (k : Bank) (g : Nat) : Nat := k.le (0x200 + 8 * g) 8 / 65536 % 4096
def Bank.needSlots (k : Bank) (g : Nat) : Nat := k.le (0x200 + 8 * g) 8 % 8

def Bank.needOk (k : Bank) (g : Nat) : Bool :=
  let w := k.le (0x200 + 8 * g) 8
  if g = 0 then w == 0 else w / 8 % 8192 == 0 && w / 2 ^ 28 == 0

/-- A directory entry: the record lies within the image, 128 B aligned (R802, R803). -/
def Bank.dirOk (k : Bank) (id : Nat) : Bool :=
  match k.sched id with
  | none => true
  | some sc => sc.off % 128 == 0 && catFixed ≤ sc.off && sc.off + sc.len ≤ k.len

/-- The first schedule id whose directory entry is bad. -/
def Bank.badDir (k : Bank) : Option Nat := (List.range 4096).find? fun id => !k.dirOk id

/-- The tables of fixed form. -/
def Bank.tablesOk (k : Bank) : Bool :=
  ((List.range 48).all fun p => portWordOk (k.portWord p)) && k.zeroIn 0x1C0 64
    && ((List.range 64).all fun g => k.needOk g) && k.zeroIn 0x400 0xC00

/-! ### Routes (R499, R500, R508, R607) -/

/-- Entry `i` of a route, which has `m + 1` entries. -/
def Bank.entryOk (k : Bank) (route m i : Nat) : Bool :=
  let e := routeEntry route i
  if e < 48 then
    i != 0 || portRole (k.portWord e) == 2 || (m == 0 && portRole (k.portWord e) == 1)
  else (e == 0x3E || e == 0x3F) && i == m

/-- A valid route word, with its hop table entry. -/
def Bank.routeOk (k : Bank) (node r : Nat) : Bool :=
  let w := k.routeWord node r
  fieldN w 59 4 == 0 && (!routeValid w ||
    ((List.range (routeHopsM1 w + 1)).all (fun i => k.entryOk (routeBits w) (routeHopsM1 w) i)
      && k.hop node r 0 == k.le 6 2 % 4096 && k.le (0x21000 + 64 * node + 16 * r + 12) 4 == 0))

def nodeIds : List Nat := List.range 4096
def routeNos : List Nat := List.range 4

/-- The first node id with a bad route. -/
def Bank.badRoute (k : Bank) : Option Nat := nodeIds.find? fun n => routeNos.any fun r => !k.routeOk n r

/-- More than one date line on a route (R508). -/
def manyBits (m : Nat) : Bool := 1 < ((List.range 8).filter fun i => m / 2 ^ i % 2 == 1).length

def Bank.badDateLine (k : Bank) : Option Nat :=
  nodeIds.find? fun n => routeNos.any fun r =>
    routeValid (k.routeWord n r) && manyBits (routeDlMask (k.routeWord n r))

/-- The modules that the image names: its own, and every hop of a valid route. -/
def Bank.modules (k : Bank) : List Nat :=
  k.le 6 2 % 4096 :: nodeIds.flatMap fun n => routeNos.flatMap fun r =>
    let w := k.routeWord n r
    if routeValid w then (List.range (routeHopsM1 w + 1)).map fun i => k.hop n r i else []

/-- A route without a date line (R508). -/
def Bank.hasVc6 (k : Bank) (n : Nat) : Bool :=
  routeNos.any fun r => routeValid (k.routeWord n r) && routeDlMask (k.routeWord n r) == 0

def Bank.badVc6 (k : Bank) : Option Nat :=
  let ms := k.modules
  nodeIds.find? fun n => ms.contains n && !k.hasVc6 n

/-! ### Schedules (R293, R294, R367) -/

/-- The form of a schedule record (R293, R294). -/
def Bank.schedOk (k : Bank) (id : Nat) (sc : Sched) : Bool :=
  k.le sc.off 2 == id && k.le (sc.off + 2) 1 < 64 && 1 ≤ sc.gallery && 2 ≤ sc.depth && sc.depth ≤ 16 && 1 ≤ sc.n
    && sc.n ≤ 1024 && 1 ≤ sc.b && sc.b ≤ sc.n && sc.instSo / 2 ^ 14 % 2 == 0 && (sc.alt < 4096 || sc.alt == 0xFFFF)
    && sc.groups == ceilDiv sc.n sc.b && sc.groups ≤ 64 && k.zeroIn (sc.off + 26) 38
    && 64 + 4 * sc.n + 8 * sc.groups ≤ sc.len
    && ((List.range sc.n).all fun r => k.le (sc.off + 64 + 4 * r) 4 % 2 ^ 14 == 0 && (k.rankOf sc r).2 < 48)
    && ((List.range sc.groups).all fun g => k.le (sc.off + 64 + 4 * sc.n + 8 * g) 4 == 0)

/-- Ranks of a group (R295). -/
def Sched.groupRanks (sc : Sched) (g : Nat) : List Nat :=
  (List.range (min sc.b (sc.n - g * sc.b))).map fun i => g * sc.b + i

/-- The kind that the digest gives (R302). -/
def Sched.kind (sc : Sched) : Nat := sc.digest / 2 ^ 60 % 16

/-- One home for the sparse kinds and DISPATCH; a COMBINE's ranks attach through their home (R367). -/
def Bank.sparseOk (k : Bank) (sc : Sched) : Bool :=
  let kd := sc.kind
  if (6 ≤ kd && kd ≤ 8) || kd == 0xA then sc.groups == 1
  else if kd = 0xB then
    (List.range sc.groups).all fun g =>
      (sc.groupRanks g).all fun r => (k.rankOf sc r).1 == (k.homeOf sc g).1
  else true

/-- The least footprint of the home of a group (R367). -/
def Bank.minFootprint (k : Bank) (sc : Sched) (g : Nat) : Nat :=
  let kd := sc.kind
  let w := sc.digest
  let ng := (sc.groupRanks g).length
  if 1 ≤ kd && kd ≤ 5 then
    if sc.groups = 1 then sc.n * sc.depth else ng * sc.depth + sc.groups * sc.depth
  else if kd = 6 || kd = 7 then sc.n * sc.depth
  else if kd = 8 then sc.n * sc.depth + ceilDiv (16 * (Shape.dec w).count) 65536
  else if kd = 0xA then ceilDiv (8 * sc.n * (k.experts sc).length) 65536
  else if kd = 0xB then ng * ceilDiv (shapeTmax w * shapeK w * shapeTb w) 65536
  else 0

def Bank.footprintOk (k : Bank) (sc : Sched) : Bool :=
  (List.range sc.groups).all fun g => k.minFootprint sc g ≤ (k.homeOf sc g).2

/-- The first schedule whose record fails a test. -/
def Bank.badSched (k : Bank) (ok : Nat → Sched → Bool) : Option Nat :=
  (List.range 4096).find? fun id => (k.sched id).any fun sc => !ok id sc

/-- The reason that makes an image invalid, and the node or schedule concerned (R809 check 5, R832). -/
def Bank.fault (k : Bank) : Option (Nat × Nat) :=
  if !k.headerOk || !k.tablesOk then some (cvFormat, 0)
  else
    (k.badDir.map fun i => (cvFormat, i))
      <|> (k.badRoute.map fun n => (cvRoute, n))
      <|> (k.badDateLine.map fun n => (cvDateLine, n))
      <|> (k.badVc6.map fun n => (cvVc6, n))
      <|> ((k.badSched fun id sc => k.schedOk id sc).map fun i => (cvSchedule, i))
      <|> ((k.badSched fun _ sc => k.sparseOk sc).map fun i => (cvSparse, i))
      <|> ((k.badSched fun _ sc => k.footprintOk sc).map fun i => (cvCapacity, i))

/-! ### Changes that cannot be banked (R810) -/

/-- A port's role or neighbour differs between two banks. -/
def portChanged (a b : Word) : Bool :=
  portRole a != portRole b || portPeerNode a != portPeerNode b || portPeerPort a != portPeerPort b

/-- Units of a gallery's extents. -/
def Gallery.units (x : Gallery) : Nat := ((x.extents.filter fun e => e.2.en).map fun e => e.2.size).sum

/-- The first change of R810: its code, and the port or gallery concerned. -/
def State.unbankable (s : State) (k : Bank) : Option (Nat × Nat) :=
  let old := s.active
  let ports := List.range 48
  let held := (List.range 64).filter fun g => (s.gal g).state != .free
  if k.le 6 2 % 4096 ≠ s.node then some (1, 0)
  else
    ((ports.find? fun p => portChanged (old.portWord p) (k.portWord p)).map fun p => (2, p))
      <|> ((ports.find? fun p => portLaneMask (k.portWord p) != (s.link p).laneMask.toNat).map fun p => (3, p))
      <|> ((held.find? fun g => k.needUnits g != 0 && k.needUnits g != (s.gal g).units).map fun g => (4, g))
      <|> ((held.find? fun g => k.needSlots g != 0 && k.needSlots g != (s.gal g).slotsPerPort).map fun g => (5, g))

end Sys2Proof.Machine
end

