-- ==== Sys2Proof/Machine/Rehang.lean ====
section
/-! DEFINITION. Rehangs: FILL, SWITCH and the drain of an epoch (R805 to R817). -/

namespace Sys2Proof.Machine

def State.modCat (s : State) (f : Cat → Cat) : State := { s with cat := f s.cat }

/-- The number of the shadow bank (R805). -/
def Cat.shadowNo (c : Cat) : Bool := c.installed && !c.epoch

/-! ### Drain of an epoch (R806) -/

/-- A fabric header bears an epoch. -/
def bears (e : Bool) (h : Header) : Bool := (FHdr.dec h).epoch == e

/-- A packet that waits on a trunk port's link bears an epoch. -/
def TxPkt.bears (e : Bool) (x : TxPkt) : Bool :=
  x.cls == 1 && Machine.bears e (BitVec.ofNat 256 (leNat (x.bytes.take 32)))

/-- An operation of a port joined under an epoch. -/
def Op.joinedUnder (e : Bool) (o : Op) : Bool :=
  o.epoch == e && o.col.inst.isSome
    && match o.phase with
      | .joined | .running | .sent => true
      | _ => false

/-- Nothing of an epoch remains at the module (R806). -/
def State.drained (s : State) (e : Bool) : Bool :=
  !(s.replay.any (fun o => bears e o.hdr) || (s.swc.buf ++ s.swc.waiting).any (fun b => bears e b.hdr)
    || s.links.any (fun l => l.2.waiting.any fun x => x.bears e)
    || s.arrived.any (fun x => bears e x.1)
    || s.docents.any (fun d => d.2.tgts.any fun q => bears e q.hdr)
    || s.sos.any (fun o => o.2.waiters.any fun w => bears e w.hdr)
    || s.red.insts.any (fun i => i.epoch == e) || s.red.waiting.any (fun m => m.epoch == e)
    || s.ctxs.any fun c => c.2.ops.any fun o => o.joinedUnder e)

/-! ### FILL (R808 to R811) -/

/-- The args of REHANG (R808). -/
structure RehangArgs where
  phase : Nat
  quiesce : Bool
  length : Nat
  offset : Nat
deriving DecidableEq, Repr

def RehangArgs.dec (a : Bytes) : RehangArgs :=
  { phase := argLe a 16 1, quiesce := argLe a 17 1 % 2 == 1, length := argLe a 20 4, offset := argLe a 24 8 }

/-- The reserved args are zero (R709, R808). -/
def rehangArgs (a : Bytes) : Bool :=
  argLe a 17 1 < 2 && argLe a 18 2 == 0 && argZeroFrom a 32 && !(argLe a 16 1 == 2 && argLe a 20 4 != 0)

def rehangForm : CmdForm :=
  { lenOk := fun n => n == 0, argsOk := rehangArgs, blockOk := fun _ => true, states := [.service, .operational] }

/-- A REHANG ends (R835). -/
def State.rehangEnds (s : State) (t : Taken) (status value : Nat) : State :=
  (s.modCat fun c => { c with lastStatus := status, token := none, fillThenSwitch := false, quiescing := false }).complete
    t status value

/-- Checks 2 to 4 of R809. A REHANG that has not ended keeps a further one out. -/
def State.fillCheck (s : State) (r : RehangArgs) : Option Nat :=
  if r.phase = 0 || 3 < r.phase || r.offset % 128 ≠ 0 || stagingBytes < r.offset + r.length then some stMalformed
  else if r.quiesce && s.ctl.state != .service then some stWrongState
  else if s.cur.fw == .verifying || s.cur.fw == .writing || s.cat.shadow == .draining || s.cat.token.isSome then
    some stBusy
  else none

/-- Checks 5 and 6 of R809: the status and the value of a refusal (R832). -/
def State.imageCheck (s : State) (k : Bank) : Option (Nat × Nat) :=
  match k.fault with
  | some (why, id) => some (stCatalogueInvalid, why + id * 65536)
  | none =>
    if !s.cat.installed || k.quiesce then none
    else (s.unbankable k).map fun x => (stNeedsQuiesce, x.1 + x.2 * 256)

/-- A FILL that fails changes nothing but the status of the last REHANG. -/
def State.rehangRefused (s : State) (t : Taken) (status value : Nat) : State :=
  (s.modCat fun c => { c with lastStatus := status }).complete t status value

/-- A FILL, alone or with the SWITCH that follows (R809, R811, R817). -/
def State.fill (s : State) (t : Taken) (both : Bool) : State :=
  let r := RehangArgs.dec t.args
  match s.fillCheck r with
  | some st => s.rehangRefused t st 0
  | none =>
    match s.vmRead (vpaStaging + r.offset) r.length with
    | (s, none) => s.rehangRefused t stDataError 0
    | (s, some bs) =>
      match s.imageCheck (Bank.ofBytes bs r.quiesce) with
      | some (st, v) => s.rehangRefused t st v
      | none =>
        ((s.startTaken t).setBank s.cat.shadowNo Bank.reset).modCat fun c =>
          { c with shadow := .filling, token := some t, fillThenSwitch := both, fillLen := r.length
                   fillOff := r.offset, fillQuiesce := r.quiesce }

/-- FILL (R811): a REHANG of phase 1, and one whose phase is none of R808. -/
def execFill (s : State) : Host.Outcome State Fault Refusal :=
  .next (s.runPf (fun t => t.opcode == 0x20 && !(argLe t.args 16 1 == 2 || argLe t.args 16 1 == 3)) rehangForm
    fun s t _ => s.fill t false)

/-- FILL_THEN_SWITCH (R817). -/
def execFillThenSwitch (s : State) : Host.Outcome State Fault Refusal :=
  .next (s.runPf (fun t => t.opcode == 0x20 && argLe t.args 16 1 == 3) rehangForm fun s t _ => s.fill t true)

/-! ### SWITCH (R812, R813) -/

/-- The tag of a bank: bytes 0 to 7 of its digest (R811). -/
def Bank.tag (k : Bank) : Nat := getLe k.digest 0 8

/-- The bytes of a schedule's record in a bank; none if it is absent. -/
def Bank.record (k : Bank) (id : Nat) : Option Bytes := (k.sched id).map fun sc => k.slice sc.off sc.len

/-- A port trains in full after a SWITCH unless it is EXPELLED or MAPPED_OUT (R599, R813 step 5). -/
def State.switchPort (s : State) (p : Nat) : State :=
  if (s.link p).isOut then s else s.startTraining p

/-- Steps 2 to 5 of R813. -/
def State.switchBanks (s : State) : State :=
  let had := s.cat.installed
  let e := s.cat.shadowNo
  let old := if had then s.active else Bank.reset
  let new := s.bank e
  let s := s.modCat fun c =>
    { c with
      installed := true, epoch := e, shadow := if had then .draining else .empty
      switches := wrapAdd 16 c.switches 1, marks := [], deadLinks := [], lostNodes := [], switched := []
      instNo := c.instNo.filter fun x => !had || old.record (x.1 % 4096) == new.record (x.1 % 4096) }
  let same (id : Nat) : Bool := !had || old.record id == new.record id
  let s := { s with red :=
    { s.red with
      pathLost := []
      ended := s.red.ended.filter fun x => same x.1
      early := s.red.early.filter fun x => same x.2.1 } }
  (List.range 48).foldl (fun s p =>
    let w := new.portWord p
    let mask := BitVec.ofNat 8 (portLaneMask w)
    let masked := new.quiesce && mask != (s.link p).laneMask
    let s := if masked then s.modLink p fun l => { l with laneMask := mask } else s
    if masked || portChanged (old.portWord p) w then s.switchPort p else s) s

/-- A SWITCH takes effect and completes (R813 steps 2 to 6). -/
def State.doSwitch (s : State) (t : Taken) : State :=
  let node := s.node
  let s := s.switchBanks
  let e := s.cat.epoch.toNat
  let s := s.rehangEnds t stOk e
  let s := s.curEvent 0x07 0 0 (e + getLe s.active.digest 0 4 * 2 ^ 32)
  let s := s.measChanged 4
  (if s.node = node then s else s.measChanged 6).driveAll

/-- A SWITCH that R812 admits: a quiesce bank waits until every epoch is drained (R813 step 1). -/
def State.switchFrom (s : State) (t : Taken) (tag : Nat) : State :=
  let k := s.bank s.cat.shadowNo
  if s.cat.shadow != .filled || tag ≠ k.tag || (k.quiesce && s.ctl.state != .service) then
    s.rehangEnds t stWrongState 0
  else if k.quiesce && !(s.drained false && s.drained true) then
    s.modCat fun c => { c with quiescing := true, token := some t }
  else s.doSwitch t

/-- SWITCH (R812, R813). -/
def execSwitch (s : State) : Host.Outcome State Fault Refusal :=
  .next (s.runPf (fun t => t.opcode == 0x20 && argLe t.args 16 1 == 2) rehangForm
    fun s t _ =>
      if s.cat.token.isSome then s.rehangRefused t stWrongState 0
      else (s.startTaken t).switchFrom t (argLe t.args 24 8))

/-- SHADOW_FILLED (R811, R817): the copy ends. DESIGN CHOICE: where a codeword of the staged image fails correction, the
REHANG ends with DATA_ERROR and the shadow is EMPTY (log entry 96). -/
def execShadowFilled (s : State) : Host.Outcome State Fault Refusal :=
  match s.cat.token with
  | none => .next s
  | some t =>
    if s.cat.shadow != .filling || !s.cur.up then .next s
    else
      let both := s.cat.fillThenSwitch
      match s.vmRead (vpaStaging + s.cat.fillOff) s.cat.fillLen with
      | (s, none) => .next ((s.modCat fun c => { c with shadow := .empty }).rehangEnds t stDataError 0)
      | (s, some bs) =>
        let k := Bank.ofBytes bs s.cat.fillQuiesce
        let s := (s.setBank s.cat.shadowNo k).modCat fun c => { c with shadow := .filled }
        .next (if both then s.switchFrom t k.tag else s.rehangEnds t stOk k.tag)

/-- SWITCH_QUIESCE_TIMEOUT (R813 step 1). -/
def execSwitchQuiesceTimeout (s : State) : Host.Outcome State Fault Refusal :=
  match s.cat.token with
  | none => .next s
  | some t => if s.cat.quiescing then .next (s.rehangEnds t stBusy 0).driveAll else .next s

/-- EPOCH_DRAINED (R806, R813 step 1, R815). -/
def execEpochDrained (s : State) : Host.Outcome State Fault Refusal :=
  let waits := s.cur.up && s.cat.quiescing && s.drained false && s.drained true
  match s.cat.token, waits with
  | some t, true => .next (s.doSwitch t)
  | _, _ =>
    if s.cat.shadow == .draining && s.drained (!s.cat.epoch) then
      .next ((s.modCat fun c => { c with shadow := .drained }).curEvent 0x08 0 0 (!s.cat.epoch).toNat)
    else .next s

end Sys2Proof.Machine
end

