-- ==== Sys2Proof/Machine/Flags.lean ====
section
/-! DEFINITION. What every register reads (R845 to R864): its fields, packed from the state, as the physical function
sees them (`full = false`, masked and rounded down where the manual says so) or as a gallery's own function sees its
mirror (`full = true`). -/

namespace Sys2Proof.Machine

/-- Fields placed at their bits, cut to their widths. -/
def pack (fs : List (Nat × Nat × Nat)) : Word := fs.foldl (fun w f => w ||| putN f.1 f.2.1 f.2.2) 0

/-- Rounded down for the physical function. -/
def roundPf (full : Bool) (m v : Nat) : Nat := if full then v else roundDown v m

/-- A reading hidden from the physical function. -/
def hide (hidden : Bool) (v : Nat) : Nat := if hidden then 0 else v

/-! ### Identity and state -/

/-- MOD_STATE (R721); its mirror reads `changed` as zero (R694). -/
def State.regModState (s : State) (full : Bool) : Word :=
  pack [(32, 8, s.ctl.lastStatus), (16, 1, hide full s.ctl.changed.toNat), (4, 4, s.ctl.target.elim 0 modStateCode),
    (0, 4, modStateCode s.ctl.state)]

/-- MOD_ID (R846). -/
def State.regModId (s : State) : Word := pack [(48, 8, 1), (24, 12, s.node), (0, 16, 0x480)]

/-- MOD_SERIAL_k (R847). -/
def regSerial (k : Nat) : Word := Config.serial.extractLsb' (64 * k) 64

/-- CUR_STAT (R765). -/
def State.regCurStat (s : State) : Word :=
  pack [(32, 32, s.cur.fwVersion), (24, 8, s.cur.svn), (16, 8, s.cur.restarts), (12, 4, s.cur.coresUp.toNat),
    (8, 4, s.cur.lastCause)]

/-- The encoding of FW_STATUS.state (R743). -/
def fwCode : FwState → Nat
  | .none => 0
  | .verifying => 1
  | .writing => 2
  | .staged => 3
  | .deferred => 4
  | .overwriting => 5
  | .restarting => 6

/-- FW_STATUS (R766). -/
def State.regFwStatus (s : State) : Word :=
  pack [(32, 32, s.cur.stagedVersion), (24, 8, s.cur.stagedSvn), (16, 8, s.flash.fusedSvn), (8, 8, s.cur.lastStatus),
    (4, 4, s.flash.revoked.toNat), (0, 4, fwCode s.cur.fw)]

/-- LOG_STAT (R768). -/
def State.regLogStat (s : State) : Word := pack [(32, 32, s.cur.logLost), (0, 32, s.cur.logWritten)]

/-! ### Clocks and power -/

/-- A tenant gallery is not FREE: readings are coarsened (R666). -/
def State.coarse (s : State) : Bool := !s.allFree

/-- The power and temperature readings that are offered (R666, R797). -/
def State.readings (s : State) : Sample :=
  if s.coarse then
    { s.pwr.coarse with power := (s.pwr.coarse.power + 2) / 5 * 5, volts := s.pwr.sample.volts }
  else s.pwr.sample

/-- PWR_CAP (R795). -/
def State.regPwrCap (s : State) : Word := pack [(32, 16, s.pwr.bmcCap), (16, 16, s.pwr.drvCap), (0, 16, s.pwr.cap)]

/-- PWR_STAT (R796). -/
def State.regPwrStat (s : State) : Word :=
  let p := s.pwr
  pack [(40, 8, p.causes.toNat), (35, 1, p.senseOpen.toNat), (34, 1, p.auxOutFault.toNat),
    (33, 1, (p.sensorFail != 0).toNat), (32, 1, p.fthr.toNat), (7, 1, p.emergency.toNat), (6, 1, p.capNotMet.toNat),
    (2, 2, p.tier), (1, 1, p.auxGood.toNat), (0, 1, p.mainGood.toNat)]

/-- PWR_READ (R797). -/
def State.regPwrRead (s : State) : Word :=
  let x := s.readings
  pack [(48, 16, x.power), (32, 16, x.volts), (16, 16, x.amps)]

/-- THERM_READ (R797). -/
def State.regThermRead (s : State) : Word :=
  let x := s.readings
  pack [(40, 5, s.pwr.sensorFail.toNat), (32, 8, x.outlet), (24, 8, x.inlet), (16, 8, x.pstage), (8, 8, x.vault),
    (0, 8, x.die)]

/-- CLK_CTL (R798). -/
def State.regClkCtl (s : State) : Word :=
  let c := s.clk
  pack [(48, 8, c.curF), (40, 8, c.vaultF), (32, 8, c.coreF), (14, 1, c.refused.toNat), (8, 6, c.refPort),
    (2, 1, c.revert.toNat), (0, 2, c.refSel)]

/-- CLK_STAT (R799). -/
def State.regClkStat (s : State) : Word :=
  pack [(8, 8, s.clk.fallbacks), (7, 1, s.clk.locked.toNat), (0, 2, s.clk.refNow)]

/-- CLK_EN (R800). -/
def State.regClkEn (s : State) : Word := pack [(63, 1, s.clk.enRefused.toNat), (0, 6, s.clk.blocks.toNat)]

/-- OWN_CTL (R801). -/
def State.regOwnCtl (s : State) : Word :=
  pack [(63, 1, s.own.conflict.toNat), (32, 24, s.own.tickDiv), (0, 8, s.own.en.toNat)]

/-- Pin ALERT# is asserted (R792). -/
def State.alert (s : State) : Bool :=
  (bitN s.own.en 4 && (s.pwr.emergency || s.pwr.capNotMet))
    || (bitN s.own.en 5 && ((s.fn 0).ring 2).pi != ((s.fn 0).ring 2).ci)

/-- What drives pin CLKO (R792, R869): 1 the reference, 2 the tick export, 0 no owner, which leaves it low. -/
def State.clko (s : State) : Nat := if bitN s.own.en 0 then 1 else if bitN s.own.en 1 then 2 else 0

/-! ### Rings and interrupts -/

/-- RING_CFG_r (R698). -/
def Ring.regCfg (g : Ring) : Word :=
  pack [(63, 1, g.en.toNat), (62, 1, g.stopped.toNat), (61, 1, g.refused.toNat), (32, 4, g.log2), (12, 10, g.base)]

/-- RING_IDX_r (R700, R701). -/
def Ring.regIdx (g : Ring) : Word := pack [(32, 32, g.pi), (0, 32, g.ci)]

/-- INT_MAP_c (R717). -/
def IntMap.reg (i : IntMap) : Word := pack [(24, 8, i.coalesce), (16, 1, i.arm.toNat), (0, 5, i.vector)]

/-- INC_OVF and INC_LOST_c (R461). -/
def Fn.regOvf (x : Fn) : Word := pack [(63, 1, x.ovf.toNat), (0, 32, x.firstLost)]
def Fn.regLost (x : Fn) (c : Nat) : Word := pack [(0, 32, Tab.get 0 x.lost c)]

/-- HIF_STAT (R726). -/
def State.regHif (s : State) : Word := pack [(32, 32, (s.fn 0).bar2Refused), (0, 32, (s.fn 0).cmdsTaken)]

/-- Half `k` of an MSI-X table entry: address, then data and vector control (R715). -/
def Msix.reg (m : Msix) (k : Nat) : Word :=
  if k = 0 then m.addr else pack [(32, 1, m.masked.toNat), (0, 32, m.data.toNat)]

/-- The MSI-X PBA (R718). -/
def Fn.regPba (x : Fn) : Word := pack ((List.range 32).map fun v => (v, 1, (x.vec v).pending.toNat))

/-! ### Port pages -/

/-- The encoding of PORT_STAT.state (R599). -/
def linkCode : LinkState → Nat
  | .disabled => 0
  | .training => 1
  | .active => 2
  | .idle => 3
  | .retrain => 4
  | .down => 5
  | .mappedOut => 6
  | .expelled => 7

/-- PORT_CTL (R612). -/
def Link.regCtl (l : Link) : Word := pack [(8, 8, l.laneMask.toNat), (3, 1, l.idleEn.toNat)]

/-- PORT_STAT (R613). -/
def State.regPortStat (s : State) (p : Nat) : Word :=
  let l := s.link p
  pack [(56, 1, l.refused.toNat), (48, 8, s.failedLanes p), (40, 8, l.downs), (28, 12, l.peerNode), (22, 6, l.peerPort),
    (21, 1, l.txIdle.toNat), (20, 1, l.rxIdle.toNat), (16, 2, l.width), (0, 4, linkCode l.state)]

/-- PORT_LINK_CFG (R614). -/
def Link.regCfg (l : Link) : Word :=
  pack [(48, 16, l.idleNs), (40, 8, l.retryTimeout), (32, 8, l.pathTimeout), (24, 8, l.serLog2), (16, 8, l.flapLimit),
    (8, 8, l.deadNs)]

/-- PORT_FLIT_ERR (R615), PORT_RETRY (R616) and PORT_PROTO_ERR (R617). -/
def Link.regFlitErr (l : Link) : Word := pack [(32, 32, l.corrected), (0, 32, l.bad)]
def Link.regRetry (l : Link) : Word := pack [(48, 16, l.retrains), (24, 24, l.replays), (0, 24, l.naksSent)]
def Docent.regProtoErr (d : Docent) : Word := pack [(32, 32, d.authFail), (0, 32, d.protoErr)]

/-- A context of the port is bound to a tenant gallery (R40, R618). -/
def State.tenantPort (s : State) (p : Nat) : Bool := s.ctxs.any fun c => c.1 / 16 == p && c.2.bound && c.2.gal != 0

/-- PORT_CREDIT (R618, R851). -/
def State.regCredit (s : State) (p : Nat) : Word :=
  pack ((List.range 8).map fun v => (8 * v, 8, roundPf (!s.tenantPort p) 16 (min ((s.link p).credit v) 255)))

/-- PCACHE_STAT (R216): only the physical function sees it, rounded down (R217). -/
def Docent.regPcache (d : Docent) : Word :=
  pack [(32, 32, d.wbFail), (16, 15, roundDown d.pcache.length 256),
    (0, 15, roundDown (d.pcache.filter (·.dirty)).length 256)]

/-- UCACHE_STAT (R459), rounded down (R460). -/
def Docent.regUcache (d : Docent) : Word :=
  pack [(32, 32, roundDown d.tlbMisses 256), (0, 13, roundDown d.tlb.length 256)]

/-- PORT_SPEC (R548). -/
def State.regSpec (s : State) (p : Nat) : Word :=
  pack [(8, 2, s.role p), (7, 1, (s.swcPort p).specEn.toNat), (0, 5, (s.swcPort p).specK)]

/-- PORT_VC7_DROP (R549), rounded down (R551). -/
def SwcPort.regDrop (x : SwcPort) : Word :=
  pack [(42, 21, roundDown x.dropRed 256), (21, 21, roundDown x.dropYellow 256), (0, 21, roundDown x.dropGreen 256)]

/-- PORT_SWC_OCC (R550), rounded down (R551). -/
def State.regOcc (s : State) (p : Nat) : Word :=
  pack [(32, 16, roundDown ((s.swcPort p).avg / 65536) 256),
    (0, 20, roundDown ((s.swc.buf.filter fun b => b.inp == p).map (·.cells)).sum 256)]

/-- LANE_CFG_i (R619). -/
def Lane.regCfg (x : Lane) : Word :=
  pack [(23, 1, x.ctleManual.toNat), (16, 6, x.ctleCode), (15, 1, x.ffeManual.toNat), (8, 5, x.txPost), (0, 5, x.txPre)]

/-- LANE_STAT_i (R620). -/
def Lane.regStat (x : Lane) : Word :=
  pack [(32, 32, x.corrSym), (24, 6, x.ctleNow), (16, 5, x.postNow), (8, 5, x.preNow), (3, 1, x.failed.toNat),
    (2, 1, x.inverted.toNat), (1, 1, x.cdrLock.toNat), (0, 1, x.signal.toNat)]

/-- GAL_KEYSLOT_s (R683). -/
def Docent.regKeySlot (d : Docent) (i : Nat) (full : Bool) : Word :=
  let k := d.slot i
  let g := k.owner.getD 0
  let hidden := !full && g != 0
  pack [(63, 1, k.owner.isSome.toNat), (62, 1, hide hidden k.installed.toNat),
    (61, 1, hide hidden (k.owner.isSome && Tab.get 0 d.sendSlot g == i + 1).toNat), (48, 6, g), (0, 16, hide hidden k.gen)]

/-- The encoding of CTX_STATE.state (R77). -/
def ctxCode : CtxState → Nat
  | .unbound => 0
  | .idle => 1
  | .ready => 2
  | .active => 3
  | .blocked => 4
  | .parked => 5
  | .ending => 6

/-- The send slot of a bound context's gallery (R159, R645). -/
def State.ctxSlot (s : State) (g : Nat) : Nat :=
  if (s.ctx g).bound then Tab.get 0 (s.docent (g / 16)).sendSlot (s.ctx g).gal - 1 else 0

/-- CTX_STATE of context `g` (R159, R161). -/
def State.regCtxState (s : State) (g : Nat) (full : Bool) : Word :=
  let c := s.ctx g
  let hidden := !full && c.gal != 0
  pack [(56, 8, hide hidden c.lastStatus), (39, 17, hide hidden c.pc), (19, 20, c.pasid), (13, 6, c.gal),
    (7, 6, hide hidden (s.ctxSlot g)), (0, 4, ctxCode c.state)]

/-- CTX_OPS of a context (R160). -/
def Ctx.regOps (c : Ctx) : Word := pack [(32, 6, c.ops.length), (0, 32, c.toursEnded)]

/-! ### Switch core -/

/-- SWC_CTL (R540). -/
def Swc.regCtl (w : Swc) : Word := pack [(32, 16, w.vc7Max), (16, 8, w.beRetx), (8, 4, w.redW), (0, 3, w.alphaShift)]

/-- SWC_VC_MODE (R541). -/
def Swc.regVcMode (w : Swc) : Word := pack [(8, 1, w.vcRefused.toNat), (7, 1, w.red7.toNat)]

/-- SWC_RC_CTL (R542). -/
def Swc.regRcCtl (w : Swc) : Word := pack [(63, 1, w.rcConflict.toNat), (32, 19, w.mcLimit), (0, 19, w.specLimit)]

/-- SWC_STAT (R543), rounded down (R551). -/
def Swc.regStat (w : Swc) : Word :=
  pack [(24, 20, roundDown w.sharedFree 256), (0, 19, roundDown w.rcUsed 256)]

/-- SWC_ERR (R544) and SWC_SPEC_STAT (R545). -/
def Swc.regErr (w : Swc) : Word := pack [(48, 16, w.bufUe), (32, 16, w.routeErr), (0, 32, w.bufCe)]
def Swc.regSpecStat (w : Swc) : Word := pack [(32, 32, w.specDropped), (0, 32, w.specTaken)]

/-- SWC_RED_c (R546). -/
def Swc.regRed (w : Swc) (c : Nat) : Word := pack [(56, 8, redMaxP w c), (32, 16, redMaxTh w c), (16, 16, redMinTh w c)]

/-- SWC_GAL_CLASS_g (R547). -/
def Gallery.regClass (x : Gallery) : Word := pack [(63, 1, x.be.toNat), (32, 10, x.pir), (0, 10, x.cir)]

/-! ### Catalogue -/

/-- The encoding of REHANG_STAT.shadow (R805). -/
def bankCode : BankState → Nat
  | .empty => 0
  | .filling => 1
  | .filled => 2
  | .draining => 3
  | .drained => 4

/-- Bank `b` is the active bank. -/
def Cat.isActive (c : Cat) (b : Bool) : Bool := c.installed && b == c.epoch

/-- The shadow state of a bank that is not active; a bank that is no shadow is EMPTY (R805, R854). -/
def Cat.stateOf (c : Cat) (b : Bool) : BankState := if !c.isActive b && b == c.shadowNo then c.shadow else .empty

/-- The bank shows no bytes (R854, R856). -/
def Cat.blank (c : Cat) (b : Bool) : Bool :=
  !c.isActive b && (c.stateOf b == .empty || c.stateOf b == .filling)

/-- CAT_BANK_b (R854). -/
def State.regCatBank (s : State) (b : Bool) : Word :=
  let k := s.bank b
  let len := if s.cat.blank b then 0 else k.len
  pack [(32, 32, len), (20, 12, if len = 0 then 0 else k.le 6 2), (3, 1, (s.cat.isActive b).toNat),
    (0, 3, if s.cat.isActive b then 0 else bankCode (s.cat.stateOf b))]

/-- CAT_WIN_CTL (R855). -/
def State.regWinCtl (s : State) : Word := pack [(1, 2, s.cat.winBase), (0, 1, s.cat.winBank.toNat)]

/-- Senders of the module that choose routes: ports, the curator and the reduction engine. -/
def State.senders (s : State) : List Nat :=
  ((List.range 48 ++ [0x3E, 0x3F]) ++ s.cat.marks.map fun m => m.2.1 : List Nat).eraseDups

/-- ROUTE_MARK_n (R857). -/
def State.regRouteMark (s : State) (n : Nat) : Word :=
  if !s.cat.installed then 0
  else
    pack ((List.range 4).flatMap fun r =>
      let valid := routeValid (s.active.routeWord n r)
      [(4 + r, 1, valid.toNat), (r, 1, (s.senders.any fun x => s.isMarked s.cat.epoch x n r).toNat)])

/-- A word of the bank window (R856). -/
def State.regWindow (s : State) (off : Nat) : Word :=
  let b := s.cat.winBank
  let at_ := s.cat.winBase * 0x400000 + off
  let k := s.bank b
  if s.cat.blank b || (!s.cat.isActive b && s.cat.stateOf b == .drained) then 0
  else BitVec.ofNat 64 (leNat ((List.range 8).map fun i => if at_ + i < k.len then Tab.get 0 k.bytes (at_ + i) else 0))

/-! ### Reduction engine, sync objects, translation -/

/-- RED_QUOTA_g (R358). -/
def Gallery.regQuota (x : Gallery) : Word := pack [(0, 20, x.maxDrawers)]

/-- RED_USE_g (R359, R360). -/
def State.regRedUse (s : State) (g : Nat) (full : Bool) : Word :=
  let full := full || g == 0
  let q := s.red.claims.filter fun c => c.1 == g
  let head := match q with
    | [] => 0
    | c :: _ =>
      ((s.red.insts.find? fun i => i.sched == c.2.1 && i.inst == c.2.2.1 && i.group == c.2.2.2).map (·.footprint)).getD 0
  pack [(40, 20, roundPf full 64 head), (32, 8, hide (!full) (min q.length 255)), (0, 20, roundPf full 64 (s.gal g).granted)]

/-- RED_POOL (R361). -/
def State.regRedPool (s : State) : Word := pack [(0, 20, 655360 - piecesSize s.red.held)]

/-- RED_STAT (R362). -/
def State.regRedStat (s : State) : Word := pack [(32, 9, (s.red.insts.filter (·.live)).length), (0, 32, s.red.aborted)]

/-- DISP_STAT (R414), rounded down (R415). -/
def State.regDisp (s : State) : Word :=
  pack [(32, 32, roundDown s.red.dropped 4096), (0, 32, roundDown s.red.windows 4096)]

/-- SO_VALUE_n (R284). -/
def State.regSoValue (s : State) (n : Nat) : Word := if s.soOwned n 0 then (s.so n).value else 0

/-- SO_CTL_n (R285). -/
def State.regSoCtl (s : State) (n : Nat) : Word :=
  let o := s.so n
  pack [(16, 16, hide (!s.soOwned n 0) o.waiters.length), (7, 1, o.owner.isSome.toNat), (0, 6, o.owner.getD 0)]

/-- SYNC_WAITQ_g (R286) and ORDER_MODE_g (R288). -/
def Gallery.regWaitq (x : Gallery) : Word := pack [(0, 15, x.maxWaiters)]
def Gallery.regOrder (x : Gallery) : Word := pack [(0, 1, x.legacy.toNat)]

/-- SYNC_STAT (R287). -/
def State.regSyncStat (s : State) : Word := pack [(32, 15, roundDown s.waitersAll 64), (0, 32, s.waitRefused)]

/-- TRN_CTL_g (R456). -/
def Gallery.regTrn (x : Gallery) : Word := pack [(48, 16, x.prTimeout), (32, 13, x.ucacheMax), (0, 25, x.cidxMax)]

/-- Page requests of a gallery, outstanding or waiting (R457). -/
def State.pagesOf (s : State) (g : Nat) : Nat :=
  match s.galFn g with
  | some f =>
    (((s.fn f).prgs.filter fun q => q.2.gal == g).length) + ((s.fn f).waiting.filter fun q => q.gal == g).length
  | none => 0

/-- TRN_USE_g (R457, R460). -/
def State.regTrnUse (s : State) (g : Nat) (full : Bool) : Word :=
  let full := full || g == 0
  pack [(32, 16, roundPf full 256 (s.pagesOf g)), (0, 25, roundPf full 256 (s.trn.cidx.filter fun e => e.gal == g).length)]

/-- TRN_STAT (R458), rounded down (R460). -/
def State.regTrnStat (s : State) : Word :=
  pack [(48, 16, roundDown s.trn.stray 256), (24, 24, roundDown s.trn.refused 256),
    (0, 24, roundDown s.trn.inval 256)]

/-! ### Security, telemetry, vault -/

/-- SEC_GAL_g (R680). -/
def State.regSecGal (s : State) (g : Nat) (full : Bool) : Word :=
  let x := s.gal g
  pack [(48, 16, hide (!full && g != 0) x.gen), (36, 12, x.lead), (5, 2, (s.galFn g).elim 0 fun f => (s.fn f).tdi),
    (4, 1, x.root.toNat), (3, 1, x.claimant.isSome.toNat), (0, 3, galStateCode x.state)]

/-- SEC_QUORUM (R681). -/
def State.regQuorum (s : State) : Word := pack [(32, 32, s.sec.nextSeq), (4, 3, s.sec.k), (0, 3, s.sec.quorum.length)]

/-- SEC_STAT (R682). -/
def State.regSecStat (s : State) : Word :=
  pack [(32, 32, roundPf s.allFree 4096 s.sec.fabAuthFail), (8, 24, roundPf s.allFree 4096 s.sec.rotations),
    (0, 8, (s.sec.sessions.filter (·.open_)).length)]

/-- GAL_PORT_KEY_p of a gallery (R684). -/
def State.regPortKey (s : State) (g p : Nat) : Word :=
  let d := s.docent p
  let k := Tab.get 0 d.sendSlot g - 1
  pack [(63, 1, (bitN (s.gal g).ports p).toNat), (48, 6, k),
    (0, 16, if Tab.get 0 d.sendSlot g = 0 then 0 else (d.slot k).gen)]

/-- WAITs listed under the draining epoch (R835). -/
def State.drainWaits (s : State) : Nat :=
  if s.cat.shadow == .draining then
    ((s.sos.map fun o => (o.2.waiters.filter fun w => bears (!s.cat.epoch) w.hdr).length)).sum
  else 0

/-- REHANG_STAT (R835). -/
def State.regRehang (s : State) : Word :=
  let c := s.cat
  pack [(48, 16, c.late), (32, 16, c.switches), (24, 8, c.lastStatus), (16, 8, min s.drainWaits 255),
    (8, 3, bankCode c.shadow), (2, 1, (c.shadow == .filled && (s.bank c.shadowNo).quiesce).toNat),
    (1, 1, c.installed.toNat), (0, 1, c.epoch.toNat)]

/-- ACTIVE_DIGEST_k (R836). -/
def State.regDigest (s : State) (k : Nat) : Word :=
  if s.cat.installed then BitVec.ofNat 64 (getLe s.active.digest (8 * k) 8) else 0

/-- ALT_STAT and PATH_LOSS (R837). -/
def State.regAlt (s : State) : Word :=
  pack [(32, 32, s.cat.altSwitched), (24, 6, s.cat.altPort), (12, 12, s.cat.altSched), (0, 12, s.cat.altAlt)]
def State.regPathLoss (s : State) : Word := pack [(32, 32, s.cat.lossEvents), (0, 12, s.cat.lossNode)]

/-- HEALTH_MOD, HEALTH_PORT_p and HEALTH_DIE_d (R838). -/
def Health.reg (h : Health) (updates failed : Nat) : Word :=
  pack [(32, 32, updates), (24, 1, failed), (16, 2, h.band), (8, 8, h.cause), (0, 8, h.score)]

/-- LH_STAT (R839). -/
def State.regLh (s : State) : Word := pack [(32, 32, s.tel.lhSeq), (16, 16, s.tel.lhValid), (0, 8, s.tel.lhFail)]

/-- VAULT_CTL (R488). -/
def Vault.regCtl (v : Vault) : Word := pack [(8, 1, v.scrubEn.toNat), (0, 8, v.scrubHours)]

/-- Extents or drawers are being zeroed (R489). -/
def State.zeroing (s : State) : Bool :=
  !s.red.zeroing.isEmpty || s.gals.any fun g => g.2.extents.any fun x => !x.2.zeroing.isEmpty

/-- VAULT_STAT (R489). -/
def State.regVaultStat (s : State) : Word :=
  pack [(2, 1, s.vault.shelfConflict.toNat), (1, 1, s.zeroing.toNat), (0, 1, s.vault.initDone.toNat)]

/-- VAULT_DIE_ERR_d (R490) and VAULT_LAST_UE (R491). -/
def DieErr.reg (d : DieErr) : Word := pack [(32, 32, d.corrected), (16, 16, d.uncorrectable), (0, 16, d.passes)]
def Vault.regLastUe (v : Vault) : Word := pack [(40, 2, v.lastRegion), (35, 5, v.lastDie), (0, 35, v.lastVpa)]

/-- SHELF_EXT_g_i (R492). -/
def Extent.reg (x : Extent) : Word :=
  pack [(63, 1, x.en.toNat), (62, 1, x.ready.toNat), (16, 12, x.size), (0, 12, x.base)]

end Sys2Proof.Machine
end

