-- ==== Sys2Proof/Machine/RegMap.lean ====
section
/-! DEFINITION. The register map (R840 to R864): what each offset reads, and what a write of it changes (R19 to R22,
R841, R844). -/

namespace Sys2Proof.Machine

/-! ### Fields as they are stored -/

/-- A value within limits, or the default. -/
def within (lo hi dflt v : Nat) : Nat := if lo ≤ v && v ≤ hi then v else dflt

/-- Zero is stored as the default. -/
def nonzero (dflt v : Nat) : Nat := if v = 0 then dflt else v

/-- PORT_LINK_CFG takes a value (R614). -/
def Link.putCfg (l : Link) (v : Word) : Link :=
  { l with
    idleNs := max 64 (fieldN v 48 16), retryTimeout := nonzero 0x10 (fieldN v 40 8)
    pathTimeout := nonzero 0x64 (fieldN v 32 8), serLog2 := within 8 30 0x14 (fieldN v 24 8)
    flapLimit := nonzero 4 (fieldN v 16 8), deadNs := nonzero 0x19 (fieldN v 8 8) }

/-- LANE_CFG_i takes a value (R619). -/
def Lane.putCfg (x : Lane) (v : Word) : Lane :=
  { x with
    ctleManual := bitN v 23, ctleCode := min 48 (fieldN v 16 6), ffeManual := bitN v 15
    txPost := min 24 (fieldN v 8 5), txPre := min 16 (fieldN v 0 5) }

/-- SWC_CTL takes a value (R540). -/
def Swc.putCtl (w : Swc) (v : Word) : Swc :=
  { w with
    vc7Max := nonzero 0x4000 (fieldN v 32 16), beRetx := nonzero 0x14 (fieldN v 16 8)
    redW := within 4 12 9 (fieldN v 8 4), alphaShift := fieldN v 0 3 }

/-- SWC_VC_MODE takes a value (R541): bits 0 to 6 of red stay 0. -/
def Swc.putVcMode (w : Swc) (v : Word) : Swc :=
  { w with red7 := bitN v 7, vcRefused := (w.vcRefused && !bitN v 8) || fieldN v 0 7 != 0 }

/-- Cells of the reference-counted region (R536). -/
def rcCells : Nat := 262144

/-- SWC_RC_CTL takes a value (R537, R542). The manual does not say what an mc_limit beyond the region is stored as:
`free`; conflict is set all the same. -/
def Swc.putRcCtl (w : Swc) (v : Word) (free : Nat) : Swc :=
  let mc := if fieldN v 32 19 ≤ rcCells then fieldN v 32 19 else free % (rcCells + 1)
  let spec := fieldN v 0 19
  let above := decide (rcCells < fieldN v 32 19 + spec)
  { w with
    mcLimit := mc, specLimit := if above then rcCells - mc else spec
    rcConflict := (w.rcConflict && !bitN v 63) || above }

/-- SWC_RED_c takes a value (R546). Above a min_th of 0xFFFF the field has no room for max_th: `free`. -/
def Swc.putRed (w : Swc) (c : Nat) (v : Word) (free : Nat) : Swc :=
  let lo := fieldN v 16 16
  let hi := fieldN v 32 16
  let hi := if lo < hi then hi else if lo < 0xFFFF then lo + 1 else free % 0x10000
  { w with
    maxP := Tab.set (redMaxP Swc.reset c) w.maxP c (fieldN v 56 8)
    maxTh := Tab.set (redMaxTh Swc.reset c) w.maxTh c hi
    minTh := Tab.set (redMinTh Swc.reset c) w.minTh c lo }

/-- SWC_GAL_CLASS_g takes a value (R547). -/
def Gallery.putClass (x : Gallery) (v : Word) : Gallery :=
  { x with be := bitN v 63, pir := max (fieldN v 32 10) (fieldN v 0 10), cir := fieldN v 0 10 }

/-- TRN_CTL_g takes a value (R456). -/
def Gallery.putTrn (x : Gallery) (v : Word) : Gallery :=
  { x with
    prTimeout := fieldN v 48 16, ucacheMax := min 4096 (fieldN v 32 13), cidxMax := min 16777216 (fieldN v 0 25) }

/-- INT_MAP_c takes a value (R717). -/
def intOf (v : Word) : IntMap := { coalesce := fieldN v 24 8, arm := bitN v 16, vector := fieldN v 0 5 }

/-! ### Registers with rows of their own (R537, R541, R548) -/

def State.modSwc (s : State) (f : Swc → Swc) : State := { s with swc := f s.swc }

/-- A write of SWC_RC_CTL. -/
def State.rcCtl (s : State) (v : Word) : State :=
  s.draw.modSwc fun w => w.putRcCtl v (Config.freeWord s.freeCtr).toNat

/-- SWC_RC_CTL_WRITE (R537). -/
def execSwcRcCtlWrite (v : Word) (s : State) : Host.Outcome State Fault Refusal :=
  if s.blockOpen 4 then .next (s.rcCtl v) else .next s

/-- A write of PORT_SPEC: en stays 0 while spec_limit is 0 (R537, R548). -/
def State.portSpec (s : State) (p : Nat) (v : Word) : State :=
  let bad := bitN v 7 && s.swc.specLimit == 0
  let s := if bad then s.modSwc fun w => { w with rcConflict := true } else s
  s.modSwcPort p fun x => { x with specEn := bitN v 7 && !bad, specK := within 4 24 0x10 (fieldN v 0 5) }

/-- PORT_SPEC_WRITE (R537). -/
def execPortSpecWrite (p : Port) (v : Word) (s : State) : Host.Outcome State Fault Refusal :=
  if s.pageOpen p then .next (s.portSpec p v) else .next s

/-- SWC_VC_MODE_WRITE (R541). -/
def execSwcVcModeWrite (v : Word) (s : State) : Host.Outcome State Fault Refusal :=
  if s.blockOpen 4 then .next (s.modSwc fun w => w.putVcMode v) else .next s

/-! ### What an offset reads -/

/-- The index of the register at `off` in an array of `n` registers from `base`, `step` bytes apart. -/
def arrayAt (base step n off : Nat) : Option Nat :=
  if base ≤ off && off < base + step * n && (off - base) % step = 0 then some ((off - base) / step) else none

/-- The rings, interrupts and lost counts of a function, at the offsets of its page (R694) or, moved, of BAR0 (R695).
`nr` rings and `nc` causes. -/
def Fn.ringReg (x : Fn) (nr nc off : Nat) : Option Word :=
  match arrayAt 0 16 nr off, arrayAt 8 16 nr off, arrayAt 0x100 8 nc off with
  | some r, _, _ => some (x.ring r).regCfg
  | none, some r, _ => some (x.ring r).regIdx
  | none, none, some c => some (x.int c).reg
  | none, none, none => none

/-- INC_OVF and INC_LOST_c, from the offset of INC_OVF (R461). -/
def Fn.lossReg (x : Fn) (off : Nat) : Word := if off = 0 then x.regOvf else x.regLost (off / 8)

/-- The MSI-X table, from its first offset (R715). -/
def Fn.msixReg (x : Fn) (off : Nat) : Word := (x.vec (off / 16)).reg (off % 16 / 8)

/-- A register of the port page of `p` (R850). -/
def State.portReg (s : State) (p o : Nat) : Word :=
  let d := s.docent p
  if o < 0x40 then
    (match o / 8 with
    | 0 => (s.link p).regCtl
    | 1 => s.regPortStat p
    | 2 => (s.link p).regCfg
    | 3 => (s.link p).regFlitErr
    | 4 => (s.link p).regRetry
    | 5 => d.regProtoErr
    | 6 => s.regCredit p
    | _ => 0)
  else if o = 0x180 then BitVec.ofNat 64 d.aperture
  else if o = 0x200 then BitVec.ofNat 64 d.quantumLog2
  else if o = 0x210 then d.regPcache
  else if o = 0x218 then d.regUcache
  else if o = 0x300 then s.regSpec p
  else if o = 0x308 then (s.swcPort p).regDrop
  else if o = 0x310 then s.regOcc p
  else if 0x400 ≤ o && o < 0x480 then
    (let x := s.lane p ((o - 0x400) / 16)
    if o % 16 = 0 then x.regCfg else x.regStat)
  else if 0x600 ≤ o && o < 0x800 then d.regKeySlot ((o - 0x600) / 8) false
  else if 0x800 ≤ o && o < 0xA00 then BitVec.ofNat 64 (Tab.get 0 d.pcQuota ((o - 0x800) / 8))
  else if 0x1000 ≤ o && o < 0x2000 then
    (let g := ctxIdx p ((o - 0x1000) / 0x100)
    if o % 0x100 = 0 then s.regCtxState g false else if o % 0x100 = 8 then (s.ctx g).regOps else 0)
  else 0

/-- Registers of the identity, clocks and power, and mailbox blocks (R845, R848, R849). -/
def State.lowReg (s : State) (off : Nat) : Word :=
  if off = 0 then 0x10000#64
  else if off = 8 then s.regModState false
  else if off = 0x10 then s.regModId
  else if off = 0x20 || off = 0x28 then regSerial ((off - 0x20) / 8)
  else if off = 0x100 then s.regCurStat
  else if off = 0x108 then s.regFwStatus
  else if off = 0x110 then BitVec.ofNat 64 s.cur.logLevel
  else if off = 0x118 then s.regLogStat
  else if 0x200 ≤ off && off < 0x400 then Tab.get 0 s.cur.trace ((off - 0x200) / 8)
  else if off = 0x100000 then s.regPwrCap
  else if off = 0x100008 then s.regPwrStat
  else if off = 0x100010 then s.regPwrRead
  else if off = 0x100018 then s.regThermRead
  else if off = 0x100100 then s.regClkCtl
  else if off = 0x100108 then s.regClkStat
  else if off = 0x100110 then s.regClkEn
  else if off = 0x100118 then s.clk.ports.setWidth 64
  else if off = 0x100200 then s.regOwnCtl
  else if off = 0x200200 then s.regHif
  else if 0x201000 ≤ off && off < 0x201080 then (s.fn 0).lossReg (off - 0x201000)
  else if 0x300000 ≤ off && off < 0x300200 then (s.fn 0).msixReg (off - 0x300000)
  else if off = 0x308000 then (s.fn 0).regPba
  else if 0x200000 ≤ off then ((s.fn 0).ringReg 5 5 (off - 0x200000)).getD 0
  else 0

/-- Registers of the switch core and the catalogue banks (R852, R853). -/
def State.coreReg (s : State) (off : Nat) : Word :=
  if off < 0x04000030 then
    (match (off - 0x04000000) / 8 with
    | 0 => s.swc.regCtl
    | 1 => s.swc.regVcMode
    | 2 => s.swc.regRcCtl
    | 3 => s.swc.regStat
    | 4 => s.swc.regErr
    | _ => s.swc.regSpecStat)
  else if 0x04000100 ≤ off && off < 0x04000118 then s.swc.regRed ((off - 0x04000100) / 8)
  else if 0x04000200 ≤ off && off < 0x04000400 then (s.gal ((off - 0x04000200) / 8)).regClass
  else if off = 0x05000000 || off = 0x05000008 then s.regCatBank (off = 0x05000008)
  else if off = 0x05000010 then s.regWinCtl
  else if 0x05008000 ≤ off && off < 0x05010000 then s.regRouteMark ((off - 0x05008000) / 8)
  else if 0x05400000 ≤ off && off < 0x05800000 then s.regWindow (off - 0x05400000)
  else 0

/-- Registers of the reduction engine, the sync objects and the translation unit (R858 to R860). -/
def State.unitReg (s : State) (off : Nat) : Word :=
  if 0x06000000 ≤ off && off < 0x06000200 then (s.gal ((off - 0x06000000) / 8)).regQuota
  else if 0x06000200 ≤ off && off < 0x06000400 then s.regRedUse ((off - 0x06000200) / 8) false
  else if off = 0x06000400 then s.regRedPool
  else if off = 0x06000408 then s.regRedStat
  else if off = 0x06000410 then s.regDisp
  else if 0x07000000 ≤ off && off < 0x07040000 then
    (let n := (off - 0x07000000) / 16
    if off % 16 = 0 then s.regSoValue n else s.regSoCtl n)
  else if 0x07040000 ≤ off && off < 0x07040200 then (s.gal ((off - 0x07040000) / 8)).regWaitq
  else if off = 0x07040200 then s.regSyncStat
  else if 0x07040400 ≤ off && off < 0x07040600 then (s.gal ((off - 0x07040400) / 8)).regOrder
  else if 0x08000000 ≤ off && off < 0x08000200 then (s.gal ((off - 0x08000000) / 8)).regTrn
  else if 0x08000200 ≤ off && off < 0x08000400 then s.regTrnUse ((off - 0x08000200) / 8) false
  else if off = 0x08000400 then s.regTrnStat
  else 0

/-- The health register of a port or a die: its score, and whether the die has failed (R838). -/
def healthReg (t : Tab Health) (k failed : Nat) : Word :=
  (Tab.get Health.reset t k).reg 0 failed

/-- Registers of the security, telemetry and vault blocks (R861 to R863). -/
def State.highReg (s : State) (off : Nat) : Word :=
  if 0x09000000 ≤ off && off < 0x09000200 then s.regSecGal ((off - 0x09000000) / 8) false
  else if off = 0x09000200 then s.regQuorum
  else if off = 0x09000208 then s.regSecStat
  else if off = 0x0A000000 then s.regRehang
  else if 0x0A000010 ≤ off && off < 0x0A000040 then s.regDigest ((off - 0x0A000010) / 8)
  else if off = 0x0A000040 then s.regAlt
  else if off = 0x0A000048 then s.regPathLoss
  else if off = 0x0A000100 then s.tel.modHealth.reg s.tel.updates 0
  else if 0x0A000200 ≤ off && off < 0x0A000380 then healthReg s.tel.portHealth ((off - 0x0A000200) / 8) 0
  else if 0x0A000400 ≤ off && off < 0x0A0004C0 then
    healthReg s.tel.dieHealth ((off - 0x0A000400) / 8) (s.die ((off - 0x0A000400) / 8)).failed.toNat
  else if off = 0x0A000500 then s.regLh
  else if off = 0x0B000000 then s.vault.regCtl
  else if off = 0x0B000008 then s.regVaultStat
  else if 0x0B000100 ≤ off && off < 0x0B0001C0 then (s.die ((off - 0x0B000100) / 8)).reg
  else if off = 0x0B000200 then s.vault.regLastUe
  else if 0x0B001000 ≤ off && off < 0x0B001800 then
    ((s.gal ((off - 0x0B001000) / 32)).extent (off % 32 / 8)).reg
  else 0

/-- What the register at an aligned offset of BAR0 holds, whatever gates it (R841). -/
def State.pfReg (s : State) (off : Nat) : Word :=
  if off < 0x01000000 then s.lowReg off
  else if off < 0x01300000 then s.portReg ((off - 0x01000000) / 0x10000) (off % 0x10000)
  else if 0x04000000 ≤ off && off < 0x06000000 then s.coreReg off
  else if 0x06000000 ≤ off && off < 0x09000000 then s.unitReg off
  else if 0x09000000 ≤ off && off < 0x0C000000 then s.highReg off
  else 0

/-- The clock enable of the block or page at an offset is set (R22, R840). -/
def State.clocked (s : State) (off : Nat) : Bool :=
  if off < 0x01000000 then true
  else if off < 0x01300000 then s.portOn ((off - 0x01000000) / 0x10000)
  else
    match off / 0x1000000 with
    | 4 => s.clockOn 4
    | 5 => s.clockOn 4
    | 6 => s.clockOn 0
    | 7 => s.clockOn 1
    | 8 => s.clockOn 2
    | 10 => s.clockOn 3
    | 11 => s.clockOn 5
    | _ => true

/-- A 64-bit read of BAR0 through the physical function (R21, R22, R722). -/
def State.readPf (s : State) (off : Nat) : Word :=
  if off % 8 ≠ 0 || !(s.fn 0).memorySpace || !s.powered then 0
  else if !s.serving then if off = 0 || off = 8 then s.pfReg off else 0
  else if s.clocked off then s.pfReg off else 0

/-- What a register of a virtual function's gallery control page holds (R694, R864). DESIGN CHOICE: the mirrors and the
sync portal of a block whose clock enable is 0 show and act as ever (log entry 83). -/
def State.vfReg (s : State) (f off : Nat) : Word :=
  let x := s.fn f
  let g := x.gal
  if (0x8000 ≤ off && off < 0x8028) then
    (match (off - 0x8000) / 8 with
    | 1 => x.opA
    | 2 => x.opB
    | 3 => x.soResult
    | 4 => BitVec.ofNat 64 x.soStatus
    | _ => 0)
  else if 0xA000 ≤ off && off < 0xA080 then x.lossReg (off - 0xA000)
  else if 0xE000 ≤ off && off < 0xE200 then x.msixReg (off - 0xE000)
  else if off = 0xF000 then x.regPba
  else if off < 0x30 || (0x100 ≤ off && off < 0x110) then (x.ringReg 3 2 off).getD 0
  else if g = 0 then 0
  else if off = 0xF0 then 0x10000#64
  else if off = 0xF8 then s.regModState true
  else if 0x4000 ≤ off && off < 0x7000 then
    (let c := (off - 0x4000) / 16
    if !(s.ctx c).bound || (s.ctx c).gal ≠ g then 0
    else if off % 16 = 0 then s.regCtxState c true else (s.ctx c).regOps)
  else if off = 0x9000 then (s.gal g).regQuota
  else if off = 0x9008 then s.regRedUse g true
  else if 0xB000 ≤ off && off < 0xB020 then ((s.gal g).extent ((off - 0xB000) / 8)).reg
  else if off = 0xC000 then (s.gal g).regClass
  else if 0xD000 ≤ off && off < 0xD180 then s.regPortKey g ((off - 0xD000) / 8)
  else if off = 0xD200 then s.regSecGal g true
  else 0

/-- A 64-bit read of a gallery control page (R21, R685, R722). -/
def State.readVf (s : State) (f off : Nat) : Word := if off % 8 ≠ 0 || !s.barOpen f then 0 else s.vfReg f off

/-- A read of `size` bytes at an offset of a function's BAR0: 4 or 8 bytes, aligned; any other reads zero (R20, R21). -/
def State.readBar (s : State) (f off size : Nat) : Word :=
  if !((size = 4 || size = 8) && off % size = 0) then 0
  else
    let at_ := off / 8 * 8
    let v := if f = 0 then s.readPf at_ else s.readVf f at_
    if size = 8 then v else if off % 8 = 4 then v >>> 32 else v &&& 0xFFFFFFFF#64

/-! ### Writes -/

/-- The bits that a write covers: its lower half, its upper half, or both (R20). -/
def covered (lo hi : Bool) : Word :=
  (if lo then 0xFFFFFFFF#64 else 0) ||| (if hi then 0xFFFFFFFF00000000#64 else 0)

/-- The value that a register takes: the bits written, and in the other half what it holds, with a 0 in each W1C bit
(R19, R20). -/
def merge (view w1c v : Word) (lo hi : Bool) : Word :=
  (view &&& ~~~w1c &&& ~~~covered lo hi) ||| (v &&& covered lo hi)

def w1cBit (b : Nat) : Word := BitVec.ofNat 64 (2 ^ b)

/-- PORT_CTL (R604, R605, R612): the lane mask, idle_en, and the action. -/
def State.portCtl (s : State) (p : Nat) (v : Word) (lo : Bool) : State :=
  if !lo then s
  else
    let s := (s.doLaneMask p (BitVec.ofNat 8 (fieldN v 8 8))).modLink p fun l => { l with idleEn := bitN v 3 }
    match fieldN v 4 2 with
    | 1 => s.doRetrain p
    | 2 => s.doRestore p
    | _ => s

/-- A quota of a gallery at a port; G0's and a locked one ignore writes (R19, R218). -/
def State.pcacheQuota (s : State) (p g : Nat) (v : Word) : State :=
  if s.galLocked g then s
  else s.modDocent p fun d => { d with pcQuota := Tab.set 0 d.pcQuota g (min 16384 (fieldN v 0 15)) }

/-- A write in a port page (R850). -/
def State.portPut (s : State) (p o : Nat) (w : Nat → Word) (lo hi : Bool) : State :=
  if o = 0 then s.portCtl p (w 64) lo
  else if o = 8 then
    (if hi && bitN (w 56) 56 then s.modLink p fun l => { l with refused := false } else s)
  else if o = 0x10 then s.modLink p fun l => l.putCfg (w 64)
  else if o = 0x180 then
    (if s.tenantPort p then s
    else s.modDocent p fun d => { d with aperture := within 21 52 0 (fieldN (w 64) 0 6) })
  else if o = 0x200 then s.modDocent p fun d => { d with quantumLog2 := within 8 14 10 (fieldN (w 64) 0 4) }
  else if o = 0x300 then s.portSpec p (w 64)
  else if 0x400 ≤ o && o < 0x480 then
    (if o % 16 = 0 then s.modLane p ((o - 0x400) / 16) fun x => x.putCfg (w 64) else s)
  else if 0x800 ≤ o && o < 0xA00 then s.pcacheQuota p ((o - 0x800) / 8) (w 64)
  else s

/-- A write of a ring, index or interrupt register of a function (R698, R700, R701, R717). -/
def State.ringPutReg (s : State) (f nr nc off : Nat) (w : Nat → Word) (lo hi : Bool) : State :=
  match arrayAt 0 16 nr off, arrayAt 8 16 nr off, arrayAt 0x100 8 nc off with
  | some r, _, _ => s.ringCfg f r (w 61)
  | none, some 0, _ => if hi then s.doorbell f (fieldN (w 64) 32 32) else s
  | none, some r, _ => if lo then s.consumer f r (fieldN (w 64) 0 32) else s
  | none, none, some c => s.modFn f fun x => { x with ints := Tab.set IntMap.reset x.ints c (intOf (w 64)) }
  | none, none, none => s

/-- A write of INC_OVF or INC_LOST_c (R461, R844). -/
def State.lossPut (s : State) (f off : Nat) (v : Word) (lo hi : Bool) : State :=
  if off = 0 then
    if hi && bitN v 63 then s.modFn f fun x => { x with ovf := false } else s
  else if lo then
    s.modFn f fun x =>
      { x with lost := Tab.modify 0 x.lost (off / 8) fun n => (BitVec.ofNat 32 n &&& ~~~(v.setWidth 32)).toNat }
  else s

/-- A write of an MSI-X table entry (R715, R718): a message that is pending goes out on unmasking. -/
def State.msixPut (s : State) (f off : Nat) (v : Word) : State :=
  let k := off / 16
  let s := s.modFn f fun x =>
    { x with msix := Tab.modify Msix.reset x.msix k fun m =>
      if off % 16 = 0 then { m with addr := v &&& 0xFFFFFFFFFFFFFFFC#64 }
      else { m with data := v.setWidth 32, masked := bitN v 32 } }
  if ((s.fn f).vec k).pending then s.msixDue f k else s

/-- A write in the identity, clocks and power, and mailbox blocks (R845, R848, R849). -/
def State.lowPut (s : State) (off : Nat) (w : Nat → Word) (lo hi : Bool) : State :=
  if off = 8 then
    (if lo && bitN (w 16) 16 then { s with ctl := { s.ctl with changed := false } } else s)
  else if off = 0x110 then { s with cur := { s.cur with logLevel := fieldN (w 64) 0 2 } }
  else if 0x200 ≤ off && off < 0x400 then
    { s with cur := { s.cur with trace := Tab.set 0 s.cur.trace ((off - 0x200) / 8) (w 64) } }
  else if off = 0x100100 then s.clkCtl (w 14) lo hi
  else if off = 0x100110 then s.clkEn (w 63) lo hi
  else if off = 0x100118 then s.clkEnPort ((w 64).setWidth 48)
  else if off = 0x100200 then s.ownCtl (w 63)
  else if 0x201000 ≤ off && off < 0x201080 then s.lossPut 0 (off - 0x201000) (w 64) lo hi
  else if 0x300000 ≤ off && off < 0x300200 then s.msixPut 0 (off - 0x300000) (w 64)
  else if 0x200000 ≤ off then s.ringPutReg 0 5 5 (off - 0x200000) w lo hi
  else s

/-- A locked RWL register of a gallery ignores writes (R19). -/
def State.rwl (s : State) (g : Nat) (f : Gallery → Gallery) : State := if s.galLocked g then s else s.modGal g f

/-- A write in the switch-core and catalogue blocks (R852, R853). -/
def State.corePut (s : State) (off : Nat) (w : Nat → Word) : State :=
  if off = 0x04000000 then s.modSwc fun x => x.putCtl (w 64)
  else if off = 0x04000008 then s.modSwc fun x => x.putVcMode (w 8)
  else if off = 0x04000010 then s.rcCtl (w 63)
  else if 0x04000100 ≤ off && off < 0x04000118 then
    s.draw.modSwc fun x => x.putRed ((off - 0x04000100) / 8) (w 64) (Config.freeWord s.freeCtr).toNat
  else if 0x04000200 ≤ off && off < 0x04000400 then s.rwl ((off - 0x04000200) / 8) fun x => x.putClass (w 64)
  else if off = 0x05000010 then
    { s with cat :=
      { s.cat with winBase := within 0 2 0 (fieldN (w 64) 1 2), winBank := bitN (w 64) 0 } }
  else s

/-- A write in the reduction, sync and translation blocks (R858 to R860). -/
def State.unitPut (s : State) (off : Nat) (w : Nat → Word) : State :=
  if 0x06000000 ≤ off && off < 0x06000200 then
    s.rwl ((off - 0x06000000) / 8) fun x => { x with maxDrawers := min 655360 (fieldN (w 64) 0 20) }
  else if 0x07000000 ≤ off && off < 0x07040000 then
    (if off % 16 = 0 then s.soWrite ((off - 0x07000000) / 16) (w 64) else s)
  else if 0x07040000 ≤ off && off < 0x07040200 then
    s.rwl ((off - 0x07040000) / 8) fun x => { x with maxWaiters := min 16384 (fieldN (w 64) 0 15) }
  else if 0x07040400 ≤ off && off < 0x07040600 then
    s.rwl ((off - 0x07040400) / 8) fun x => { x with legacy := bitN (w 64) 0 }
  else if 0x08000000 ≤ off && off < 0x08000200 then s.rwl ((off - 0x08000000) / 8) fun x => x.putTrn (w 64)
  else s

/-- A write in the vault block (R863); the security and telemetry blocks have nothing to write (R861, R862). -/
def State.vaultPut (s : State) (off : Nat) (w : Nat → Word) (lo : Bool) : State :=
  if off = 0x0B000000 then
    { s with vault :=
      { s.vault with scrubEn := bitN (w 64) 8, scrubHours := nonzero 8 (fieldN (w 64) 0 8) } }
  else if off = 0x0B000008 then
    (if lo && bitN (w 2) 2 then { s with vault := { s.vault with shelfConflict := false } } else s)
  else if 0x0B001000 ≤ off && off < 0x0B001800 then
    (let g := (off - 0x0B001000) / 32
    if s.galLocked g then s else s.extWrite g (off % 32 / 8) (w 64))
  else s

/-- A write of BAR0 (R840 to R863). `w b` is the value merged with what the register holds; bit `b` of the register
is W1C, and 64 stands for none. -/
def State.pfPut (s : State) (off : Nat) (w : Nat → Word) (lo hi : Bool) : State :=
  if !s.clocked off then s
  else if off < 0x01000000 then s.lowPut off w lo hi
  else if off < 0x01300000 then s.portPut ((off - 0x01000000) / 0x10000) (off % 0x10000) w lo hi
  else if 0x04000000 ≤ off && off < 0x06000000 then s.corePut off w
  else if 0x06000000 ≤ off && off < 0x09000000 then s.unitPut off w
  else if 0x0B000000 ≤ off && off < 0x0C000000 then s.vaultPut off w lo
  else s

/-- A write of a gallery control page (R864): its mirrors ignore writes; GAL_SO_CMD performs its operation (R289). -/
def State.vfPut (s : State) (f off : Nat) (w : Nat → Word) (lo hi : Bool) : State :=
  if off = 0x8000 then (if lo then s.portal f (fieldN (w 64) 0 14) (fieldN (w 64) 16 8) else s)
  else if off = 0x8008 then s.modFn f fun x => { x with opA := w 64 }
  else if off = 0x8010 then s.modFn f fun x => { x with opB := w 64 }
  else if 0xA000 ≤ off && off < 0xA080 then s.lossPut f (off - 0xA000) (w 64) lo hi
  else if 0xE000 ≤ off && off < 0xE200 then s.msixPut f (off - 0xE000) (w 64)
  else if off < 0x30 || (0x100 ≤ off && off < 0x110) then s.ringPutReg f 3 2 off w lo hi
  else s

/-- A write of `size` bytes at an offset of a function's BAR0 (R20, R21): 4 or 8 bytes, aligned. -/
def State.regWrite (s : State) (f off size : Nat) (v : Word) : State :=
  if !((size = 4 || size = 8) && off % size = 0) then s
  else
    let at_ := off / 8 * 8
    let lo := off % 8 = 0
    let hi := size = 8 || off % 8 = 4
    let v := if off % 8 = 4 then v <<< 32 else v
    let view := if f = 0 then s.pfReg at_ else s.vfReg f at_
    let w (b : Nat) := merge view (w1cBit b) v lo hi
    if f = 0 then s.pfPut at_ w lo hi else s.vfPut f at_ w lo hi

/-- In BOOT and RECOVERY a write reaches MOD_STATE alone (R722). -/
def State.modStateOpen (s : State) (f off : Nat) : Bool :=
  f = 0 && (s.ctl.state == .boot || s.ctl.state == .recovery) && (s.fn 0).memorySpace && off / 8 = 1

/-- REGISTER_WRITE (R19 to R22, R841). -/
def execRegisterWrite (f : FnNo) (off size : Nat) (v : Word) (s : State) : Host.Outcome State Fault Refusal :=
  if s.modStateOpen f off then .next (s.regWrite f off size v)
  else if s.barOpen f then .next (s.regWrite f off size v).driveAll else .next s

end Sys2Proof.Machine
end

