-- ==== Sys2Proof/Machine/Service.lean ====
section
/-! DEFINITION. The service port (R752 to R756, R831) and the I3C sideband (R757, R758). -/

namespace Sys2Proof.Machine

def State.modSvc (s : State) (f : SvcPort → SvcPort) : State := { s with svc := f s.svc }

/-- A message on the service port, and on the sideband. -/
def State.svcOut (s : State) (what : String) (bs : Bytes) : State := s.out (.svc what bs)
def State.i3cOut (s : State) (what : String) (bs : Bytes) : State := s.out (.i3c what bs)

/-! ### Addresses (R752) -/

/-- SERVICE_PORT_LINK_UP (R752). -/
def execServicePortLinkUp (s : State) : Host.Outcome State Fault Refusal :=
  if s.powered then .next (s.modSvc fun v => { v with linkUp := true }) else .next s

/-- DHCP (R752): a lease replaces a link-local address. -/
def execDhcp (addr : BitVec 32) (s : State) : Host.Outcome State Fault Refusal :=
  if s.powered && s.svc.linkUp then
    .next (s.modSvc fun v => { v with lease := some addr, linkLocal := false })
  else .next s

/-- DHCP_LEASE_TIMEOUT (R752): 10 s after link-up without a lease. -/
def execDhcpLeaseTimeout (s : State) : Host.Outcome State Fault Refusal :=
  if s.powered && s.svc.linkUp && s.svc.lease.isNone then
    .next (s.modSvc fun v => { v with linkLocal := true })
  else .next s

/-- The address of the service port, once it has one. -/
def SvcPort.address (v : SvcPort) : Option (BitVec 32) :=
  match v.lease with
  | some a => some a
  | none => if v.linkLocal then some Config.linkLocal else none

/-- The request is for this port, which answers (R752). -/
def State.svcHears (s : State) (addr : BitVec 32) : Bool := s.powered && s.svc.address == some addr

/-- ARP (R752): the answer gives the port's Ethernet address. -/
def execArp (addr : BitVec 32) (s : State) : Host.Outcome State Fault Refusal :=
  if s.svcHears addr then .next (s.svcOut "ARP" (natLe 6 Config.mac.toNat)) else .next s

/-- ICMP_ECHO (R752): the payload comes back. -/
def execIcmpEcho (addr : BitVec 32) (payload : Bytes) (s : State) : Host.Outcome State Fault Refusal :=
  if s.svcHears addr then .next (s.svcOut "ICMP_ECHO_REPLY" payload) else .next s

/-! ### TFTP (R753) -/

/-- Whether a transfer runs. The manual gives no event for its last acknowledgement, so whether an earlier one has
ended is free. -/
def State.tftpBusy (s : State) : State × Bool :=
  if s.svc.tftp.active then (s.draw, bitN (Config.freeWord s.freeCtr) 0) else (s, false)

/-- A request: one transfer runs at a time (R753). -/
def State.tftpRequest (s : State) (f : State → State) : State :=
  match s.tftpBusy with
  | (s, true) => s.svcOut "TFTP_ERROR_0" (ascii "busy")
  | (s, false) => f s

/-- A read transfer begins. -/
def State.tftpRead (s : State) (bs : Bytes) : State :=
  s.tftpRequest fun s => (s.modSvc fun v => { v with tftp := { active := true, retransmits := 0 } }).svcOut "TFTP_DATA" bs

/-- TFTP_RETRANSMIT (R753): at most five times. -/
def execTftpRetransmit (s : State) : Host.Outcome State Fault Refusal :=
  let t := s.svc.tftp
  if !t.active then .next s
  else if t.retransmits < 5 then
    .next ((s.modSvc fun v => { v with tftp := { t with retransmits := t.retransmits + 1 } }).svcOut
      "TFTP_RETRANSMIT" [])
  else .next (s.modSvc fun v => { v with tftp := { active := false, retransmits := 0 } })

/-- TFTP_READ_LIFEHIST (R752, R831): every valid record, in ascending seq. -/
def execTftpReadLifehist (s : State) : Host.Outcome State Fault Refusal :=
  if s.serving then .next (s.tftpRead s.flash.lifeFile) else .next s

/-- TFTP_WRITE_REQUEST (R752): outside RECOVERY a write is turned away. -/
def execTftpWriteRequest (s : State) : Host.Outcome State Fault Refusal :=
  if s.serving then .next (s.tftpRequest fun s => s.svcOut "TFTP_ERROR_2" []) else .next s

/-- The bytes of "ivx48.status" (R756). -/
def State.statusFile (s : State) : Bytes := natLe 1 s.cur.recoveryStatus ++ natLe 1 s.flash.fusedSvn ++ zeros 6

/-- TFTP_READ_STATUS (R756). -/
def execTftpReadStatus (s : State) : Host.Outcome State Fault Refusal :=
  if s.ctl.state == .recovery then .next (s.tftpRead s.statusFile) else .next s

/-! ### Recovery (R754, R755) -/

/-- RECOVERY_REQUEST (R467, R750 step 1, R754): BOOT is left only after the vault has been initialised. -/
def execRecoveryRequest (serial : BitVec 128) (s : State) : Host.Outcome State Fault Refusal :=
  if s.ctl.state == .boot && !s.cur.listened && s.clk.locked && s.vault.initDone && serial == Config.serial then
    .next s.enterRecovery
  else .next s

/-- The name of a status of R738, for a TFTP error's message. -/
def statusName (st : Nat) : String :=
  if st = stDataError then "DATA_ERROR" else if st = stDowngrade then "DOWNGRADE" else "IMAGE_INVALID"

def State.recoverySet (s : State) (st : Nat) : State := { s with cur := { s.cur with recoveryStatus := st } }

/-- The written image in the staging region, whose verification has passed, goes to flash (R755). -/
def State.recoverWrite (s : State) (image : Bytes) (writeOk : Bool) : State :=
  let s := (s.svcOut "TFTP_ACK" []).recoverySet stOk
  let s := { s with flash := { s.flash with imageArea := FlashArea.hold image } }
  let st := s.flash.verify image writeOk
  if st = stOk then
    ({ s with flash := { s.flash with activation := none, stagedArea := FlashArea.empty } } : State).moduleReset
  else s.recoverySet st

/-- TFTP_WRITE_IMAGE (R755): `writeOk` says that flash was read back whole. -/
def execTftpWriteImage (image : Bytes) (writeOk : Bool) (s : State) : Host.Outcome State Fault Refusal :=
  if s.ctl.state != .recovery then .next s
  else
    .next (s.tftpRequest fun s =>
      let image := image.take stagingBytes
      let s := (s.modSvc fun v => { v with tftp := { active := false, retransmits := 0 } }).vmWrite vpaStaging image
      let st := s.flash.verify image true
      if st = stOk then s.recoverWrite image writeOk
      else (s.recoverySet st).svcOut "TFTP_ERROR_0" (ascii (statusName st)))

/-! ### The I3C sideband (R757, R758) -/

/-- MCTP_CONTROL (R757): handled in every state but OFF, by the protocol's own rules. -/
def execMctpControl (cmd : Byte) (body : Bytes) (s : State) : Host.Outcome State Fault Refusal :=
  if s.ctl.state == .off then .next s else .next (s.i3cOut "MCTP_CONTROL" (cmd :: body))

/-- A sensor's reading, coarsened under R666: the sensors in the order of PWR_READ and THERM_READ. -/
def sensorValue (x : Sample) : Nat → Option Nat
  | 0 => some x.power
  | 1 => some x.volts
  | 2 => some x.amps
  | 3 => some x.die
  | 4 => some x.vault
  | 5 => some x.pstage
  | 6 => some x.inlet
  | 7 => some x.outlet
  | _ => none

/-- A PLDM request is served: a cap below 450 W is refused, and main conversion may run again once every cause has
cleared (R757, R778, R786). A module reset is ignored without main power (R777). The inventory is the serial number,
the device and the stepping (R846, R847). -/
def State.pldmServe (s : State) : Pldm → State
  | .sensor n =>
    match sensorValue s.readings n with
    | some v => s.i3cOut "SUCCESS" (natLe 2 v)
    | none => s.i3cOut "INVALID_SENSOR_ID" []
  | .fru => s.i3cOut "SUCCESS" (natLe 16 Config.serial.toNat ++ natLe 2 0x480 ++ natLe 1 1)
  | .cap w =>
    if w < 450 then s.i3cOut "ERROR_INVALID_DATA" []
    else (s.modPwr fun p => p.setCaps (capStored w) p.drvCap).i3cOut "SUCCESS" []
  | .mainEnable => ((s.modPwr fun p => { p with enableSet := p.lockedOut }.mayUnlock).i3cOut "SUCCESS" []).mainUp
  | .moduleReset => if s.powered then s.moduleReset else s

/-- A PLDM request, in every state but OFF; one that comes during a curator restart waits (R731, R757). -/
def State.pldm (s : State) (r : Pldm) : State :=
  if s.ctl.state == .off then s
  else if s.serving && !s.cur.up then s.modCur fun c => { c with pldmWaits := c.pldmWaits ++ [r] }
  else s.pldmServe r

/-- The PLDM requests that waited are taken in order (R731). -/
def State.pldmTaken (s : State) : State :=
  s.cur.pldmWaits.foldl State.pldmServe (s.modCur fun c => { c with pldmWaits := [] })

/-- PLDM_SENSOR (R666, R757). -/
def execPldmSensor (n : Nat) (s : State) : Host.Outcome State Fault Refusal := .next (s.pldm (.sensor n))

/-- PLDM_FRU (R757). -/
def execPldmFru (s : State) : Host.Outcome State Fault Refusal := .next (s.pldm .fru)

/-- BMC_POWER_CAP (R778). -/
def execBmcPowerCap (watts : Nat) (s : State) : Host.Outcome State Fault Refusal := .next (s.pldm (.cap watts))

/-- MAIN_ENABLE (R786). -/
def execMainEnable (s : State) : Host.Outcome State Fault Refusal := .next (s.pldm .mainEnable)

/-- MODULE_RESET (R777). -/
def execModuleReset (s : State) : Host.Outcome State Fault Refusal := .next (s.pldm .moduleReset)

/-! ### The end of a curator restart (R730, R731) -/

/-- CURATOR_RESTART_DONE (R730, R731, R746 step 6, R749). An image that fails verification starts nothing. -/
def execCuratorRestartDone (readOk : Bool) (s : State) : Host.Outcome State Fault Refusal :=
  if s.cur.up || !s.serving then .next s
  else
    let b := s.flash.imageArea.image
    if s.flash.verify b readOk ≠ stOk then .next s
    else
      let changed := sha384 (imageOnly b) != s.cur.digest
      let act := s.cur.fw == .restarting
      let s := (s.runImage b).modCur fun c => { c with up := true, coresUp := 0xF }
      let s := s.fwEvent 0x01 stOk s.cur.lastCause s.cur.restartCore s.cur.fwVersion s.cur.svn
      let s := if act then s.actStepTo 6
        else if changed then ((s.measChanged 2).measChanged 3).actNext
        else s.actNext
      let s := if s.cur.hourlyDue then
          (s.writeRecord 1 0 true).modCur fun c => { c with hourlyDue := false }
        else s
      .next s.pldmTaken.askedSteps.takeEvery.driveAll

/-- STATUS (R758): MOD_STATE and FW_STATUS; unanswered while the curator does not run. -/
def execStatus (s : State) : Host.Outcome State Fault Refusal :=
  if s.cur.up then
    .next (s.i3cOut "STATUS" (natLe 8 (s.regModState false).toNat ++ natLe 8 s.regFwStatus.toNat))
  else .next s

/-- RESERVED_VENDOR_COMMAND (R758). -/
def execReservedVendorCommand (cmd : Byte) (_ : Bytes) (s : State) : Host.Outcome State Fault Refusal :=
  if s.cur.up && cmd != 1 && cmd != 2 then .next (s.i3cOut "UNSUPPORTED" (natLe 1 stUnsupported)) else .next s

end Sys2Proof.Machine
end

