-- ==== Sys2Proof/Machine/Dispatch.lean ====
section
/-! DEFINITION. One arm per command: each calls the meaning of its row of the opcode table. -/

namespace Sys2Proof.Machine

/-- The effect of a command on everything but the queue. -/
def exec (i : Instr) (s : State) : Host.Outcome State Fault Refusal :=
  match i with
  | .auxPowerGood => Sys2Proof.Machine.execAuxPowerGood s
  | .auxPowerLost => Sys2Proof.Machine.execAuxPowerLost s
  | .presentAsserted => Sys2Proof.Machine.execPresentAsserted s
  | .presentDeasserted => Sys2Proof.Machine.execPresentDeasserted s
  | .mainPowerGood => Sys2Proof.Machine.execMainPowerGood s
  | .recoveryListenExpiry stagedRead imageRead => Sys2Proof.Machine.execRecoveryListenExpiry stagedRead imageRead s
  | .enterService => Sys2Proof.Machine.execEnterService s
  | .lossOfMainInput reason => Sys2Proof.Machine.execLossOfMainInput reason s
  | .moduleReset => Sys2Proof.Machine.execModuleReset s
  | .conventionalReset => Sys2Proof.Machine.execConventionalReset s
  | .flrVf vf => Sys2Proof.Machine.execFlrVf vf s
  | .flrPf => Sys2Proof.Machine.execFlrPf s
  | .stateSet => Sys2Proof.Machine.execStateSet s
  | .enterOperational => Sys2Proof.Machine.execEnterOperational s
  | .drainExit => Sys2Proof.Machine.execDrainExit s
  | .load p hdr payload tag => Sys2Proof.Machine.execLoad p hdr payload tag s
  | .store p hdr payload tag => Sys2Proof.Machine.execStore p hdr payload tag s
  | .storeMasked p hdr payload tag => Sys2Proof.Machine.execStoreMasked p hdr payload tag s
  | .sync p hdr payload tag => Sys2Proof.Machine.execSync p hdr payload tag s
  | .launch p hdr payload tag => Sys2Proof.Machine.execLaunch p hdr payload tag s
  | .atomic p hdr payload tag => Sys2Proof.Machine.execAtomic p hdr payload tag s
  | .reservedOpcode p hdr payload tag => Sys2Proof.Machine.execReservedOpcode p hdr payload tag s
  | .tReadData p hdr payload tag => Sys2Proof.Machine.execTReadData p hdr payload tag s
  | .tWriteDone p hdr payload tag => Sys2Proof.Machine.execTWriteDone p hdr payload tag s
  | .tMaskedDone p hdr payload tag => Sys2Proof.Machine.execTMaskedDone p hdr payload tag s
  | .tAtomicDone p hdr payload tag => Sys2Proof.Machine.execTAtomicDone p hdr payload tag s
  | .targetTimeout p tag => Sys2Proof.Machine.execTargetTimeout p tag s
  | .read hdr payload tag => Sys2Proof.Machine.execRead hdr payload tag s
  | .write hdr payload tag xfer => Sys2Proof.Machine.execWrite hdr payload tag xfer s
  | .writeMasked hdr payload tag xfer => Sys2Proof.Machine.execWriteMasked hdr payload tag xfer s
  | .zeroRun hdr payload tag xfer => Sys2Proof.Machine.execZeroRun hdr payload tag xfer s
  | .fabricSync hdr payload tag => Sys2Proof.Machine.execFabricSync hdr payload tag s
  | .fabricAtomic hdr payload tag => Sys2Proof.Machine.execFabricAtomic hdr payload tag s
  | .waitWithdrawal pkt => Sys2Proof.Machine.execWaitWithdrawal pkt s
  | .ack hdr tag timedOut => Sys2Proof.Machine.execAck hdr tag timedOut s
  | .data hdr payload tag => Sys2Proof.Machine.execData hdr payload tag s
  | .value hdr payload tag => Sys2Proof.Machine.execValue hdr payload tag s
  | .packetForward inp out vc corrected failed => Sys2Proof.Machine.execPacketForward inp out vc corrected failed s
  | .beRetxExpiry src dest dseq => Sys2Proof.Machine.execBeRetxExpiry src dest dseq s
  | .pathTimeout src dest => Sys2Proof.Machine.execPathTimeout src dest s
  | .notice p body => Sys2Proof.Machine.execNotice p body s
  | .tourLaunch f => Sys2Proof.Machine.execTourLaunch f s
  | .copy p c => Sys2Proof.Machine.execCopy p c s
  | .gather p c => Sys2Proof.Machine.execGather p c s
  | .scatter p c => Sys2Proof.Machine.execScatter p c s
  | .mcast p c => Sys2Proof.Machine.execMcast p c s
  | .reduce p c => Sys2Proof.Machine.execReduce p c s
  | .dispatch p c => Sys2Proof.Machine.execDispatch p c s
  | .combine p c => Sys2Proof.Machine.execCombine p c s
  | .signal p c => Sys2Proof.Machine.execSignal p c s
  | .wait p c => Sys2Proof.Machine.execWait p c s
  | .fence p c => Sys2Proof.Machine.execFence p c s
  | .flush p c => Sys2Proof.Machine.execFlush p c s
  | .inval p c => Sys2Proof.Machine.execInval p c s
  | .loop p c => Sys2Proof.Machine.execLoop p c s
  | .halt p c => Sys2Proof.Machine.execHalt p c s
  | .tourAtomic p c => Sys2Proof.Machine.execTourAtomic p c s
  | .reservedTourOpcode p c => Sys2Proof.Machine.execReservedTourOpcode p c s
  | .quantumExpiry p => Sys2Proof.Machine.execQuantumExpiry p s
  | .instructionLineArrival p c line what => Sys2Proof.Machine.execInstructionLineArrival p c line what s
  | .descriptorArrival p c op what => Sys2Proof.Machine.execDescriptorArrival p c op what s
  | .operationRetire p c => Sys2Proof.Machine.execOperationRetire p c s
  | .tourEnd p c => Sys2Proof.Machine.execTourEnd p c s
  | .waitExpiry so idx => Sys2Proof.Machine.execWaitExpiry so idx s
  | .fenceComplete p c => Sys2Proof.Machine.execFenceComplete p c s
  | .flushComplete p c => Sys2Proof.Machine.execFlushComplete p c s
  | .atsCompletion p req res => Sys2Proof.Machine.execAtsCompletion p req res s
  | .atsCompletionTimeout p req => Sys2Proof.Machine.execAtsCompletionTimeout p req s
  | .pageRequest f => Sys2Proof.Machine.execPageRequest f s
  | .prgResponse f idx code => Sys2Proof.Machine.execPrgResponse f idx code s
  | .prTimeoutExpiry f idx => Sys2Proof.Machine.execPrTimeoutExpiry f idx s
  | .atsInvalidateRequest f itag pasid base log2Range => Sys2Proof.Machine.execAtsInvalidateRequest f itag pasid base log2Range s
  | .invalidateCompletion f itag => Sys2Proof.Machine.execInvalidateCompletion f itag s
  | .join m pkt => Sys2Proof.Machine.execJoin m pkt s
  | .joinAdmitted => Sys2Proof.Machine.execJoinAdmitted s
  | .claimGrant g => Sys2Proof.Machine.execClaimGrant g s
  | .credit p m chunk pkt => Sys2Proof.Machine.execCredit p m chunk pkt s
  | .contribution m chunk off records lines last pkt => Sys2Proof.Machine.execContribution m chunk off records lines last pkt s
  | .chunkSummation sched inst => Sys2Proof.Machine.execChunkSummation sched inst s
  | .partialChunk sched inst group chunk off bs pkt => Sys2Proof.Machine.execPartialChunk sched inst group chunk off bs pkt s
  | .finishedChunk sched inst chunk off bs pkt => Sys2Proof.Machine.execFinishedChunk sched inst chunk off bs pkt s
  | .result p m off lost pkt => Sys2Proof.Machine.execResult p m off lost pkt s
  | .instanceComplete sched inst failed => Sys2Proof.Machine.execInstanceComplete sched inst failed s
  | .withdrawal m pathLost pkt => Sys2Proof.Machine.execWithdrawal m pathLost pkt s
  | .abort sched inst status pathLost only begun pkt => Sys2Proof.Machine.execAbort sched inst status pathLost only begun pkt s
  | .joinTimeout sched inst => Sys2Proof.Machine.execJoinTimeout sched inst s
  | .drawerZeroingDone => Sys2Proof.Machine.execDrawerZeroingDone s
  | .windowMerge sched inst => Sys2Proof.Machine.execWindowMerge sched inst s
  | .offsets p m off kept recv bases pkt => Sys2Proof.Machine.execOffsets p m off kept recv bases pkt s
  | .grantAnnouncement p m group pkt => Sys2Proof.Machine.execGrantAnnouncement p m group pkt s
  | .expertOutput m token choice off bs pkt => Sys2Proof.Machine.execExpertOutput m token choice off bs pkt s
  | .combineWeights m token weights delivered pkt => Sys2Proof.Machine.execCombineWeights m token weights delivered pkt s
  | .mgmt pkt => Sys2Proof.Machine.execMgmt pkt s
  | .step pkt => Sys2Proof.Machine.execStep pkt s
  | .stepReply pkt => Sys2Proof.Machine.execStepReply pkt s
  | .stepPeriodExpiry g => Sys2Proof.Machine.execStepPeriodExpiry g s
  | .pairKeyDerived g gen a b resp => Sys2Proof.Machine.execPairKeyDerived g gen a b resp s
  | .shelfExtWrite g k v => Sys2Proof.Machine.execShelfExtWrite g k v s
  | .extentZeroingDone g k => Sys2Proof.Machine.execExtentZeroingDone g k s
  | .scrubRead cw errs => Sys2Proof.Machine.execScrubRead cw errs s
  | .dieFailed d => Sys2Proof.Machine.execDieFailed d s
  | .dataFlit p lanes => Sys2Proof.Machine.execDataFlit p lanes s
  | .ctrlFlit p lanes => Sys2Proof.Machine.execCtrlFlit p lanes s
  | .filler p lanes => Sys2Proof.Machine.execFiller p lanes s
  | .retryTimeout p => Sys2Proof.Machine.execRetryTimeout p s
  | .ts1 p k frame inverted ctle => Sys2Proof.Machine.execTs1 p k frame inverted ctle s
  | .ts2 p k frame => Sys2Proof.Machine.execTs2 p k frame s
  | .tsExit p => Sys2Proof.Machine.execTsExit p s
  | .trainingWindowExpiry p => Sys2Proof.Machine.execTrainingWindowExpiry p s
  | .laneCdrLoss p k => Sys2Proof.Machine.execLaneCdrLoss p k s
  | .laneSerExceeded p k => Sys2Proof.Machine.execLaneSerExceeded p k s
  | .deadTimerExpiry p => Sys2Proof.Machine.execDeadTimerExpiry p s
  | .downRetryTimer p => Sys2Proof.Machine.execDownRetryTimer p s
  | .signalDetect p k => Sys2Proof.Machine.execSignalDetect p k s
  | .idleEntry p => Sys2Proof.Machine.execIdleEntry p s
  | .idleExit p => Sys2Proof.Machine.execIdleExit p s
  | .idleBurst p => Sys2Proof.Machine.execIdleBurst p s
  | .retrain p => Sys2Proof.Machine.execRetrain p s
  | .restore p => Sys2Proof.Machine.execRestore p s
  | .laneMaskWrite p mask => Sys2Proof.Machine.execLaneMaskWrite p mask s
  | .getVersion mctp => Sys2Proof.Machine.execGetVersion mctp s
  | .getCapabilities mctp => Sys2Proof.Machine.execGetCapabilities mctp s
  | .negotiateAlgorithms mctp offersAll => Sys2Proof.Machine.execNegotiateAlgorithms mctp offersAll s
  | .getDigests mctp => Sys2Proof.Machine.execGetDigests mctp s
  | .getCertificate mctp slot off len => Sys2Proof.Machine.execGetCertificate mctp slot off len s
  | .challenge mctp slot nonce => Sys2Proof.Machine.execChallenge mctp slot nonce s
  | .getMeasurements mctp index signed => Sys2Proof.Machine.execGetMeasurements mctp index signed s
  | .keyExchange mctp => Sys2Proof.Machine.execKeyExchange mctp s
  | .finish session ok => Sys2Proof.Machine.execFinish session ok s
  | .heartbeat session => Sys2Proof.Machine.execHeartbeat session s
  | .keyUpdate session => Sys2Proof.Machine.execKeyUpdate session s
  | .endSession session => Sys2Proof.Machine.execEndSession session s
  | .galQuery session m => Sys2Proof.Machine.execGalQuery session m s
  | .galClaim session m => Sys2Proof.Machine.execGalClaim session m s
  | .galResume session m => Sys2Proof.Machine.execGalResume session m s
  | .galKeyInstall session m => Sys2Proof.Machine.execGalKeyInstall session m s
  | .galKeyRetire session m => Sys2Proof.Machine.execGalKeyRetire session m s
  | .galKeyActivate session m => Sys2Proof.Machine.execGalKeyActivate session m s
  | .galFabricRoot session m => Sys2Proof.Machine.execGalFabricRoot session m s
  | .galFabricStep session m => Sys2Proof.Machine.execGalFabricStep session m s
  | .galOpen session m => Sys2Proof.Machine.execGalOpen session m s
  | .galDeaccess session m => Sys2Proof.Machine.execGalDeaccess session m s
  | .query session => Sys2Proof.Machine.execQuery session s
  | .keyProg session f keySet key => Sys2Proof.Machine.execKeyProg session f keySet key s
  | .kSetGo session f keySet => Sys2Proof.Machine.execKSetGo session f keySet s
  | .kSetStop session f keySet => Sys2Proof.Machine.execKSetStop session f keySet s
  | .getTdispVersion f => Sys2Proof.Machine.execGetTdispVersion f s
  | .getTdispCapabilities f => Sys2Proof.Machine.execGetTdispCapabilities f s
  | .lockInterfaceRequest f => Sys2Proof.Machine.execLockInterfaceRequest f s
  | .getDeviceInterfaceReport f => Sys2Proof.Machine.execGetDeviceInterfaceReport f s
  | .getDeviceInterfaceState f => Sys2Proof.Machine.execGetDeviceInterfaceState f s
  | .startInterfaceRequest f => Sys2Proof.Machine.execStartInterfaceRequest f s
  | .stopInterfaceRequest f => Sys2Proof.Machine.execStopInterfaceRequest f s
  | .galleryAccession => Sys2Proof.Machine.execGalleryAccession s
  | .galleryDeaccession => Sys2Proof.Machine.execGalleryDeaccession s
  | .deaccessionDrained g => Sys2Proof.Machine.execDeaccessionDrained g s
  | .drainTimeoutExpiry g => Sys2Proof.Machine.execDrainTimeoutExpiry g s
  | .deaccessionZeroed g => Sys2Proof.Machine.execDeaccessionZeroed g s
  | .g0KeyInstall => Sys2Proof.Machine.execG0KeyInstall s
  | .g0KeyRetire => Sys2Proof.Machine.execG0KeyRetire s
  | .g0KeyActivate => Sys2Proof.Machine.execG0KeyActivate s
  | .g0FabricRoot => Sys2Proof.Machine.execG0FabricRoot s
  | .g0FabricStep => Sys2Proof.Machine.execG0FabricStep s
  | .g0Setup => Sys2Proof.Machine.execG0Setup s
  | .g0Release => Sys2Proof.Machine.execG0Release s
  | .quorumSet => Sys2Proof.Machine.execQuorumSet s
  | .expelPort via => Sys2Proof.Machine.execExpelPort via s
  | .expelPeer via => Sys2Proof.Machine.execExpelPeer via s
  | .isolate via => Sys2Proof.Machine.execIsolate via s
  | .liftPort via => Sys2Proof.Machine.execLiftPort via s
  | .liftAll via => Sys2Proof.Machine.execLiftAll via s
  | .drain via => Sys2Proof.Machine.execDrain via s
  | .replaceSet via => Sys2Proof.Machine.execReplaceSet via s
  | .nop f => Sys2Proof.Machine.execNop f s
  | .reservedCommand f => Sys2Proof.Machine.execReservedCommand f s
  | .commandDoorbell f pi => Sys2Proof.Machine.execCommandDoorbell f pi s
  | .consumerIndexWrite f r ci => Sys2Proof.Machine.execConsumerIndexWrite f r ci s
  | .ringEnable f r v => Sys2Proof.Machine.execRingEnable f r v s
  | .ringDisable f r v => Sys2Proof.Machine.execRingDisable f r v s
  | .msiXMessage f c => Sys2Proof.Machine.execMsiXMessage f c s
  | .bar2Read f off len tee => Sys2Proof.Machine.execBar2Read f off len tee s
  | .bar2Write f off bs tee => Sys2Proof.Machine.execBar2Write f off bs tee s
  | .galSoRead f so => Sys2Proof.Machine.execGalSoRead f so s
  | .galSoAdd f so => Sys2Proof.Machine.execGalSoAdd f so s
  | .galSoSet f so => Sys2Proof.Machine.execGalSoSet f so s
  | .galSoMin f so => Sys2Proof.Machine.execGalSoMin f so s
  | .galSoMax f so => Sys2Proof.Machine.execGalSoMax f so s
  | .galSoCas f so => Sys2Proof.Machine.execGalSoCas f so s
  | .soValueWrite so v => Sys2Proof.Machine.execSoValueWrite so v s
  | .swcRcCtlWrite v => Sys2Proof.Machine.execSwcRcCtlWrite v s
  | .portSpecWrite p v => Sys2Proof.Machine.execPortSpecWrite p v s
  | .swcVcModeWrite v => Sys2Proof.Machine.execSwcVcModeWrite v s
  | .clkCtlWrite v => Sys2Proof.Machine.execClkCtlWrite v s
  | .clkEnWrite ports v => Sys2Proof.Machine.execClkEnWrite ports v s
  | .ownCtlWrite v => Sys2Proof.Machine.execOwnCtlWrite v s
  | .registerWrite f off size v => Sys2Proof.Machine.execRegisterWrite f off size v s
  | .watchdogExpiry core => Sys2Proof.Machine.execWatchdogExpiry core s
  | .curatorMemoryError core cw => Sys2Proof.Machine.execCuratorMemoryError core cw s
  | .curatorRestartDone readOk => Sys2Proof.Machine.execCuratorRestartDone readOk s
  | .stageWriteDone readOk => Sys2Proof.Machine.execStageWriteDone readOk s
  | .stagedVerifyDone readOk => Sys2Proof.Machine.execStagedVerifyDone readOk s
  | .overwriteDone readOk => Sys2Proof.Machine.execOverwriteDone readOk s
  | .recoveryRequest serial => Sys2Proof.Machine.execRecoveryRequest serial s
  | .tftpWriteImage image writeOk => Sys2Proof.Machine.execTftpWriteImage image writeOk s
  | .dhcp addr => Sys2Proof.Machine.execDhcp addr s
  | .arp addr => Sys2Proof.Machine.execArp addr s
  | .icmpEcho addr payload => Sys2Proof.Machine.execIcmpEcho addr payload s
  | .mctpControl cmd body => Sys2Proof.Machine.execMctpControl cmd body s
  | .pldmSensor sensor => Sys2Proof.Machine.execPldmSensor sensor s
  | .bmcPowerCap watts => Sys2Proof.Machine.execBmcPowerCap watts s
  | .powerAverageUpdate x => Sys2Proof.Machine.execPowerAverageUpdate x s
  | .emergencyBegin c => Sys2Proof.Machine.execEmergencyBegin c s
  | .emergencyClear c => Sys2Proof.Machine.execEmergencyClear c s
  | .shutdown c => Sys2Proof.Machine.execShutdown c s
  | .aux3v3Retry stillShort => Sys2Proof.Machine.execAux3v3Retry stillShort s
  | .sensorFail x => Sys2Proof.Machine.execSensorFail x s
  | .referenceFallback c => Sys2Proof.Machine.execReferenceFallback c s
  | .lifeHistoryHourly ok => Sys2Proof.Machine.execLifeHistoryHourly ok s
  | .cdrLock p k => Sys2Proof.Machine.execCdrLock p k s
  | .step1NoSignal p => Sys2Proof.Machine.execStep1NoSignal p s
  | .retrainBoundExpiry p => Sys2Proof.Machine.execRetrainBoundExpiry p s
  | .configurationWrite f w => Sys2Proof.Machine.execConfigurationWrite f w s
  | .fwStageVerified readOk => Sys2Proof.Machine.execFwStageVerified readOk s
  | .reservedQuorumAction via => Sys2Proof.Machine.execReservedQuorumAction via s
  | .reservedTenantMessage session m => Sys2Proof.Machine.execReservedTenantMessage session m s
  | .reservedVendorCommand cmd body => Sys2Proof.Machine.execReservedVendorCommand cmd body s
  | .fwStage => Sys2Proof.Machine.execFwStage s
  | .fwActivate => Sys2Proof.Machine.execFwActivate s
  | .activationHoldExpiry => Sys2Proof.Machine.execActivationHoldExpiry s
  | .tftpReadStatus => Sys2Proof.Machine.execTftpReadStatus s
  | .tftpReadLifehist => Sys2Proof.Machine.execTftpReadLifehist s
  | .tftpWriteRequest => Sys2Proof.Machine.execTftpWriteRequest s
  | .tftpRetransmit => Sys2Proof.Machine.execTftpRetransmit s
  | .dhcpLeaseTimeout => Sys2Proof.Machine.execDhcpLeaseTimeout s
  | .pldmFru => Sys2Proof.Machine.execPldmFru s
  | .mainEnable => Sys2Proof.Machine.execMainEnable s
  | .status => Sys2Proof.Machine.execStatus s
  | .powerCap => Sys2Proof.Machine.execPowerCap s
  | .powerCapTimeout => Sys2Proof.Machine.execPowerCapTimeout s
  | .inputOvercurrent => Sys2Proof.Machine.execInputOvercurrent s
  | .stageFault => Sys2Proof.Machine.execStageFault s
  | .aux3v3Short => Sys2Proof.Machine.execAux3v3Short s
  | .senseOpen => Sys2Proof.Machine.execSenseOpen s
  | .fastThrottleAssert => Sys2Proof.Machine.execFastThrottleAssert s
  | .fastThrottleHoldExpiry => Sys2Proof.Machine.execFastThrottleHoldExpiry s
  | .leakAssert => Sys2Proof.Machine.execLeakAssert s
  | .leakClearExpiry => Sys2Proof.Machine.execLeakClearExpiry s
  | .referenceRevert => Sys2Proof.Machine.execReferenceRevert s
  | .fill => Sys2Proof.Machine.execFill s
  | .switch => Sys2Proof.Machine.execSwitch s
  | .fillThenSwitch => Sys2Proof.Machine.execFillThenSwitch s
  | .switchQuiesceTimeout => Sys2Proof.Machine.execSwitchQuiesceTimeout s
  | .epochDrained => Sys2Proof.Machine.execEpochDrained s
  | .healthScoring => Sys2Proof.Machine.execHealthScoring s
  | .perstDeasserted => Sys2Proof.Machine.execPerstDeasserted s
  | .hostInterfaceReady => Sys2Proof.Machine.execHostInterfaceReady s
  | .shadowFilled => Sys2Proof.Machine.execShadowFilled s
  | .servicePortLinkUp => Sys2Proof.Machine.execServicePortLinkUp s

end Sys2Proof.Machine
end

