-- ==== Sys2Proof/Machine/Step.lean ====
section
/-! DEFINITION. One step: the command at the front of the queue is performed. -/

namespace Sys2Proof.Machine

/-- Take the oldest waiting command and perform it. DESIGN CHOICE: with no command a flit time passes, in which every
transmitter that runs sends FILLER (R579; log entry 1). -/
def step (s : State) : Host.Outcome State Fault Refusal :=
  match s.pending with
  | [] => .next s.flitTime
  | c :: rest => exec c { s with pending := rest }

/-- Put the command that a table word spells at the front of the queue; a word that spells none changes
nothing. -/
def State.withFetchWord (s : State) (nbits w : Nat) : State :=
  match decodeTableWord nbits w with
  | none => s
  | some c => { s with pending := c :: s.pending }

end Sys2Proof.Machine
end

