-- ==== Sys2Proof/Safety.lean ====
section
/-! DEFINITION. What a safe step is, and the invariant of the state that every step keeps. -/

namespace Sys2Proof

open Sys2Proof.Machine

/-- A step that neither faults nor refuses. -/
def Completes (s : State) : Prop := ∃ t, step s = .next t

/-- Vault memory is in its canonical form: addresses rise, and no listed byte is zero. -/
abbrev Memory.wf (m : List Host.Cell) : Prop := Tab.wf (0 : Byte) m = true

/-- The clock frequencies that CLK_CTL can hold, in units of 25 MHz, and the references that it can select (R798). -/
def Machine.Clocks.legal (c : Clocks) : Prop :=
  (10 ≤ c.curF ∧ c.curF ≤ 40) ∧ (20 ≤ c.vaultF ∧ c.vaultF ≤ 40) ∧ (28 ≤ c.coreF ∧ c.coreF ≤ 56)
    ∧ c.refSel ≤ 1 ∧ c.refNow ≤ 1

/-- The rule of emergencies (R784, R785): one is reported while a cause is active, and while it lasts the tier is T3
and the hold of activation applies (R745). -/
def Machine.Power.sound (p : Power) (hold : Bool) : Prop :=
  p.emergency = p.anyCause ∧ p.tier ≤ 3 ∧ (p.emergency = true → p.tier = 3 ∧ hold = true)

/-- The form of the machine that no command breaks: vault memory is canonical, the clocks hold what CLK_CTL can
hold (R798), the tick divider is not 0 (R801), and the life-history store has at most 16,384 records (R828). -/
structure MachineForm (s : State) : Prop where
  memory : Memory.wf s.vault.mem
  clocks : s.clk.legal
  tick : 1 ≤ s.own.tickDiv
  history : s.flash.lifeHistory.length ≤ 16384

end Sys2Proof
end

