-- ==== Sys2Proof/Certificates/Slice0/Obligations.lean ====
section
/-! DEFINITION. The statements for the provers. Each names the commands that it is about, the condition on
state and operands under which each completes, and what the next state holds. A clause that writes the next
state as an update of the old one is also its frame: every field that is not named stays. Where a clause names an
output, it names the record that the model keeps of what the module has sent (log 69). -/

open Sys2Proof Sys2Proof.Machine

/-! ### Words that the statements share -/

namespace Sys2Proof.Slice0

/-- The command `t` passes the checks of R709 that do not depend on its opcode: the curator serves, its reserved
bytes are zero, and its parameter block, which holds `b`, lies where R709 wants it and reads without error. -/
abbrev Ready (s : State) (t : Taken) (b : Bytes) : Prop :=
  s.cur.up = true ∧ t.rsv = false ∧ t.blockIn = true ∧ s.readBlock t = (s, some b)

/-- What bring-up from `s` leaves (R467, R773, R828): BOOT, the PLLs locked, the vault initialised, no bank
installed, and the counters that BOOT takes from the life-history store. The hours in STANDBY are added to their
total in average updates (the model's own counting, log 99). -/
def BroughtUp (s t : State) : Prop :=
  t.ctl.state = .boot ∧ t.pwr.mainGood = true ∧ t.clk.locked = true ∧ t.vault.initDone = true ∧ t.vault.mem = []
    ∧ t.cat = Cat.reset ∧ t.sec = Sec.reset ∧ t.flash = s.flash
    ∧ t.tel = { s.flash.boot with standbyHours := satAdd 32 s.flash.boot.standbyHours (s.pwr.standbyFor / hourUpdates) }

/-- Power becomes `p` and the module sends `o`; where main conversion may now run, the module leaves STANDBY at once
(R5, R786). -/
def RunsWith (s : State) (p : Power) (o : List Output) (t : State) : Prop :=
  if s.ctl.state = .standby ∧ p.mainGood = true ∧ p.lockedOut = false then BroughtUp s t
  else t = { s with pwr := p, outputs := o ++ s.outputs }

/-- The power state after bit `b` of the causes clears: the emergency lasts while a cause is left, and with the last
of them main conversion unlocks if it was enabled again (R784, R786). -/
def clearedPower (p : Power) (b : Nat) : Power :=
  let causes := p.causes &&& ~~~ BitVec.ofNat 8 (2 ^ b)
  let gone := causes &&& 0x7F#8 = 0#8
  { p with
    causes := causes, emergency := !decide gone
    lockedOut := p.lockedOut && !(p.enableSet && decide gone), enableSet := p.enableSet && !(p.lockedOut && decide
        gone) }

/-- The packet `k` is of type `ft`, of an epoch still in use and of a gallery whose keys stand, is no duplicate,
and, with its tag right where it came from another module, carries the payload `b` (R277, R651, R674, R807). -/
def Arrives (s : State) (ft : Nat) (k : FabPkt) (b : Bytes) : Prop :=
  let h := FHdr.dec k.hdr
  h.ftype = ft ∧ s.epochUsable h.epoch = true ∧ s.keysGone h.gallery = false ∧ (s.window h).isDup h.dseq = false
    ∧ (if h.srcNode = s.node then some k.payload else s.openFab h 0 k.payload k.tag) = some b

/-- What R639 to R643 and R884 ask of a tenant message before it has its effect. -/
structure Heeded (s : State) (sid : Nat) (m : TenantMsg) : Prop where
  form : msgForm m = true
  tenant : m.gallery ≠ 0
  controls : 4 ≤ m.code → (s.gal m.gallery).session = some sid
  signed : m.code = 3 → s.claimantSigned m = true
  owns : 4 ≤ m.code → m.code ≤ 6 → ((s.docent m.port).slot m.slot).owner = some m.gallery
  state : msgStates m.code (s.gal m.gallery).state = true
  lead : m.code = 8 → (s.gal m.gallery).lead = s.node
  empty : m.code = 4 → ((s.docent m.port).slot m.slot).installed = false
  spare : m.code = 5 → ((s.docent m.port).slot m.slot).installed = true
      ∧ Tab.get 0 (s.docent m.port).sendSlot m.gallery ≠ m.slot + 1
  held : m.code = 6 → ((s.docent m.port).slot m.slot).installed = true

/-- `t` is `u` after it has answered the message: the code, the status, the gallery's state, the generation
concerned, the challenge and the entries (R639). -/
def Answered (m : TenantMsg) (u t : State) (status gen : Nat) (entries : Bytes) : Prop :=
  t = { u with outputs := .tenant (m.code % 32768 + 32768) status (galStateCode (u.gal m.gallery).state) gen (sliceB (u.gal m.gallery).challenge 0 16) entries :: u.outputs }

/-- The symbols on the lanes of port `p` are those of a flit that passes R575: `a` is the state whose descramblers
have moved on, and `hdr`, `body` and `places` are what was read. -/
def GoodFlit (s : State) (p : Nat) (lanes : List (List Pam)) (a : State) (hdr : Word) (body : Bytes) (places : List
    Nat) : Prop :=
  lanesOk lanes = true ∧ lanesFit (s.link p).width lanes = true
      ∧ s.flitArrives p lanes = (a, some (hdr, body, places))

/-- The records of what the module has sent, but for the symbols of the lanes, the FILLERs and the frames of a
burst. -/
def told (os : List Output) : List Output :=
  os.filter fun
    | .symbols _ _ | .filler _ | .frame _ _ _ => false
    | _ => true

/-- The commands in which step 6 of an activation can happen: the restart that ends step 5, a command that begins a
step that waited, and BOOT with a pending record (R737, R746, R750). -/
def activates : Instr → Bool
  | .recoveryListenExpiry _ _ | .fwActivate | .activationHoldExpiry | .stagedVerifyDone _ | .overwriteDone _
  | .curatorRestartDone _ => true
  | _ => false

/-- The commands that tenants, end-points, other modules and links can bring about: end-point, fabric, tour,
translation, collective, key-step, flit and training commands, and tenant messages. -/
def dataPlane : Instr → Bool
  | .load _ _ _ _ | .store _ _ _ _ | .storeMasked _ _ _ _ | .sync _ _ _ _ | .launch _ _ _ _ | .atomic _ _ _ _
  | .reservedOpcode _ _ _ _ | .tReadData _ _ _ _ | .tWriteDone _ _ _ _ | .tMaskedDone _ _ _ _
  | .tAtomicDone _ _ _ _ | .targetTimeout _ _ | .read _ _ _ | .write _ _ _ _ | .writeMasked _ _ _ _
  | .zeroRun _ _ _ _ | .fabricSync _ _ _ | .fabricAtomic _ _ _ | .waitWithdrawal _ | .ack _ _ _ | .data _ _ _
  | .value _ _ _ | .packetForward _ _ _ _ _ | .beRetxExpiry _ _ _ | .pathTimeout _ _ | .notice _ _
  | .tourLaunch _ | .copy _ _ | .gather _ _ | .scatter _ _ | .mcast _ _ | .reduce _ _ | .dispatch _ _
  | .combine _ _ | .signal _ _ | .wait _ _ | .fence _ _ | .flush _ _ | .inval _ _ | .loop _ _ | .halt _ _
  | .tourAtomic _ _ | .reservedTourOpcode _ _ | .quantumExpiry _ | .instructionLineArrival _ _ _ _
  | .descriptorArrival _ _ _ _ | .operationRetire _ _ | .tourEnd _ _ | .waitExpiry _ _ | .fenceComplete _ _
  | .flushComplete _ _ | .atsCompletion _ _ _ | .atsCompletionTimeout _ _ | .pageRequest _ | .prgResponse _ _ _
  | .prTimeoutExpiry _ _ | .atsInvalidateRequest _ _ _ _ _ | .invalidateCompletion _ _ | .join _ _ | .joinAdmitted
  | .claimGrant _ | .credit _ _ _ _ | .contribution _ _ _ _ _ _ _ | .chunkSummation _ _ | .partialChunk _ _ _ _ _ _ _
  | .finishedChunk _ _ _ _ _ _ | .result _ _ _ _ _ | .instanceComplete _ _ _ | .withdrawal _ _ _
  | .abort _ _ _ _ _ _ _
  | .joinTimeout _ _ | .drawerZeroingDone | .windowMerge _ _ | .offsets _ _ _ _ _ _ _ | .grantAnnouncement _ _ _ _
  | .expertOutput _ _ _ _ _ _ | .combineWeights _ _ _ _ _ | .mgmt _ | .step _ | .stepReply _
  | .stepPeriodExpiry _ | .pairKeyDerived _ _ _ _ _ | .dataFlit _ _ | .ctrlFlit _ _ | .filler _ _
  | .retryTimeout _ | .ts1 _ _ _ _ _ | .ts2 _ _ _ | .tsExit _ | .galQuery _ _ | .galClaim _ _ | .galResume _ _
  | .galKeyInstall _ _ | .galKeyRetire _ _ | .galKeyActivate _ _ | .galFabricRoot _ _ | .galFabricStep _ _
  | .galOpen _ _ | .galDeaccess _ _ | .reservedTenantMessage _ _ | .bar2Read _ _ _ _ | .bar2Write _ _ _ _
  | .galSoRead _ _ | .galSoAdd _ _ | .galSoSet _ _ | .galSoMin _ _ | .galSoMax _ _ | .galSoCas _ _ => true
  | _ => false

/-- The commands that may change a catalogue bank, the epoch or whether a bank is installed: the rehang commands,
and those by which the module loses power, is brought up or enters BOOT, of which a module reset may have waited for
a restart of the curator. -/
def rehangs : Instr → Bool
  | .auxPowerGood | .emergencyClear _ | .mainEnable | .leakClearExpiry | .fill | .switch | .fillThenSwitch
  | .shadowFilled | .switchQuiesceTimeout | .epochDrained | .auxPowerLost
  | .presentDeasserted | .mainPowerGood | .lossOfMainInput _ | .stageFault | .inputOvercurrent | .shutdown _
  | .moduleReset | .curatorRestartDone _ | .tftpWriteImage _ _ => true
  | _ => false

/-- The rated maximum draw of a tier (R780). -/
def ratedDraw (tier : Nat) : Nat := if tier = 0 then 1050 else if tier = 1 then 850 else if tier = 2 then 650 else 450

/-- The cap in force and the floor, as the value of a POWER_CAP completion (R778, R779). -/
def capReport (p : Power) : Nat := min p.bmcCap p.drvCap + 450 * 65536

/-- Two features that need the same pin or timer (R792), by their bits of OWN_CTL. -/
def contend (a b : Nat) : Bool := [(0, 1), (1, 6), (2, 3), (3, 7), (4, 5)].any fun x => x = (a, b) || x = (b, a)

/-- A quorum request that R667 and R669 authorise. -/
abbrev Authorised (s : State) (b : Bytes) : Prop :=
  quorumForm b = true ∧ s.sec.quorum ≠ [] ∧ getLe b 4 2 = s.node ∧ getLe b 8 4 = s.sec.nextSeq ∧ s.sec.k ≤ s.signers b

/-- The action of an authorised request: the sequence advances, the request is recorded, and the action takes
effect. -/
def acted (s : State) (b : Bytes) : State × Nat :=
  (({ s with sec := { s.sec with nextSeq := (s.sec.nextSeq + 1) % 2 ^ 32 } } : State).quorumRecord b stOk (s.signers
      b)).quorumAct (getLe b 0 1) b

/-- What an instruction leaves once it has had its effect: the issue slot is granted, and the port's contexts act.
-/
def issued (u : State) (p : Port) (g : Nat) : State := (u.grantSlot (g / 16)).drive p.val

/-- A home after a claim is granted: the drawers are held, they count against the quota, and the claim has left its
FIFO. -/
def granted (s : State) (g : GalNo) (i : Instance) (c : Nat × Nat × Nat × Nat) : State :=
  let ps := freePieces s.red.held 0 i.footprint
  let u := s.modGal g.val fun x => { x with granted := x.granted + i.footprint }
  State.modInst { u with red := { u.red with claims := removeFirst (fun d => d == c) s.red.claims, held := ps.foldl putPiece s.red.held } } i
    fun i => { i with claim := .granted, drawers := ps }

/-- One instance of a home ends: its claim leaves, its drawers go to be zeroed, and inst_so counts if it is named,
every member completed with OK, of a COMBINE every one of its group, and none withdrew. -/
def closed (failed : List Nat) (s : State) (i : Instance) : State :=
  let u := s.freeInst i
  let u := { u with red := { u.red with insts := u.red.insts.filter fun j => !j.same i } }
  if (failed.all fun r => i.kind == 0xB && !i.ranks.contains r) && i.instSo / 32768 = 1 && !(i.members.any
      (·.withdrawn)) then u.soAddOf (i.instSo % 16384) i.gallery 1 else u

/-- The packet ends its message: no packet of it follows (log 91). -/
def Ends (k : FabPkt) : Prop := (FHdr.dec k.hdr).param / 256 = 0

/-- A reduction-engine packet has been taken off the list of arrivals, has had its effect, and is acknowledged;
members that waited for it to be handled go on (R277, R331, R344). -/
def heard (s : State) (k : FabPkt) (act : State → State) : State :=
  ((act (s.unqueue k.hdr k.payload)).ackWrite (redIn (FHdr.dec k.hdr)) (FHdr.dec k.hdr)).settleMembers

/-- Of a state: the emergency is reported while a cause of R784 is active, and then the tier is T3,
PWR_STAT.emergency reads 1 and the hold of R745 applies; the tier is one of T0 to T3. -/
def EmergencyForm (s : State) : Prop :=
  s.pwr.emergency = s.pwr.anyCause ∧ s.pwr.tier ≤ 3
    ∧ (s.pwr.emergency = true → s.pwr.tier = 3 ∧ (s.pfReg 0x00100008).getLsbD 7 = true ∧ s.cur.hold = true)

end Sys2Proof.Slice0

open Sys2Proof.Slice0

/-! ### The machine as a whole -/

/-- A step performs the command at the front of the queue on the state whose queue is the rest. With an empty queue
a flit time passes, in which the transmitters that run send FILLER (the model's own choice, log 1): every step on an
empty queue completes and leaves everything but the links, their lanes, the outputs and the free-value counter as it
was. -/
def Obligations.StepPerformsFrontCommand : Prop :=
  (∀ s c rest, s.pending = c :: rest → step s = exec c { s with pending := rest }) ∧
  (∀ s, s.pending = [] → step s = .next s.flitTime ∧
    s.flitTime = { s with links := s.flitTime.links, lanes := s.flitTime.lanes, outputs := s.flitTime.outputs
                          freeCtr := s.flitTime.freeCtr })

/-- Every well-formed command completes in every state, no command is ever refused, and the only fault is that of an
operand whose length cannot occur (log 70). -/
def Obligations.WellFormedCommandsComplete : Prop :=
  ∀ c s, (c.wf = true → ∃ t, exec c s = .next t) ∧ (∀ r, exec c s ≠ .refused r)
    ∧ (∀ r, exec c s = .fault r → r = .operandLength ∧ c.wf = false)

/-- No command touches the commands that wait. -/
def Obligations.CommandsLeaveQueueAlone : Prop := ∀ c s t, exec c s = .next t → t.pending = s.pending

/-- Every step, from every state, keeps the form of the machine: canonical vault memory, clock settings within the
limits of CLK_CTL, a tick divider that is not 0, and at most 16,384 life-history records. -/
def Obligations.StepsKeepMachineForm : Prop := ∀ s t, MachineForm s → step s = .next t → MachineForm t

/-- The machine right after reset has that form. -/
def Obligations.ResetHasMachineForm : Prop := MachineForm State.reset

/-- Fuses are only ever blown: no step lowers the fused security version or clears a revocation bit (R736). -/
def Obligations.FusesAreOnlyBlown : Prop :=
  ∀ s t, step s = .next t →
    s.flash.fusedSvn ≤ t.flash.fusedSvn ∧ ∀ k, s.flash.revoked.getLsbD k = true → t.flash.revoked.getLsbD k = true

/-- The fused security version and the revocation mask change only in the commands in which step 6 of an activation
can happen (R737). -/
def Obligations.FusesChangeOnlyAtActivation : Prop :=
  ∀ c s t, exec c s = .next t → activates c = false →
    t.flash.fusedSvn = s.flash.fusedSvn ∧ t.flash.revoked = s.flash.revoked

/-- Whatever a tenant, an end-point, another module or a link does, the module state, power, clocks, shared pins,
the curator, flash and fuses, the service port, the catalogue banks and the quorum set stay as they are (R2, R5,
R27, R667, R853). -/
def Obligations.DataPlaneLeavesControlAlone : Prop :=
  ∀ c s t, exec c s = .next t → dataPlane c = true →
    t.ctl = s.ctl ∧ t.pwr = s.pwr ∧ t.clk = s.clk ∧ t.own = s.own ∧ t.cur = s.cur ∧ t.flash = s.flash ∧ t.svc = s.svc
      ∧ t.cat.bank0 = s.cat.bank0 ∧ t.cat.bank1 = s.cat.bank1 ∧ t.cat.epoch = s.cat.epoch
      ∧ t.cat.installed = s.cat.installed ∧ t.sec.quorum = s.sec.quorum ∧ t.sec.k = s.sec.k
      ∧ t.sec.nextSeq = s.sec.nextSeq

/-- Catalogue banks are filled and switched by rehangs only, and lost with power or at entry into BOOT (R805, R811,
R813, R853). -/
def Obligations.BanksChangeOnlyByRehang : Prop :=
  ∀ c s t, exec c s = .next t → rehangs c = false →
    t.cat.bank0 = s.cat.bank0 ∧ t.cat.bank1 = s.cat.bank1 ∧ t.cat.epoch = s.cat.epoch
      ∧ t.cat.installed = s.cat.installed

/-! ### Power, bring-up and removal -/

/-- Auxiliary and main power and PRESENT# (R5, R770, R771, R773, R776, R786): OFF becomes STANDBY when auxiliary
power is good, and OFF again without any input; main power good leaves OFF or STANDBY for BOOT, or for STANDBY while
main conversion is locked out, until auxiliary power, which unlocks it, brings the module up. -/
def Obligations.PowerInputs : Prop :=
  (∀ s, s.pwr.auxGood = false → s.pwr.mainGood = false → exec .auxPowerGood s = .next
    { s with
      pwr := { s.pwr with auxGood := true, lockedOut := false, enableSet := false }
      ctl := { s.ctl with state := if s.ctl.state = .off then .standby else s.ctl.state } })
  ∧ (∀ s, s.pwr.auxGood = false → s.pwr.mainGood = true → s.ctl.state = .off ∨ s.ctl.state = .standby →
    ∃ t, exec .auxPowerGood s = .next t ∧ BroughtUp s t)
  ∧ (∀ s, s.ctl.state = .standby → s.pwr.mainGood = false → ∃ t, exec .auxPowerLost s = .next t ∧ t.ctl.state = .off
    ∧ t.pwr.auxGood = false ∧ t.flash = s.flash ∧ t.vault.mem = [])
  ∧ (∀ s, s.powered = true → exec .auxPowerLost s = .next { s with pwr := { s.pwr with auxGood := false } })
  ∧ (∀ s, exec .presentAsserted s = .next { s with pwr := { s.pwr with present := true } })
  ∧ (∀ s, s.pwr.present = true → s.pwr.lockedOut = false → s.ctl.state = .off ∨ s.ctl.state = .standby →
    ∃ t, exec .mainPowerGood s = .next t ∧ BroughtUp s t)
  ∧ (∀ s, s.pwr.present = true → s.pwr.lockedOut = true → s.ctl.state = .off ∨ s.ctl.state = .standby →
    exec .mainPowerGood s = .next
      { s with pwr := { s.pwr with mainGood := true }, ctl := { s.ctl with state := .standby } })

/-- Loss of main input (R5, R7, R771, R772, R775, R786, R828): a hold-up record of kind 2 with the reason goes into
the life-history store, the vault is lost, and the module is in STANDBY, or OFF without auxiliary power. -/
def Obligations.MainInputLoss : Prop :=
  ∀ s, s.powered = true →
    ∀ c reason, (c, reason) ∈ [(Instr.lossOfMainInput .voltage, 1), (.presentDeasserted, 2),
        (.lossOfMainInput .stageFault, 3),
        (.stageFault, 3), (.inputOvercurrent, 3), (.shutdown .dieHotspot, 4), (.shutdown .vaultStack, 4),
        (.shutdown .powerStage, 4), (.shutdown .overvoltage, 4)] ∨ s.pwr.emergency = true
            ∧ c = .shutdown .emergency30s ∧ reason = 4 →
      ∃ t, exec c s = .next t ∧ t.ctl.state = (if s.pwr.auxGood then .standby else .off) ∧ t.pwr.mainGood = false
        ∧ (∃ r, t.flash = { s.flash with lifeHistory := (r :: s.flash.lifeHistory).take 16384 }
            ∧ (r.drop 8).take 2 = [2, BitVec.ofNat 8 reason])
        ∧ t.vault = Vault.reset ∧ t.cat = Cat.reset ∧ t.sec = Sec.reset ∧ t.gals = [] ∧ t.fns = []
        ∧ (t.pwr.lockedOut = true ↔ s.pwr.lockedOut = true ∨ ∃ x, c = .shutdown x)

/-- A module reset (R777): in BOOT, SERVICE, OPERATIONAL, DRAIN or RECOVERY it writes a hold-up record with reason 5
and enters BOOT; in OFF and STANDBY it is ignored. -/
def Obligations.ModuleReset : Prop :=
  (∀ s, s.powered = true → (s.serving = true → s.cur.up = true) → ∃ t, exec .moduleReset s = .next t
      ∧ t.ctl.state = .boot
    ∧ (∃ r, t.flash = { s.flash with lifeHistory := (r :: s.flash.lifeHistory).take 16384 }
        ∧ (r.drop 8).take 2 = [2, 5]
      ∧ t.tel = { t.flash.boot with standbyHours := satAdd 32 t.flash.boot.standbyHours (s.pwr.standbyFor / hourUpdates) })
    ∧ t.clk.locked = true ∧ t.vault.initDone = true ∧ t.vault.mem = [] ∧ t.cat = Cat.reset ∧ t.sec = Sec.reset
        ∧ t.gals = []
    ∧ t.own = OwnCtl.reset)
  ∧ (∀ s, s.ctl.state = .off ∨ s.ctl.state = .standby → exec .moduleReset s = .next s)

/-! ### Caps, tiers, emergencies and sensors -/

/-- The caps (R778, R779, R780, R782): a cap from 450 W is stored, at most 1,050 W, and the tier never gets
shallower, and on a change of the cap in force its rated draw meets that cap at once; one below is refused with
nothing changed; POWER_CAP completes once the average meets its cap, or with CAP_NOT_MET. -/
def Obligations.PowerCaps : Prop :=
  (∀ (p : Power) a b, (p.setCaps a b).bmcCap = a ∧ (p.setCaps a b).drvCap = b ∧ p.tier ≤ (p.setCaps a b).tier
    ∧ (450 ≤ min a b → min a b ≠ min p.bmcCap p.drvCap → ratedDraw (p.setCaps a b).tier ≤ min a b))
  ∧ (∀ w s, s.ctl.state ≠ .off → (s.serving = true → s.cur.up = true) → exec (.bmcPowerCap w) s = .next (
    if w < 450 then { s with outputs := .i3c "ERROR_INVALID_DATA" [] :: s.outputs }
    else { s with pwr := s.pwr.setCaps (min w 1050) s.pwr.drvCap, outputs := .i3c "SUCCESS" [] :: s.outputs }))
  ∧ (∀ s t b, s.takenBy 0 (fun t => t.opcode == 0x30) = some t → Ready s t b → s.serving = true → t.paramLen = 0 →
    argZeroFrom t.args 18 = true → s.pwr.capToken = none →
    let w := argLe t.args 16 2
    let p := s.pwr.setCaps s.pwr.bmcCap (if w = 0 then 1050 else min w 1050)
    exec .powerCap s = .next (
      if 0 < w ∧ w < 450 then s.complete t stBelowFloor (capReport s.pwr)
      else if s.pwr.sample.power ≤ p.drvCap then
        ({ s with pwr := { p with capToken := none } }.startTaken t).complete t stOk (capReport p)
      else { s with pwr := { p with capToken := some (t, p.drvCap) } }.startTaken t))
  ∧ (∀ s t cap, s.pwr.capToken = some (t, cap) →
    exec .powerCapTimeout s = .next ({ s with pwr := { s.pwr with capToken := none } }.complete t
      (if s.pwr.sample.power ≤ cap then stOk else stCapNotMet) (capReport s.pwr)))

/-- The average of R781 against the cap in force (R781, R782 steps 2 to 4): one tier deeper over the cap, if the
tier is 1 ms old; one shallower after 10 ms at 200 W below it, down to the floor. -/
def Obligations.TierFollowsAverage : Prop :=
  ∀ s x, s.ctl.state ≠ .off → s.pwr.capToken = none → ∃ t, exec (.powerAverageUpdate x) s = .next t
    ∧ t = { s with pwr := t.pwr, tel := t.tel } ∧ t.pwr.sample = x
    ∧ t.pwr.capNotMet = decide (min s.pwr.bmcCap s.pwr.drvCap < x.power)
    ∧ (min s.pwr.bmcCap s.pwr.drvCap < x.power →
      t.pwr.tier = if s.pwr.tierAge < 99 then s.pwr.tier else min 3 (s.pwr.tier + 1))
    ∧ (x.power + 200 ≤ min s.pwr.bmcCap s.pwr.drvCap →
      t.pwr.tier = if 999 ≤ s.pwr.belowFor ∧ s.pwr.floor < s.pwr.tier then s.pwr.tier - 1 else s.pwr.tier)
    ∧ (x.power ≤ min s.pwr.bmcCap s.pwr.drvCap → min s.pwr.bmcCap s.pwr.drvCap < x.power + 200 →
        t.pwr.tier = s.pwr.tier)

/-- Emergencies, leaks and the fast-throttle input (R745, R784, R785, R793): a cause sets the emergency, the hold
and a tier of at least T3; the emergency ends with its last cause, and with it a lock of main conversion that
MAIN_ENABLE was to end. -/
def Obligations.Emergencies : Prop :=
  (∀ s c, s.ctl.state ≠ .off → s.pwr.ignored c = false → ∃ t, exec (.emergencyBegin c) s = .next t
    ∧ t = { s with pwr := t.pwr, cur := { s.cur with hold := true } }
    ∧ t.pwr.causes = s.pwr.causes ||| BitVec.ofNat 8 (2 ^ causeBit c) ∧ t.pwr.emergency = true
    ∧ t.pwr.tier = max s.pwr.tier 3)
  ∧ (∀ s c, s.ctl.state ≠ .off → ∃ t, exec (.emergencyClear c) s = .next t
      ∧ RunsWith s (clearedPower s.pwr (causeBit c)) [] t)
  ∧ (∀ s, bitN s.own.en 2 = true → ∃ t, exec .leakAssert s = .next t
    ∧ t = { s with pwr := t.pwr, cur := { s.cur with hold := true } }
    ∧ t.pwr.causes = s.pwr.causes ||| 0x40#8 ∧ t.pwr.emergency = true ∧ t.pwr.tier = max s.pwr.tier 3
    ∧ t.pwr.leakIn = true)
  ∧ (∀ s, s.pwr.leakIn = true → ∃ t, exec .leakClearExpiry s = .next t
    ∧ RunsWith s { clearedPower s.pwr 6 with leakIn := false } [] t)
  ∧ (∀ s, bitN s.own.en 3 = true → ∃ t, exec .fastThrottleAssert s = .next t ∧ t = { s with pwr := t.pwr }
    ∧ t.pwr.fthr = true ∧ t.pwr.tier = max s.pwr.tier 3 ∧ t.pwr.causes = s.pwr.causes)
  ∧ (∀ s, exec .fastThrottleHoldExpiry s = .next { s with pwr := { s.pwr with fthr := false, fthrHold := false } })

/-- Outputs, sense wires, sensors and main enable (R772, R786): each fault is reported and nothing else changes;
with both coolant sensors failed the tier is at least T1; main conversion may run again once MAIN_ENABLE came and no
cause is left. -/
def Obligations.SenseAndSensors : Prop :=
  (∀ s, s.ctl.state ≠ .off → exec .aux3v3Short s = .next { s with pwr := { s.pwr with auxOutFault := true } })
  ∧ (∀ s short, s.pwr.auxOutFault = true →
    exec (.aux3v3Retry short) s = .next { s with pwr := { s.pwr with auxOutFault := short } })
  ∧ (∀ s, s.ctl.state ≠ .off → exec .senseOpen s = .next { s with pwr := { s.pwr with senseOpen := true } })
  ∧ (∀ s x, s.ctl.state ≠ .off → ∃ t, exec (.sensorFail x) s = .next t ∧ t = { s with pwr := t.pwr }
    ∧ bitN t.pwr.sensorFail (sensorBit x) = true
    ∧ (bitN t.pwr.sensorFail 3 = true → bitN t.pwr.sensorFail 4 = true → 1 ≤ t.pwr.tier))
  ∧ (∀ s, s.ctl.state ≠ .off → (s.serving = true → s.cur.up = true) → ∃ t, exec .mainEnable s = .next t
    ∧ RunsWith s
      (if s.pwr.lockedOut = true ∧ s.pwr.causes &&& 0x7F#8 = 0#8 then
          { s.pwr with lockedOut := false, enableSet := false }
        else { s.pwr with enableSet := s.pwr.lockedOut }) [.i3c "SUCCESS" []] t)

/-! ### Clocks, shared pins and registers -/

/-- The reference and the clock settings (R788, R790, R798): frequencies change in SERVICE alone, within their
limits; anywhere else they stay and set `refused`. -/
def Obligations.ClockSettings : Prop :=
  (∀ s v, s.barOpen 0 = true → ∃ t, exec (.clkCtlWrite v) s = .next t ∧ t = { s with clk := t.clk }
    ∧ t.clk.refPort = fieldN v 8 6 ∧ t.clk.revert = bitN v 2 ∧ t.clk.refSel = (if fieldN v 0 2 = 1 then 1 else 0)
    ∧ (s.ctl.state = .service → t.clk.curF = max 10 (min 40 (fieldN v 48 8))
        ∧ t.clk.vaultF = max 20 (min 40 (fieldN v 40 8))
      ∧ t.clk.coreF = max 28 (min 56 (fieldN v 32 8)) ∧ t.clk.refused = (s.clk.refused && !bitN v 14))
    ∧ (s.ctl.state ≠ .service → t.clk.curF = s.clk.curF ∧ t.clk.vaultF = s.clk.vaultF ∧ t.clk.coreF = s.clk.coreF
      ∧ t.clk.refused = true))
  ∧ (∀ s c, s.clk.refNow = 1 → exec (.referenceFallback c) s = .next
    { s with clk := { s.clk with refNow := 0, fallbacks := satAdd 8 s.clk.fallbacks 1 } })
  ∧ (∀ s, s.clk.refNow = 0 → s.clk.refSel = 1 → s.clk.revert = true → s.clk.refPort < 48 →
    (s.link s.clk.refPort).state = .active ∨ (s.link s.clk.refPort).state = .idle →
    exec .referenceRevert s = .next { s with clk := { s.clk with refNow := 1 } })

/-- Clock enables (R791, R800): a write that clears an enable takes effect in SERVICE; in every other state the
cleared bits stay set and `refused` is set. Setting a bit is accepted in every state. -/
def Obligations.ClockEnables : Prop :=
  (∀ s v, s.barOpen 0 = true → ∃ t, exec (.clkEnWrite false v) s = .next t ∧ t = { s with clk := t.clk }
    ∧ (s.ctl.state = .service → t.clk.blocks = v.setWidth 6 ∧ t.clk.enRefused = (s.clk.enRefused && !bitN v 63))
    ∧ (s.ctl.state ≠ .service → s.clk.blocks &&& ~~~ v.setWidth 6 ≠ 0#6 →
      t.clk.blocks = s.clk.blocks ||| v.setWidth 6 ∧ t.clk.enRefused = true))
  ∧ (∀ s v, s.barOpen 0 = true → ∃ t, exec (.clkEnWrite true v) s = .next t
    ∧ (s.ctl.state = .service → t.clk = { s.clk with ports := v.setWidth 48 })
    ∧ (s.ctl.state ≠ .service → s.clk.ports &&& ~~~ v.setWidth 48 ≠ 0#48 →
      t.clk = { s.clk with ports := s.clk.ports ||| v.setWidth 48, enRefused := true }))

/-- Shared pins and timers (R792, R793, R801): no enable is granted that was not asked for, no two features that
contend are ever enabled together, a refused enable sets `conflict`, and a tick divider of 0 is stored as 1. -/
def Obligations.SharedPins : Prop :=
  ∀ s v, s.barOpen 0 = true → ∃ t, exec (.ownCtlWrite v) s = .next t ∧ t = { s with own := t.own, pwr := t.pwr }
    ∧ t.own.tickDiv = (if fieldN v 32 24 = 0 then 1 else fieldN v 32 24)
    ∧ (∀ b, bitN t.own.en b = true → bitN v b = true)
    ∧ ((∀ a b, contend a b = true → ¬(bitN s.own.en a = true ∧ bitN s.own.en b = true)) →
      ∀ a b, contend a b = true → ¬(bitN t.own.en a = true ∧ bitN t.own.en b = true))
    ∧ (∀ b, b < 8 → bitN v b = true → bitN t.own.en b = false → t.own.conflict = true)
    ∧ (∀ b, bitN s.own.en b = true → bitN v b = true → bitN t.own.en b = true)

/-- Registers of the switch core with rules of their own (R537, R541, R542): limits beyond the region set conflict
and leave spec_limit what mc_limit leaves, and a specimen enable without a limit reads back 0 and sets conflict.
What an mc_limit beyond the region is stored as is a free value (log 7). -/
def Obligations.SwitchRegisterWrites : Prop :=
  (∀ s v, s.blockOpen 4 = true → ∃ w, exec (.swcRcCtlWrite v) s = .next { s with swc := w, freeCtr := s.freeCtr + 1 }
    ∧ w.mcLimit + w.specLimit ≤ 262144
    ∧ (fieldN v 32 19 + fieldN v 0 19 ≤ 262144 → w.mcLimit = fieldN v 32 19 ∧ w.specLimit = fieldN v 0 19
      ∧ w.rcConflict = (s.swc.rcConflict && !bitN v 63))
    ∧ (262144 < fieldN v 32 19 + fieldN v 0 19 → w.specLimit = 262144 - w.mcLimit ∧ w.rcConflict = true
      ∧ (fieldN v 32 19 ≤ 262144 → w.mcLimit = fieldN v 32 19)))
  ∧ (∀ s v, s.blockOpen 4 = true → exec (.swcVcModeWrite v) s = .next
    { s with swc := { s.swc with red7 := bitN v 7, vcRefused := (s.swc.vcRefused && !bitN v 8) || fieldN v 0 7 != 0 } })
  ∧ (∀ s p v, s.pageOpen p.val = true → bitN v 7 = true → s.swc.specLimit = 0 →
      ∃ t, exec (.portSpecWrite p v) s = .next t
    ∧ (t.swcPort p.val).specEn = false ∧ t.swc.rcConflict = true)
  ∧ (∀ s p v, s.pageOpen p.val = true → (bitN v 7 = false ∨ s.swc.specLimit ≠ 0) →
      ∃ t, exec (.portSpecWrite p v) s = .next t
    ∧ (t.swcPort p.val).specEn = bitN v 7 ∧ t.swc = s.swc
    ∧ (4 ≤ fieldN v 0 5 → fieldN v 0 5 ≤ 24 → (t.swcPort p.val).specK = fieldN v 0 5))

/-- A write of a register through the physical function (R19, R20, R21, R614, R619, R540, R767, R863): the register
takes the value, within its limits, and nothing else changes before packets that wait move on. -/
def Obligations.RegisterWrites : Prop :=
  ∀ s v, s.barOpen 0 = true →
    exec (.registerWrite 0 0x110 8 v) s = .next ({ s with cur := { s.cur with logLevel := fieldN v 0 2 } } :
        State).driveAll
    ∧ (s.clockOn 5 = true → exec (.registerWrite 0 0x0B000000 8 v) s = .next
      ({ s with vault := { s.vault with scrubEn := bitN v 8, scrubHours := if fieldN v 0 8 = 0 then 8 else fieldN v 0 8 } } : State).driveAll)
    ∧ (s.clockOn 4 = true → exec (.registerWrite 0 0x04000000 8 v) s = .next
      ({ s with swc := { s.swc with
          vc7Max := if fieldN v 32 16 = 0 then 0x4000 else fieldN v 32 16
          beRetx := if fieldN v 16 8 = 0 then 0x14 else fieldN v 16 8
          redW := if 4 ≤ fieldN v 8 4 ∧ fieldN v 8 4 ≤ 12 then fieldN v 8 4 else 9
          alphaShift := fieldN v 0 3 } } : State).driveAll)
    ∧ (s.clockOn 4 = false → exec (.registerWrite 0 0x04000000 8 v) s = .next s.driveAll)
    ∧ (∀ p, p < 48 → s.portOn p = true → exec (.registerWrite 0 (0x01000010 + 0x10000 * p) 8 v) s = .next
      (s.modLink p fun l => { l with
        idleNs := max 64 (fieldN v 48 16), retryTimeout := if fieldN v 40 8 = 0 then 0x10 else fieldN v 40 8
        pathTimeout := if fieldN v 32 8 = 0 then 0x64 else fieldN v 32 8
        serLog2 := if 8 ≤ fieldN v 24 8 ∧ fieldN v 24 8 ≤ 30 then fieldN v 24 8 else 0x14
        flapLimit := if fieldN v 16 8 = 0 then 4 else fieldN v 16 8
        deadNs := if fieldN v 8 8 = 0 then 0x19 else fieldN v 8 8 }).driveAll)
    ∧ (∀ off, off % 8 ≠ 0 → exec (.registerWrite 0 off 8 v) s = .next s.driveAll)

/-! ### The host interface -/

/-- Command and completion rings (R697, R698, R699, R700, R701, R702, R704): a doorbell sets `pi` and the module
then takes commands; an index beyond its range stops the ring; a ring is enabled with its indices at 0, and disabled
with nothing else changed. -/
def Obligations.RingIndices : Prop :=
  (∀ (s : State) f pi, s.barOpen f.val = true → ((s.fn f.val).ring 0).en = true →
    exec (.commandDoorbell f pi) s = .next
      ((s.modFn f.val fun x => x.modRing 0 fun r =>
        { r with pi := pi.toNat, stopped := r.stopped || { r with pi := pi.toNat }.used > r.size }).takeAll f.val))
  ∧ (∀ (s : State) (f : FnNo) (r : Fin 5) ci, s.barOpen f.val = true → r ≠ 0 → (f = 0 ∨ r.val < 3) →
      ((s.fn f.val).ring r.val).en = true →
    ∃ u, u = (s.modFn f.val fun x => x.modRing r.val fun g => { g with
        ci := ci.toNat, stopped := g.stopped || !decide ((ci.toNat + 2 ^ 32 - ((s.fn f.val).ring r.val).ci) % 2 ^ 32 ≤
            ((s.fn f.val).ring r.val).used) })
      ∧ exec (.consumerIndexWrite f r ci) s = .next (if r = 1 then u.takeAll f.val else if r = 2 then u.sendPages
          f.val else u))
  ∧ (∀ (s : State) (f : FnNo) (r : Fin 5) v, s.barOpen f.val = true → (f = 0 ∨ r.val < 3) → bitN v 63 = true →
      ((s.fn f.val).ring r.val).en = false →
    6 ≤ fieldN v 32 4 → fieldN v 32 4 ≤ 14 → (s.fn f.val).ringFits r.val (fieldN v 32 4) (fieldN v 12 10) = true →
    ∃ u, exec (.ringEnable f r v) s = .next (if r = 1 then u.takeAll f.val else if r = 2 then u.sendPages f.val else
        u)
      ∧ (u.fn f.val).ring r.val = { en := true, stopped := false, log2 := fieldN v 32 4, base := fieldN v 12 10, pi := 0, ci := 0, refused := ((s.fn f.val).ring r.val).refused && !bitN v 61 }
      ∧ (∀ k, k ≠ r.val → (u.fn f.val).ring k = (s.fn f.val).ring k) ∧ u = { s with fns := u.fns })
  ∧ (∀ (s : State) (f : FnNo) (r : Fin 5) v, s.barOpen f.val = true → (f = 0 ∨ r.val < 3) → bitN v 63 = false →
    ∃ u, exec (.ringDisable f r v) s = .next u ∧ ((u.fn f.val).ring r.val).en = false
      ∧ ((u.fn f.val).ring r.val).pi = ((s.fn f.val).ring r.val).pi
          ∧ ((u.fn f.val).ring r.val).ci = ((s.fn f.val).ring r.val).ci
      ∧ (∀ k, k ≠ r.val → (u.fn f.val).ring k = (s.fn f.val).ring k) ∧ u = { s with fns := u.fns })

/-- A command is taken (R697, R705, R706, R707): `ci` advances by one, the entry is decoded, and its sequence number
is its ring index. -/
def Obligations.CommandsAreTaken : Prop :=
  ∀ (s : State) f, s.badIn (ringSlot f 0 ((s.fn f).ring 0) ((s.fn f).ring 0).ci) 64 = [] →
    ∃ u t, s.takeOne f = u ∧ (u.fn f).taken = (s.fn f).taken ++ [t] ∧ u = { s with fns := u.fns }
      ∧ ((u.fn f).ring 0).ci = (((s.fn f).ring 0).ci + 1) % 2 ^ 32
          ∧ (u.fn f).cmdsTaken = ((s.fn f).cmdsTaken + 1) % 2 ^ 32
      ∧ t.fn = f ∧ t.seq = ((s.fn f).ring 0).ci ∧ t.started = false
      ∧ t.opcode = (CmdEntry.dec (s.vmBytes (ringSlot f 0 ((s.fn f).ring 0) ((s.fn f).ring 0).ci) 64)).opcode

/-- An MSI-X message (R686, R687, R716, R717, R718): an armed cause whose ring is not empty sends its vector's
message, or leaves it pending while the function may not send or the vector is masked, and is armed no more. -/
def Obligations.MsixMessage : Prop :=
  ∀ (s : State) (f : FnNo) (c : Fin 5), ((s.fn f.val).int c.val).arm = true → s.causePending f.val c.val = true →
    ∃ t, exec (.msiXMessage f c) s = .next t ∧ ((t.fn f.val).int c.val).arm = false
      ∧ (if (s.fn f.val).busMaster = true ∧ (s.fn f.val).msixEn = true ∧ (s.fn f.val).d3hot = false
            ∧ ((s.fn f.val).vec ((s.fn f.val).int c.val).vector).masked = false then
          t = { s with fns := t.fns, outputs := Output.msix (32 * f.val + ((s.fn f.val).int c.val).vector) :: s.outputs }
        else t = { s with fns := t.fns } ∧ ((t.fn f.val).vec ((s.fn f.val).int c.val).vector).pending = true)

/-- BAR2 (R481, R690, R691, R692, R693): a read of a range that the function reaches gives its bytes and changes
nothing else; a write stores them there and in no other byte of the vault; an access outside is refused and counted.
-/
def Obligations.Bar2Access : Prop :=
  (∀ (s : State) (f : FnNo) off len tee a, s.barOpen f.val = true → s.teeRefused f.val tee = false →
      s.bar2Vpa f.val off len = some a →
    s.badIn a len = [] → exec (.bar2Read f off len tee) s = .next
        { s with outputs := .bar2 f.val (s.vmBytes a len) :: s.outputs })
  ∧ (∀ (s : State) (f : FnNo) off bs tee a, s.barOpen f.val = true → s.teeRefused f.val tee = false →
      s.bar2Vpa f.val off bs.length = some a →
    s.badIn a bs.length = [] → ∃ t, exec (.bar2Write f off bs tee) s = .next t ∧ t.vmBytes a bs.length = bs
      ∧ (∀ x, x < a ∨ a + bs.length ≤ x → Tab.get 0 t.vault.mem x = Tab.get 0 s.vault.mem x)
      ∧ t = { s with vault := { s.vault with mem := t.vault.mem, bad := t.vault.bad } })
  ∧ (∀ (s : State) (f : FnNo) off len tee, s.barOpen f.val = true → s.teeRefused f.val tee = false →
      s.bar2Vpa f.val off len = none →
    ∃ t, exec (.bar2Read f off len tee) s = .next t ∧ (t.fn f.val).bar2Refused = ((s.fn f.val).bar2Refused + 1) % 2 ^
        32
      ∧ t = { s with fns := t.fns, outputs := .bar2Unsupported f.val :: s.outputs })
  ∧ (∀ (s : State) f off len, off + len ≤ sliceBytes → s.bar2Vpa f off len = some (0x20000000 + f * 0x400000 + off))

/-- The sync portal and SO_VALUE (R243, R244, R248, R284, R289, R290, R291): an operation on an object of the
function's gallery commits the new value, completes the WAITs that it satisfies, and returns the old value with OK.
-/
def Obligations.SyncPortal : Prop :=
  (∀ (s : State) (f : FnNo) (so : SoNo), f ≠ 0 → s.barOpen f.val = true → (s.fn f.val).gal ≠ 0 →
      s.soOwned so.toNat (s.fn f.val).gal = true →
    let old := (s.so so.toNat).value
    let a := (s.fn f.val).opA
    let done (u : State) : State := u.modFn f.val fun x => { x with soResult := old, soStatus := stOk }
    exec (.galSoRead f so) s = .next (done s)
    ∧ exec (.galSoAdd f so) s = .next (done (s.soCommit so.toNat (old + a)))
    ∧ exec (.galSoSet f so) s = .next (done (s.soCommit so.toNat a))
    ∧ exec (.galSoMin f so) s = .next (done (s.soCommit so.toNat (if a.toNat < old.toNat then a else old)))
    ∧ exec (.galSoMax f so) s = .next (done (s.soCommit so.toNat (if old.toNat < a.toNat then a else old)))
    ∧ exec (.galSoCas f so) s = .next (done (s.soCommit so.toNat (if old = a then (s.fn f.val).opB else old))))
  ∧ (∀ (s : State) (f : FnNo) (so : SoNo), f ≠ 0 → s.barOpen f.val = true →
      s.soOwned so.toNat (s.fn f.val).gal = false →
    ∃ t, exec (.galSoAdd f so) s = .next t ∧ (t.fn f.val).soStatus = stDenied ∧ t.sos = s.sos)
  ∧ (∀ (s : State) (so : SoNo) v, s.blockOpen 1 = true →
    exec (.soValueWrite so v) s = .next (if s.soOwned so.toNat 0 = true then s.soCommit so.toNat v else s))
  ∧ (∀ (s : State) n v, (s.so n).waiters = [] → s.soCommit n v = s.setSo n { s.so n with value := v })

/-- Commands of a host ring with no unit of their own (R84, R85, R709, R710, R712, R719): NOP answers the interface
version; a reserved opcode is UNSUPPORTED; TOUR_LAUNCH starts the context at the tour's first instruction. -/
def Obligations.HostRingCommands : Prop :=
  (∀ (s : State) (f : FnNo) t, s.takenOf f.val 0x01 = some t → Ready s t [] → s.serving = true → t.paramLen = 0 →
      noArgs t.args = true →
    exec (.nop f) s = .next (s.complete t stOk 0x10000))
  ∧ (∀ (s : State) (f : FnNo) t b, s.cur.up = true → s.readBlock t = (s, some b) → cmdKnown t.opcode = false →
    s.takenBy f.val (fun t => !cmdKnown t.opcode || !cmdAllowed t.fn t.opcode || s.g0CodeBad t) = some t →
    exec (.reservedCommand f) s = .next (s.complete t stUnsupported 0))
  ∧ (∀ (s : State) (f : FnNo) t b, s.takenOf f.val 0x03 = some t → Ready s t b → t.paramLen = 0 →
      launchArgs t.args = true →
    let g := ctxIdx (argLe t.args 16 1) (argLe t.args 17 1)
    (s.ctx g).bound = true → s.fnGal f.val = some (s.ctx g).gal →
        ((s.ctx g).gal = 0 ∨ (s.gal (s.ctx g).gal).state = .active) →
    s.launchBusy g = false →
    exec (.tourLaunch f) s = .next (((s.startTaken t).launch g (argLe t.args 24 8) (argLe t.args 32 8) (.ring
        t)).drive (argLe t.args 16 1)))

/-- Module states on command (R5, R6, R8, R713, R721, R890): STATE_SET to OPERATIONAL waits, with atomics stopped,
until none is outstanding; STATE_SET to DRAIN takes effect at once; any other is refused and told in last_status;
DRAIN ends in SERVICE when every tenant gallery is FREE. -/
def Obligations.StateChanges : Prop :=
  (∀ (s : State) t b, s.takenBy 0 (fun t => t.opcode == 0x02) = some t → Ready s t b → t.paramLen = 0 →
      argZeroFrom t.args 17 = true →
    s.ctl.target = none →
    (s.ctl.state = .service → argLe t.args 16 1 = 4 → ∃ u, exec .stateSet s = .next u
      ∧ u.ctl = { s.ctl with target := some .operational, atomicsStopped := true, token := some t }
      ∧ u = { s.startTaken t with ctl := u.ctl })
    ∧ (s.ctl.state = .operational → argLe t.args 16 1 = 5 → ∃ u, exec .stateSet s = .next u ∧ u.ctl.state = .drain
      ∧ u.ctl.lastStatus = stOk ∧ u.ctl.changed = true)
    ∧ (¬ (s.ctl.state = .service ∧ argLe t.args 16 1 = 4) → ¬ (s.ctl.state = .operational ∧ argLe t.args 16 1 = 5) →
        exec .stateSet s = .next
      ({ s with ctl := { s.ctl with lastStatus := stWrongState } }.complete t stWrongState 0)))
  ∧ (∀ (s : State), s.ctl.target = some .operational → s.ctl.state = .service → s.atomicsOut = false → ∃ u,
    exec .enterOperational s = .next u ∧ u.ctl.state = .operational ∧ u.ctl.target = none ∧ u.ctl.lastStatus = stOk
      ∧ u.ctl.atomicsStopped = false ∧ u.ctl.changed = true)
  ∧ (∀ (s : State), s.ctl.target = some .operational → s.ctl.state = .service → s.atomicsOut = true →
      exec .enterOperational s = .next s)
  ∧ (∀ (s : State), s.ctl.state = .drain → s.allFree = true → ∃ u, exec .drainExit s = .next u
      ∧ u.ctl.state = .service
    ∧ u.ctl.changed = true)

/-- Resets of the host side (R442, R686, R687, R688, R724, R725): a function-level reset clears a function's rings,
interrupt maps and MSI-X table; a conventional reset and one of the physical function leave the module state, power
and the installed catalogue as they are; PERST# and configuration space open the host link. -/
def Obligations.HostResets : Prop :=
  (∀ (s : State) (f : FnNo), f ≠ 0 → s.serving = true → exec (.flrVf f) s = .next
    (let u := s.modFn f.val fun x =>
      { x with
        rings := [], ints := [], msix := [], opA := 0, opB := 0
        taken := x.taken.map fun t => { t with discard := true } }
    if (s.fn f.val).tdi = 1 ∨ (s.fn f.val).tdi = 2 then u.tdiError f.val else u).driveAll)
  ∧ (∀ (s : State), s.ctl.hostReady = true → ∃ t, exec .flrPf s = .next t ∧ t.ctl.changed = false
      ∧ t.ctl.state = s.ctl.state
    ∧ t.pwr = s.pwr ∧ t.cat.installed = s.cat.installed ∧ t.sec.quorum = s.sec.quorum)
  ∧ (∀ (s : State), s.powered = true → ∃ t, exec .conventionalReset s = .next t ∧ t.ctl.state = s.ctl.state
      ∧ t.pwr = s.pwr
    ∧ t.clk = s.clk ∧ t.flash = s.flash ∧ t.cat.installed = s.cat.installed ∧ t.cat.epoch = s.cat.epoch
    ∧ t.sec.quorum = s.sec.quorum)
  ∧ (∀ (s : State) (f : FnNo) v, s.ctl.hostReady = true → exec (.configurationWrite f (.memorySpace v)) s = .next
    (s.modFn f.val fun x => { x with memorySpace := v }).driveAll)
  ∧ (∀ (s : State), exec .perstDeasserted s = .next { s with ctl := { s.ctl with perst := false } })
  ∧ (∀ (s : State), s.powered = true → s.ctl.perst = false →
    exec .hostInterfaceReady s = .next { s with ctl := { s.ctl with hostReady := true } })

/-! ### Boot, curator, firmware and life history -/

/-- The end of BOOT (R747, R750, R773): a good image starts the curator; with none, or with a recovery asked for,
the module enters RECOVERY; a pending activation whose staged image passes overwrites the image area, and step 6
then revokes the keys that the image names. -/
def Obligations.BootOutcome : Prop :=
  (∀ (s : State) sr ir, s.ctl.state = .boot → s.cur.listened = false → s.clk.locked = true →
      s.flash.recoverNext = false →
    (s.flash.activation = none → s.flash.stagedArea.len = 0 →
      (s.flash.verify s.flash.imageArea.image ir = stOk → exec (.recoveryListenExpiry sr ir) s = .next
        { s with cur := { s.cur with
          listened := true, imageOk := true, fwVersion := imageVersion s.flash.imageArea.image
          svn := imageSvn s.flash.imageArea.image, digest := sha384 (imageOnly s.flash.imageArea.image) } })
      ∧ (s.flash.verify s.flash.imageArea.image ir ≠ stOk → ∃ t, exec (.recoveryListenExpiry sr ir) s = .next t
        ∧ t.ctl.state = .recovery ∧ t.flash = s.flash ∧ t.cur.imageOk = s.cur.imageOk))
    ∧ (s.flash.activation.isSome = true → s.flash.verify s.flash.stagedArea.image sr = stOk →
      s.flash.verify s.flash.stagedArea.image ir = stOk → ∃ t, exec (.recoveryListenExpiry sr ir) s = .next t
        ∧ t.cur.imageOk = true ∧ t.flash.imageArea = s.flash.stagedArea ∧ t.flash.stagedArea = FlashArea.empty
        ∧ t.flash.activation = none ∧ t.flash.revoked = s.flash.revoked ||| BitVec.ofNat 4 (imageRevoke
            s.flash.stagedArea.image)))
  ∧ (∀ (s : State) sr ir, s.ctl.state = .boot → s.cur.listened = false → s.clk.locked = true →
      s.flash.recoverNext = true →
    ∃ t, exec (.recoveryListenExpiry sr ir) s = .next t ∧ t.ctl.state = .recovery
      ∧ t.flash = { s.flash with recoverNext := false })
  ∧ (∀ (s : State), s.ctl.state = .boot → s.vault.initDone = true → s.cur.imageOk = true → ∃ t,
    exec .enterService s = .next t ∧ t.ctl.state = .service ∧ t.cur = { s.cur with up := true, coresUp := 0xF })
  ∧ (∀ (s : State), s.ctl.state = .boot → s.cur.listened = false → s.clk.locked = true → s.vault.initDone = true →
      ∃ t,
    exec (.recoveryRequest Config.serial) s = .next t ∧ t.ctl.state = .recovery
        ∧ t.cur = { s.cur with listened := true })

/-- Restarts of the curator (R730, R731, R732, R765): a watchdog or memory error stops it, ends its sessions and
counts; during an overwrite it waits; it starts again with an image that verifies, and takes the PLDM requests that
waited, a module reset among them. -/
def Obligations.CuratorRestarts : Prop :=
  (∀ (s : State) core, s.cur.up = true → s.cur.overwrites = false → ∃ t, exec (.watchdogExpiry core) s = .next t
    ∧ t.cur.up = false ∧ t.cur.coresUp = 0 ∧ t.cur.restarts = min (s.cur.restarts + 1) 255 ∧ t.cur.lastCause = 1
    ∧ t.cur.restartCore = core.val ∧ t.sec.sessions = [] ∧ t.ctl = s.ctl ∧ t.flash = s.flash)
  ∧ (∀ (s : State) core cw, s.cur.up = true → s.cur.overwrites = false → 0x10000000 ≤ 64 * cw → 64 * cw < 0x18000000 →
    ∃ t, exec (.curatorMemoryError core cw) s = .next t ∧ t.cur.up = false ∧ t.cur.lastCause = 2
      ∧ t.cur.restarts = min (s.cur.restarts + 1) 255 ∧ t.sec.sessions = [])
  ∧ (∀ (s : State) core, s.cur.up = true → s.cur.overwrites = true → s.cur.restartWaits = none →
    exec (.watchdogExpiry core) s = .next { s with cur := { s.cur with restartWaits := some (1, core.val) } })
  ∧ (∀ (s : State) rd, s.cur.up = false → s.serving = true → s.cur.actStep = 0 → s.cur.fw ≠ .restarting →
      s.cur.hourlyDue = false →
    s.flash.verify s.flash.imageArea.image rd = stOk →
    (.moduleReset ∈ s.cur.pldmWaits → ∃ t, exec (.curatorRestartDone rd) s = .next t ∧ t.ctl.state = .boot)
    ∧ (.moduleReset ∉ s.cur.pldmWaits → ∃ t, exec (.curatorRestartDone rd) s = .next t
      ∧ t.cur.up = true ∧ t.cur.coresUp = 0xF ∧ t.cur.fwVersion = imageVersion s.flash.imageArea.image
      ∧ t.cur.svn = imageSvn s.flash.imageArea.image ∧ t.cur.pldmWaits = [] ∧ t.flash = s.flash ∧ t.ctl = s.ctl))

/-- Staging (R738, R740, R741, R742, R743): FW_STAGE begins the verification; its verdict is the completion's
status, and an image that passes is written, and is STAGED once the written copy passes too; a read of the staging
area that cannot be corrected ends it with DATA_ERROR. -/
def Obligations.FirmwareStaging : Prop :=
  (∀ (s : State) t b, s.takenBy 0 (fun t => t.opcode == 0x28) = some t → Ready s t b → s.serving = true →
      t.paramLen = 0 →
    argZeroFrom t.args 20 = true → s.cur.actStep = 0 → s.cur.fw = .none ∨ s.cur.fw = .staged →
    exec .fwStage s = .next
      { s.startTaken t with cur := { s.cur with fw := .verifying, stageLen := argLe t.args 16 4, stageToken := some t } })
  ∧ (∀ (s : State) rd t, s.cur.fw = .verifying → s.cur.up = true → s.cur.stageToken = some t →
    s.cur.stageLen ≤ stagingBytes → s.badIn vpaStaging s.cur.stageLen = [] →
    let b := s.vmBytes vpaStaging s.cur.stageLen
    let st := s.flash.verify b rd
    (st = stOk → ∃ u, exec (.fwStageVerified rd) s = .next u ∧ u.cur.fw = .writing ∧ u.cur.stageToken = none
      ∧ u.flash = { s.flash with stagedArea := FlashArea.empty }
      ∧ u = { s.complete t stOk (imageSvn b + imageVersion b * 2 ^ 32) with flash := u.flash, cur := u.cur })
    ∧ (st ≠ stOk → ∃ u, exec (.fwStageVerified rd) s = .next u ∧ u = { s.complete t st 0 with cur := u.cur }
      ∧ u.cur.fw = (if s.flash.stagedArea.len = 0 then .none else .staged) ∧ u.cur.lastStatus = st
          ∧ u.cur.stageToken = none))
  ∧ (∀ (s : State) rd, s.cur.fw = .writing → s.cur.up = true → s.cur.stageLen ≤ stagingBytes →
      s.badIn vpaStaging s.cur.stageLen = [] →
    let b := s.vmBytes vpaStaging s.cur.stageLen
    (s.flash.verify b rd = stOk → ∃ u, exec (.stageWriteDone rd) s = .next u ∧ u.cur.fw = .staged
      ∧ u.cur.stagedVersion = imageVersion b ∧ u.cur.stagedSvn = imageSvn b
      ∧ u.flash = { s.flash with stagedArea := FlashArea.hold (imageOnly b) })
    ∧ (s.flash.verify b rd ≠ stOk → ∃ u, exec (.stageWriteDone rd) s = .next u ∧ u.cur.fw = .none
      ∧ u.cur.lastStatus = s.flash.verify b rd ∧ u.flash = { s.flash with stagedArea := FlashArea.empty }))
  ∧ (∀ (s : State) rd, s.cur.fw = .writing → s.cur.up = true → s.cur.stageLen ≤ stagingBytes →
    (s.badIn vpaStaging s.cur.stageLen).any (fun e => decide (2 ≤ e.2)) = true →
        ∃ u, exec (.stageWriteDone rd) s = .next u ∧ u.cur.fw = .none
      ∧ u.cur.lastStatus = stDataError ∧ u.flash = { s.flash with stagedArea := FlashArea.empty })

/-- Activation (R734, R744, R745, R746, R747): FW_ACTIVATE writes the activation record; the hold keeps the next
step from beginning; a staged image that fails leaves the image area alone and empties the record; one that passes
overwrites the image area, and the curator restarts with cause 3. -/
def Obligations.FirmwareActivation : Prop :=
  (∀ (s : State) t b, s.takenBy 0 (fun t => t.opcode == 0x29) = some t → Ready s t b → s.serving = true →
      t.paramLen = 0 →
    noArgs t.args = true → s.cur.fw = .staged → ∃ u, exec .fwActivate s = .next u
      ∧ u.flash = { s.flash with activation := some (headerDigest s.flash.stagedArea.image) } ∧ u.cur.actStep = 3
      ∧ (if s.cur.hold then u.cur.fw = .deferred ∧ u.cur.actBegun = false else u.cur.fw = .overwriting
          ∧ u.cur.actBegun = true))
  ∧ (∀ (s : State) rd, s.cur.actStep = 3 → s.cur.actBegun = true →
    (s.flash.verify s.flash.stagedArea.image rd = stOk → s.cur.hold = false → exec (.stagedVerifyDone rd) s = .next
      { s with flash := { s.flash with imageArea := FlashArea.empty },
               cur := { s.cur with actStep := 4, actBegun := true, fw := .overwriting } })
    ∧ (s.flash.verify s.flash.stagedArea.image rd ≠ stOk → s.cur.restartWaits = none →
        ∃ u, exec (.stagedVerifyDone rd) s = .next u
      ∧ u.flash = { s.flash with activation := none } ∧ u.cur.fw = .none ∧ u.cur.actStep = 0
      ∧ u.cur.lastStatus = s.flash.verify s.flash.stagedArea.image rd))
  ∧ (∀ (s : State) rd, s.cur.actStep = 4 → s.cur.actBegun = true → s.cur.overwriteRetried = false →
      s.cur.restartWaits = none →
    s.cur.hold = false → s.cur.up = true → s.flash.verify s.flash.stagedArea.image rd = stOk →
        ∃ u, exec (.overwriteDone rd) s = .next u
      ∧ u.flash = { s.flash with imageArea := s.flash.stagedArea } ∧ u.cur.fw = .restarting ∧ u.cur.actStep = 5
      ∧ u.cur.up = false ∧ u.cur.lastCause = 3)
  ∧ (∀ (s : State), s.pwr.emergency = false → s.cur.hold = true → s.cur.actStep = 0 →
    exec .activationHoldExpiry s = .next { s with cur := { s.cur with hold := false } })
  ∧ (∀ (s : State), s.pwr.emergency = false → s.cur.hold = true → s.cur.actStep = 3 → s.cur.actBegun = false →
    exec .activationHoldExpiry s = .next
        { s with cur := { s.cur with hold := false, fw := .overwriting, actBegun := true } })

/-- The service port (R752, R753, R754, R755, R756, R831): the link, a lease and its time-out, ARP and ICMP; TFTP
reads of the life history and of the recovery status, at most five retransmissions, and a written image, which in
RECOVERY becomes the image area and is booted if it verifies and leaves flash alone if it does not. Frames that the
module sends are the model's own records (log 69). -/
def Obligations.ServicePort : Prop :=
  (∀ (s : State), s.powered = true → exec .servicePortLinkUp s = .next
      { s with svc := { s.svc with linkUp := true } })
  ∧ (∀ (s : State) a, s.powered = true → s.svc.linkUp = true →
    exec (.dhcp a) s = .next { s with svc := { s.svc with lease := some a, linkLocal := false } })
  ∧ (∀ (s : State), s.powered = true → s.svc.linkUp = true → s.svc.lease = none →
    exec .dhcpLeaseTimeout s = .next { s with svc := { s.svc with linkLocal := true } })
  ∧ (∀ (s : State) a bs, s.powered = true → s.svc.lease = some a →
    exec (.arp a) s = .next { s with outputs := .svc "ARP" (natLe 6 Config.mac.toNat) :: s.outputs }
    ∧ exec (.icmpEcho a bs) s = .next { s with outputs := .svc "ICMP_ECHO_REPLY" bs :: s.outputs })
  ∧ (∀ (s : State), s.svc.tftp.active = false →
    (s.serving = true → exec .tftpReadLifehist s = .next
      { s with svc := { s.svc with tftp := { active := true, retransmits := 0 } }, outputs := .svc "TFTP_DATA" s.flash.lifeFile :: s.outputs })
    ∧ (s.serving = true → exec .tftpWriteRequest s = .next { s with outputs := .svc "TFTP_ERROR_2" [] :: s.outputs })
    ∧ (s.ctl.state = .recovery → exec .tftpReadStatus s = .next
      { s with svc := { s.svc with tftp := { active := true, retransmits := 0 } },
               outputs := .svc "TFTP_DATA" (natLe 1 s.cur.recoveryStatus ++ natLe 1 s.flash.fusedSvn ++ zeros 6) ::
                   s.outputs }))
  ∧ (∀ (s : State), s.svc.tftp.active = true →
    (s.svc.tftp.retransmits < 5 → exec .tftpRetransmit s = .next
      { s with svc := { s.svc with tftp := { active := true, retransmits := s.svc.tftp.retransmits + 1 } },
               outputs := .svc "TFTP_RETRANSMIT" [] :: s.outputs })
    ∧ (5 ≤ s.svc.tftp.retransmits → exec .tftpRetransmit s = .next
        { s with svc := { s.svc with tftp := { active := false, retransmits := 0 } } }))
  ∧ (∀ (s : State) image, s.ctl.state = .recovery → s.svc.tftp.active = false → image.length ≤ stagingBytes →
    (s.flash.verify image true = stOk → ∃ t, exec (.tftpWriteImage image true) s = .next t ∧ t.ctl.state = .boot
      ∧ t.flash.imageArea = FlashArea.hold image ∧ t.flash.stagedArea = FlashArea.empty ∧ t.flash.activation = none
      ∧ t.flash.fusedSvn = s.flash.fusedSvn ∧ t.flash.revoked = s.flash.revoked)
    ∧ (s.flash.verify image true ≠ stOk → ∃ t, exec (.tftpWriteImage image true) s = .next t ∧ t.ctl = s.ctl
        ∧ t.flash = s.flash
      ∧ t.cur.recoveryStatus = s.flash.verify image true))

/-- The I3C sideband (R731, R757, R758, R847): answers that change nothing but what has been sent; a PLDM request
during a restart of the curator waits for its end. Their layout is the model's own (log 66, 69). -/
def Obligations.Sideband : Prop :=
  (∀ (s : State) c bs, s.ctl.state ≠ .off → exec (.mctpControl c bs) s = .next
      { s with outputs := .i3c "MCTP_CONTROL" (c :: bs) :: s.outputs })
  ∧ (∀ (s : State), s.ctl.state ≠ .off → (s.serving = true → s.cur.up = true) →
    exec (.pldmSensor 3) s = .next { s with outputs := .i3c "SUCCESS" (natLe 2 s.readings.die) :: s.outputs }
    ∧ (∀ n, 8 ≤ n → exec (.pldmSensor n) s = .next { s with outputs := .i3c "INVALID_SENSOR_ID" [] :: s.outputs })
    ∧ exec .pldmFru s = .next { s with outputs := .i3c "SUCCESS" (natLe 16 Config.serial.toNat ++ natLe 2 0x480 ++ natLe 1 1) :: s.outputs })
  ∧ (∀ (s : State) n, s.serving = true → s.cur.up = false →
    let waits (r : Pldm) : Host.Outcome State Fault Refusal := .next
        { s with cur := { s.cur with pldmWaits := s.cur.pldmWaits ++ [r] } }
    exec (.pldmSensor n) s = waits (.sensor n) ∧ exec .pldmFru s = waits .fru
        ∧ exec (.bmcPowerCap n) s = waits (.cap n)
    ∧ exec .mainEnable s = waits .mainEnable ∧ exec .moduleReset s = waits .moduleReset)
  ∧ (∀ (s : State), s.cur.up = true →
    exec .status s = .next { s with outputs := .i3c "STATUS" (natLe 8 (s.regModState false).toNat ++ natLe 8 s.regFwStatus.toNat) :: s.outputs }
    ∧ (∀ c bs, c ≠ 1 → c ≠ 2 → exec (.reservedVendorCommand c bs) s = .next
        { s with outputs := .i3c "UNSUPPORTED" [0x07] :: s.outputs }))

/-- Life history and health (R603, R826, R827, R828, R829, R838): an hour of main power is counted and recorded,
health is scored hourly, and a die with 64 uncorrectable reads in an hour fails. -/
def Obligations.LifeAndHealth : Prop :=
  (∀ (s : State), s.powered = true → s.cur.up = true → ∃ t, exec (.lifeHistoryHourly true) s = .next t
    ∧ (∃ r, t.flash = { s.flash with lifeHistory := (r :: s.flash.lifeHistory).take 16384 }
        ∧ (r.drop 8).take 2 = [1, 0])
    ∧ t.tel.onHours = satAdd 32 s.tel.onHours 1 ∧ t = { s with flash := t.flash, tel := t.tel })
  ∧ (∀ (s : State) ok, s.powered = true → s.cur.up = false → exec (.lifeHistoryHourly ok) s = .next
    { s with cur := { s.cur with hourlyDue := true }, tel := { s.tel with onHours := satAdd 32 s.tel.onHours 1 } })
  ∧ (∀ (s : State), s.powered = true → ∃ t, exec .healthScoring s = .next t ∧ t.ctl = s.ctl ∧ t.flash = s.flash
    ∧ t.tel.updates = (s.tel.updates + 1) % 2 ^ 32 ∧ t.tel.modHealth.band = healthBand t.tel.modHealth.score
    ∧ t.tel.modHealth.score ≤ 101)
  ∧ (∀ (s : State) d, (s.die d.val).failed = false → 64 ≤ (s.die d.val).ueHour → ∃ t, exec (.dieFailed d) s = .next t
    ∧ (t.die d.val) = { s.die d.val with failed := true } ∧ ∀ k, k ≠ d.val → t.die k = s.die k)

/-! ### Rehangs, galleries and the vault -/

/-- FILL and FILL_THEN_SWITCH (R809, R811, R817): an image that passes the checks empties the shadow bank, which is
FILLING, and leaves the active bank alone; when the copy ends the shadow holds the image, and FILL completes with
its tag. A staged image that cannot be read back ends it with DATA_ERROR and an empty shadow (the model's own
choice, log 96). -/
def Obligations.ShadowFills : Prop :=
  (∀ (s : State) t b c both, (c, both) ∈ [(Instr.fill, false), (.fillThenSwitch, true)] →
    s.takenBy 0 (fun t => t.opcode == 0x20 && (if both then argLe t.args 16 1 == 3 else !(argLe t.args 16 1 == 2 ||
        argLe t.args 16 1 == 3))) = some t →
    Ready s t b → t.paramLen = 0 → rehangArgs t.args = true → s.ctl.state = .service ∨ s.ctl.state = .operational →
    let r := RehangArgs.dec t.args
    s.fillCheck r = none → s.badIn (vpaStaging + r.offset) r.length = [] →
    s.imageCheck (Bank.ofBytes (s.vmBytes (vpaStaging + r.offset) r.length) r.quiesce) = none →
    ∃ u, exec c s = .next u ∧ u.cat.shadow = .filling ∧ u.cat.token = some t ∧ u.cat.fillThenSwitch = both
      ∧ u.bank s.cat.shadowNo = Bank.reset ∧ u.bank (!s.cat.shadowNo) = s.bank (!s.cat.shadowNo)
      ∧ u.cat.epoch = s.cat.epoch ∧ u.cat.installed = s.cat.installed ∧ u = { s.startTaken t with cat := u.cat })
  ∧ (∀ (s : State) t, s.cat.token = some t → s.cat.shadow = .filling → s.cur.up = true →
      s.cat.fillThenSwitch = false →
    s.badIn (vpaStaging + s.cat.fillOff) s.cat.fillLen = [] →
    let k := Bank.ofBytes (s.vmBytes (vpaStaging + s.cat.fillOff) s.cat.fillLen) s.cat.fillQuiesce
    ∃ u, exec .shadowFilled s = .next u ∧ u.cat.shadow = .filled ∧ u.cat.token = none ∧ u.cat.lastStatus = stOk
      ∧ u.bank s.cat.shadowNo = k ∧ u.bank (!s.cat.shadowNo) = s.bank (!s.cat.shadowNo)
      ∧ u = { s.complete t stOk k.tag with cat := u.cat })
  ∧ (∀ (s : State) t, s.cat.token = some t → s.cat.shadow = .filling → s.cur.up = true →
    (s.badIn (vpaStaging + s.cat.fillOff) s.cat.fillLen).any (fun e => decide (2 ≤ e.2)) = true →
    ∃ u, exec .shadowFilled s = .next u ∧ u.cat.shadow = .empty ∧ u.cat.token = none ∧ u.cat.lastStatus = stDataError
      ∧ (∀ e, u.bank e = s.bank e))

/-- SWITCH, its wait and the drain of an epoch (R806, R812, R813, R815): a SWITCH that names the tag of a filled
bank makes that bank the active one; a quiesce bank waits until nothing of either epoch remains, and its wait ends
with BUSY; the old epoch's bank is DRAINED with an event when nothing of it remains, and until then a FILL fails
with BUSY. -/
def Obligations.BankSwitches : Prop :=
  (∀ (s : State) t b, s.takenBy 0 (fun t => t.opcode == 0x20 && argLe t.args 16 1 == 2) = some t → Ready s t b →
      t.paramLen = 0 →
    rehangArgs t.args = true → s.ctl.state = .service ∨ s.ctl.state = .operational → s.cat.token = none →
        s.cat.shadow = .filled →
    argLe t.args 24 8 = (s.bank s.cat.shadowNo).tag → (s.bank s.cat.shadowNo).quiesce = false →
    ∃ u, exec .switch s = .next u ∧ u.cat.installed = true ∧ u.cat.epoch = s.cat.shadowNo ∧ (∀ e, u.bank e = s.bank e)
      ∧ u.ctl = s.ctl ∧ u.flash = s.flash ∧ u.pwr = s.pwr ∧ u.clk = s.clk)
  ∧ (∀ (s : State) t, s.cur.up = true → s.cat.quiescing = true → s.cat.token = some t → s.drained false = true →
      s.drained true = true →
    ∃ u, exec .epochDrained s = .next u ∧ u.cat.installed = true ∧ u.cat.epoch = s.cat.shadowNo
        ∧ (∀ e, u.bank e = s.bank e))
  ∧ (∀ (s : State), s.cat.token = none → s.cat.shadow = .draining → s.drained (!s.cat.epoch) = true →
    ∃ u, exec .epochDrained s = .next u ∧ u.cat = { s.cat with shadow := .drained }
      ∧ u = ({ s with cat := u.cat } : State).curEvent 0x08 0 0 (!s.cat.epoch).toNat)
  ∧ (∀ (s : State) t b c both, (c, both) ∈ [(Instr.fill, false), (.fillThenSwitch, true)] →
    s.takenBy 0 (fun t => t.opcode == 0x20 && (if both then argLe t.args 16 1 == 3 else !(argLe t.args 16 1 == 2 ||
        argLe t.args 16 1 == 3))) = some t →
    Ready s t b → t.paramLen = 0 → rehangArgs t.args = true → s.ctl.state = .service ∨ s.ctl.state = .operational →
    let r := RehangArgs.dec t.args
    1 ≤ r.phase → r.phase ≤ 3 → r.offset % 128 = 0 → r.offset + r.length ≤ stagingBytes →
        r.quiesce = false ∨ s.ctl.state = .service →
    s.cat.shadow = .draining →
    exec c s = .next (({ s with cat := { s.cat with lastStatus := stBusy } } : State).complete t stBusy 0))
  ∧ (∀ (s : State) t, s.cat.token = some t → s.cat.quiescing = true →
    exec .switchQuiesceTimeout s = .next (State.driveAll { s.complete t stBusy 0 with
      cat := { s.cat with lastStatus := stBusy, token := none, fillThenSwitch := false, quiescing := false } }))

/-- GALLERY_ACCESSION, G0_SETUP and G0_RELEASE (R631, R632, R634, R635): a block that passes the checks binds the
gallery to its function and its contexts to the gallery; G0_RELEASE unbinds the listed contexts, which keep the
status, the pc and the count of their last tours (R159, R160). -/
def Obligations.GalleryResources : Prop :=
  (∀ (s : State) t b, s.takenBy 0 (fun t => t.opcode == 0x10) = some t → Ready s t b → 128 ≤ t.paramLen →
      noArgs t.args = true →
    blockLenOk b = true → blockZerosOk b = true → s.ctl.state = .operational →
        s.accessionCheck (AccBlock.dec b) = none →
    let a := AccBlock.dec b
    ∃ u, exec .galleryAccession s = .next u ∧ (u.gal a.gallery).state = .accessioned ∧ (u.gal a.gallery).fn = a.vf
      ∧ (∀ e, e ∈ a.ctxs → (u.ctx (ctxIdx e.1 e.2.1)).bound = true ∧ (u.ctx (ctxIdx e.1 e.2.1)).gal = a.gallery)
      ∧ u.ctl = s.ctl ∧ u.flash = s.flash ∧ u.cat = s.cat ∧ u.sec = s.sec)
  ∧ (∀ (s : State) t b, s.takenBy 0 (fun t => t.opcode == 0x13) = some t → Ready s t b → 128 ≤ t.paramLen →
      noArgs t.args = true →
    blockLenOk b = true → blockZerosOk b = true → s.ctl.state = .service → s.g0Check (AccBlock.dec b) = none →
    exec .g0Setup s = .next ((s.doG0Setup (AccBlock.dec b) b).complete t stOk 0))
  ∧ (∀ (s : State) t b, s.takenBy 0 (fun t => t.opcode == 0x14) = some t → Ready s t b → 128 ≤ t.paramLen →
      noArgs t.args = true →
    releaseForm b = true → s.serving = true →
    let es := (blockCtxs b (getLe b 0 2)).map ctxEntry
    let gs := es.map fun e => ctxIdx e.1 e.2.1
    es ≠ [] → es.length ≤ 768 → (∀ e, e ∈ es → e.1 < 48) →
    (∀ g, g ∈ gs → (s.ctx g).bound = true ∧ (s.ctx g).gal = 0 ∧ (s.ctx g).state = .idle) →
    ∃ u, exec .g0Release s = .next u ∧ (∀ g, g ∈ gs → u.ctx g = { Ctx.reset with
      lastStatus := (s.ctx g).lastStatus, pc := (s.ctx g).pc, toursEnded := (s.ctx g).toursEnded
          }) ∧ (∀ g, g ∉ gs → u.ctx g = s.ctx g))

/-- Deaccession (R671, R672, R673): the command ends the gallery's work and waits; each step then ends in its own
event, and at the last the gallery is FREE with nothing of its own. -/
def Obligations.Deaccession : Prop :=
  (∀ (s : State) t b, s.takenBy 0 (fun t => t.opcode == 0x11) = some t → Ready s t b → t.paramLen = 0 →
      argLe t.args 16 1 < 64 →
    argZeroFrom t.args 17 = true → s.ctl.state = .operational ∨ s.ctl.state = .drain → argLe t.args 16 1 ≠ 0 →
    (s.gal (argLe t.args 16 1)).state ≠ .free →
    exec .galleryDeaccession s = .next (s.deaccStart (argLe t.args 16 1) 1 (some t))
    ∧ ((s.gal (argLe t.args 16 1)).state = .deaccessioning → exec .galleryDeaccession s = .next
        ((s.startTaken t).modGal (argLe t.args 16 1) fun x => { x with deaccTokens := x.deaccTokens ++ [t] })))
  ∧ (∀ (s : State) (g : GalNo), (s.gal g).deaccStep = 2 → s.galDrained g = true →
    ∃ u, exec (.deaccessionDrained g) s = .next u ∧ (u.gal g).deaccStep = 4 ∧ (∀ e, e ∈ u.trn.cidx → e.gal ≠ g)
      ∧ (∀ i, ((u.gal g).extent i).en = false) ∧ u.ctl = s.ctl ∧ u.flash = s.flash)
  ∧ (∀ (s : State) (g : GalNo), (s.gal g).deaccStep = 2 →
    ∃ u, exec (.drainTimeoutExpiry g) s = .next u ∧ (u.gal g).deaccStep = 4 ∧ u.ctl = s.ctl ∧ u.flash = s.flash)
  ∧ (∀ (s : State) (g : GalNo), (s.gal g).deaccStep = 4 → s.cur.up = true →
    ∃ u, exec (.deaccessionZeroed g) s = .next u ∧ u.gal g = Gallery.reset
      ∧ u.ctl = s.ctl ∧ u.flash = s.flash)

/-- Shelf extents and the scrub (R472, R473, R477, R485, R490): a write of an extent stores it, enabled if its units
are free, and not ready until its units are zero; the scrub corrects or counts a codeword. -/
def Obligations.ExtentsAndScrub : Prop :=
  (∀ (s : State) (g : GalNo) (i : Fin 4) v, s.blockOpen 5 = true → s.galLocked g = false →
      ∃ u, exec (.shelfExtWrite g i v) s = .next u
    ∧ (let x := (s.gal g).extent i
       let ok := bitN v 63 && s.extentFits g i (fieldN v 0 12) (fieldN v 16 12)
       let y := (u.gal g).extent i
       y.base = fieldN v 0 12 ∧ y.size = fieldN v 16 12 ∧ y.en = ok
         ∧ y.ready = (x.en && ok && x.base == fieldN v 0 12 && x.size == fieldN v 16 12 && x.ready)
         ∧ u.vault.shelfConflict = (s.vault.shelfConflict || (bitN v 63 && !ok)))
    ∧ (∀ k, k ≠ g.val → u.gal k = s.gal k) ∧ u.vault.mem = s.vault.mem)
  ∧ (∀ (s : State) (g : GalNo) (i : Fin 4) z, ((s.gal g).extent i).zeroing = [z] →
      ∃ u, exec (.extentZeroingDone g i) s = .next u
    ∧ (u.gal g).extent i = { (s.gal g).extent i with ready := ((s.gal g).extent i).en, zeroing := [] }
    ∧ (∀ a, Tab.get 0 u.vault.mem a = if vpaShelf (z.1 * 0x200000) ≤ a
        ∧ a < vpaShelf (z.1 * 0x200000) + z.2 * 0x200000 then 0
        else Tab.get 0 s.vault.mem a))
  ∧ (∀ (s : State) cw n, s.powered = true → s.vault.initDone = true → s.vault.scrubEn = true → 64 * cw < 0xC00000000 →
      lastOfDie cw = false →
    let m := max (Tab.get 0 s.vault.bad cw) n
    (m = 0 → exec (.scrubRead cw n) s = .next { s with vault := { s.vault with bad := Tab.set 0 s.vault.bad cw 0 } })
    ∧ (m = 1 → ∃ u, exec (.scrubRead cw n) s = .next u ∧ Tab.get 0 u.vault.bad cw = 0 ∧ u.vault.mem = s.vault.mem
        ∧ (u.die (64 * cw / 128 % 24)).corrected = ((s.die (64 * cw / 128 % 24)).corrected + 1) % 2 ^ 32)
    ∧ (2 ≤ m → ∃ u, exec (.scrubRead cw n) s = .next u ∧ u.vault.lastVpa = 64 * cw
        ∧ (u.die (64 * cw / 128 % 24)).uncorrectable = min ((s.die (64 * cw / 128 % 24)).uncorrectable + 1) 65535))

/-! ### Security -/

/-- SPDM sessions and messages (R622, R623, R624, R625): each request that the module supports is answered;
algorithms are negotiated for each transport; KEY_EXCHANGE opens no session before FINISH; an ended session controls
no gallery. How answers are named and laid out, and what GET_VERSION drops, is the model's own (log 36, 37, 71). -/
def Obligations.SpdmMessages : Prop :=
  (∀ (s : State) mctp, s.cur.up = true →
    exec (.getVersion mctp) s = .next { s with
      sec := { s.sec with negMctp := s.sec.negMctp && !mctp, negDoe := s.sec.negDoe && mctp },
          outputs := .spdm "VERSION" [0x12] :: s.outputs }
    ∧ exec (.getCapabilities mctp) s = .next { s with outputs := .spdm "CAPABILITIES" [] :: s.outputs }
    ∧ exec (.negotiateAlgorithms mctp true) s = .next { s with
      sec := { s.sec with negMctp := s.sec.negMctp || mctp, negDoe := s.sec.negDoe || !mctp },
          outputs := .spdm "ALGORITHMS" [] :: s.outputs })
  ∧ (∀ (s : State) mctp, s.cur.up = true → s.negotiated mctp = true →
    exec (.getDigests mctp) s = .next
        { s with outputs := .spdm "DIGESTS" (1 :: natLe 48 Config.certDigest.toNat) :: s.outputs }
    ∧ (∀ off len, exec (.getCertificate mctp 0 off len) s = .next { s with outputs :=
        (if Config.certLen ≤ off then .spdmError "InvalidRequest"
         else .spdm "CERTIFICATE" ((List.range (min len (Config.certLen - off))).map fun i => Config.certByte (off +
             i))) :: s.outputs })
    ∧ (∀ nonce, ∃ b, b.length = 176 ∧ exec (.challenge mctp 0 nonce) s = .next
        { s with freeCtr := s.freeCtr + 1, outputs := .spdm "CHALLENGE_AUTH" b :: s.outputs })
    ∧ exec (.getMeasurements mctp 0 false) s = .next { s with outputs := .spdm "MEASUREMENTS" [69] :: s.outputs }
    ∧ (∀ i v, i ≠ 0 → i ≠ 0xFF → s.measurement i = some v → exec (.getMeasurements mctp i false) s = .next
        { s with outputs := .spdm "MEASUREMENTS" (1 :: measBlock i v) :: s.outputs })
    ∧ (s.sessionsOn mctp < (if mctp then 2 else 64) → exec (.keyExchange mctp) s = .next { s with
        sec := { s.sec with sessions := s.sec.sessions ++ [{ id := s.sec.nextSession, mctp := mctp, open_ := false, keyPhase := 0 }],
                            nextSession := s.sec.nextSession + 1 }
        outputs := .spdm "KEY_EXCHANGE_RSP" (natLe 4 s.sec.nextSession) :: s.outputs }))
  ∧ (∀ (s : State) id x, s.cur.up = true → s.session id = some x → x.open_ = false →
    ∃ t, exec (.finish id true) s = .next t ∧ t.session id = some { x with open_ := true }
        ∧ t.outputs = .spdm "FINISH_RSP" [] :: s.outputs
      ∧ t = { s with sec := { s.sec with sessions := t.sec.sessions }, outputs := t.outputs })
  ∧ (∀ (s : State) id, s.cur.up = true → s.sessionOpen id = true →
    exec (.heartbeat id) s = .next { s with outputs := .spdm "HEARTBEAT_ACK" [] :: s.outputs }
    ∧ (∃ t, exec (.keyUpdate id) s = .next t ∧ t.sessionOpen id = true
        ∧ t.outputs = .spdm "KEY_UPDATE_ACK" [] :: s.outputs
      ∧ t = { s with sec := { s.sec with sessions := t.sec.sessions }, outputs := t.outputs })
    ∧ (∃ t, exec (.endSession id) s = .next t ∧ t.session id = none ∧ (∀ g, (t.gal g).session ≠ some id)
      ∧ t = { s with sec := { s.sec with sessions := t.sec.sessions }, gals := t.gals, outputs := .spdm "END_SESSION_ACK" [] :: s.outputs }))

/-- IDE key management and TDISP (R660, R661, R663): keys are programmed and started in an open session on DOE; a
TDI is locked, started and stopped. -/
def Obligations.IdeAndTdisp : Prop :=
  (∀ (s : State) id x, s.cur.up = true → s.session id = some x → x.open_ = true → x.mctp = false →
    exec (.query (some id)) s = .next { s with outputs := .spdm "QUERY_RESP" [64, 0] :: s.outputs }
    ∧ (∀ f key, key.length = 32 → ∃ t, exec (.keyProg (some id) f false key) s = .next t
        ∧ (t.fn f.val).ide = { (s.fn f.val).ide with key0 := key }
        ∧ (∀ k, k ≠ f.val → t.fn k = s.fn k) ∧ t = { s with fns := t.fns, outputs := .spdm "KP_ACK" [] :: s.outputs })
    ∧ (∀ f, (s.fn f.val).ide.key0 ≠ [] → ∃ t, exec (.kSetGo (some id) f false) s = .next t
        ∧ (t.fn f.val).ide = { (s.fn f.val).ide with go0 := true }
        ∧ (∀ k, k ≠ f.val → t.fn k = s.fn k) ∧ t =
            { s with fns := t.fns, outputs := .spdm "K_GOSTOP_ACK" [] :: s.outputs })
    ∧ (∀ f, ∃ t, exec (.kSetStop (some id) f true) s = .next t
        ∧ (t.fn f.val).ide = { (s.fn f.val).ide with go1 := false }
        ∧ (∀ k, k ≠ f.val → t.fn k = s.fn k) ∧ t =
            { s with fns := t.fns, outputs := .spdm "K_GOSTOP_ACK" [] :: s.outputs }))
  ∧ (∀ (s : State) (f : FnNo), f ≠ 0 → s.cur.up = true →
    exec (.getTdispVersion f) s = .next { s with outputs := .spdm "TDISP_VERSION" [0x10] :: s.outputs }
    ∧ exec (.getTdispCapabilities f) s = .next { s with outputs := .spdm "TDISP_CAPABILITIES" [] :: s.outputs }
    ∧ exec (.getDeviceInterfaceState f) s = .next
        { s with outputs := .spdm "DEVICE_INTERFACE_STATE" (natLe 1 (s.fn f.val).tdi) :: s.outputs }
    ∧ ((s.fn f.val).tdi = 1 ∨ (s.fn f.val).tdi = 2 → exec (.getDeviceInterfaceReport f) s = .next
        { s with outputs := .spdm "DEVICE_INTERFACE_REPORT" (s.tdiReport f.val) :: s.outputs })
    ∧ ((s.fn f.val).gal ≠ 0 → (s.gal (s.fn f.val).gal).state = .accessioned ∨ (s.gal (s.fn f.val).gal).state =
        .claimed → (s.fn f.val).tdi = 0 →
        ∃ t b, exec (.lockInterfaceRequest f) s = .next t ∧ t.fn f.val = { s.fn f.val with tdi := 1 }
            ∧ (∀ k, k ≠ f.val → t.fn k = s.fn k)
          ∧ t = { s with fns := t.fns, freeCtr := s.freeCtr + 1, outputs := .spdm "LOCK_INTERFACE_RESPONSE" b :: s.outputs })
    ∧ ((s.fn f.val).tdi = 1 → ∃ t, exec (.startInterfaceRequest f) s = .next t
        ∧ t.fn f.val = { s.fn f.val with tdi := 2 }
        ∧ (∀ k, k ≠ f.val → t.fn k = s.fn k) ∧ t =
            { s with fns := t.fns, outputs := .spdm "START_INTERFACE_RESPONSE" [] :: s.outputs })
    ∧ exec (.stopInterfaceRequest f) s = .next ((
        if (s.fn f.val).gal = 0 then s.modFn f.val fun x => { x with tdi := 0 }
        else if (s.gal (s.fn f.val).gal).state = .deaccessioning then s
        else (s.dropTranslations (s.fn f.val).gal).deaccStart (s.fn f.val).gal 3 none).out (.spdm
        "STOP_INTERFACE_RESPONSE" [])))

/-- Tenant messages (R637, R638, R639, R640, R641, R643, R644, R645, R672, R884): in an open session each message
that passes the checks of its code completes, has its effect and is answered with OK; one from a session that does
not control the gallery is answered UNAUTHORISED, and a code that R640 does not list UNSUPPORTED, with nothing else
changed; outside an open session only an SPDM error goes out. -/
def Obligations.TenantMessages : Prop :=
  (∀ (s : State) sid (m : TenantMsg), s.cur.up = true → s.sessionOpen sid = true → Heeded s sid m →
    (m.code = 1 → ∃ t, exec (.galQuery (some sid) m) s = .next t ∧ Answered m s t stOk 0 (s.queryEntries m.gallery))
    ∧ (m.code = 2 → ∃ u t, exec (.galClaim (some sid) m) s = .next t ∧ Answered m u t stOk 0 []
        ∧ (t.gal m.gallery).state = .claimed
        ∧ (t.gal m.gallery).claimant = some (sliceB m.material 0 96) ∧ (t.gal m.gallery).session = some sid
        ∧ (t.gal m.gallery).challenge = natLe 16 (Config.challenge s.freeCtr).toNat
        ∧ u.outputs = s.outputs ∧ t.ctl = s.ctl ∧ t.sec = s.sec ∧ t.docents = s.docents)
    ∧ (m.code = 3 → ∃ u t, exec (.galResume (some sid) m) s = .next t ∧ Answered m u t stOk 0 []
        ∧ t.gal m.gallery = { s.gal m.gallery with session := some sid, challenge := natLe 16 (Config.challenge s.freeCtr).toNat }
        ∧ u.outputs = s.outputs ∧ t.ctl = s.ctl ∧ t.sec = s.sec ∧ t.docents = s.docents)
    ∧ (m.code = 4 → ∃ t, exec (.galKeyInstall (some sid) m) s = .next t ∧
        let u := (s.installKey m.port m.slot m.gallery (sliceB m.material 0 32)).drive m.port
        Answered m u t stOk ((u.docent m.port).slot m.slot).gen [])
    ∧ (m.code = 5 → ∃ t, exec (.galKeyRetire (some sid) m) s = .next t ∧
        let u := s.retireKey m.port m.slot m.gallery
        Answered m u t stOk ((u.docent m.port).slot m.slot).gen [])
    ∧ (m.code = 6 → ∃ t, exec (.galKeyActivate (some sid) m) s = .next t ∧
        let u := s.activateKey m.port m.slot m.gallery
        Answered m u t stOk ((u.docent m.port).slot m.slot).gen [])
    ∧ (m.code = 7 → ∃ t, exec (.galFabricRoot (some sid) m) s = .next t ∧
        let u := (s.installRoot m.gallery m.gen (sliceB m.material 0 48) m.lead m.period m.members).driveAll
        Answered m u t stOk (u.gal m.gallery).gen [])
    ∧ (m.code = 8 → ∃ t, exec (.galFabricStep (some sid) m) s = .next t ∧
        let u := (s.askStep m.gallery).driveAll
        Answered m u t stOk (u.gal m.gallery).gen [])
    ∧ (m.code = 9 → s.mayOpen m.gallery = true → ∃ u t, exec (.galOpen (some sid) m) s = .next t
        ∧ Answered m u t stOk 0 []
        ∧ (t.gal m.gallery).state = .active ∧ u.outputs = s.outputs ∧ t.ctl = s.ctl ∧ t.sec = s.sec
            ∧ t.docents = s.docents)
    ∧ (m.code = 10 → ∃ t, exec (.galDeaccess (some sid) m) s = .next t
        ∧ Answered m (s.deaccStart m.gallery 2 none) t stOk 0 []))
  ∧ (∀ (s : State) sid (m : TenantMsg), s.cur.up = true → s.sessionOpen sid = true → m.code = 0 ∨ 10 < m.code →
    ∃ t, exec (.reservedTenantMessage (some sid) m) s = .next t ∧ Answered m s t stUnsupported 0 [])
  ∧ (∀ (s : State) sid (m : TenantMsg) c k, (c, k) ∈ [(Instr.galKeyInstall (some sid) m, 4),
      (.galKeyRetire (some sid) m, 5), (.galKeyActivate (some sid) m, 6), (.galFabricRoot (some sid) m, 7),
      (.galFabricStep (some sid) m, 8), (.galOpen (some sid) m, 9), (.galDeaccess (some sid) m, 10)] →
    s.cur.up = true → s.sessionOpen sid = true → m.code = k → msgForm m = true → m.gallery ≠ 0 →
        (s.gal m.gallery).session ≠ some sid →
    ∃ t, exec c s = .next t ∧ Answered m s t stUnauthorised 0 [])
  ∧ (∀ (s : State) sid (m : TenantMsg) c k, (c, k) ∈ [(Instr.galQuery sid m, 1), (.galClaim sid m, 2),
      (.galResume sid m, 3), (.galKeyInstall sid m, 4), (.galKeyRetire sid m, 5), (.galKeyActivate sid m, 6),
      (.galFabricRoot sid m, 7), (.galFabricStep sid m, 8), (.galOpen sid m, 9), (.galDeaccess sid m, 10),
      (.reservedTenantMessage sid m, 11)] →
    s.cur.up = true → m.code = k → (∀ n, sid = some n → s.sessionOpen n = false) →
    exec c s = .next { s with outputs := .spdmError "UnexpectedRequest" :: s.outputs })

/-- Keys of a gallery and of G0 (R640, R643, R644, R645, R647, R648, R655, R659): what each code does to a slot or
to the fabric secrets; G0_KEY does the same for G0 and clears its parameter block before it completes. -/
def Obligations.GalleryKeys : Prop :=
  (∀ (s : State) t b c code, (c, code) ∈ [(Instr.g0KeyInstall, 4), (.g0KeyRetire, 5), (.g0KeyActivate, 6),
      (.g0FabricRoot, 7), (.g0FabricStep, 8)] →
    s.takenBy 0 (fun t => t.opcode == 0x12 && leNat (s.vmBytes t.blockVpa 2) == code && t.blockIn && t.paramLen ≥ 128)
        = some t →
    Ready s t b → 128 ≤ t.paramLen → noArgs t.args = true → s.serving = true → g0KeyLen b = true →
        s.g0KeyCheck (TenantMsg.dec b) = none →
    exec c s = .next (((s.keyEffect code 0 (TenantMsg.dec b)).vmZero t.blockVpa t.paramLen).complete t stOk 0))
  ∧ (∀ (s : State) p k g key, let u := s.installKey p k g key
    (u.docent p).slot k = { (s.docent p).slot k with installed := true, key := key, rxCtr := 0, txCtr := 0 }
    ∧ u.sec.rotations = (s.sec.rotations + 1) % 2 ^ 24 ∧ (∀ q, q ≠ p → u.docent q = s.docent q))
  ∧ (∀ (s : State) p k g, let u := s.retireKey p k g
    (u.docent p).slot k = { installed := false, key := [], gen := (((s.docent p).slot k).gen + 1) % 65536, rxCtr := 0, txCtr := 0, owner := some g }
    ∧ u.sec.rotations = (s.sec.rotations + 1) % 2 ^ 24 ∧ (∀ q, q ≠ p → u.docent q = s.docent q))
  ∧ (∀ (s : State) p k g, let u := s.activateKey p k g
    Tab.get 0 (u.docent p).sendSlot g = k + 1 ∧ (u.docent p).slot k = (s.docent p).slot k ∧ (∀ q, q ≠ p →
        u.docent q = s.docent q)
    ∧ u = { s with docents := u.docents })
  ∧ (∀ (s : State) g gen secret lead period members, let u := s.installRoot g gen secret lead period members
    (u.gal g).root = true ∧ (u.gal g).gen = gen ∧ (u.gal g).cur = secret ∧ (u.gal g).next = fabricStepSecret secret
        ∧ (u.gal g).prev = none
    ∧ (u.gal g).lead = lead ∧ (u.gal g).period = period ∧ (u.gal g).members = members ∧ ∀ x, x ∈ u.sec.pairs →
        x.1 ≠ g)

/-- Steps of a fabric secret, pair keys and curator messages (R496, R654, R655, R656, R657, R659): a STEP that
arrives is acknowledged; a member advances from g to g + 1 and replies to the lead, one that is being deaccessioned
or has advanced only replies; the lead's step ends with the last reply. -/
def Obligations.FabricSteps : Prop :=
  (∀ (s : State) k b, Arrives s ftMgmt k b → s.cur.up = true → getLe b 0 1 = mkStep →
    let h := FHdr.dec k.hdr
    let x := s.gal h.gallery
    let v := s.unqueue k.hdr k.payload
    let gen := getLe b 2 2
    (x.state ≠ .deaccessioning → x.root = true → gen ≠ x.gen → gen = (x.gen + 1) % 65536 →
      exec (.step k) s = .next (State.driveAll (((v.advance h.gallery).mgmtSend mkReply h.gallery h.srcNode
          gen).ackWrite 80 h)))
    ∧ (x.state = .deaccessioning ∨ x.root = true ∧ gen = x.gen →
      exec (.step k) s = .next (State.driveAll ((v.mgmtSend mkReply h.gallery h.srcNode gen).ackWrite 80 h))))
  ∧ (∀ (s : State) g, let u := s.advance g
    (u.gal g).gen = ((s.gal g).gen + 1) % 65536 ∧ (u.gal g).prev = some (s.gal g).cur ∧ (u.gal g).cur = (s.gal g).next
    ∧ (u.gal g).next = fabricStepSecret (s.gal g).next ∧ u.sec.rotations = (s.sec.rotations + 1) % 2 ^ 24
    ∧ (∀ x, x ∈ u.sec.pairs → x.1 = g → x.2.1 = (s.gal g).gen ∨ x.2.1 = ((s.gal g).gen + 1) % 65536))
  ∧ (∀ (s : State) k b r, Arrives s ftMgmt k b → s.cur.up = true → getLe b 0 1 = mkReply →
    let h := FHdr.dec k.hdr
    let v := s.unqueue k.hdr k.payload
    let left := r.waiting.filter fun m => m.toNat != h.srcNode
    (s.gal h.gallery).stepRun = some r → r.gen = getLe b 2 2 →
    (left ≠ [] → exec (.stepReply k) s = .next (State.driveAll
      ((v.modGal h.gallery fun x => { x with stepRun := some { r with waiting := left } }).ackWrite 80 h)))
    ∧ (left = [] → (s.gal h.gallery).stepAsked = false → exec (.stepReply k) s = .next (State.driveAll
      ((v.modGal h.gallery fun x => { x with stepRun := none }).ackWrite 80 h))))
  ∧ (∀ (s : State) (g : GalNo), (s.gal g).period ≠ 0 → exec (.stepPeriodExpiry g) s = .next (s.askStep g).driveAll)
  ∧ (∀ (s : State) (g : GalNo) (gen : BitVec 16) (a b : NodeId) resp, (s.gal g).inWindow gen.toNat = true →
      a.toNat = s.node ∨ b.toNat = s.node →
    ∃ u, exec (.pairKeyDerived g gen a b resp) s = .next (State.driveAll u)
        ∧ (g.val, gen.toNat, a.toNat, b.toNat, resp) ∈ u.sec.pairs
      ∧ u = { s with sec := { s.sec with pairs := u.sec.pairs } })
  ∧ (∀ (s : State) k b, Arrives s ftMgmt k b → s.cur.up = true → getLe b 0 1 ≠ mkStep → getLe b 0 1 ≠ mkReply →
    let h := FHdr.dec k.hdr
    let v := s.unqueue k.hdr k.payload
    exec (.mgmt k) s = .next (State.driveAll ((if getLe b 0 1 = mkReport then v.askStep h.gallery else v).ackWrite 80
        h)))

/-- The quorum set and quorum actions (R6, R667, R668, R669, R670, R758): each action by either path; one that is
not authorised changes nothing but the records. -/
def Obligations.QuorumActions : Prop :=
  (∀ (s : State) b c a, (c, a) ∈ [(Instr.expelPort, 1), (.expelPeer, 2), (.isolate, 3), (.liftPort, 4), (.liftAll, 5),
      (.drain, 6), (.replaceSet, 7)] →
    getLe b 0 1 = a → s.cur.up = true → s.serving = true → Authorised s b →
    exec (c (.i3c b)) s = .next (((acted s b).1.out (.i3c "QUORUM_REQUEST" (natLe 1 (acted s b).2))).driveAll)
    ∧ ∀ t, s.takenBy 0 (fun t => t.opcode == 0x19 && leNat (s.vmBytes t.blockVpa 1) == a) = some t → Ready s t b →
        164 ≤ t.paramLen →
      noArgs t.args = true → exec (c .ring) s = .next (((acted s b).1.complete t (acted s b).2 0).driveAll))
  ∧ (∀ (s : State) b, getLe b 0 1 = 6 → s.cur.up = true → s.serving = true → Authorised s b → s.ctl.target = none →
      s.ctl.state = .operational →
    ∃ t, exec (.drain (.i3c b)) s = .next t ∧ t.ctl =
        { s.ctl with state := .drain, changed := true, lastStatus := stOk }
      ∧ t.sec.nextSeq = (s.sec.nextSeq + 1) % 2 ^ 32)
  ∧ (∀ (s : State) b, getLe b 0 1 = 7 → s.cur.up = true → s.serving = true → Authorised s b →
    ∃ t, exec (.replaceSet (.i3c b)) s = .next t ∧ t.ctl = s.ctl ∧ t.sec.k = getLe (b.drop (quorumLen b)) 1 1
      ∧ t.sec.quorum.length = getLe (b.drop (quorumLen b)) 0 1)
  ∧ (∀ (s : State) b, getLe b 0 1 = 1 → s.cur.up = true → s.serving = true → quorumForm b = true → s.sec.quorum ≠ [] →
    getLe b 4 2 ≠ s.node ∨ getLe b 8 4 ≠ s.sec.nextSeq ∨ s.signers b < s.sec.k →
    exec (.expelPort (.i3c b)) s = .next (((s.quorumRecord b stUnauthorised (s.signers b)).out (.i3c "QUORUM_REQUEST"
        (natLe 1 stUnauthorised))).driveAll))
  ∧ (∀ (s : State) b, getLe b 0 1 = 0 ∨ 7 < getLe b 0 1 → s.cur.up = true → s.serving = true →
    exec (.reservedQuorumAction (.i3c b)) s = .next ((s.out (.i3c "QUORUM_REQUEST" (natLe 1 stMalformed))).driveAll))
  ∧ (∀ (s : State) t b, s.takenBy 0 (fun t => t.opcode == 0x18) = some t → Ready s t b → 104 ≤ t.paramLen →
      t.paramLen ≤ 680 →
    noArgs t.args = true → setBodyOk b = true → s.ctl.state = .service → ∃ u, exec .quorumSet s = .next u
      ∧ u.sec = { s.sec with quorum := (List.range (getLe b 0 1)).map fun i => sliceB b (8 + 96 * i) 96, k := getLe b 1 1 } ∧ u.ctl = s.ctl)

/-! ### Links -/

/-- Flits of a link (R575, R581, R583, R584, R585, R586, R587, R588, R593, R594, R595, R611): a good flit in
sequence is taken and acknowledged, one that was taken before is discarded, any other asks for a replay; a bad flit
is counted and asks for one; idle is announced, kept and left. Of the records of what was sent, those of symbols,
FILLERs and burst frames are left out, and so is the count of flits since the last FILLER (R579). -/
def Obligations.LinkFlits : Prop :=
  (∀ (s : State) (p : Port) lanes a hdr body places, (s.link p.val).receives = true →
      GoodFlit s p.val lanes a hdr body places → fieldN hdr 62 2 = 0 →
    let u := ((a.elastic p.val false).countPlaces p.val places).flitFields p.val hdr
    let d := (fieldN hdr 6 16 + 65536 - (u.link p.val).rxSeq) % 65536
    (u.link p.val).receives = true →
    (d = 0 → exec (.dataFlit p lanes) s = .next
        (((u.modLink p.val fun l => { l with rxSeq := (l.rxSeq + 1) % 65536, nakHeld := false }).takeBody p.val
          (fieldN hdr 59 3) (fieldN hdr 55 4) body).sendCtrl p.val false none))
    ∧ (32768 ≤ d → exec (.dataFlit p lanes) s = .next u)
    ∧ (0 < d → d < 32768 → exec (.dataFlit p lanes) s = .next (u.sendNak p.val)))
  ∧ (∀ (s : State) (p : Port) lanes a, (s.link p.val).receives = true → lanesOk lanes = true →
      lanesFit (s.link p.val).width lanes = true →
    s.flitArrives p.val lanes = (a, none) →
    exec (.dataFlit p lanes) s = .next (((a.elastic p.val false).modLink p.val fun l =>
        { l with bad := (l.bad + 1) % 2 ^ 32 }).sendNak p.val)
    ∧ exec (.ctrlFlit p lanes) s = .next s ∧ exec (.filler p lanes) s = .next s)
  ∧ (∀ (s : State) (p : Port) lanes a hdr body places, (s.link p.val).receives = true →
      GoodFlit s p.val lanes a hdr body places → fieldN hdr 62 2 = 2 →
    exec (.filler p lanes) s = .next ((a.elastic p.val true).countPlaces p.val places))
  ∧ (∀ (s : State) (p : Port) lanes a hdr body places, (s.link p.val).receives = true →
      GoodFlit s p.val lanes a hdr body places → fieldN hdr 62 2 = 1 →
    let u := ((a.elastic p.val false).countPlaces p.val places).flitFields p.val hdr
    exec (.ctrlFlit p lanes) s = .next ((List.range 14).foldl (fun s k => s.noticeArrives p.val (BitVec.ofNat 128
        (getLe body (16 * k) 16)))
      (if bitN hdr 5 && (u.link p.val).receives then u.modLink p.val fun l =>
          { l with rxIdle := true, state := .idle } else u)))
  ∧ (∀ (s : State) (p : Port), (s.link p.val).nakHeld = true → s.sendNak p.val = s)
  ∧ (∀ (s : State) (p : Port) f fs, (s.link p.val).receives = true → (s.link p.val).unacked = f :: fs →
      (s.link p.val).replayRun = 0 →
    ∃ t, exec (.retryTimeout p) s = .next t ∧ told t.outputs = ((f :: fs).map fun x => Output.flit p.val x).reverse ++
        told s.outputs
      ∧ t.link p.val = { s.link p.val with replays := ((s.link p.val).replays + 1) % 2 ^ 24, replayRun := 1, replayAt := f.seq, sinceFill := (t.link p.val).sinceFill }
      ∧ (∀ q, q ≠ p.val → t.link q = s.link q))
  ∧ (∀ (s : State) (p : Port), (s.link p.val).sends = true → (s.link p.val).idleEn = true ∨ 1 ≤ s.pwr.tier →
      (s.link p.val).waiting = [] → (s.link p.val).unacked = [] →
    ∃ t, exec (.idleEntry p) s = .next t ∧ t.link p.val =
        { s.link p.val with txIdle := true, due := false, state := .idle, sinceFill := (t.link p.val).sinceFill }
      ∧ told t.outputs = .ctrl p.val (s.link p.val).ack false none true [] :: told s.outputs
      ∧ t = { s with links := t.links, lanes := t.lanes, outputs := t.outputs, freeCtr := t.freeCtr })
  ∧ (∀ (s : State) (p : Port), (s.link p.val).txIdle = true → (s.link p.val).due = true → (s.link p.val).waiting = []
      → (s.link p.val).freed = [] →
    (s.link p.val).rxIdle = false → ∃ t, exec (.idleExit p) s = .next t
      ∧ t.link p.val = { s.link p.val with txIdle := false, due := false, state := .active, sinceFill := (t.link p.val).sinceFill }
      ∧ told t.outputs = .ctrl p.val (s.link p.val).ack false none false [] :: .burst p.val :: told s.outputs)
  ∧ (∀ (s : State) (p : Port), (s.link p.val).txIdle = true → ∃ t, exec (.idleBurst p) s = .next t
    ∧ t.link p.val = { s.link p.val with sinceFill := (t.link p.val).sinceFill }
    ∧ told t.outputs = .ctrl p.val (s.link p.val).ack false none true [] :: .burst p.val :: told s.outputs
    ∧ t = { s with links := t.links, lanes := t.lanes, outputs := t.outputs, freeCtr := t.freeCtr })
  ∧ (∀ (s : State) (p : Port), (s.link p.val).state = .idle → (s.link p.val).rxIdle = true →
    let u := (s.modLink p.val fun l =>
        { l with rxIdle := false, state := if l.txIdle then .idle else .active }).loadScramblers p.val false true
    (u.unlocked p.val = [] → exec (.tsExit p) s = .next u)
    ∧ (u.unlocked p.val ≠ [] → exec (.tsExit p) s = .next (u.lanesFail p.val (u.unlocked p.val))))

/-- Training and the states of a port (R564, R565, R567, R568, R597, R601, R603, R604, R605, R774): the steps of
training in their order, the ends that each can come to, failed lanes, a dead partner, the attempts of a DOWN port,
RETRAIN and RESTORE, and the lane mask, which SERVICE alone takes. -/
def Obligations.LinkStates : Prop :=
  (∀ (s : State) (p : Port) (i : LaneNo), s.laneUsable p.val i.val = true → (s.link p.val).trainStep = 1 →
      (s.link p.val).state ≠ .retrain →
    ∃ t, exec (.cdrLock p i) s = .next t ∧ (t.link p.val).trainStep = 2 ∧ (t.link p.val).state = (s.link p.val).state
      ∧ (t.lane p.val i.val).cdrLock = true ∧ (t.lane p.val i.val).signal = true
          ∧ told t.outputs = .training p.val 2 :: told s.outputs)
  ∧ (∀ (s : State) (p : Port), (s.link p.val).trainStep = 1 →
    ((s.link p.val).state = .disabled → exec (.step1NoSignal p) s = .next (s.modLink p.val fun l =>
        { l with trainStep := 0 }))
    ∧ ((s.link p.val).state ≠ .disabled → (s.link p.val).attempts < 7 → ∃ t, exec (.step1NoSignal p) s = .next t
        ∧ (t.link p.val).state = .down ∧ (t.link p.val).attempts = (s.link p.val).attempts + 1
            ∧ (t.link p.val).trainStep = 0))
  ∧ (∀ (s : State) (p : Port) (i : LaneNo) f inv ctle, frameOk f = true → frameByte f 8 = 1 →
      frameByte f 9 % 8 = i.val → s.laneUsable p.val i.val = true →
    (s.link p.val).state = .training → (s.link p.val).trainStep = 2 ∨ (s.link p.val).trainStep = 3 ∨ (s.link
        p.val).trainStep = 4 →
    exec (.ts1 p i f inv ctle) s = .next (s.ts1Good p.val i.val f inv ctle))
  ∧ (∀ (s : State) (p : Port), (s.link p.val).trainStep = 4 → (s.link p.val).state = .disabled →
    (∀ i, i < 8 → s.laneUsable p.val i = true → (s.lane p.val i).badFrames ≤ 4 ∧ (s.lane p.val i).cdrLock = true) →
    exec (.trainingWindowExpiry p) s = .next (s.modLink p.val fun l => { l with trainStep := 0 }))
  ∧ (∀ (s : State) (p : Port), (s.link p.val).trainStep = 4 → (s.link p.val).state = .training →
      widthOf (s.laneOk p.val) ≠ 0 →
    (∀ i, i < 8 → s.laneUsable p.val i = true → (s.lane p.val i).badFrames ≤ 4 ∧ (s.lane p.val i).cdrLock = true) →
    ∃ t, exec (.trainingWindowExpiry p) s = .next t ∧ (t.link p.val).trainStep = 5 ∧ (t.link p.val).state = .training)
  ∧ (∀ (s : State) (p : Port) (i : LaneNo) f, (s.link p.val).trainStep = 5 → (s.link p.val).receives = false →
      frameOk f = true → frameByte f 8 = 2 → frameByte f 9 % 8 = i.val →
    s.laneUsable p.val i.val = true → s.ts2Fits p.val f = true →
    let ok := (BitVec.ofNat 8 (s.laneOk p.val) &&& BitVec.ofNat 8 (frameByte f 19)).toNat
    widthOf ok ≠ 0 →
    let u0 := s.modLane p.val i.val fun x =>
        { x with ts2Run := if x.ts2Last == f && 1 ≤ x.ts2Run then x.ts2Run + 1 else 1, ts2Last := f }
    let u := u0.sendFrames p.val 2 [i.val]
    exec (.ts2 p i f) s = .next (if (widthLanes (widthOf ok)).all fun j => 16 ≤ (u.lane p.val j).ts2Run then u.trained
        p.val f ok else u))
  ∧ (∀ (s : State) (p : Port) (i : LaneNo), s.laneUsable p.val i.val = true →
    (s.link p.val).receives = true → let u := s.modLane p.val i.val fun x => { x with cdrLock := false }
    ((s.link p.val).rxIdle = false → exec (.laneCdrLoss p i) s = .next (u.lanesFail p.val [i.val]))
    ∧ ((s.link p.val).rxIdle = true → exec (.laneCdrLoss p i) s = .next u)
    ∧ exec (.laneSerExceeded p i) s = .next (s.lanesFail p.val [i.val]))
  ∧ (∀ (s : State) (p : Port), linkCarries (s.link p.val) = true → (s.link p.val).rxIdle = false →
      exec (.deadTimerExpiry p) s = .next (s.goDown p.val 1))
  ∧ (∀ (s : State) (p : Port), (s.link p.val).state = .down → (s.link p.val).trainRefused = false →
    exec (.downRetryTimer p) s = .next (if 8 ≤ (s.link p.val).attempts then s.mapOut p.val else s.startTraining p.val)
    ∧ (∀ i : LaneNo, bitN (s.link p.val).laneMask i.val = true → exec (.signalDetect p i) s = .next
        ((s.startTraining p.val).modLane p.val i.val fun x => { x with signal := true })))
  ∧ (∀ (s : State) (p : Port), (s.link p.val).state = .retrain → (s.link p.val).retrainFails < 3 →
      ∃ t, exec (.retrainBoundExpiry p) s = .next t
    ∧ (t.link p.val).state = .retrain ∧ (t.link p.val).trainStep = 2
        ∧ (t.link p.val).retrainFails = (s.link p.val).retrainFails + 1)
  ∧ (∀ (s : State) (p : Port), s.pageOpen p.val = true →
    ((s.link p.val).state = .active ∨ (s.link p.val).state = .idle → ∃ t, exec (.retrain p) s = .next t
        ∧ (t.link p.val).state = .retrain
        ∧ (t.link p.val).trainStep = 2 ∧ (t.link p.val).unacked = (s.link p.val).unacked
            ∧ (t.link p.val).waiting = (s.link p.val).waiting)
    ∧ ((s.link p.val).state = .expelled → exec (.retrain p) s = .next (s.modLink p.val fun l =>
        { l with refused := true })
        ∧ exec (.restore p) s = .next (s.modLink p.val fun l => { l with refused := true }))
    ∧ ((s.link p.val).state = .training → ∃ t, exec (.restore p) s = .next t ∧ (t.link p.val).flaps = 0
        ∧ (t.link p.val).attempts = 0
        ∧ (t.link p.val).state = .training ∧ ∀ i, i < 8 → (t.lane p.val i).failed = false)
    ∧ (∀ mask, s.ctl.state = .service → (s.link p.val).trainRefused = false → exec (.laneMaskWrite p mask) s = .next
        (s.modLink p.val fun l => { l with laneMask := mask }))
    ∧ (∀ mask, s.ctl.state = .service → ∃ t, exec (.laneMaskWrite p mask) s = .next t
        ∧ (t.link p.val).laneMask = mask)
    ∧ (∀ mask, s.ctl.state ≠ .service → exec (.laneMaskWrite p mask) s = .next (s.modLink p.val fun l =>
        { l with refused := true })))

/-! ### Packets, end-points and destinations -/

/-- Forwarding, loss and answers (R277, R496, R503, R504, R507, R513, R518, R529, R606, R609, R652): inputs and
outputs are matched; the packet of a locked pair ends here, goes on by one hop, or is answered with LOST; a pair is
newly locked only for a packet that need not wait; an authenticated answer frees the packet that it answers, and one
without a key brings no data and no OK. -/
def Obligations.PacketsAndAnswers : Prop :=
  (∀ (s : State) inp out (vc : BitVec 3) corrected b, let m := s.matchSlot
    (m.swc.buf.find? fun b => b.inp == inp && b.out == out && b.vc == vc.toNat) = some b →
    let h := FHdr.dec b.hdr
    let e := routeEntry h.route h.hopPtr
    let u := ({ m.unlock inp out with swc := { (m.unlock inp out).swc with bufCe := (m.swc.bufCe + corrected) % 2 ^ 32 } } : State)
    let fin (t : State) : State := if b.mc.isSome then t.driveAll else t
    ((inp, out, vc.toNat) ∉ m.swc.locks → exec (.packetForward inp out vc corrected false) s = .next m)
    ∧ ((inp, out, vc.toNat) ∈ m.swc.locks →
      (m.routeError h = false → h.hopPtr = h.hopsM1 → exec (.packetForward inp out vc corrected false) s = .next
          (fin { u.unbuffer b with arrived := (u.unbuffer b).arrived ++ [(b.hdr, b.payload, b.tag)] }))
      ∧ (m.routeError h = false → h.hopPtr ≠ h.hopsM1 → exec (.packetForward inp out vc corrected false) s = .next
          (fin (((u.unbuffer b).out (.trunk e { h with hopPtr := h.hopPtr + 1, vc := outVc h }.enc
              b.payload)).linkSend e (outVc h) 1
            { h with hopPtr := h.hopPtr + 1, vc := outVc h }.enc b.payload b.tag)))
      ∧ (m.routeError h = true →
          let v : State := { u.unbuffer b with swc := { (u.unbuffer b).swc with routeErr := min ((u.unbuffer b).swc.routeErr + 1) 65535 } }
          exec (.packetForward inp out vc corrected false) s = .next
            (fin (if ftypeKnown h.ftype then v.bareAck 48 h stLost true else v)))
      ∧ exec (.packetForward inp out vc corrected true) s = .next (fin (u.bufferError b))))
  ∧ (∀ (s : State), s.matchSlot = { s with swc := s.matchSlot.swc } ∧ s.matchSlot.swc.buf = s.swc.buf
      ∧ ∀ l, l ∈ s.matchSlot.swc.locks → l ∈ s.swc.locks ∨ ∃ b, b ∈ s.swc.buf ∧ (b.inp, b.out, b.vc) = l
          ∧ s.mustWait b = false)
  ∧ (∀ (s : State) (src : BitVec 6) (dest : NodeId) (dseq : BitVec 32) o,
    (s.replay.find? fun o => o.src == src.toNat && o.dest == dest.toNat && o.dseq == dseq.toNat && fieldN o.hdr 12 3
        == 7) = some o →
    (64 ≤ o.resends → exec (.beRetxExpiry src dest dseq) s = .next (((s.release o).resolve o stResendLimit
        []).afterAnswer o.src))
    ∧ (o.resends < 64 → ∃ u : State, exec (.beRetxExpiry src dest dseq) s = .next (u.resend o o.route)
        ∧ u = { s with replay := u.replay }
        ∧ u.replay.length = s.replay.length))
  ∧ (∀ (s : State) (src : BitVec 6) (dest : NodeId), dest.toNat ≠ s.node →
    let mine (o : Outst) : Bool := o.src == src.toNat && o.dest == dest.toNat && !o.listed
    s.replay.filter mine ≠ [] → exec (.pathTimeout src dest) s = .next
      (let r := ((s.replay.filter mine).foldl (fun s o => s.markRoute o) s).replayOver mine; ((r.1.loseAll
          r.2).pathCheck).driveAll))
  ∧ (∀ (s : State) (p : Port) body, exec (.notice p body) s = .next (s.noticeArrives p.val body)
    ∧ (bitN body 32 = false ∨ body.toNat ∈ s.cat.notices → exec (.notice p body) s = .next s))
  ∧ (∀ (s : State) hdr tag u h o plain, s.receiveResp ftAck hdr [] tag = (u, some (h, o, plain)) →
      let ft := fieldN o.hdr 0 8
    (h.param / 32768 = 1 → exec (.ack hdr tag false) s = .next (((u.copyFailed o h.srcNode).pathCheck).driveAll))
    ∧ (h.param / 32768 ≠ 1 → h.param % 256 = stOk → plain = none → exec (.ack hdr tag false) s = .next u)
    ∧ (h.param / 32768 ≠ 1 → h.param % 256 = stOk → plain ≠ none →
      (ft = ftSync → exec (.ack hdr tag false) s = .next ((u.listWait o).afterAnswer o.src))
      ∧ (ft ≠ ftSync → ft ≠ ftRead → ft ≠ ftAtomic → exec (.ack hdr tag false) s = .next (((u.release o).resolve o
          stOk []).afterAnswer o.src)))
    ∧ (h.param / 32768 ≠ 1 → h.param % 256 ≠ stOk →
      exec (.ack hdr tag false) s = .next (((u.release o).resolve o (h.param % 256) []).afterAnswer o.src)))
  ∧ (∀ (s : State) hdr payload tag u h o plain, s.receiveResp ftData hdr payload tag = (u, some (h, o, plain)) →
    (plain = none → exec (.data hdr payload tag) s = .next u)
    ∧ (∀ bs, plain = some bs → fieldN o.hdr 0 8 = ftRead → exec (.data hdr payload tag) s = .next
      (((u.release o).resolve o stOk (sliceB bs 0 (128 * fieldN o.hdr 16 5))).afterAnswer o.src)))
  ∧ (∀ (s : State) hdr payload tag u h o plain, s.receiveResp ftValue hdr payload tag = (u, some (h, o, plain)) →
    (plain = none → exec (.value hdr payload tag) s = .next u)
    ∧ (∀ bs, plain = some bs → fieldN o.hdr 0 8 = ftSync ∨ fieldN o.hdr 0 8 = ftAtomic →
        exec (.value hdr payload tag) s = .next
      (((u.release o).resolve o (h.param % 256) (sliceB bs 0 8)).afterAnswer o.src)))

/-- An end-point's requests and completions (R48, R49, R51, R53, R60, R61, R62, R63, R64, R66): authentication under
the slot's key comes first and then the tag, the form and the binding; a request whose tag is outstanding is
discarded and counted; one that passes is accepted, with its payload in plaintext; a completion answers its target
request. -/
def Obligations.EndpointPackets : Prop :=
  (∀ (s : State) p e payload tag, let k := (s.docent p).slot e.slot
    (s.epAuth p e payload tag).2 = (if k.installed = true ∧ k.gen = e.keyGen ∧ k.rxCtr < e.counter then
        gcmOpen k.key (epNonce e 0) (headerBytes e.enc) payload tag else none)
    ∧ ((s.epAuth p e payload tag).2 ≠ none → (((s.epAuth p e payload tag).1.docent p).slot e.slot) =
        { k with rxCtr := e.counter })
    ∧ ((s.epAuth p e payload tag).2 = none →
        ((s.epAuth p e payload tag).1.docent p) =
            { s.docent p with authFail := ((s.docent p).authFail + 1) % 2 ^ 32 }))
  ∧ (∀ (s : State) (p : Port) hdr payload tag c op, (c, op) ∈ [(Instr.load p hdr payload tag, 1),
      (.store p hdr payload tag, 2),
      (.storeMasked p hdr payload tag, 3), (.sync p hdr payload tag, 4), (.atomic p hdr payload tag, 6)] →
    (EHdr.dec hdr).opcode = op → let e := EHdr.dec hdr
    ∀ u plain, (s.takeEp p.val hdr payload).epAuth p.val e payload tag = (u, some plain) →
    (u.tagBusy p.val e.tag = true → exec c s = .next (u.protoErr p.val))
    ∧ (u.tagBusy p.val e.tag = false → epWellFormed e plain = false →
        exec c s = .next (u.epComplete p.val ((u.slotOwner p.val e.slot).getD 0) e stMalformed []))
    ∧ (u.tagBusy p.val e.tag = false → epWellFormed e plain = true →
      (∀ st, u.epBinding p.val e = some st → exec c s = .next (u.epComplete p.val ((u.slotOwner p.val e.slot).getD 0)
          e st []))
      ∧ (u.epBinding p.val e = none → exec c s = .next ((u.modDocent p.val fun d => { d with reqs := d.reqs ++
          [{ tag := e.tag, hdr := hdr, payload := plain, gal := (u.ctx (16 * p.val + e.ctx)).gal, pasid := (u.ctx (16 * p.val + e.ctx)).pasid, sent := false, successes := 0 }] }).epAdvance p.val e.tag))))
  ∧ (∀ (s : State) (p : Port) hdr payload tag u plain, let e := EHdr.dec hdr
    epOpcodeKnown e.opcode = false → (s.takeEp p.val hdr payload).epAuth p.val e payload tag = (u, some plain) →
        u.tagBusy p.val e.tag = false →
    let done (st : Nat) : Prop := exec (.reservedOpcode p hdr payload tag) s = .next (u.epComplete p.val ((u.slotOwner
        p.val e.slot).getD 0) e st [])
    (e.rsv = true ∨ e.linesM1 ≠ 0 → done stMalformed)
    ∧ (e.rsv = false → e.linesM1 = 0 → (∀ st, u.epBinding p.val e = some st → done st) ∧ (u.epBinding p.val e = none →
        done stUnsupported)))
  ∧ (∀ (s : State) (p : Port) hdr payload tag u plain, let e := EHdr.dec hdr
    (s.takeEp p.val hdr payload).epAuth p.val e payload tag = (u, some plain) → u.tagBusy p.val e.tag = true →
    (e.opcode = eoLaunch → exec (.launch p hdr payload tag) s = .next (u.protoErr p.val))
    ∧ (epOpcodeKnown e.opcode = false → exec (.reservedOpcode p hdr payload tag) s = .next (u.protoErr p.val))
    ∧ u.protoErr p.val = u.modDocent p.val fun d => { d with protoErr := (d.protoErr + 1) % 2 ^ 32 })
  ∧ (∀ (s : State) (p : Port) hdr payload tag c op, (c, op) ∈ [(Instr.tReadData p hdr payload tag, 0xC1),
      (.tWriteDone p hdr payload tag, 0xC2),
      (.tMaskedDone p hdr payload tag, 0xC3), (.tAtomicDone p hdr payload tag, 0xC6)] →
    (EHdr.dec hdr).opcode = op → let e := EHdr.dec hdr
    ∀ u plain q, (s.takeEp p.val hdr payload).epAuth p.val e payload tag = (u, some plain) →
    ((u.docent p.val).tgts.find? fun q => q.tag == e.tag) = some q → q.opcode + 0x80 = op →
    let left := u.modDocent p.val fun d => { d with tgts := removeFirst (fun x => x.tag == e.tag) d.tgts }
    (e.word % 256 = stOk → plain.length = (if q.opcode = eoTRead then 128 * (FHdr.dec q.hdr).lines else if q.opcode =
        eoTAtomic then 8 else 0) →
      exec c s = .next (left.targetAnswer p.val q stOk plain))
    ∧ (e.word % 256 = stAddrError → exec c s = .next (left.targetAnswer p.val q stAddrError plain))
    ∧ (e.word % 256 ≠ stOk → e.word % 256 ≠ stAddrError → exec c s = .next (left.targetAnswer p.val q stDataError
        plain)))
  ∧ (∀ (s : State) (p : Port) (tag : BitVec 10) q, ((s.docent p.val).tgts.find? fun q => q.tag == tag.toNat) = some q
      →
    exec (.targetTimeout p tag) s = .next
      ((s.modDocent p.val fun d => { d with tgts := removeFirst (fun x => x.tag == tag.toNat) d.tgts }).writeFailed
          p.val (FHdr.dec q.hdr) q.xfer stLost))

/-- Fabric requests at the module's own shelves and sync objects (R56, R152, R244, R246, R248, R249, R261, R265,
R270, R272, R277, R278): once a packet is received and passes its checks, a read answers the lines, a write stores
them, is counted and is acknowledged, and an operation on a sync object commits and answers the old value; a
duplicate is only answered again. -/
def Obligations.FabricRequests : Prop :=
  (∀ (s : State) hdr payload tag u h plain, s.receive ftRead hdr payload tag = (u, some (h, plain)) →
      u.isLocal h = true →
    u.destCheck { h with param := 0 } (128 * h.lines) = none →
        u.badIn (vpaShelf (fpaOff h.fpa)) (128 * h.lines) = [] →
    exec (.read hdr payload tag) s = .next ((u.handled h).respond (localIn h.fpa) h ftData stOk (u.vmBytes (vpaShelf
        (fpaOff h.fpa)) (128 * h.lines))))
  ∧ (∀ (s : State) hdr payload tag xfer u h plain c ft, (c, ft) ∈ [(Instr.write hdr payload tag xfer, ftWrite),
      (.zeroRun hdr payload tag xfer, ftZeroRun)] →
    s.receive ft hdr payload tag = (u, some (h, plain)) →
    ((u.window h).isDup h.dseq = true → exec c s = .next (u.ackAgain (u.answerIn h) h))
    ∧ ((u.window h).isDup h.dseq = false → u.isLocal h = true → u.arvWaits h xfer = false →
      (∀ st, u.destCheck h (128 * h.lines) = some st → exec c s = .next (u.writeFailed (localIn h.fpa) h xfer st))))
  ∧ (∀ (s : State) hdr payload tag xfer u h plain, u.isLocal h = true → (u.window h).isDup h.dseq = false →
      u.arvWaits h xfer = false →
    u.destCheck h (128 * h.lines) = none →
    (s.receive ftWrite hdr payload tag = (u, some (h, plain)) → exec (.write hdr payload tag xfer) s = .next
      ((u.vmWrite (vpaShelf (fpaOff h.fpa)) (sliceB plain 0 (128 * h.lines))).committed (localIn h.fpa) h xfer))
    ∧ (s.receive ftZeroRun hdr payload tag = (u, some (h, plain)) → exec (.zeroRun hdr payload tag xfer) s = .next
      ((u.vmZero (vpaShelf (fpaOff h.fpa)) (128 * h.lines)).committed (localIn h.fpa) h xfer))
    ∧ (∀ v, h.lines = 1 → s.receive ftWriteMasked hdr payload tag = (u, some (h, plain)) →
      u.shelfMasked (vpaShelf (fpaOff h.fpa)) (sliceB (sliceB plain 0 144) 0 16) (sliceB (sliceB plain 0 144) 16 128)
          = (v, true) →
      exec (.writeMasked hdr payload tag xfer) s = .next (v.committed (localIn h.fpa) h xfer)))
  ∧ (∀ (u : State) inp h, u.ackWrite inp h = (u.handled h).respond inp h ftAck stOk []
    ∧ (h.param / 32768 % 2 ≠ 1 → ∀ xfer, u.committed inp h xfer = u.ackWrite inp h)
    ∧ (h.param / 32768 % 2 = 1 → u.committed inp h none = (u.soAddOf (h.param % 16384) h.gallery (128 *
        h.lines)).ackWrite inp h))
  ∧ (∀ (s : State) hdr payload tag u h plain, s.receive ftSync hdr payload tag = (u, some (h, plain)) →
      (u.window h).isDup h.dseq = false →
    h.dseq ∉ (u.window h).withdrawn → u.isLocal h = true →
    (soOfOffset (fpaOff h.fpa) = none → exec (.fabricSync hdr payload tag) s = .next (u.answerFail (localIn h.fpa) h
        stAddrError))
    ∧ (∀ n, soOfOffset (fpaOff h.fpa) = some n → u.soOwned n h.gallery = false →
      exec (.fabricSync hdr payload tag) s = .next (u.answerFail (localIn h.fpa) h stDenied))
    ∧ (∀ n, soOfOffset (fpaOff h.fpa) = some n → u.soOwned n h.gallery = true →
      let sub := getLe plain 16 8 % 256
      let a : Word := BitVec.ofNat 64 (getLe plain 0 8)
      (sub = soRead → exec (.fabricSync hdr payload tag) s = .next (u.syncDone h stOk (u.so n).value))
      ∧ (sub = soWaitGe → exec (.fabricSync hdr payload tag) s = .next (u.enterWait n h false a (getLe plain 16 8 /
          256)))
      ∧ (sub = soWaitEq → exec (.fabricSync hdr payload tag) s = .next (u.enterWait n h true a (getLe plain 16 8 /
          256)))
      ∧ (sub ≠ soRead → sub ≠ soWaitGe → sub ≠ soWaitEq → exec (.fabricSync hdr payload tag) s = .next
          ((u.soCommit n (syncApply sub (u.so n).value a (BitVec.ofNat 64 (getLe plain 8 8)))).syncDone h stOk (u.so
          n).value))))
  ∧ (∀ (s : State) hdr payload tag u h plain, s.receive ftAtomic hdr payload tag = (u, some (h, plain)) →
      (u.window h).isDup h.dseq = false → u.isLocal h = true →
    (u.ctl.state = .service → u.ctl.atomicsStopped = false → u.destCheck { h with param := 0 } 8 = none →
        u.badIn (vpaShelf (fpaOff h.fpa)) 8 = [] →
      let old : Word := BitVec.ofNat 64 (leNat (u.vmBytes (vpaShelf (fpaOff h.fpa)) 8))
      exec (.fabricAtomic hdr payload tag) s = .next ((u.vmWrite (vpaShelf (fpaOff h.fpa)) (natLe 8 (syncApply (getLe
          plain 16 8 % 256) old
        (BitVec.ofNat 64 (getLe plain 0 8)) (BitVec.ofNat 64 (getLe plain 8 8))).toNat)).syncDone h stOk old))
    ∧ (u.ctl.state ≠ .service → exec (.fabricAtomic hdr payload tag) s = .next (u.answerFail (localIn h.fpa) h
        stUnsupported)))
  ∧ (∀ (s : State) k b, Arrives s ftWithdraw k b → let h := FHdr.dec k.hdr
    exec (.waitWithdrawal k) s = .next (((s.unqueue k.hdr k.payload).dropWait h.srcNode h.srcPort (getLe b 0
        4)).ackWrite (localIn h.fpa) h))
  ∧ (∀ (s : State) node port dseq, let mine (w : Waiter) : Bool := w.srcNode == node && w.srcPort == port && w.dseq ==
      dseq
    let t := s.dropWait node port dseq
    ((∃ o, o ∈ s.sos ∧ ∃ w, w ∈ o.2.waiters ∧ mine w = true) → (∀ n w, w ∈ (t.so n).waiters → mine w = false)
        ∧ t = { s with sos := t.sos })
    ∧ ((¬ ∃ o, o ∈ s.sos ∧ ∃ w, w ∈ o.2.waiters ∧ mine w = true) →
        (Tab.get DupWin.reset s.windows (winKey node port)).isDup dseq = false →
        dseq ∈ (Tab.get DupWin.reset t.windows (winKey node port)).withdrawn ∧ t = { s with windows := t.windows }))
  ∧ (∀ (s : State) (so : SoNo) idx w, (s.so so.toNat).waiters[idx]? = some w → w.timeout ≠ 0 →
      exec (.waitExpiry so idx) s = .next
    ((s.setSo so.toNat { s.so so.toNat with waiters := removeAt (s.so so.toNat).waiters idx }).waitDone w stTimeout
        (s.so so.toNat).value))

/-! ### Tours and translation -/

/-- Instructions of a tour at issue (R75, R91, R95, R100, R108, R109, R120, R121, R135, R138, R141, R142, R143,
R149, R150, R151, R152, R297): one that passes its checks enters its queue, blocks its context, loops or halts; one
that does not fails. -/
def Obligations.TourInstructions : Prop :=
  (∀ (c : Ctx) n v, c.reg 0 = 0 ∧ c.setReg 0 v = c ∧ (n ≠ 0 → (c.setReg n v).reg n = v % 2 ^ 64) ∧ ∀ m, m ≠ n →
      (c.setReg n v).reg m = c.reg m)
  ∧ (∀ (s : State) (p : Port) (c : CtxNo) t i op k, (i, op, k) ∈ [(Instr.copy p c, 0x10, OpKind.copy), (.gather p c,
      0x11, .gather),
      (.scatter p c, 0x12, .scatter), (.mcast p c, 0x18, .mcast)] → s.issuing p c op = some t →
          let g := ctxIdx p.val c.val
    (s.bulkCheck g t false = none → exec i s = .next (issued (s.enterOp g (Op.start s g t k)) p g))
    ∧ (∀ st, s.bulkCheck g t false = some st → exec i s = .next (issued (s.instrFail g st) p g)))
  ∧ (∀ (s : State) (p : Port) (c : CtxNo) t i op k, (i, op, k) ∈ [(Instr.reduce p c, 0x20, OpKind.reduce),
      (.dispatch p c, 0x28, .dispatch),
      (.combine p c, 0x29, .combine)] → s.issuing p c op = some t → let g := ctxIdx p.val c.val
    s.bulkCheck g t true = none → s.queueRoom g = true →
    (∀ id x r, s.memberOf p.val (s.ctx g).gal (Op.start s g t k).sched k = (id, some (x, r)) →
      let n := Tab.get 0 s.cat.instNo (p.val * 4096 + id)
      exec i s = .next (issued (State.enterOp
          { s with cat := { s.cat with instNo := Tab.set 0 s.cat.instNo (p.val * 4096 + id) (n + 1) } } g
        { Op.start s g t k with col := { Coll.start with sched := id, inst := some n, rank := r } }) p g)))
  ∧ (∀ (s : State) (p : Port) (c : CtxNo) t, let g := ctxIdx p.val c.val
    let x := s.ctx g
    (s.issuing p c 0x30 = some t → t.flags = 1 → t.rb = 0 ∧ t.rc = 0 ∧ t.rd = 0 → t.imm = 0 → t.ext % 16 = 0 →
        s.queueRoom g = true →
      let o := { Op.start s g t .signal with addSrc := 0, addDst := 0, descFva := 0, sched := 0, doneEn := false, doneSo := 0,
                                             release := false, subop := 1, fpa := t.ext, phase := .running,
                                             operand := BitVec.ofNat 64 (x.reg t.ra) }
      exec (.signal p c) s = .next (issued ((s.enterOp g o).performSignal g o) p g))
    ∧ (s.issuing p c 0x31 = some t → t.flags / 128 = 0 → t.flags / 2 % 16 = 0 → t.scope ≠ 3 → t.rb = 0 ∧ t.rc = 0 →
        t.ext % 16 = 0 →
      ∀ u r, (s.blockOn g (.wait t.rd t.scope)).request (g / 16) (.wait g) none x.gal ftSync 0 0 t.ext 0
        (syncPayload (x.reg t.ra) 0 ((if t.flags % 2 = 1 then soWaitEq else soWaitGe) + 256 * t.imm)) none = (u, r) →
      exec (.wait p c) s = .next (issued (match r with | none => u | some st => u.instrFail g st) p g))
    ∧ (s.issuing p c 0x38 = some t → t.flags % 32 = 0 → t.flags / 128 = 0 → t.scope ≠ 3 → t.ra = 0 ∧ t.rb = 0
        ∧ t.rc = 0 ∧ t.rd = 0 → t.imm = 0 → t.ext = 0 →
      exec (.fence p c) s = .next (issued (s.blockOn g (.fence t.scope)) p g))
    ∧ (∀ i op drop, (i, op, drop) ∈ [(Instr.flush p c, 0x39, false), (.inval p c, 0x3A, true)] →
        s.issuing p c op = some t →
      t.flags = 0 → t.rb = 0 ∧ t.rc = 0 ∧ t.rd = 0 → x.addr t.ra t.imm % 128 = 0 → fvaOk (x.addr t.ra t.imm) = true →
          t.ext % 128 = 0 →
      exec i s = .next (issued ((s.blockOn g (.flush drop (x.addr t.ra t.imm) t.ext false stOk)).beginFlush g) p g))
    ∧ (s.issuing p c 0x40 = some t → t.rd ≠ 0 ∧ (t.rd = t.ra ∨ t.rd = t.rb) ∨ t.imm = 0 ∨ x.pc < t.imm →
      exec (.loop p c) s = .next (issued (s.instrFail g stMalformed) p g))
    ∧ (s.issuing p c 0x40 = some t → t.flags = 0 → t.rc = 0 → t.rd ≠ t.ra ∧ t.rd ≠ t.rb ∨ t.rd = 0 → t.imm ≠ 0 →
        t.imm ≤ x.pc →
      (x.reg t.rd = 0 → exec (.loop p c) s = .next (issued (s.goTo g (x.pc + 1)) p g))
      ∧ (x.reg t.rd = 1 → exec (.loop p c) s = .next (issued ((s.modCtx g fun c => c.setReg t.rd 0).goTo g (x.pc + 1))
          p g))
      ∧ (2 ≤ x.reg t.rd → exec (.loop p c) s = .next (issued ((((s.modCtx g fun c => c.setReg t.rd (x.reg t.rd -
          1)).modCtx g fun c =>
          c.setReg t.ra (addW (c.reg t.ra) (sext 32 t.ext))).modCtx g fun c => c.setReg t.rb (addW (c.reg t.rb) (sext
              32 (t.ext / 2 ^ 32)))).goTo g (x.pc - t.imm)) p g)))
    ∧ (s.issuing p c 0x41 = some t → t.flags = 0 → t.ra = 0 ∧ t.rb = 0 ∧ t.rc = 0 ∧ t.rd = 0 → t.ext = 0 →
      exec (.halt p c) s = .next (issued (s.modCtx g fun c =>
          { c with haltPc := some c.pc, haltCode := t.imm, state := .ending }) p g))
    ∧ (s.issuing p c 0x50 = some t → t.flags < 8 → atomicSubopOk t.flags = true → t.flags = soCas ∨ t.rc = 0 →
        t.ext = 0 →
      x.addr t.rb t.imm % 8 = 0 → fvaOk (x.addr t.rb t.imm) = true →
      (s.ctl.state = .service → s.ctl.atomicsStopped = false →
          exec (.tourAtomic p c) s = .next (issued ((s.blockOn g (.atomic t.rd)).sendAtomic g) p g))
      ∧ (s.ctl.state ≠ .service → exec (.tourAtomic p c) s = .next (issued (s.instrFail g stUnsupported) p g)))
    ∧ (x.state = .active → x.instrAt x.pc = some t → tourOpcodeKnown t.op = false →
      exec (.reservedTourOpcode p c) s = .next (((s.instrFail g stUnsupported).grantSlot p.val).drive p.val)))

/-- Events of a tour (R84, R85, R86, R93, R95, R106, R115, R146, R283): a launch is BUSY or starts; a quantum ends;
a line or a descriptor arrives; the oldest operation that is done with OK retires; a tour with nothing left ends,
its end record first; FENCE and FLUSH complete; a context that becomes IDLE keeps the status of its tour. -/
def Obligations.TourEvents : Prop :=
  (∀ (s : State) (p : Port) hdr payload tag u plain, let e := EHdr.dec hdr
    e.opcode = eoLaunch → (s.takeEp p.val hdr payload).epAuth p.val e payload tag = (u, some plain) →
        u.tagBusy p.val e.tag = false → epWellFormed e plain = true →
    u.epBinding p.val e = none → let g := ctxIdx p.val e.ctx
    (u.launchBusy g = true → exec (.launch p hdr payload tag) s = .next (u.epComplete p.val ((u.slotOwner p.val
        e.slot).getD 0) e stBusy []))
    ∧ (u.launchBusy g = false → exec (.launch p hdr payload tag) s = .next ((u.launch g e.address e.word (.ep
        e.tag)).drive p.val)))
  ∧ (∀ (s : State) (p : Port) a, (s.ctxs.find? fun c => c.1 / 16 == p.val && c.2.state == .active) = some a →
    (s.ctxs.any fun c => c.1 / 16 == p.val && c.2.state == .ready) = true →
    exec (.quantumExpiry p) s = .next ((s.modCtx a.1 fun c => { c with state := .ready }).grantSlot p.val))
  ∧ (∀ (s : State) (p : Port) (c : CtxNo) k what u, isLine what = true →
    (s.takeRead (.tourLine (ctxIdx p.val c.val) k) = (u, true) →
        exec (.instructionLineArrival p c k what) s = .next ((u.tourLineArrives (ctxIdx p.val c.val) k what).drive
        p.val))
    ∧ (s.takeRead (.descRead (ctxIdx p.val c.val) k) = (u, true) →
        exec (.descriptorArrival p c k what) s = .next ((u.descArrives (ctxIdx p.val c.val) k what).drive p.val)))
  ∧ (∀ (s : State) (p : Port) (c : CtxNo) o os, let g := ctxIdx p.val c.val
    (s.ctx g).ops = o :: os → o.phase = .done stOk →
    exec (.operationRetire p c) s = .next ((((((let u := s.modCtx g fun c =>
        { c with ops := os, opsOk := c.opsOk + 1 }
      if o.doneEn then u.soAddOf o.doneSo (s.ctx g).gal 1 else u).signalHead g).beginFlush g).queueFreed
      p.val).grantSlot p.val).drive p.val))
  ∧ (∀ (s : State) (p : Port) (c : CtxNo), let g := ctxIdx p.val c.val
    (s.ctx g).state = .ending → (s.ctx g).ops = [] → (s.ctx g).endRec = 0 →
    ((s.ctx g).endFva = 0 → exec (.tourEnd p c) s = .next ((s.finishTour g true).drive p.val))
    ∧ ((s.ctx g).endFva ≠ 0 → exec (.tourEnd p c) s = .next (((s.modCtx g fun c =>
        { c with endRec := 1 }).sendEndRecord g).drive p.val)))
  ∧ (∀ (s : State) (p : Port) (c : CtxNo) scope, let g := ctxIdx p.val c.val
    (s.ctx g).block = .fence scope → (s.ctx g).ops = [] → (∀ o, o ∈ s.replay ++ s.held → o.origin.ofCtx g = false) →
    (g ∉ s.lostFor → exec (.fenceComplete p c) s = .next ((((s.acquire p.val (s.ctx g).gal (s.ctx g).pasid scope).goTo
        g ((s.ctx g).pc + 1)).grantSlot p.val).drive p.val))
    ∧ (g ∈ s.lostFor → exec (.fenceComplete p c) s = .next ((((s.modCtx g fun c =>
        { c with block := .none }).instrFail g stLost).grantSlot p.val).drive p.val)))
  ∧ (∀ (s : State) (p : Port) (c : CtxNo) base len, let g := ctxIdx p.val c.val
    (s.ctx g).block = .flush false base len true stOk → s.replay = [] → s.held = [] →
    exec (.flushComplete p c) s = .next (((s.goTo g ((s.ctx g).pc + 1)).grantSlot p.val).drive p.val))
  ∧ (∀ (s : State) g st, let u := s.toIdle g st
    (u.ctx g).state = .idle ∧ (u.ctx g).ops = [] ∧ (u.ctx g).lastStatus = st)

/-- What the host's translation agent sends (R421, R437, R439, R441, R442, R444, R445, R448, R462): a translation is
taken and the streams that waited go on, an error fails them; the oldest waiting page request is sent; a response
translates again or refuses; an invalidation begins, and is answered when nothing of its range remains. -/
def Obligations.Translation : Prop :=
  (∀ (s : State) (p : Port) req a, ((s.docent p.val).ats.find? fun a => a.id == req) = some a →
    let u := s.modDocent p.val fun d => { d with ats := d.ats.filter fun x => x.id != req }
    (a.stale = true → ∀ r, exec (.atsCompletion p req r) s = .next (((u.atsAgain p.val a a.retried).slotFreed
        p.val).drive p.val))
    ∧ (a.stale = false → (∀ lg (addr : Word) r w, 21 ≤ lg → addr.toNat % 2 ^ lg = 0 → r = true ∨ w = true →
        exec (.atsCompletion p req (.trans (some lg) addr r w false)) s = .next
        (((u.takePage p.val a lg addr.toNat r w).slotFreed p.val).drive p.val))
    ∧ (∀ lg addr r w, exec (.atsCompletion p req (.trans lg addr r w true)) s = .next (((u.atsFailed p.val a 0
        lg).slotFreed p.val).drive p.val))
    ∧ (∀ st, exec (.atsCompletion p req (.error st)) s = .next (((u.atsFailed p.val a st none).slotFreed p.val).drive
        p.val))
    ∧ exec (.atsCompletionTimeout p req) s = .next
        (((if a.retried then u.atsFailed p.val a 0xFF none else u.atsAgain p.val a true).slotFreed p.val).drive
        p.val)))
  ∧ (∀ (s : State) (f : FnNo) q rest idx, (s.fn f.val).waiting = q :: rest → (s.fn f.val).freePrg = some idx →
      (s.fn f.val).incRoom = true →
    (s.fn f.val).prgs.length < min 512 (s.fn f.val).priAlloc → ∃ t, exec (.pageRequest f) s = .next t
        ∧ (t.fn f.val).waiting = rest
      ∧ t.outputs = .pri f.val q.pasid (q.fva / 4096 * 4096) q.r q.w idx true :: s.outputs ∧ t.ctl = s.ctl
          ∧ t.ctxs = s.ctxs)
  ∧ (∀ (s : State) (f : FnNo) (idx : BitVec 9) n q, ((s.fn f.val).prgs.find? fun q => q.1 == idx.toNat) = some (n,
      q) →
    let u := s.modFn f.val fun x => { x with prgs := x.prgs.filter fun q => q.1 != idx.toNat }
    (q.abandoned = true → exec (.prgResponse f idx .success) s = .next ((u.sendPage f.val).driveAll))
    ∧ (q.abandoned = false → exec (.prgResponse f idx .success) s = .next (((q.streams.foldl (fun s st =>
        s.translateAgain q st) u).sendPage f.val).driveAll)
      ∧ exec (.prgResponse f idx .invalidRequest) s = .next (((State.refusePage
          { u with trn := { u.trn with refused := (u.trn.refused + 1) % 2 ^ 24 } } q).sendPage f.val).driveAll)
      ∧ ((s.gal q.gal).prTimeout ≠ 0 → ∃ v : State, exec (.prTimeoutExpiry f idx) s = .next ((v.refusePage
          q).driveAll)
          ∧ v.trn = { s.trn with refused := (s.trn.refused + 1) % 2 ^ 24 }
              ∧ v = { s with fns := v.fns, trn := v.trn })))
  ∧ (∀ (s : State) (f : FnNo) (itag : BitVec 5) pasid base n, (s.fn f.val).invals.length < 32 →
      (∀ i, i ∈ (s.fn f.val).invals → i.itag ≠ itag.toNat) →
    (∀ g, s.fnGal f.val = some g → exec (.atsInvalidateRequest f itag pasid base n) s = .next
      ((s.beginInval f.val itag.toNat g (pasid.map (·.toNat)) base.toNat (2 ^ n) n ((s.gal g).deaccStep = 2 || (s.gal
          g).deaccStep = 3)).driveAll)))
  ∧ (∀ (s : State) (f : FnNo) (itag : BitVec 5) i, ((s.fn f.val).invals.find? fun i => i.itag == itag.toNat) = some i
      →
    (s.invalDone i = true → ∃ t, exec (.invalidateCompletion f itag) s = .next t ∧ (∀ j, j ∈ (t.fn f.val).invals →
        j.itag ≠ itag.toNat)
      ∧ t = { s with fns := t.fns, trn := { s.trn with inval := (s.trn.inval + 1) % 2 ^ 24 }, outputs := .invalDone f.val itag.toNat :: s.outputs })
    ∧ (s.invalDone i = false → exec (.invalidateCompletion f itag) s = .next s))

/-! ### Collectives -/

/-- Joins, claims and the end of an instance at its home (R299, R308, R309, R332, R335, R336, R338, R339, R341 to
R346, R395, R396, R823, R888): which join is refused, waits or is admitted; a new instance places its claim; a claim
that fits is granted; joins in time or JOIN_TIMEOUT; withdrawals and aborts; the end, with inst_so counted once. -/
def Obligations.HomeInstances : Prop :=
  (∀ (s : State) (m : JoinMsg) k b, Arrives s (ftRed + rkJoin) k b → Ends k →
      exec (.join m k) s = .next (heard s k fun s => s.doJoin m))
  ∧ (∀ (s : State) (m : JoinMsg), s.epochUsable m.epoch = false →
    s.doJoin m = { s with cat := { s.cat with late := min (s.cat.late + 1) 65535 } })
  ∧ (∀ (s : State) (m : JoinMsg), s.epochUsable m.epoch = true → s.joinRecord m = none →
    ((s.instOf m.sched.toNat m.inst fun i => i.live) = none → s.doJoin m = s.refuseJoin m stNoSchedule false)
    ∧ ((s.instOf m.sched.toNat m.inst fun i => i.live) ≠ none →
      s.doJoin m = (s.abortInst m.epoch m.sched.toNat m.inst stWithdrawn false).refuseJoin m stNoSchedule false))
  ∧ (∀ (s : State) (m : JoinMsg) sc r, s.epochUsable m.epoch = true → s.joinRecord m = some (sc, r) →
    let of (e : Nat × Nat × Nat × Bool) : Bool := e.1 == m.sched.toNat && e.2.1 == m.inst
    (∀ e, s.red.ended.find? of = some e → s.doJoin m = s.refuseJoin m e.2.2.1 e.2.2.2)
    ∧ (s.red.ended.find? of = none → (s.instOf m.sched.toNat m.inst fun i => i.group == r / sc.b) = none →
        s.limitsAdmit m.sched.toNat = false →
      s.doJoin m = { s with red := { s.red with waiting := s.red.waiting ++ [m] } })
    ∧ (∀ i, s.red.ended.find? of = none → (s.instOf m.sched.toNat m.inst fun i => i.group == r / sc.b) = some i →
      (m.shape.toNat ≠ i.digest ∨ m.epoch ≠ i.epoch ∧ s.sameRecord i.sched = false →
        s.doJoin m = (s.abortInst i.epoch i.sched i.inst stMismatch false).refuseJoin m stMismatch false)
      ∧ (m.shape.toNat = i.digest → m.epoch = i.epoch ∨ s.sameRecord i.sched = true → i.kind ≠ 0xA →
          (∀ x, x ∈ i.members → x.rank ≠ r) →
        let x : HomeMember :=
          { rank := r, node := m.node.toNat, port := m.port, chunks := 0, coverage := 0, ended := false, ahead := [], withdrawn := false,
            counts := m.counts, experts := m.experts }
        let j := { i with members := i.members ++ [x] }
        let u := s.modInst i fun _ => j
        s.doJoin m = if i.claim = .granted then u.firstCredits j x else u)))
  ∧ (∀ (s : State) (i : Instance), (i.sched ∈ s.red.pathLost →
      s.placeClaim i = s.abortInst i.epoch i.sched i.inst stWithdrawn true)
    ∧ (i.sched ∉ s.red.pathLost → (s.gal i.gallery).maxDrawers < i.footprint →
        s.placeClaim i = s.abortInst i.epoch i.sched i.inst stQuota false)
    ∧ (i.sched ∉ s.red.pathLost → i.footprint ≤ (s.gal i.gallery).maxDrawers →
      (i.instSo / 32768 = 1 → s.soOwned (i.instSo % 16384) i.gallery = false →
          s.placeClaim i = s.abortInst i.epoch i.sched i.inst stDenied false)
      ∧ (i.instSo / 32768 ≠ 1 ∨ s.soOwned (i.instSo % 16384) i.gallery = true →
        let u := s.modInst i fun i => { i with claim := .queued }
        s.placeClaim i = { u with red := { u.red with claims := s.red.claims ++ [(i.gallery, i.sched, i.inst, i.group)] } })))
  ∧ (∀ (s : State) m, (s.red.waiting.find? fun m => s.admittable m) = some m →
    exec .joinAdmitted s = .next (State.doJoin { s with red := { s.red with waiting := s.red.waiting.erase m } } m))
  ∧ (∀ (s : State), (∀ m, m ∈ s.red.waiting → s.admittable m = false) → exec .joinAdmitted s = .next s)
  ∧ (∀ s (g : GalNo) c i, (s.red.claims.find? fun c => c.1 == g.val) = some c →
    (s.instOf c.2.1 c.2.2.1 fun i => i.group == c.2.2.2 && i.claim == .queued) = some i →
    let fits := (s.gal g.val).granted + i.footprint ≤ (s.gal g.val).maxDrawers
        ∧ i.footprint ≤ 655360 - piecesSize s.red.held
    (¬ fits → exec (.claimGrant g) s = .next s)
    ∧ (fits → let u := granted s g i c
      let j := u.instNow i
      exec (.claimGrant g) s = .next (((j.members.foldl (fun s m => s.firstCredits j m) u).sendOffsets j).announce j)
        ∧ (u.gal g.val).granted = (s.gal g.val).granted + i.footprint ∧ j.claim = .granted))
  ∧ (∀ (s : State) g ps t, s.red.zeroing = (g, ps) :: t → ∃ u, exec .drawerZeroingDone s = .next u ∧ u.red.zeroing = t
      ∧ u.red.held = s.red.held.filter (fun h => !ps.contains h)
          ∧ (u.gal g).granted = (s.gal g).granted - piecesSize ps
      ∧ u.red.insts = s.red.insts ∧ u.ctl = s.ctl)
  ∧ (∀ (s : State) (n : BitVec 12) inst i, (s.instOf n.toNat inst fun i => i.live && i.joinTimeout != 0 &&
      !i.allJoined) = some i →
    exec (.joinTimeout n inst) s = .next (s.abortInst i.epoch i.sched i.inst stJoinTimeout false))
  ∧ (∀ (s : State) (m : MemberId) lost k b, Arrives s (ftRed + rkWithdrawal) k b → Ends k →
    exec (.withdrawal m lost k) s = .next (heard s k fun s => s.doWithdrawal (FHdr.dec k.hdr).epoch m lost))
  ∧ (∀ (s : State) e (m : MemberId) lost, let sent := s.instOf m.sched.toNat m.inst fun i => i.live && i.offsetsSent
    (sent = none → s.doWithdrawal e m lost = s.abortInst e m.sched.toNat m.inst stWithdrawn lost)
    ∧ (∀ i, sent = some i → s.doWithdrawal e m lost = s.modInst i fun i =>
        { i with members := i.members.map fun x => if x.rank == m.rank then { x with withdrawn := true } else x }))
  ∧ (∀ (s : State) (n : BitVec 12) inst st lost k b, Arrives s (ftRed + rkAbort) k b → Ends k →
      let h := FHdr.dec k.hdr
    let member (s : State) (p : Nat) : State := s.memberAborted n.toNat inst
        { status := st, pathLost := lost, node := h.srcNode, dseq := h.dseq } p
    let hears (s : State) (p : Nat) : Bool := (s.memberOp p n.toNat inst).any fun x => s.homeNode x.2 x.2.col.rank ==
        h.srcNode
    (∀ p : Port, exec (.abort n inst st lost (some p) none k) s = .next (heard s k fun s => member s p.val).driveAll)
    ∧ (∀ g, exec (.abort n inst st lost none (some g) k) s = .next (heard s k fun s => s.homeAborted h.epoch n.toNat
        inst st lost (some g)).driveAll)
    ∧ exec (.abort n inst st lost none none k) s = .next (heard s k fun s =>
        let u := s.homeAborted h.epoch n.toNat inst st lost none
        ((List.range 48).filter (hears u)).foldl member u).driveAll)
  ∧ (∀ (s : State) n inst a p g o, s.memberOp p n inst = some (g, o) → (∀ st, o.phase ≠ .done st) →
    s.memberAborted n inst a p = s.modCol g o.idx fun c => { c with abortAt := c.abortAt.orElse fun _ => some a })
  ∧ (∀ (s : State) e n inst st lost, let mine (i : Instance) : Prop := i.sched = n ∧ i.inst = inst
    let here := ∃ x, x ∈ s.homesOf e n ∧ x.2 = s.node
    (¬ here ∨ (∃ i, i ∈ s.red.insts ∧ mine i ∧ i.offsetsSent = true) →
        ∀ begun, s.homeAborted e n inst st lost begun = s)
    ∧ (here → (∀ i, i ∈ s.red.insts → mine i → i.offsetsSent = false) →
        s.homeAborted e n inst st lost none = s.abortInst e n inst st lost))
  ∧ (∀ (s : State) (n : BitVec 12) inst failed, let mine := s.red.insts.filter fun i => i.sched == n.toNat && i.inst
      == inst && i.live
    (∀ p, p < 48 → s.memberBusy n.toNat inst p = false) → (∀ i, i ∈ mine → i.allSent = true
        ∧ s.resultWaits i = false) →
    exec (.instanceComplete n inst failed) s = .next
      (mine.foldl (closed failed) ((List.range 48).foldl (fun s p => s.completeIdle n.toNat inst p) s)))
  ∧ (∀ (s : State) e n inst st lost, (∀ e, e ∈ s.red.ended → ¬ (e.1 = n ∧ e.2.1 = inst)) →
      let t := s.abortOne e n inst st lost
    t.red.ended = (n, inst, st, lost) :: s.red.ended ∧ t.red.aborted = (s.red.aborted + 1) % 2 ^ 32
      ∧ (∀ i, i ∈ t.red.insts → i.sched = n → i.inst = inst → i.aborted = true ∧ i.copies = [] ∧ 1 < i.groups)
      ∧ (∀ m, m ∈ t.red.waiting → ¬ (m.sched.toNat = n ∧ m.inst = inst)))
  ∧ (∀ (s : State) e n inst st lost, (∃ e, e ∈ s.red.ended ∧ e.1 = n ∧ e.2.1 = inst) →
      s.abortOne e n inst st lost = s)

/-- What a home sums, merges and combines (R320, R323, R326, R328, R330, R333, R341, R344, R349, R350, R373 to R380,
R389, R401 to R404): contributions fill their slots; a chunk that every rank has given is summed, its credits
returned, and its partial or result sent, once no earlier result of the instance waits for room (log 72), the
instances by turns (log 94); windows are merged in ascending index order, one record an index; tokens are combined
in order; an expert keeps no more than its capacity. -/
def Obligations.HomeSums : Prop :=
  (∀ (s : State) k b, Ends k →
    (∀ (m : MemberId) chunk off records lines last, Arrives s (ftRed + rkContribution) k b →
      exec (.contribution m chunk off records lines last k) s = .next (heard s k fun s => s.doContribution m chunk off
          records lines last))
    ∧ (∀ (n : BitVec 12) inst group chunk off bs, Arrives s (ftRed + rkPartial) k b →
      let owner := s.instOf n.toNat inst fun i => i.group == chunk % i.groups && 1 < i.groups && group < i.groups &&
          group != i.group
        && i.claim == .granted && chunk < i.chunks && (i.live || chunk < i.next)
      (owner = none → exec (.partialChunk n inst group chunk off bs k) s = .next (heard s k id))
      ∧ (∀ i, owner = some i → exec (.partialChunk n inst group chunk off bs k) s = .next (heard s k fun s =>
          s.addPartial i group chunk off bs)))
    ∧ (∀ (n : BitVec 12) inst chunk off bs, Arrives s (ftRed + rkFinished) k b →
      exec (.finishedChunk n inst chunk off bs k) s = .next (heard s k fun s =>
        (s.red.insts.filter fun i => i.sched == n.toNat && i.inst == inst && 1 < i.groups && chunk % i.groups !=
            i.group).foldl
          (fun s i => s.finishedIn i chunk off bs) s))
    ∧ (∀ (m : MemberId) token choice off bs, Arrives s (ftRed + rkExpertOutput) k b →
      exec (.expertOutput m token choice off bs k) s = .next (heard s k fun s => s.doExpertOutput m token choice off
          bs))
    ∧ (∀ (m : MemberId) token ws ds, Arrives s (ftRed + rkWeights) k b →
      exec (.combineWeights m token ws ds k) s = .next (heard s k fun s => s.doWeights m token ws ds)))
  ∧ (∀ (s : State) (m : MemberId) chunk off records lines last,
    let home := s.instOf m.sched.toNat m.inst fun i => i.live && i.claim == .granted && i.ranks.contains m.rank
    (home = none → s.doContribution m chunk off records lines last = s)
    ∧ (∀ i, home = some i → (∃ x, x ∈ i.members ∧ x.rank = m.rank) → i.kind ≠ 0xA → i.kind ≠ 0xB →
        i.shape.sparse = false →
      i.givers.contains m.rank = true → i.next ≤ chunk → chunk < min i.chunks (i.next + i.depth) →
          let need := fmtBytes i.shape.inF (i.elems chunk)
      off + lines.length ≤ need → let mine (c : ChunkCopy) : Bool := c.rank == m.rank && c.chunk == chunk
      let got := (i.copies.find? mine).elim 0 (·.amount) + lines.length
      s.doContribution m chunk off records lines last = ((s.dwWrite i (i.slot m.rank chunk + off) 2 lines).modInst i
          fun i =>
        { i with copies := (i.copies.filter fun c => !mine c)
            ++ [{ rank := m.rank, chunk := chunk, amount := got, whole := decide (got ≥ need), lastWindow := none }]
                })))
  ∧ (∀ (s : State) ready i, s.nextJob ready = some i → i ∈ s.red.insts ∧ ready i = true ∧ s.resultWaits i = false)
  ∧ (∀ (s : State) (n : BitVec 12) inst i, s.nextJob Instance.jobReady = some i → i.sched = n.toNat → i.inst = inst →
      i.ready = true →
    let w := s.served i
    (∀ u, w.readCopies i i.next i.givers = (u, none) → exec (.chunkSummation n inst) s = .next (u.abortInst i.epoch
        i.sched i.inst stDataError false))
    ∧ (∀ u pieces, w.readCopies i i.next i.givers = (u, some pieces) →
      let v := (i.members.filter fun m => i.givers.contains m.rank && i.next + i.depth < i.chunks).foldl (fun s m =>
          s.toMember i m rkCredit [i.next + i.depth])
        (u.modInst i fun j => { j with next := i.next + 1, copies := j.copies.filter fun x => x.chunk != i.next })
      let p := i.stage1 i.next pieces
      let x := v.putPartial (v.instNow i) i.group i.next 0 p
      (i.groups = 1 → exec (.chunkSummation n inst) s = .next (v.finishChunk (v.instNow i) i.next (i.convert p)))
      ∧ (i.groups ≠ 1 → i.next % i.groups = i.group → exec (.chunkSummation n inst) s = .next (v.addPartial (v.instNow
          i) i.group i.next 0 p))
      ∧ (i.groups ≠ 1 → i.next % i.groups ≠ i.group → exec (.chunkSummation n inst) s = .next
          (x.toHomeNode i (x.groupHome i (i.next % i.groups)) rkPartial [i.group, i.next] p))))
  ∧ (∀ (s : State) i group chunk off bs, i.sentChunks ≤ chunk → off + bs.length ≤ i.partBytes group chunk →
    (∀ p, p ∈ i.partials → p.group = group → p.chunk = chunk → p.come < i.partBytes group chunk) →
    let u := s.putPartial i group chunk off bs
    let j := u.instNow i
    (∃ g, g < j.groups ∧ ∀ p, p ∈ j.partials → p.group = g → p.chunk = chunk → p.come < i.partBytes g chunk) →
    s.addPartial i group chunk off bs = u)
  ∧ (∀ (s : State) (i : Instance) chunk off bs, (chunk < i.sentChunks → s.finishedIn i chunk off bs = s)
    ∧ (i.sentChunks ≤ chunk → (∀ f, f ∈ i.finished → f.1 ≠ chunk) → chunk < i.chunks →
        off + bs.length ≤ i.finBytes chunk →
      let u := s.modInst i fun i => { i with arriving := i.arriving ++ [(chunk, off, bs)] }
      let got := ((u.instNow i).arriving.filter fun x => x.1 == chunk).map (·.2)
      ((got.map fun x => x.2.length).sum < i.finBytes chunk → s.finishedIn i chunk off bs = u)
      ∧ (i.finBytes chunk ≤ (got.map fun x => x.2.length).sum →
        let v := u.modInst i fun i =>
            { i with arriving := i.arriving.filter fun x => x.1 != chunk, partials := i.partials.filter fun p => p.chunk != chunk }
        s.finishedIn i chunk off bs = (v.finishChunk (v.instNow i) chunk (joinPieces got)).settleAborts)))
  ∧ (∀ (s : State) (n : BitVec 12) inst i, s.nextJob Instance.jobReady = some i → i.sched = n.toNat → i.inst = inst →
      i.windowReady = true →
    let w := s.served i
    (∀ u, w.windowRanks i i.next i.ranks = (u, none) → exec (.windowMerge n inst) s = .next (u.abortInst i.epoch
        i.sched i.inst stDataError false))
    ∧ (∀ u ranks, w.windowRanks i i.next i.ranks = (u, some ranks) → (∀ c, c ∈ i.copies →
        c.lastWindow ≠ some i.next) →
      let v := State.modInst { u with red := { u.red with windows := (u.red.windows + 1) % 2 ^ 32 } } i fun j =>
        { j with next := i.next + 1, copies := j.copies.filter fun c => !(c.lastWindow == some i.next) }
      let merged := mergeRanks (redStep i.shape.op i.shape.inF i.shape.outF) ranks
      let last := decide (i.next + 1 = 2 ^ 32 / windowSize i.shape.inF)
      (i.shape.kind ≠ 8 → exec (.windowMerge n inst) s = .next (v.sparseEmit (v.instNow i) merged last 0))
      ∧ (i.shape.kind = 8 → exec (.windowMerge n inst) s = .next (v.topkMerge (v.instNow i) merged last))))
  ∧ (∀ (s : State) (m : MemberId) token, (s.combineHome m = none →
      (∀ choice off bs, s.doExpertOutput m token choice off bs = s) ∧ ∀ ws ds, s.doWeights m token ws ds = s)
    ∧ (∀ i, s.combineHome m = some i → token < shapeTmax i.digest → Tab.get 0 i.tokenNext m.rank ≤ token →
      (∀ choice off bs, choice < shapeK i.digest → off + bs.length ≤ shapeTb i.digest →
          (∀ t, i.token? m.rank token = some t → choice ∉ t.present) →
        s.doExpertOutput m token choice off bs = (((s.dwWrite i (i.tokenSlot m.rank token choice + off) 3 bs).modToken
            i m.rank token fun t =>
          t.more choice bs.length (shapeTb i.digest)).sendTokens i m.rank (i.tokens.length + 2)))
      ∧ (∀ ws ds, s.doWeights m token ws ds = ((s.modToken i m.rank token fun t => if t.known then t else
          { t with known := true, weights := (ws.map fun w => w.toNat % 2 ^ 32).take (shapeK i.digest), delivered := ds.take (shapeK i.digest) }).sendTokens i m.rank
            (i.tokens.length + 2)))))
  ∧ (∀ step ranks, ((mergeRanks step ranks).map Prod.fst).Pairwise (· < ·))
  ∧ (∀ step ranks k, k ∈ (mergeRanks step ranks).map Prod.fst ↔ ∃ rs, rs ∈ ranks ∧ k ∈ rs.map Prod.fst)
  ∧ (∀ cap cs, (capacityRule cap cs 0).2 = min cap cs.sum)

/-- What reaches a member of a collective (R326, R331, R347, R389, R400): a credit or a grant is held once; a result
packet is taken once and acknowledged, also if it comes again (R278, R521), and its lines are written, unless the
member's delivery has failed, now or by word of its home; the offsets of a DISPATCH are taken once; what names no
member of this port changes nothing, but for a grant that comes before its COMBINE (log 29). -/
def Obligations.MemberEvents : Prop :=
  (∀ (s : State) (p : Port) (m : MemberId) k b, Ends k →
    (∀ chunk, Arrives s (ftRed + rkCredit) k b →
      (s.memberFor p m = none → exec (.credit p m chunk k) s = .next (heard s k id))
      ∧ (∀ g o, s.memberFor p m = some (g, o) → exec (.credit p m chunk k) s = .next (heard s k fun u => (u.modCol g
          o.idx fun c =>
        { c with credits := if c.credits.contains chunk then c.credits else c.credits ++ [chunk] }).drive p.val)))
    ∧ (∀ off kept recv bases, Arrives s (ftRed + rkOffsets) k b →
      (s.memberFor p m = none → exec (.offsets p m off kept recv bases k) s = .next (heard s k id))
      ∧ (∀ g o, s.memberFor p m = some (g, o) → o.kind = .dispatch →
        (o.col.final = false → exec (.offsets p m off kept recv bases k) s = .next (heard s k fun u => (u.modCol g
            o.idx fun c =>
          { c with off := off, keptCnt := kept, recv := recv, bases := bases, final := true }).drive p.val))
        ∧ (o.col.final = true → exec (.offsets p m off kept recv bases k) s = .next (heard s k id))))
    ∧ (∀ group, Arrives s (ftRed + rkGrant) k b → exec (.grantAnnouncement p m group k) s = .next (heard s k fun s =>
        s.grantIn p m group))
    ∧ (∀ off, Arrives s (ftRed + rkResult) k b →
      exec (.result p m off none k) s = .next (heard s k fun s => s.resultArrives p m (FHdr.dec k.hdr).dseq off b)
      ∧ ∀ st, exec (.result p m off (some st) k) s = .next (heard s k fun s => s.resultLost p m st)))
  ∧ (∀ (s : State) (p : Port) (m : MemberId) group,
    (∀ g o, s.memberFor p m = some (g, o) → s.grantIn p m group = (s.modCol g o.idx fun c =>
      { c with grants := if c.grants.contains group then c.grants else c.grants ++ [group] }).drive p.val)
    ∧ (s.memberFor p m = none → Tab.get 0 s.cat.instNo (p.val * 4096 + m.sched.toNat) ≤ m.inst →
        (p.val, m.sched.toNat, m.inst, group) ∉ s.red.early →
      s.grantIn p m group = { s with red := { s.red with early := s.red.early ++ [(p.val, m.sched.toNat, m.inst, group)] } }))
  ∧ (∀ (s : State) (p : Port) (m : MemberId), (s.memberFor p m = none →
      (∀ dseq off lines, s.resultArrives p m dseq off lines = s) ∧ ∀ st, s.resultLost p m st = s)
    ∧ (∀ g o, s.memberFor p m = some (g, o) →
      (∀ dseq off lines, (o.col.delivery ≠ stOk → s.resultArrives p m dseq off lines = s)
        ∧ (o.col.delivery = stOk → o.kind = .reduce → (Shape.dec o.shapeWord).sparse = false →
            s.resultArrives p m dseq off lines =
          ((s.writeResult g o.idx dseq ((s.resultRange o).1 + off) (lines.length / 128 + 2) lines).collSettle g
          o.idx).drive p.val))
      ∧ (∀ st, s.resultLost p m st = (((s.modCol g o.idx fun c =>
          { c with delivery := if c.delivery = stOk then st else c.delivery }).collSettle
          g o.idx).drive p.val))))
  ∧ (∀ (s : State) (p : Port) (m : MemberId) off lost k b, let h := FHdr.dec k.hdr
    h.ftype = ftRed + rkResult → s.epochUsable h.epoch = true → s.keysGone h.gallery = false →
        (s.window h).isDup h.dseq = true →
    (if h.srcNode = s.node then some k.payload else s.openFab h 0 k.payload k.tag) = some b →
    exec (.result p m off lost k) s = .next (((s.unqueue k.hdr k.payload).ackAgain (redIn h) h).settleMembers))

/-! ### Emergencies, and what reset leaves in the registers -/

/-- While an emergency lasts, the tier is T3, PWR_STAT.emergency reads 1 and the hold of R745 applies: so right
after reset, and every step keeps it, from every state that has it (R784, R785). -/
def Obligations.EmergencyHoldsTierThree : Prop :=
  EmergencyForm State.reset ∧ ∀ s t, EmergencyForm s → step s = .next t → EmergencyForm t

/-- Right after reset, the registers of BAR0 hold the values of the tables "After reset" (R845, R848, R849, R850,
R852, R853, R858 to R864; SWC_STAT as R551 rounds it; the serial number is a constant that the model leaves open).
-/
def Obligations.ResetRegisterValues : Prop :=
  (∀ o v, (o, v) ∈ [(0x0, 0x10000#64), (0x8, 2), (0x10, 0x0001000000000480), (0x20, Config.serial.extractLsb' 0 64),
    (0x28, Config.serial.extractLsb' 64 64), (0x100, 0), (0x108, 0), (0x110, 2), (0x118, 0),
    (0x100000, 0x0000041A041A041A), (0x100008, 0), (0x100010, 0), (0x100018, 0), (0x100100, 0x0028283800000000),
    (0x100108, 0),
    (0x100110, 0x3F), (0x100118, 0x0000FFFFFFFFFFFF), (0x100200, 0x0000000100000000), (0x200200, 0), (0x201000, 0),
    (0x308000, 0),
    (0x04000000, 0x0000400000140902), (0x04000008, 0x80), (0x04000010, 0x0003F00000001000), (0x04000018,
    0x00000AA700000000),
    (0x04000020, 0), (0x04000028, 0), (0x04000100, 0x1000200008000000), (0x04000108, 0x4000100004000000), (0x04000110,
    0xFF00040001000000),
    (0x05000000, 0), (0x05000008, 0), (0x05000010, 0), (0x06000400, 0xA0000), (0x06000408, 0), (0x06000410, 0),
    (0x07040200, 0),
    (0x08000400, 0), (0x09000200, 0), (0x09000208, 0), (0x0A000000, 0), (0x0A000040, 0), (0x0A000048, 0), (0x0A000100,
    0x64),
    (0x0A000500, 0), (0x0B000000, 0x108), (0x0B000008, 0), (0x0B000200, 0)] → State.reset.pfReg o = v)
  ∧ (∀ p, p < 48 → ∀ o v, (o, v) ∈ [(0x0, 0xFF08#64), (0x8, 0), (0x10, 0x07D0106414041900), (0x18, 0), (0x20, 0),
      (0x28, 0), (0x30, 0), (0x180, 0),
    (0x200, 0xA), (0x210, 0), (0x218, 0), (0x300, 0x10), (0x308, 0), (0x310, 0)] →
        State.reset.pfReg (0x01000000 + 0x10000 * p + o) = v)
  ∧ (∀ p i, p < 48 → i < 8 → State.reset.pfReg (0x01000000 + 0x10000 * p + 0x400 + 16 * i) = 0x180804
      ∧ State.reset.pfReg (0x01000000 + 0x10000 * p + 0x408 + 16 * i) = 0)
  ∧ (∀ r, r < 5 → State.reset.pfReg (0x200000 + 16 * r) = 0x0000000600000000
      ∧ State.reset.pfReg (0x200008 + 16 * r) = 0)
  ∧ (∀ g, g < 64 → ∀ o, o ∈ [0x04000200, 0x06000000, 0x06000200, 0x07040000, 0x07040400, 0x08000000, 0x08000200,
      0x09000000] →
      State.reset.pfReg (o + 8 * g) = 0)
  ∧ (∀ d, d < 24 → State.reset.pfReg (0x0A000400 + 8 * d) = 0x64 ∧ State.reset.pfReg (0x0B000100 + 8 * d) = 0)
  ∧ (∀ p, p < 48 → State.reset.pfReg (0x0A000200 + 8 * p) = 0x64)
  ∧ (∀ f o v, 1 ≤ f → f ≤ 63 → (o, v) ∈ [(0xF0, 0#64), (0xF8, 0), (0x0, 0x0000000600000000), (0x10,
      0x0000000600000000), (0x20, 0x0000000600000000),
      (0x8000, 0), (0x9000, 0), (0xA000, 0), (0xC000, 0), (0xD200, 0), (0xF000, 0)] → State.reset.vfReg f o = v)
end

