-- ==== Sys2Proof/Laws/Tab.lean ====
section
/-! SUPPORT. What a sparse table does: read after write, and that a write keeps the canonical form. -/

set_option Elab.async false

namespace Sys2Proof.Machine

variable {α : Type}

theorem Tab.get_erase_same (d : α) (t : Tab α) (k : Nat) : Tab.get d (Tab.erase t k) k = d := by
  induction t with
  | nil => rfl
  | cons e t ih =>
    obtain ⟨k', v⟩ := e
    by_cases h : k = k' <;> simp [Tab.erase, Tab.get, h]
    · subst h; exact ih
    · exact ih

theorem Tab.get_erase_ne (d : α) (t : Tab α) {j k : Nat} (h : j ≠ k) :
    Tab.get d (Tab.erase t k) j = Tab.get d t j := by
  induction t with
  | nil => rfl
  | cons e t ih =>
    obtain ⟨k', v⟩ := e
    by_cases hk : k = k'
    · subst hk; simp [Tab.erase, Tab.get, h, ih]
    · by_cases hj : j = k' <;> simp [Tab.erase, Tab.get, hk, hj]
      exact ih

theorem Tab.get_insert_same (d : α) (t : Tab α) (k : Nat) (v : α) (h : Tab.erase t k = t) :
    Tab.get d (Tab.insert t k v) k = v := by
  induction t with
  | nil => simp [Tab.insert, Tab.get]
  | cons e t ih =>
    obtain ⟨k', v'⟩ := e
    by_cases hk : k = k'
    · subst hk
      have hl : (Tab.erase t k).length ≤ t.length := by
        clear h ih
        induction t with
        | nil => simp [Tab.erase]
        | cons e t ih => simp only [Tab.erase]; split <;> simp <;> omega
      have hc : (Tab.erase ((k, v') :: t) k).length = ((k, v') :: t).length := by rw [h]
      simp [Tab.erase] at hc
      omega
    · simp [Tab.erase, hk] at h
      by_cases hl : k < k' <;> simp [Tab.insert, hl, Tab.get, hk]
      exact ih h

theorem Tab.erase_erase (t : Tab α) (k : Nat) : Tab.erase (Tab.erase t k) k = Tab.erase t k := by
  induction t with
  | nil => rfl
  | cons e t ih =>
    obtain ⟨k', v⟩ := e
    by_cases h : k = k' <;> simp [Tab.erase, h]
    · subst h; exact ih
    · exact ih

theorem Tab.get_insert_ne (d : α) (t : Tab α) {j k : Nat} (v : α) (h : j ≠ k) :
    Tab.get d (Tab.insert t k v) j = Tab.get d t j := by
  induction t with
  | nil => simp [Tab.insert, Tab.get, h]
  | cons e t ih =>
    obtain ⟨k', v'⟩ := e
    by_cases hl : k < k' <;> simp [Tab.insert, hl, Tab.get, h]
    rw [ih]

/-- A read after a write to the same key gives the value written. -/
@[simp] theorem Tab.get_set_same [DecidableEq α] (d : α) (t : Tab α) (k : Nat) (v : α) :
    Tab.get d (Tab.set d t k v) k = v := by
  unfold Tab.set
  split
  · next h => rw [Tab.get_erase_same, h]
  · exact Tab.get_insert_same d _ k v (Tab.erase_erase t k)

/-- A write leaves every other key alone. -/
theorem Tab.get_set_ne [DecidableEq α] (d : α) (t : Tab α) {j k : Nat} (v : α) (h : j ≠ k) :
    Tab.get d (Tab.set d t k v) j = Tab.get d t j := by
  unfold Tab.set
  split
  · exact Tab.get_erase_ne d t h
  · rw [Tab.get_insert_ne d _ v h, Tab.get_erase_ne d t h]

@[simp] theorem Tab.get_modify_same [DecidableEq α] (d : α) (t : Tab α) (k : Nat) (f : α → α) :
    Tab.get d (Tab.modify d t k f) k = f (Tab.get d t k) := by
  simp [Tab.modify]

theorem Tab.get_modify_ne [DecidableEq α] (d : α) (t : Tab α) {j k : Nat} (f : α → α)
    (h : j ≠ k) : Tab.get d (Tab.modify d t k f) j = Tab.get d t j :=
  Tab.get_set_ne d t _ h

theorem Tab.rising_mono {t : Tab α} {a b : Nat} (h : a ≤ b) (hr : Tab.rising b t = true) :
    Tab.rising a t = true := by
  cases t with
  | nil => rfl
  | cons e t => simp [Tab.rising] at *; exact ⟨by omega, hr.2⟩

theorem Tab.rising_erase {t : Tab α} {lo : Nat} (k : Nat) (h : Tab.rising lo t = true) :
    Tab.rising lo (Tab.erase t k) = true := by
  induction t generalizing lo with
  | nil => rfl
  | cons e t ih =>
    obtain ⟨k', v⟩ := e
    simp [Tab.rising] at h
    by_cases hk : k = k' <;> simp [Tab.erase, hk, Tab.rising]
    · subst hk; exact Tab.rising_mono (by omega) (ih h.2)
    · exact ⟨h.1, ih h.2⟩

theorem Tab.rising_insert {t : Tab α} {lo k : Nat} (v : α) (hk : lo ≤ k)
    (h : Tab.rising lo t = true) (he : Tab.erase t k = t) :
    Tab.rising lo (Tab.insert t k v) = true := by
  induction t generalizing lo with
  | nil => simp [Tab.insert, Tab.rising, hk]
  | cons e t ih =>
    obtain ⟨k', v'⟩ := e
    simp [Tab.rising] at h
    by_cases hl : k < k'
    · simp only [Tab.insert, hl, if_true, Tab.rising, decide_eq_true hk, decide_eq_true (Nat.succ_le_of_lt hl), h.2, Bool.and_self]
    · by_cases hkk : k = k'
      · subst hkk
        have hlen : (Tab.erase t k).length ≤ t.length := by
          clear h ih he
          induction t with
          | nil => simp [Tab.erase]
          | cons e t ih => simp only [Tab.erase]; split <;> simp <;> omega
        have hc : (Tab.erase ((k, v') :: t) k).length = ((k, v') :: t).length := by rw [he]
        simp [Tab.erase] at hc
        omega
      · simp [Tab.erase, hkk] at he
        simp [Tab.insert, hl, Tab.rising, h.1]
        exact ih (by omega) h.2 he

theorem Tab.all_erase {p : Nat × α → Bool} {t : Tab α} (k : Nat) (h : t.all p = true) :
    (Tab.erase t k).all p = true := by
  induction t with
  | nil => rfl
  | cons e t ih =>
    obtain ⟨k', v⟩ := e
    simp only [List.all_cons, Bool.and_eq_true] at h
    by_cases hk : k = k'
    · simpa [Tab.erase, hk] using ih h.2
    · simp only [Tab.erase, hk, if_false, List.all_cons, Bool.and_eq_true]
      exact ⟨h.1, ih h.2⟩

theorem Tab.all_insert {p : Nat × α → Bool} {t : Tab α} {k : Nat} {v : α} (hv : p (k, v) = true)
    (h : t.all p = true) : (Tab.insert t k v).all p = true := by
  induction t with
  | nil => simp [Tab.insert, hv]
  | cons e t ih =>
    obtain ⟨k', v'⟩ := e
    simp only [List.all_cons, Bool.and_eq_true] at h
    simp only [Tab.insert]
    split
    · simp only [List.all_cons, Bool.and_eq_true]; exact ⟨hv, h.1, h.2⟩
    · simp only [List.all_cons, Bool.and_eq_true]; exact ⟨h.1, ih h.2⟩

/-- A write keeps the canonical form. -/
theorem Tab.wf_set [DecidableEq α] {d : α} {t : Tab α} (k : Nat) (v : α)
    (h : Tab.wf d t = true) : Tab.wf d (Tab.set d t k v) = true := by
  simp only [Tab.wf, Bool.and_eq_true] at h ⊢
  unfold Tab.set
  split
  · exact ⟨Tab.rising_erase k h.1, Tab.all_erase k h.2⟩
  · next hv =>
    exact ⟨Tab.rising_insert v (Nat.zero_le k) (Tab.rising_erase k h.1) (Tab.erase_erase t k),
      Tab.all_insert (by simp [hv]) (Tab.all_erase k h.2)⟩

@[simp] theorem Tab.wf_nil [DecidableEq α] (d : α) : Tab.wf d ([] : Tab α) = true := rfl

theorem Tab.get_of_lt {d : α} {t : Tab α} {lo j : Nat} (h : Tab.rising lo t = true) (hj : j < lo) : Tab.get d t j = d := by
  induction t generalizing lo with
  | nil => rfl
  | cons e t ih =>
    obtain ⟨k, v⟩ := e
    simp only [Tab.rising, Bool.and_eq_true, decide_eq_true_eq] at h
    have : j ≠ k := by omega
    simp only [Tab.get, if_neg this]
    exact ih h.2 (by omega)

theorem Tab.ext_rising [DecidableEq α] {d : α} {t u : Tab α} {lo : Nat} (ht : Tab.rising lo t = true)
    (hu : Tab.rising lo u = true) (vt : (t.all fun e => decide (e.2 ≠ d)) = true)
    (vu : (u.all fun e => decide (e.2 ≠ d)) = true) (h : ∀ j, Tab.get d t j = Tab.get d u j) : t = u := by
  induction t generalizing u lo with
  | nil =>
    cases u with
    | nil => rfl
    | cons e u =>
      have := h e.1
      simp_all [Tab.get]
  | cons e t ih =>
    cases u with
    | nil =>
      have := h e.1
      simp_all [Tab.get]
    | cons f u =>
      obtain ⟨k, v⟩ := e
      obtain ⟨l, w⟩ := f
      simp only [Tab.rising, Bool.and_eq_true, decide_eq_true_eq] at ht hu
      simp only [List.all_cons, Bool.and_eq_true, decide_eq_true_eq] at vt vu
      have hkl : k = l := by
        rcases Nat.lt_trichotomy k l with hlt | heq | hgt
        · have := h k
          simp only [Tab.get, if_true, if_neg (Nat.ne_of_lt hlt), Tab.get_of_lt hu.2 (by omega : k < l + 1)] at this
          exact absurd this vt.1
        · exact heq
        · have := h l
          simp only [Tab.get, if_true, if_neg (Nat.ne_of_lt hgt), Tab.get_of_lt ht.2 (by omega : l < k + 1)] at this
          exact absurd this.symm vu.1
      subst hkl
      have hv : v = w := by simpa [Tab.get] using h k
      subst hv
      rw [ih ht.2 hu.2 vt.2 vu.2 fun j => ?_]
      by_cases hj : j = k
      · rw [hj, Tab.get_of_lt ht.2 (Nat.lt_succ_self k), Tab.get_of_lt hu.2 (Nat.lt_succ_self k)]
      · simpa [Tab.get, hj] using h j

/-- Tables in canonical form that read alike are equal. -/
theorem Tab.ext [DecidableEq α] {d : α} {t u : Tab α} (ht : Tab.wf d t = true) (hu : Tab.wf d u = true)
    (h : ∀ j, Tab.get d t j = Tab.get d u j) : t = u := by
  simp only [Tab.wf, Bool.and_eq_true] at ht hu
  exact Tab.ext_rising ht.1 hu.1 ht.2 hu.2 h

end Sys2Proof.Machine
end

