-- ==== Sys2Proof/Laws/Memory.lean ====
section
/-! SUPPORT. Laws of vault memory: what was written reads back, other addresses read as before, and
every memory operation keeps the canonical form. -/

set_option Elab.async false

namespace Sys2Proof.Machine

theorem memPut_wf {m : List Host.Cell} (a : Nat) (bs : Bytes) (h : Memory.wf m) : Memory.wf (memPut m a bs) := by
  induction bs generalizing m a with
  | nil => exact h
  | cons b bs ih => exact ih (a + 1) (Tab.wf_set a b h)

/-- Entries that are dropped from a rising table leave it rising. -/
theorem Tab.rising_filter {α : Type} (p : Nat × α → Bool) {t : Tab α} {lo : Nat} (h : Tab.rising lo t = true) :
    Tab.rising lo (t.filter p) = true := by
  induction t generalizing lo with
  | nil => rfl
  | cons e t ih =>
    simp only [Tab.rising, Bool.and_eq_true, decide_eq_true_eq] at h
    simp only [List.filter_cons]
    split
    · simp only [Tab.rising, Bool.and_eq_true, decide_eq_true_eq]
      exact ⟨h.1, ih h.2⟩
    · exact ih (Tab.rising_mono (Nat.le_trans h.1 (Nat.le_succ _)) h.2)

theorem memZero_wf {m : List Host.Cell} (a n : Nat) (h : Memory.wf m) : Memory.wf (memZero m a n) := by
  simp only [Memory.wf, Tab.wf, Bool.and_eq_true] at h ⊢
  refine ⟨Tab.rising_filter _ h.1, ?_⟩
  rw [List.all_eq_true] at h ⊢
  exact fun e he => h.2 e ((List.mem_filter.mp he).1)

/-- Every byte outside the written range reads as before. -/
theorem memPut_get_of_lt {m : List Host.Cell} {a j : Nat} (bs : Bytes) (h : j < a) :
    Tab.get (0 : Byte) (memPut m a bs) j = Tab.get (0 : Byte) m j := by
  induction bs generalizing m a with
  | nil => rfl
  | cons b bs ih =>
    rw [memPut, ih (Nat.lt_succ_of_lt h), Tab.get_set_ne _ _ _ (Nat.ne_of_lt h)]

theorem memPut_get_of_ge {m : List Host.Cell} {a j : Nat} (bs : Bytes) (h : a + bs.length ≤ j) :
    Tab.get (0 : Byte) (memPut m a bs) j = Tab.get (0 : Byte) m j := by
  induction bs generalizing m a with
  | nil => rfl
  | cons b bs ih =>
    simp only [List.length_cons] at h
    rw [memPut, ih (by omega), Tab.get_set_ne _ _ _ (by omega)]

/-- A byte inside the written range reads the byte written. -/
theorem memPut_get_in {m : List Host.Cell} {a : Nat} (bs : Bytes) (i : Nat) (h : i < bs.length) :
    Tab.get (0 : Byte) (memPut m a bs) (a + i) = bs[i] := by
  induction bs generalizing m a i with
  | nil => exact absurd h (Nat.not_lt_zero _)
  | cons b bs ih =>
    cases i with
    | zero =>
      have e := memPut_get_of_lt (m := Tab.set (0 : Byte) m a b) bs (Nat.lt_succ_self a)
      exact e.trans (Tab.get_set_same _ _ _ _)
    | succ i =>
      have := ih (m := Tab.set 0 m a b) (a := a + 1) i (Nat.lt_of_succ_lt_succ h)
      rw [memPut, show a + (i + 1) = a + 1 + i by omega, this]
      rfl

/-- What was written reads back. -/
theorem memBytes_memPut (m : List Host.Cell) (a : Nat) (bs : Bytes) :
    memBytes (memPut m a bs) a bs.length = bs := by
  apply List.ext_getElem
  · simp [memBytes]
  · intro i h1 h2
    simp only [memBytes, List.getElem_map, List.getElem_range]
    exact memPut_get_in bs i h2

end Sys2Proof.Machine
end

