-- ==== Sys2Proof/Laws/Keeps.lean ====
section
/-! SUPPORT. What an operation leaves alone: the relation `Keeps`, and its rules for updates, branches
and folds. The other files Laws/Keeps… say it for every operation of the machine. -/

set_option Elab.async false

namespace Sys2Proof.Machine

/-- Which parts of the state are kept. -/
structure Part where
  ctl : Bool
  pwr : Bool
  clk : Bool
  own : Bool
  cur : Bool
  flash : Bool
  svc : Bool
  banks : Bool
  quorum : Bool
  fuse : Bool

/-- From `s` to `t` the queue stays, the form of the machine stays, no fuse goes back, and the parts of the
mask stay. -/
structure Keeps (m : Part) (s t : State) : Prop where
  pending : t.pending = s.pending
  mem : Memory.wf s.vault.mem → Memory.wf t.vault.mem
  legal : s.clk.legal → t.clk.legal
  tick : 1 ≤ s.own.tickDiv → 1 ≤ t.own.tickDiv
  em : s.pwr.sound s.cur.hold → t.pwr.sound t.cur.hold
  hist : s.flash.lifeHistory.length ≤ 16384 → t.flash.lifeHistory.length ≤ 16384
  blown : s.flash.fusedSvn ≤ t.flash.fusedSvn ∧ s.flash.revoked &&& t.flash.revoked = s.flash.revoked
  ctl : m.ctl = true → t.ctl = s.ctl
  pwr : m.pwr = true → t.pwr = s.pwr
  clk : m.clk = true → t.clk = s.clk
  own : m.own = true → t.own = s.own
  cur : m.cur = true → t.cur = s.cur
  flash : m.flash = true → t.flash = s.flash
  svc : m.svc = true → t.svc = s.svc
  banks : m.banks = true → t.cat.bank0 = s.cat.bank0 ∧ t.cat.bank1 = s.cat.bank1 ∧ t.cat.epoch = s.cat.epoch
    ∧ t.cat.installed = s.cat.installed
  quorum : m.quorum = true → t.sec.quorum = s.sec.quorum ∧ t.sec.k = s.sec.k ∧ t.sec.nextSeq = s.sec.nextSeq
  fuse : m.fuse = true → t.flash.fusedSvn = s.flash.fusedSvn ∧ t.flash.revoked = s.flash.revoked

/-- An outcome keeps: a next state is kept, and a stop says nothing. -/
def KeepsO (m : Part) (s : State) : Host.Outcome State Fault Refusal → Prop
  | .next t => Keeps m s t
  | _ => True

theorem Keeps.refl (m : Part) (s : State) : Keeps m s s where
  pending := rfl
  mem := id
  legal := id
  tick := id
  em := id
  hist := id
  blown := ⟨Nat.le_refl _, BitVec.and_self⟩
  ctl := fun _ => rfl
  pwr := fun _ => rfl
  clk := fun _ => rfl
  own := fun _ => rfl
  cur := fun _ => rfl
  flash := fun _ => rfl
  svc := fun _ => rfl
  banks := fun _ => ⟨rfl, rfl, rfl, rfl⟩
  quorum := fun _ => ⟨rfl, rfl, rfl⟩
  fuse := fun _ => ⟨rfl, rfl⟩

/-- One update after another. -/
theorem Keeps.trans {m : Part} {s t u : State} (h : Keeps m s t) (k : Keeps m t u) : Keeps m s u where
  pending := k.pending.trans h.pending
  mem := fun w => k.mem (h.mem w)
  legal := fun w => k.legal (h.legal w)
  tick := fun w => k.tick (h.tick w)
  em := fun w => k.em (h.em w)
  hist := fun w => k.hist (h.hist w)
  blown := ⟨Nat.le_trans h.blown.1 k.blown.1, by
    have e : s.flash.revoked &&& u.flash.revoked = s.flash.revoked &&& t.flash.revoked &&& u.flash.revoked := by
      rw [h.blown.2]
    rw [e, BitVec.and_assoc, k.blown.2, h.blown.2]⟩
  ctl := fun w => (k.ctl w).trans (h.ctl w)
  pwr := fun w => (k.pwr w).trans (h.pwr w)
  clk := fun w => (k.clk w).trans (h.clk w)
  own := fun w => (k.own w).trans (h.own w)
  cur := fun w => (k.cur w).trans (h.cur w)
  flash := fun w => (k.flash w).trans (h.flash w)
  svc := fun w => (k.svc w).trans (h.svc w)
  banks := fun w =>
    have a := k.banks w
    have b := h.banks w
    ⟨a.1.trans b.1, a.2.1.trans b.2.1, a.2.2.1.trans b.2.2.1, a.2.2.2.trans b.2.2.2⟩
  quorum := fun w =>
    have a := k.quorum w
    have b := h.quorum w
    ⟨a.1.trans b.1, a.2.1.trans b.2.1, a.2.2.trans b.2.2⟩
  fuse := fun w =>
    have a := k.fuse w
    have b := h.fuse w
    ⟨a.1.trans b.1, a.2.trans b.2⟩

/-- `Keeps`, of a state that is written out as a record: a mark for the rules below. -/
def Updated (m : Part) (s t : State) : Prop := Keeps m s t

theorem Keeps.mark (m : Part) (s0 : State) (x_pending : List Instr) (x_ctl : ModCtl) (x_pwr : Power) (x_clk : Clocks) (x_own : OwnCtl) (x_cur : Curator)
    (x_flash : Flash) (x_svc : SvcPort) (x_fns : Tab Fn) (x_docents : Tab Docent) (x_links : Tab Link) (x_lanes :
    Tab Lane) (x_swcPorts : Tab SwcPort) (x_ctxs : Tab Ctx) (x_gals : Tab Gallery) (x_sos : Tab SyncObj)
    (x_waitRefused : Nat) (x_vault : Vault) (x_trn : Trn) (x_red : Red) (x_cat : Cat) (x_sec : Sec) (x_tel : Tel)
    (x_swc : Swc) (x_seqs : Tab Nat) (x_genCount : Tab Nat) (x_replay : List Outst) (x_held : List Outst) (x_lostFor
    : List Nat) (x_windows : Tab DupWin) (x_arv : List ((Nat × Nat × Nat) × ArvCount)) (x_arrived : List (Header ×
    Bytes × Bytes)) (x_epIn : List (Nat × Bytes)) (x_outputs : List Output) (x_freeCtr : Nat) (x_nextPkt : Nat) :
    Keeps m s0 (State.mk x_pending x_ctl x_pwr x_clk x_own x_cur x_flash x_svc x_fns x_docents x_links x_lanes x_swcPorts
      x_ctxs x_gals x_sos x_waitRefused x_vault x_trn x_red x_cat x_sec x_tel x_swc x_seqs x_genCount
      x_replay x_held x_lostFor x_windows x_arv x_arrived x_epIn x_outputs x_freeCtr x_nextPkt)
      = Updated m s0 (State.mk x_pending x_ctl x_pwr x_clk x_own x_cur x_flash x_svc x_fns x_docents x_links x_lanes x_swcPorts
      x_ctxs x_gals x_sos x_waitRefused x_vault x_trn x_red x_cat x_sec x_tel x_swc x_seqs x_genCount
      x_replay x_held x_lostFor x_windows x_arv x_arrived x_epIn x_outputs x_freeCtr x_nextPkt) := rfl

/-- A record that takes each part from `s`, or from anywhere where the mask does not ask for it. -/
theorem Updated.upd {m : Part} {s0 s : State}
    {x_pending : List Instr} {x_ctl : ModCtl} {x_pwr : Power} {x_clk : Clocks} {x_own : OwnCtl} {x_cur : Curator}
    {x_flash : Flash} {x_svc : SvcPort} {x_fns : Tab Fn} {x_docents : Tab Docent} {x_links : Tab Link} {x_lanes :
    Tab Lane} {x_swcPorts : Tab SwcPort} {x_ctxs : Tab Ctx} {x_gals : Tab Gallery} {x_sos : Tab SyncObj}
    {x_waitRefused : Nat} {x_vault : Vault} {x_trn : Trn} {x_red : Red} {x_cat : Cat} {x_sec : Sec} {x_tel : Tel}
    {x_swc : Swc} {x_seqs : Tab Nat} {x_genCount : Tab Nat} {x_replay : List Outst} {x_held : List Outst} {x_lostFor
    : List Nat} {x_windows : Tab DupWin} {x_arv : List ((Nat × Nat × Nat) × ArvCount)} {x_arrived : List (Header ×
    Bytes × Bytes)} {x_epIn : List (Nat × Bytes)} {x_outputs : List Output} {x_freeCtr : Nat} {x_nextPkt : Nat}
    (h : Keeps m s0 s) (h1 : x_pending = s.pending := by with_reducible rfl) (h2 : x_vault.mem = s.vault.mem := by with_reducible rfl)
    (h3 : s.clk.legal → x_clk.legal := by exact fun h => h) (h4 : 1 ≤ s.own.tickDiv → 1 ≤ x_own.tickDiv := by exact fun h => h)
    (h5 : x_flash.lifeHistory = s.flash.lifeHistory := by with_reducible rfl) (h6 : x_flash.fusedSvn = s.flash.fusedSvn := by with_reducible rfl)
    (h7 : x_flash.revoked = s.flash.revoked := by with_reducible rfl)
    (h_ctl : x_ctl = s.ctl ∨ m.ctl = false := by first | exact .inl rfl | exact .inr ‹_›)
    (h_pwr : x_pwr = s.pwr ∨ m.pwr = false := by first | exact .inl rfl | exact .inr ‹_›)
    (h_clk : x_clk = s.clk ∨ m.clk = false := by first | exact .inl rfl | exact .inr ‹_›)
    (h_own : x_own = s.own ∨ m.own = false := by first | exact .inl rfl | exact .inr ‹_›)
    (h_cur : x_cur = s.cur ∨ m.cur = false := by first | exact .inl rfl | exact .inr ‹_›)
    (h_flash : x_flash = s.flash ∨ m.flash = false := by first | exact .inl rfl | exact .inr ‹_›)
    (h_svc : x_svc = s.svc ∨ m.svc = false := by first | exact .inl rfl | exact .inr ‹_›)
    (h_banks : (x_cat.bank0 = s.cat.bank0 ∧ x_cat.bank1 = s.cat.bank1 ∧ x_cat.epoch = s.cat.epoch
      ∧ x_cat.installed = s.cat.installed) ∨ m.banks = false
      := by first | exact .inl ⟨rfl, rfl, rfl, rfl⟩ | exact .inr ‹_›)
    (h_quorum : (x_sec.quorum = s.sec.quorum ∧ x_sec.k = s.sec.k ∧ x_sec.nextSeq = s.sec.nextSeq)
      ∨ m.quorum = false := by first | exact .inl ⟨rfl, rfl, rfl⟩ | exact .inr ‹_›)
    (h_em : s.pwr.sound s.cur.hold → x_pwr.sound x_cur.hold := by exact fun h => h) :
    Updated m s0 (State.mk x_pending x_ctl x_pwr x_clk x_own x_cur x_flash x_svc x_fns x_docents x_links x_lanes x_swcPorts
      x_ctxs x_gals x_sos x_waitRefused x_vault x_trn x_red x_cat x_sec x_tel x_swc x_seqs x_genCount
      x_replay x_held x_lostFor x_windows x_arv x_arrived x_epIn x_outputs x_freeCtr x_nextPkt) :=
  h.trans
    { pending := h1
      mem := fun w => by rw [← h2] at w; exact w
      legal := h3
      tick := h4
      em := h_em
      hist := fun w => by rw [← h5] at w; exact w
      blown := ⟨Nat.le_of_eq h6.symm, by rw [show (State.mk x_pending x_ctl x_pwr x_clk x_own x_cur x_flash x_svc x_fns x_docents x_links x_lanes x_swcPorts
        x_ctxs x_gals x_sos x_waitRefused x_vault x_trn x_red x_cat x_sec x_tel x_swc x_seqs x_genCount
        x_replay x_held x_lostFor x_windows x_arv x_arrived x_epIn x_outputs x_freeCtr x_nextPkt).flash.revoked = _ from h7, BitVec.and_self]⟩
      ctl := fun w => h_ctl.resolve_right (by simp [w])
      pwr := fun w => h_pwr.resolve_right (by simp [w])
      clk := fun w => h_clk.resolve_right (by simp [w])
      own := fun w => h_own.resolve_right (by simp [w])
      cur := fun w => h_cur.resolve_right (by simp [w])
      flash := fun w => h_flash.resolve_right (by simp [w])
      svc := fun w => h_svc.resolve_right (by simp [w])
      banks := fun w => h_banks.resolve_right (by simp [w])
      quorum := fun w => h_quorum.resolve_right (by simp [w])
      fuse := fun _ => ⟨h6, h7⟩ }

/-- The common case: a record that takes every part from `s`. -/
theorem Updated.same {m : Part} {s0 s : State}
    {x_pending : List Instr} {x_ctl : ModCtl} {x_pwr : Power} {x_clk : Clocks} {x_own : OwnCtl} {x_cur : Curator}
    {x_flash : Flash} {x_svc : SvcPort} {x_fns : Tab Fn} {x_docents : Tab Docent} {x_links : Tab Link} {x_lanes :
    Tab Lane} {x_swcPorts : Tab SwcPort} {x_ctxs : Tab Ctx} {x_gals : Tab Gallery} {x_sos : Tab SyncObj}
    {x_waitRefused : Nat} {x_vault : Vault} {x_trn : Trn} {x_red : Red} {x_cat : Cat} {x_sec : Sec} {x_tel : Tel}
    {x_swc : Swc} {x_seqs : Tab Nat} {x_genCount : Tab Nat} {x_replay : List Outst} {x_held : List Outst} {x_lostFor
    : List Nat} {x_windows : Tab DupWin} {x_arv : List ((Nat × Nat × Nat) × ArvCount)} {x_arrived : List (Header ×
    Bytes × Bytes)} {x_epIn : List (Nat × Bytes)} {x_outputs : List Output} {x_freeCtr : Nat} {x_nextPkt : Nat}
    (h : Keeps m s0 s) (h1 : x_pending = s.pending := by with_reducible rfl) (h2 : x_vault.mem = s.vault.mem := by with_reducible rfl)
    (h_ctl : x_ctl = s.ctl := by with_reducible rfl) (h_pwr : x_pwr = s.pwr := by with_reducible rfl) (h_clk : x_clk
    = s.clk := by with_reducible rfl) (h_own : x_own = s.own := by with_reducible rfl) (h_cur : x_cur = s.cur := by
    with_reducible rfl) (h_flash : x_flash = s.flash := by with_reducible rfl) (h_svc : x_svc = s.svc := by
    with_reducible rfl)
    (h_bank0 : x_cat.bank0 = s.cat.bank0 := by with_reducible rfl) (h_bank1 : x_cat.bank1 = s.cat.bank1 := by with_reducible rfl)
    (h_epoch : x_cat.epoch = s.cat.epoch := by with_reducible rfl) (h_inst : x_cat.installed = s.cat.installed := by with_reducible rfl)
    (h_q : x_sec.quorum = s.sec.quorum := by with_reducible rfl) (h_k : x_sec.k = s.sec.k := by with_reducible rfl) (h_n : x_sec.nextSeq = s.sec.nextSeq := by with_reducible rfl) :
    Updated m s0 (State.mk x_pending x_ctl x_pwr x_clk x_own x_cur x_flash x_svc x_fns x_docents x_links x_lanes x_swcPorts
      x_ctxs x_gals x_sos x_waitRefused x_vault x_trn x_red x_cat x_sec x_tel x_swc x_seqs x_genCount
      x_replay x_held x_lostFor x_windows x_arv x_arrived x_epIn x_outputs x_freeCtr x_nextPkt) :=
  Updated.upd h h1 h2 (by rw [h_clk]; exact id) (by rw [h_own]; exact id) (congrArg _ h_flash) (congrArg _ h_flash)
    (congrArg _ h_flash) (.inl h_ctl) (.inl h_pwr) (.inl h_clk) (.inl h_own) (.inl h_cur) (.inl h_flash) (.inl h_svc)
    (.inl ⟨h_bank0, h_bank1, h_epoch, h_inst⟩) (.inl ⟨h_q, h_k, h_n⟩) (by rw [h_pwr, h_cur]; exact id)

theorem Keeps.setMem {m : Part} {s0 s : State} (h : Keeps m s0 s) (v : Vault)
    (hv : Memory.wf s.vault.mem → Memory.wf v.mem) : Keeps m s0 { s with vault := v } :=
  { h with mem := fun w => hv (h.mem w) }

theorem Keeps.ite {m : Part} {s0 a b : State} {c : Prop} [Decidable c] (ha : c → Keeps m s0 a)
    (hb : ¬c → Keeps m s0 b) : Keeps m s0 (if c then a else b) := by
  split
  · exact ha ‹_›
  · exact hb ‹_›

theorem Keeps.iteFst {α : Type} {m : Part} {s0 : State} {a b : State × α} {c : Prop} [Decidable c]
    (ha : c → Keeps m s0 a.1) (hb : ¬c → Keeps m s0 b.1) : Keeps m s0 (if c then a else b).1 := by
  split
  · exact ha ‹_›
  · exact hb ‹_›

theorem Keeps.ofEq {α : Type} {m : Part} {s0 t : State} {b : α} {p : State × α} (e : p = (t, b))
    (h : Keeps m s0 p.1) : Keeps m s0 t := by rw [e] at h; exact h

theorem Keeps.foldl {α : Type} {m : Part} {s0 : State} {f : State → α → State} {l : List α} {s : State}
    (hf : ∀ s x, Keeps m s0 s → Keeps m s0 (f s x)) (h : Keeps m s0 s) : Keeps m s0 (l.foldl f s) := by
  induction l generalizing s with
  | nil => exact h
  | cons x l ih => exact ih (hf s x h)

theorem Keeps.foldlFst {α β : Type} {m : Part} {s0 : State} {f : State × β → α → State × β} {l : List α}
    {p : State × β} (hf : ∀ p x, Keeps m s0 p.1 → Keeps m s0 (f p x).1) (h : Keeps m s0 p.1) :
    Keeps m s0 (l.foldl f p).1 := by
  induction l generalizing p with
  | nil => exact h
  | cons x l ih => exact ih (hf p x h)

theorem Keeps.elim {α : Type} {m : Part} {s0 s : State} {o : Option α} {f : α → State} (hf : ∀ x, Keeps m s0 (f x))
    (h : Keeps m s0 s) : Keeps m s0 (o.elim s f) := by
  cases o
  · exact h
  · exact hf _

theorem KeepsO.ite {m : Part} {s0 : State} {a b : Host.Outcome State Fault Refusal} {c : Prop} [Decidable c]
    (ha : c → KeepsO m s0 a) (hb : ¬c → KeepsO m s0 b) : KeepsO m s0 (if c then a else b) := by
  split
  · exact ha ‹_›
  · exact hb ‹_›

theorem KeepsO.next {m : Part} {s0 t : State} (h : Keeps m s0 t) : KeepsO m s0 (.next t) := h

theorem KeepsO.fault {m : Part} {s0 : State} {r : Fault} : KeepsO m s0 (.fault r) := trivial

theorem State.vmWrite_keeps {m : Part} {s0 s : State} (a : Nat) (bs : Bytes) (h : Keeps m s0 s) :
    Keeps m s0 (s.vmWrite a bs) := h.setMem _ fun w => memPut_wf a bs w

theorem State.vmZero_keeps {m : Part} {s0 s : State} (a n : Nat) (h : Keeps m s0 s) :
    Keeps m s0 (s.vmZero a n) := h.setMem _ fun w => memZero_wf a n w

end Sys2Proof.Machine
end

