-- ==== Sys2Proof/Laws/KeepsFabric.lean ====
section
/-! SUPPORT. What each operation keeps (`Keeps`): the operations on fields, memory, packets, end-point rows and fabric rows. -/

set_option maxRecDepth 4000
set_option Elab.async false

namespace Sys2Proof.Machine

variable {msk : Part} {s0 s : State}

theorem State.modFn_keeps (f : Nat) (g : Fn → Fn) (hk : Keeps msk s0 s) : Keeps msk s0 (State.modFn s f g) := by
  unfold State.modFn
  repeat' (first | (simp only [Keeps.mark]; exact Updated.same ‹_›))

theorem State.modDocent_keeps (p : Nat) (g : Docent → Docent) (hk : Keeps msk s0 s) : Keeps msk s0
    (State.modDocent s p g) := by
  unfold State.modDocent
  repeat' (first | (simp only [Keeps.mark]; exact Updated.same ‹_›))

theorem State.modLink_keeps (p : Nat) (g : Link → Link) (hk : Keeps msk s0 s) : Keeps msk s0 (State.modLink s p g)
    := by
  unfold State.modLink
  repeat' (first | (simp only [Keeps.mark]; exact Updated.same ‹_›))

theorem State.modLane_keeps (p i : Nat) (g : Lane → Lane) (hk : Keeps msk s0 s) : Keeps msk s0 (State.modLane s p
    i g) := by
  unfold State.modLane
  repeat' (first | (simp only [Keeps.mark]; exact Updated.same ‹_›))

theorem State.modSwcPort_keeps (p : Nat) (g : SwcPort → SwcPort) (hk : Keeps msk s0 s) : Keeps msk s0
    (State.modSwcPort s p g) := by
  unfold State.modSwcPort
  repeat' (first | (simp only [Keeps.mark]; exact Updated.same ‹_›))

theorem State.modCtx_keeps (g : Nat) (f : Ctx → Ctx) (hk : Keeps msk s0 s) : Keeps msk s0 (State.modCtx s g f) := by
  unfold State.modCtx
  repeat' (first | (simp only [Keeps.mark]; exact Updated.same ‹_›))

theorem State.modGal_keeps (g : Nat) (f : Gallery → Gallery) (hk : Keeps msk s0 s) : Keeps msk s0 (State.modGal s
    g f) := by
  unfold State.modGal
  repeat' (first | (simp only [Keeps.mark]; exact Updated.same ‹_›))

theorem State.setSo_keeps (n : Nat) (o : SyncObj) (hk : Keeps msk s0 s) : Keeps msk s0 (State.setSo s n o) := by
  unfold State.setSo
  repeat' (first | (simp only [Keeps.mark]; exact Updated.same ‹_›))

theorem State.modDie_keeps (d : Nat) (g : DieErr → DieErr) (hk : Keeps msk s0 s) : Keeps msk s0 (State.modDie s d
    g) := by
  unfold State.modDie
  repeat' (first | (simp only [Keeps.mark]; exact Updated.same ‹_›))

theorem State.out_keeps (o : Output) (hk : Keeps msk s0 s) : Keeps msk s0 (State.out s o) := by
  unfold State.out
  repeat' (first | (simp only [Keeps.mark]; exact Updated.same ‹_›))

theorem State.ringPut_keeps (f r : Nat) (bs : Bytes) (hk : Keeps msk s0 s) : Keeps msk s0 (State.ringPut s f r bs)
    := by
  unfold State.ringPut
  repeat' (first | with_reducible assumption | with_reducible apply State.modFn_keeps
                 | with_reducible apply State.vmWrite_keeps)

theorem State.incPut_keeps (f : Nat) (r : Incident) (hk : Keeps msk s0 s) : Keeps msk s0 (State.incPut s f r) := by
  unfold State.incPut
  repeat' (first | with_reducible assumption | with_reducible apply State.modFn_keeps
                 | with_reducible apply State.ringPut_keeps)

theorem State.incLose_keeps (f : Nat) (cls : Nat) (hk : Keeps msk s0 s) : Keeps msk s0 (State.incLose s f cls) := by
  unfold State.incLose
  repeat' (first | with_reducible assumption | with_reducible apply State.modFn_keeps)

theorem State.incident_keeps (f : Nat) (r : Incident) (hk : Keeps msk s0 s) : Keeps msk s0 (State.incident s f r)
    := by
  unfold State.incident
  repeat' (first | with_reducible assumption | (with_reducible apply Keeps.ite) <;> intro _
                 | with_reducible apply State.incPut_keeps | with_reducible apply State.incLose_keeps)

theorem State.galIncident_keeps (g : Nat) (r : Incident) (hk : Keeps msk s0 s) : Keeps msk s0 (State.galIncident s
    g r) := by
  unfold State.galIncident
  repeat' (first | with_reducible assumption | with_reducible apply State.incident_keeps | split)

theorem State.curEvent_keeps (ev cause core infoB : Nat) (hk : Keeps msk s0 s) : Keeps msk s0 (State.curEvent s ev
    cause core infoB) := by
  unfold State.curEvent
  repeat' (first | with_reducible assumption | with_reducible apply State.incident_keeps)

theorem State.logPut_keeps (hm_cur : msk.cur = false) (trace : Bool) (level core code : Nat) (args : Bytes) (hk :
    Keeps msk s0 s) : Keeps msk s0 (State.logPut s trace level core code args) := by
  unfold State.logPut
  repeat' (first | with_reducible assumption | (with_reducible apply Keeps.ite) <;> intro _
                 | with_reducible apply State.modFn_keeps | with_reducible apply State.ringPut_keeps
                 | (simp only [Keeps.mark]; refine Updated.upd ?_))

theorem State.measChanged_keeps (idx : Nat) (hk : Keeps msk s0 s) : Keeps msk s0 (State.measChanged s idx) := by
  unfold State.measChanged
  repeat' (first | with_reducible assumption | (with_reducible apply Keeps.ite) <;> intro _
                 | with_reducible apply Keeps.foldl | intro _ | with_reducible apply State.incident_keeps)

theorem State.galStateRecord_keeps (g old cause : Nat) (f : Nat) (hk : Keeps msk s0 s) : Keeps msk s0
    (State.galStateRecord s g old cause f) := by
  unfold State.galStateRecord
  repeat' (first | with_reducible assumption | (with_reducible apply Keeps.ite) <;> intro _
                 | with_reducible apply State.incident_keeps)

theorem State.setGalState_keeps (g : Nat) (st : GalState) (cause : Nat) (hk : Keeps msk s0 s) : Keeps msk s0
    (State.setGalState s g st cause) := by
  unfold State.setGalState
  repeat' (first | with_reducible assumption | with_reducible apply State.modGal_keeps
                 | with_reducible apply State.galStateRecord_keeps)

theorem State.setModState_keeps (hm_ctl : msk.ctl = false) (st : ModState) (hk : Keeps msk s0 s) : Keeps msk s0
    (State.setModState s st) := by
  unfold State.setModState
  repeat' (first | with_reducible assumption | with_reducible apply State.measChanged_keeps
                 | (simp only [Keeps.mark]; refine Updated.upd ?_))

theorem State.lifeCorrected_keeps (cw : Nat) (hk : Keeps msk s0 s) : Keeps msk s0 (State.lifeCorrected s cw) := by
  unfold State.lifeCorrected
  repeat' (first | (simp only [Keeps.mark]; exact Updated.same ‹_›))

theorem State.lifeUe_keeps (cw : Nat) (hk : Keeps msk s0 s) : Keeps msk s0 (State.lifeUe s cw) := by
  unfold State.lifeUe
  repeat' (first | (simp only [Keeps.mark]; exact Updated.same ‹_›))

theorem State.vmCorrected_keeps (cw : Nat) (hk : Keeps msk s0 s) : Keeps msk s0 (State.vmCorrected s cw) := by
  unfold State.vmCorrected
  repeat' (first | with_reducible apply State.lifeCorrected_keeps | with_reducible apply State.modDie_keeps
                 | (simp only [Keeps.mark]; exact Updated.same ‹_›))

theorem State.vmUncorrectable_keeps (cw : Nat) (scrub : Bool) (hk : Keeps msk s0 s) : Keeps msk s0
    (State.vmUncorrectable s cw scrub) := by
  unfold State.vmUncorrectable
  repeat' (first | with_reducible assumption | with_reducible apply State.lifeUe_keeps
                 | with_reducible apply State.modDie_keeps | with_reducible apply State.incident_keeps
                 | (simp only [Keeps.mark]; refine Updated.same ?_))

theorem State.vmTouch_keeps (hits : List (Nat × Nat)) (hk : Keeps msk s0 s) : Keeps msk s0 (State.vmTouch s hits)
    := by
  unfold State.vmTouch
  repeat' (first | with_reducible assumption | (with_reducible apply Keeps.ite) <;> intro _
                 | with_reducible apply Keeps.foldl | intro _ | with_reducible apply State.vmCorrected_keeps
                 | with_reducible apply State.vmUncorrectable_keeps)

theorem State.vmRead_keeps (a n : Nat) (hk : Keeps msk s0 s) : Keeps msk s0 (State.vmRead s a n).1 := by
  unfold State.vmRead
  repeat' (first | with_reducible assumption | with_reducible apply State.vmTouch_keeps)

theorem State.vmMerge_keeps (a : Nat) (bs : Bytes) (hk : Keeps msk s0 s) : Keeps msk s0 (State.vmMerge s a bs).1 := by
  unfold State.vmMerge
  repeat' (first | with_reducible assumption | (with_reducible apply Keeps.iteFst) <;> intro _
                 | with_reducible apply State.vmTouch_keeps | with_reducible apply State.vmWrite_keeps)

theorem State.dropTaken_keeps (t : Taken) (hk : Keeps msk s0 s) : Keeps msk s0 (State.dropTaken s t) := by
  unfold State.dropTaken
  repeat' (first | with_reducible assumption | with_reducible apply State.modFn_keeps)

theorem State.complete_keeps (t : Taken) (status value : Nat) (hk : Keeps msk s0 s) : Keeps msk s0 (State.complete
    s t status value) := by
  unfold State.complete
  repeat' (first | with_reducible assumption | (with_reducible apply Keeps.ite) <;> intro _
                 | with_reducible apply State.dropTaken_keeps | with_reducible apply State.ringPut_keeps)

theorem State.startTaken_keeps (t : Taken) (hk : Keeps msk s0 s) : Keeps msk s0 (State.startTaken s t) := by
  unfold State.startTaken
  repeat' (first | with_reducible assumption | with_reducible apply State.modFn_keeps)

theorem State.setBank_keeps (hm_banks : msk.banks = false) (epoch : Bool) (b : Bank) (hk : Keeps msk s0 s) : Keeps
    msk s0 (State.setBank s epoch b) := by
  unfold State.setBank
  repeat' (first | with_reducible assumption | (with_reducible apply Keeps.ite) <;> intro _
                 | (simp only [Keeps.mark]; refine Updated.upd ?_))

theorem State.draw_keeps (hk : Keeps msk s0 s) : Keeps msk s0 (State.draw s) := by
  unfold State.draw
  repeat' (first | (simp only [Keeps.mark]; exact Updated.same ‹_›))

theorem State.loadScramblers_keeps (p : Nat) (tx rx : Bool) (hk : Keeps msk s0 s) : Keeps msk s0
    (State.loadScramblers s p tx rx) := by
  unfold State.loadScramblers
  repeat' (first | with_reducible assumption | with_reducible apply Keeps.foldl | intro _
                 | with_reducible apply State.modLane_keeps)

theorem State.wire_keeps (p : Nat) (hdr : Word) (body : Bytes) (hk : Keeps msk s0 s) : Keeps msk s0 (State.wire s
    p hdr body) := by
  unfold State.wire
  repeat' (first | with_reducible assumption | with_reducible apply Keeps.foldl | intro _
                 | with_reducible apply State.modLane_keeps | with_reducible apply State.out_keeps)

theorem State.unwire_keeps (p : Nat) (lanes : List (List Pam)) (hk : Keeps msk s0 s) : Keeps msk s0 (State.unwire
    s p lanes).1 := by
  unfold State.unwire
  repeat' (first | with_reducible assumption | with_reducible apply Keeps.foldl | intro _
                 | with_reducible apply State.modLane_keeps)

theorem State.sendFiller_keeps (p : Nat) (hk : Keeps msk s0 s) : Keeps msk s0 (State.sendFiller s p) := by
  unfold State.sendFiller
  repeat' (first | with_reducible assumption | with_reducible apply State.out_keeps
                 | with_reducible apply State.modLink_keeps | with_reducible apply State.wire_keeps)

theorem State.flitOut_keeps (p : Nat) (o : Output) (hdr : Word) (body : Bytes) (hk : Keeps msk s0 s) : Keeps msk
    s0 (State.flitOut s p o hdr body) := by
  unfold State.flitOut
  repeat' (first | with_reducible assumption | (with_reducible apply Keeps.ite) <;> intro _
                 | with_reducible apply State.out_keeps | with_reducible apply State.modLink_keeps
                 | with_reducible apply State.sendFiller_keeps | with_reducible apply State.wire_keeps)

theorem State.sendData_keeps (p : Nat) (f : TxFlit) (hk : Keeps msk s0 s) : Keeps msk s0 (State.sendData s p f) := by
  unfold State.sendData
  repeat' (first | with_reducible assumption | with_reducible apply State.flitOut_keeps)

theorem State.ctrlOut_keeps (p : Nat) (nak : Bool) (credit : Option (Nat × Nat)) (idle : Bool) (notices : List
    Nat) (hk : Keeps msk s0 s) : Keeps msk s0 (State.ctrlOut s p nak credit idle notices) := by
  unfold State.ctrlOut
  repeat' (first | with_reducible assumption | with_reducible apply State.flitOut_keeps)

theorem State.sendFrames_keeps (p type : Nat) (lanes : List Nat) (hk : Keeps msk s0 s) : Keeps msk s0
    (State.sendFrames s p type lanes) := by
  unfold State.sendFrames
  repeat' (first | with_reducible assumption | with_reducible apply Keeps.foldl | intro _
                 | with_reducible apply State.draw_keeps | with_reducible apply State.out_keeps)

theorem State.sendTs_keeps (p type : Nat) (hk : Keeps msk s0 s) : Keeps msk s0 (State.sendTs s p type) := by
  unfold State.sendTs
  repeat' (first | with_reducible assumption | with_reducible apply State.sendFrames_keeps)

theorem State.sendBurst_keeps (p : Nat) (hk : Keeps msk s0 s) : Keeps msk s0 (State.sendBurst s p) := by
  unfold State.sendBurst
  repeat' (first | with_reducible assumption | with_reducible apply State.out_keeps
                 | with_reducible apply State.sendFrames_keeps | with_reducible apply State.loadScramblers_keeps)

theorem State.mcRelease_keeps (id : Nat) (hk : Keeps msk s0 s) : Keeps msk s0 (State.mcRelease s id) := by
  unfold State.mcRelease
  repeat' (first | (simp only [Keeps.mark]; exact Updated.same ‹_›))

theorem State.mcCrossed_keeps (id : Nat) (hk : Keeps msk s0 s) : Keeps msk s0 (State.mcCrossed s id) := by
  unfold State.mcCrossed
  repeat' (first | with_reducible assumption | (with_reducible apply Keeps.ite) <;> intro _
                 | with_reducible apply State.mcRelease_keeps)

theorem State.mcUnsent_keeps (l : List Outst) (hk : Keeps msk s0 s) : Keeps msk s0 (State.mcUnsent s l) := by
  unfold State.mcUnsent
  repeat' (first | with_reducible assumption | with_reducible apply Keeps.foldl | intro _
                 | with_reducible apply State.mcRelease_keeps)

theorem State.specimen_keeps (inp out : Nat) (h : FHdr) (hk : Keeps msk s0 s) : Keeps msk s0 (State.specimen s inp
    out h) := by
  unfold State.specimen
  repeat' (first | with_reducible assumption | (with_reducible apply Keeps.ite) <;> intro _
                 | with_reducible apply State.modFn_keeps | with_reducible apply State.modSwcPort_keeps
                 | with_reducible apply State.ringPut_keeps | (simp only [Keeps.mark]; refine Updated.same ?_))

theorem State.sample_keeps (inp : Nat) (h : FHdr) (mc : Option Nat) (hk : Keeps msk s0 s) : Keeps msk s0
    (State.sample s inp h mc) := by
  unfold State.sample
  repeat' (first | with_reducible assumption | (with_reducible apply Keeps.ite) <;> intro _
                 | with_reducible apply State.specimen_keeps | (simp only [Keeps.mark]; exact Updated.same ‹_›))

theorem State.push_keeps (inp : Nat) (h : FHdr) (payload tag : Bytes) (mc : Option Nat) (hk : Keeps msk s0 s) :
    Keeps msk s0 (State.push s inp h payload tag mc) := by
  unfold State.push
  repeat' (first | (simp only [Keeps.mark]; exact Updated.same ‹_›))

theorem State.enter_keeps (inp : Nat) (h : FHdr) (payload tag : Bytes) (mc : Option Nat) (hk : Keeps msk s0 s) :
    Keeps msk s0 (State.enter s inp h payload tag mc) := by
  unfold State.enter
  dsimp only
  repeat' (first | with_reducible assumption | (with_reducible apply Keeps.ite) <;> intro _
                 | with_reducible apply State.draw_keeps | with_reducible apply State.modSwcPort_keeps
                 | with_reducible apply State.push_keeps | with_reducible apply State.sample_keeps
                 | with_reducible apply Keeps.elim | intro _ | with_reducible apply State.mcRelease_keeps)

theorem State.enqueue_keeps (inp : Nat) (h : FHdr) (payload tag : Bytes) (mc : Option Nat) (hk : Keeps msk s0 s) :
    Keeps msk s0 (State.enqueue s inp h payload tag mc) := by
  unfold State.enqueue
  repeat' (first | with_reducible assumption | (with_reducible apply Keeps.ite) <;> intro _
                 | with_reducible apply State.enter_keeps | (simp only [Keeps.mark]; exact Updated.same ‹_›))

theorem State.letIn_keeps (hk : Keeps msk s0 s) : Keeps msk s0 (State.letIn s) := by
  unfold State.letIn
  repeat' (first | with_reducible assumption | with_reducible apply Keeps.foldl | intro _
                 | with_reducible apply State.enqueue_keeps | (simp only [Keeps.mark]; exact Updated.same ‹_›))

theorem State.addPair_keeps (gal gen a b : Nat) (resp : Bool) (hk : Keeps msk s0 s) : Keeps msk s0 (State.addPair
    s gal gen a b resp) := by
  unfold State.addPair
  repeat' (first | (simp only [Keeps.mark]; exact Updated.same ‹_›))

theorem State.mgmtSend_keeps (kind gal node gen : Nat) (hk : Keeps msk s0 s) : Keeps msk s0 (State.mgmtSend s kind
    gal node gen) := by
  unfold State.mgmtSend
  repeat' (first | with_reducible apply State.out_keeps | (simp only [Keeps.mark]; exact Updated.same ‹_›))

theorem State.startStep_keeps (gal : Nat) (hk : Keeps msk s0 s) : Keeps msk s0 (State.startStep s gal) := by
  unfold State.startStep
  repeat' (first | with_reducible assumption | with_reducible apply Keeps.foldl | intro _
                 | with_reducible apply State.modGal_keeps | with_reducible apply State.mgmtSend_keeps)

theorem State.askStep_keeps (gal : Nat) (hk : Keeps msk s0 s) : Keeps msk s0 (State.askStep s gal) := by
  unfold State.askStep
  repeat' (first | with_reducible assumption | (with_reducible apply Keeps.ite) <;> intro _
                 | with_reducible apply State.modGal_keeps | with_reducible apply State.startStep_keeps)

theorem State.countGen_keeps (src gal dest : Nat) (hk : Keeps msk s0 s) : Keeps msk s0 (State.countGen s src gal
    dest) := by
  unfold State.countGen
  repeat' (first | with_reducible assumption | (with_reducible apply Keeps.ite) <;> intro _
                 | with_reducible apply State.mgmtSend_keeps | with_reducible apply State.askStep_keeps
                 | (simp only [Keeps.mark]; exact Updated.same ‹_›))

theorem State.trySend_keeps (o : Outst) (hk : Keeps msk s0 s) : Keeps msk s0 (State.trySend s o).1 := by
  unfold State.trySend
  dsimp only
  repeat' (first | with_reducible apply State.enqueue_keeps | with_reducible apply State.countGen_keeps
                 | (simp only [Keeps.mark]; exact Updated.same ‹_›) | split)

theorem State.sendOrHold_keeps (o : Outst) (hk : Keeps msk s0 s) : Keeps msk s0 (State.sendOrHold s o).1 := by
  unfold State.sendOrHold
  repeat' (first | with_reducible assumption | with_reducible apply State.trySend_keeps
                 | with_reducible refine Keeps.ofEq ‹_› ?_ | split | (simp only [Keeps.mark]; refine Updated.same ?_))

theorem State.pumpHeld_keeps (sel : Outst → Bool) (hk : Keeps msk s0 s) : Keeps msk s0 (State.pumpHeld s sel).1 := by
  unfold State.pumpHeld
  repeat' (first | with_reducible assumption | with_reducible apply Keeps.foldlFst | intro _
                 | with_reducible apply State.trySend_keeps | with_reducible refine Keeps.ofEq ‹_› ?_ | split
                 | (simp only [Keeps.mark]; refine Updated.same ?_))

theorem State.markColour_keeps (p gal size : Nat) (hk : Keeps msk s0 s) : Keeps msk s0 (State.markColour s p gal
    size).1 := by
  unfold State.markColour
  repeat' (first | with_reducible assumption | with_reducible apply State.draw_keeps
                 | with_reducible apply State.modDocent_keeps)

theorem State.request_keeps (src : Nat) (org : Origin) (group : Option Nat) (gal ftype vc lines fpa param : Nat)
    (payload : Bytes) (tr : Option (Nat × Nat × Bool)) (hk : Keeps msk s0 s) : Keeps msk s0 (State.request s src org
    group gal ftype vc lines fpa param payload tr).1 := by
  unfold State.request
  repeat' (first | with_reducible assumption | (with_reducible apply Keeps.iteFst) <;> intro _
                 | with_reducible apply State.sendOrHold_keeps | with_reducible apply State.markColour_keeps
                 | (simp only [Keeps.mark]; refine Updated.same ?_))

theorem State.modWindow_keeps (rq : FHdr) (f : DupWin → DupWin) (hk : Keeps msk s0 s) : Keeps msk s0
    (State.modWindow s rq f) := by
  unfold State.modWindow
  repeat' (first | (simp only [Keeps.mark]; exact Updated.same ‹_›))

theorem State.respondAs_keeps (bare : Bool) (inp : Nat) (rq : FHdr) (ftype param : Nat) (payload : Bytes) (hk :
    Keeps msk s0 s) : Keeps msk s0 (State.respondAs s bare inp rq ftype param payload) := by
  unfold State.respondAs
  dsimp only
  repeat' (first | with_reducible assumption | with_reducible apply State.modWindow_keeps
                 | with_reducible apply State.addPair_keeps | with_reducible apply State.enqueue_keeps | split)

theorem State.respond_keeps (inp : Nat) (rq : FHdr) (ftype param : Nat) (payload : Bytes) (hk : Keeps msk s0 s) :
    Keeps msk s0 (State.respond s inp rq ftype param payload) := by
  unfold State.respond
  repeat' (first | with_reducible assumption | with_reducible apply State.respondAs_keeps)

theorem State.bareAck_keeps (inp : Nat) (rq : FHdr) (status : Nat) (pathFail : Bool) (hk : Keeps msk s0 s) : Keeps
    msk s0 (State.bareAck s inp rq status pathFail) := by
  unfold State.bareAck
  repeat' (first | with_reducible assumption | (with_reducible apply Keeps.ite) <;> intro _
                 | with_reducible apply State.respondAs_keeps)

theorem State.handled_keeps (rq : FHdr) (hk : Keeps msk s0 s) : Keeps msk s0 (State.handled s rq) := by
  unfold State.handled
  repeat' (first | with_reducible assumption | with_reducible apply State.modWindow_keeps)

theorem State.acceptPacket_keeps (h : FHdr) (payload tag : Bytes) (hk : Keeps msk s0 s) : Keeps msk s0
    (State.acceptPacket s h payload tag).1 := by
  unfold State.acceptPacket
  repeat' (first | (with_reducible apply Keeps.ite) <;> intro _ | (with_reducible apply Keeps.iteFst) <;> intro _
                 | with_reducible apply State.bareAck_keeps | (simp only [Keeps.mark]; exact Updated.same ‹_›))

theorem State.unqueue_keeps (hdr : Header) (payload : Bytes) (hk : Keeps msk s0 s) : Keeps msk s0 (State.unqueue s
    hdr payload) := by
  unfold State.unqueue
  repeat' (first | (simp only [Keeps.mark]; exact Updated.same ‹_›))

theorem State.ackAgain_keeps (inp : Nat) (h : FHdr) (hk : Keeps msk s0 s) : Keeps msk s0 (State.ackAgain s inp h)
    := by
  unfold State.ackAgain
  repeat' (first | with_reducible assumption | with_reducible apply State.respond_keeps)

theorem State.keepValue_keeps (h : FHdr) (status : Nat) (v : Word) (hk : Keeps msk s0 s) : Keeps msk s0
    (State.keepValue s h status v) := by
  unfold State.keepValue
  repeat' (first | with_reducible assumption | with_reducible apply State.modWindow_keeps)

theorem State.waitDone_keeps (w : Waiter) (status : Nat) (v : Word) (hk : Keeps msk s0 s) : Keeps msk s0
    (State.waitDone s w status v) := by
  unfold State.waitDone
  repeat' (first | with_reducible assumption | with_reducible apply State.respond_keeps
                 | with_reducible apply State.keepValue_keeps)

theorem State.soCommit_keeps (n : Nat) (v : Word) (hk : Keeps msk s0 s) : Keeps msk s0 (State.soCommit s n v) := by
  unfold State.soCommit
  repeat' (first | with_reducible assumption | with_reducible apply Keeps.foldl | intro _
                 | with_reducible apply State.setSo_keeps | with_reducible apply State.waitDone_keeps)

theorem State.soAddOf_keeps (n g k : Nat) (hk : Keeps msk s0 s) : Keeps msk s0 (State.soAddOf s n g k) := by
  unfold State.soAddOf
  repeat' (first | with_reducible assumption | (with_reducible apply Keeps.ite) <;> intro _
                 | with_reducible apply State.soCommit_keeps)

theorem State.fillUcache_keeps (p : Nat) (e : TlbEntry) (hk : Keeps msk s0 s) : Keeps msk s0 (State.fillUcache s p
    e) := by
  unfold State.fillUcache
  repeat' (first | with_reducible assumption | with_reducible apply State.modDocent_keeps)

theorem State.fillCidx_keeps (e : TlbEntry) (hk : Keeps msk s0 s) : Keeps msk s0 (State.fillCidx s e) := by
  unfold State.fillCidx
  repeat' (first | (simp only [Keeps.mark]; exact Updated.same ‹_›))

theorem State.cidxRead_keeps (e : TlbEntry) (hk : Keeps msk s0 s) : Keeps msk s0 (State.cidxRead s e) := by
  unfold State.cidxRead
  repeat' (first | with_reducible assumption | (with_reducible apply Keeps.ite) <;> intro _
                 | with_reducible apply State.vmTouch_keeps | with_reducible apply State.vmZero_keeps
                 | (simp only [Keeps.mark]; refine Updated.same ?_))

theorem State.cidxLookup_keeps (gal pasid fva : Nat) (r w : Bool) (hk : Keeps msk s0 s) : Keeps msk s0
    (State.cidxLookup s gal pasid fva r w).1 := by
  unfold State.cidxLookup
  repeat' (first | with_reducible assumption | with_reducible apply State.cidxRead_keeps | split
                 | (simp only [Keeps.mark]; refine Updated.same ?_))

theorem State.lookup_keeps (p : Nat) (st : Stream) (gal pasid fva : Nat) (r w : Bool) (hk : Keeps msk s0 s) :
    Keeps msk s0 (State.lookup s p st gal pasid fva r w).1 := by
  unfold State.lookup
  dsimp only
  repeat' (first | with_reducible assumption | with_reducible apply State.modDocent_keeps
                 | with_reducible apply State.fillUcache_keeps | with_reducible apply State.cidxLookup_keeps
                 | with_reducible refine Keeps.ofEq ‹_› ?_ | split)

theorem State.postAts_keeps (p f gal pasid fva : Nat) (xs : List StreamWait) (hk : Keeps msk s0 s) : Keeps msk s0
    (State.postAts s p f gal pasid fva xs) := by
  unfold State.postAts
  repeat' (first | with_reducible assumption | with_reducible apply State.modDocent_keeps
                 | with_reducible apply State.out_keeps)

theorem State.askAts_keeps (p gal pasid : Nat) (x : StreamWait) (hk : Keeps msk s0 s) : Keeps msk s0 (State.askAts
    s p gal pasid x).1 := by
  unfold State.askAts
  dsimp only
  repeat' (first | with_reducible assumption | with_reducible apply State.modDocent_keeps
                 | with_reducible apply State.postAts_keeps | split)

theorem State.lookAhead_keeps (g gal pasid fva : Nat) (hk : Keeps msk s0 s) : Keeps msk s0 (State.lookAhead s g
    gal pasid fva).1 := by
  unfold State.lookAhead
  dsimp only
  repeat' (first | with_reducible assumption | with_reducible apply State.postAts_keeps
                 | with_reducible apply State.lookup_keeps | with_reducible refine Keeps.ofEq ‹_› ?_ | split)

theorem State.translate_keeps (p : Nat) (st : Stream) (gal pasid fva : Nat) (r w : Bool) (hk : Keeps msk s0 s) :
    Keeps msk s0 (State.translate s p st gal pasid fva r w).1 := by
  unfold State.translate
  repeat' (first | with_reducible assumption | with_reducible apply State.lookup_keeps
                 | with_reducible apply State.askAts_keeps | with_reducible refine Keeps.ofEq ‹_› ?_ | split)

theorem State.sendPage_keeps (f : Nat) (hk : Keeps msk s0 s) : Keeps msk s0 (State.sendPage s f) := by
  unfold State.sendPage
  dsimp only
  repeat' (first | with_reducible assumption | with_reducible apply State.modFn_keeps
                 | with_reducible apply State.out_keeps | with_reducible apply State.incPut_keeps | split)

theorem State.endStream_keeps (p : Nat) (st : Stream) (hk : Keeps msk s0 s) : Keeps msk s0 (State.endStream s p
    st) := by
  unfold State.endStream
  repeat' (first | with_reducible assumption | with_reducible apply State.modDocent_keeps
                 | (simp only [Keeps.mark]; refine Updated.same ?_))

theorem State.wbFailed_keeps (p gal pasid fva status : Nat) (hk : Keeps msk s0 s) : Keeps msk s0 (State.wbFailed s
    p gal pasid fva status) := by
  unfold State.wbFailed
  repeat' (first | with_reducible assumption | with_reducible apply State.modDocent_keeps
                 | with_reducible apply State.galIncident_keeps | (simp only [Keeps.mark]; refine Updated.same ?_))

theorem State.writeBack_keeps (p : Nat) (l : PcLine) (hk : Keeps msk s0 s) : Keeps msk s0 (State.writeBack s p l)
    := by
  unfold State.writeBack
  repeat' (first | with_reducible assumption | with_reducible apply State.request_keeps
                 | with_reducible apply State.wbFailed_keeps | with_reducible refine Keeps.ofEq ‹_› ?_ | split)

theorem State.pcEvict_keeps (p gal : Nat) (hk : Keeps msk s0 s) : Keeps msk s0 (State.pcEvict s p gal) := by
  unfold State.pcEvict
  repeat' (first | with_reducible assumption | with_reducible apply State.modDocent_keeps
                 | with_reducible apply State.writeBack_keeps | split)

theorem State.barFills_keeps (sel : Outst → Bool) (hk : Keeps msk s0 s) : Keeps msk s0 (State.barFills s sel) := by
  unfold State.barFills
  repeat' (first | (simp only [Keeps.mark]; exact Updated.same ‹_›))

theorem State.pcPut_keeps (p : Nat) (l : PcLine) (hk : Keeps msk s0 s) : Keeps msk s0 (State.pcPut s p l) := by
  unfold State.pcPut
  repeat' (first | with_reducible assumption | (with_reducible apply Keeps.ite) <;> intro _
                 | with_reducible apply State.modDocent_keeps | with_reducible apply State.barFills_keeps
                 | with_reducible apply State.pcEvict_keeps)

theorem State.pcGet_keeps (p gal pasid fva : Nat) (hk : Keeps msk s0 s) : Keeps msk s0 (State.pcGet s p gal pasid
    fva).1 := by
  unfold State.pcGet
  repeat' (first | with_reducible assumption | with_reducible apply State.modDocent_keeps | split)

theorem State.pcFlush_keeps (p : Nat) (sel : PcLine → Bool) (drop : Bool) (hk : Keeps msk s0 s) : Keeps msk s0
    (State.pcFlush s p sel drop) := by
  unfold State.pcFlush
  repeat' (first | with_reducible assumption | with_reducible apply Keeps.foldl | intro _
                 | with_reducible apply State.modDocent_keeps | with_reducible apply State.writeBack_keeps)

theorem State.acquire_keeps (p gal pasid scope : Nat) (hk : Keeps msk s0 s) : Keeps msk s0 (State.acquire s p gal
    pasid scope) := by
  unfold State.acquire
  repeat' (first | with_reducible assumption | (with_reducible apply Keeps.ite) <;> intro _
                 | with_reducible apply State.modDocent_keeps | with_reducible apply State.barFills_keeps)

theorem State.invalidate_keeps (gal : Nat) (pasid : Option Nat) (base len : Nat) (hk : Keeps msk s0 s) : Keeps msk
    s0 (State.invalidate s gal pasid base len) := by
  unfold State.invalidate
  repeat' (first | with_reducible assumption | with_reducible apply Keeps.foldl | intro _
                 | with_reducible apply State.pcFlush_keeps | (simp only [Keeps.mark]; exact Updated.same ‹_›))

theorem State.dropTranslations_keeps (gal : Nat) (hk : Keeps msk s0 s) : Keeps msk s0 (State.dropTranslations s
    gal) := by
  unfold State.dropTranslations
  repeat' (first | with_reducible assumption | with_reducible apply State.invalidate_keeps)

theorem State.linkPump_keeps (p : Nat) (hk : Keeps msk s0 s) : Keeps msk s0 (State.linkPump s p) := by
  unfold State.linkPump
  repeat' (first | with_reducible assumption | (with_reducible apply Keeps.ite) <;> intro _
                 | with_reducible apply Keeps.foldl | intro _ | with_reducible apply State.modLink_keeps
                 | with_reducible apply State.sendData_keeps)

theorem State.linkSend_keeps (p vc cls : Nat) (hdr : Header) (payload tag : Bytes) (hk : Keeps msk s0 s) : Keeps
    msk s0 (State.linkSend s p vc cls hdr payload tag) := by
  unfold State.linkSend
  repeat' (first | with_reducible assumption | with_reducible apply State.modLink_keeps
                 | with_reducible apply State.linkPump_keeps)

theorem State.sendCtrl_keeps (p : Nat) (nak : Bool) (credit : Option (Nat × Nat)) (hk : Keeps msk s0 s) : Keeps
    msk s0 (State.sendCtrl s p nak credit) := by
  unfold State.sendCtrl
  repeat' (first | with_reducible assumption | (with_reducible apply Keeps.ite) <;> intro _
                 | with_reducible apply State.modLink_keeps | with_reducible apply State.ctrlOut_keeps)

theorem State.nakAgain_keeps (p : Nat) (hk : Keeps msk s0 s) : Keeps msk s0 (State.nakAgain s p) := by
  unfold State.nakAgain
  repeat' (first | with_reducible assumption | (with_reducible apply Keeps.ite) <;> intro _
                 | with_reducible apply State.draw_keeps | with_reducible apply State.modLink_keeps
                 | with_reducible apply State.sendCtrl_keeps)

theorem State.flitTime_keeps (hk : Keeps msk s0 s) : Keeps msk s0 (State.flitTime s) := by
  unfold State.flitTime
  repeat' (first | with_reducible assumption | (with_reducible apply Keeps.ite) <;> intro _
                 | with_reducible apply Keeps.foldl | intro _ | with_reducible apply State.sendFiller_keeps
                 | with_reducible apply State.nakAgain_keeps)

theorem State.linkFree_keeps (p vc cells : Nat) (hk : Keeps msk s0 s) : Keeps msk s0 (State.linkFree s p vc cells)
    := by
  unfold State.linkFree
  repeat' (first | with_reducible assumption | with_reducible apply State.modLink_keeps
                 | with_reducible apply State.sendCtrl_keeps)

theorem State.payDue_keeps (p : Nat) (hk : Keeps msk s0 s) : Keeps msk s0 (State.payDue s p) := by
  unfold State.payDue
  repeat' (first | with_reducible assumption | (with_reducible apply Keeps.ite) <;> intro _
                 | with_reducible apply Keeps.foldl | intro _ | with_reducible apply State.modLink_keeps
                 | with_reducible apply State.sendCtrl_keeps)

theorem State.leaveIdle_keeps (p : Nat) (hk : Keeps msk s0 s) : Keeps msk s0 (State.leaveIdle s p) := by
  unfold State.leaveIdle
  repeat' (first | with_reducible assumption | (with_reducible apply Keeps.ite) <;> intro _
                 | with_reducible apply State.sendBurst_keeps | with_reducible apply State.modLink_keeps
                 | with_reducible apply State.payDue_keeps | with_reducible apply State.linkPump_keeps)

theorem State.sendEp_keeps (p gal : Nat) (e : EHdr) (payload : Bytes) (hk : Keeps msk s0 s) : Keeps msk s0
    (State.sendEp s p gal e payload) := by
  unfold State.sendEp
  repeat' (first | with_reducible assumption | with_reducible apply State.modDocent_keeps
                 | with_reducible apply State.out_keeps | with_reducible apply State.linkSend_keeps | split)

theorem State.takeEp_keeps (p : Nat) (hdr : Header) (payload : Bytes) (hk : Keeps msk s0 s) : Keeps msk s0
    (State.takeEp s p hdr payload) := by
  unfold State.takeEp
  repeat' (first | with_reducible assumption | (with_reducible apply Keeps.ite) <;> intro _
                 | with_reducible apply State.linkFree_keeps | (simp only [Keeps.mark]; exact Updated.same ‹_›))

theorem State.epComplete_keeps (p gal : Nat) (e : EHdr) (status : Nat) (payload : Bytes) (hk : Keeps msk s0 s) :
    Keeps msk s0 (State.epComplete s p gal e status payload) := by
  unfold State.epComplete
  repeat' (first | with_reducible assumption | (with_reducible apply Keeps.ite) <;> intro _
                 | with_reducible apply State.draw_keeps | with_reducible apply State.sendEp_keeps)

theorem State.epAuth_keeps (p : Nat) (e : EHdr) (payload tag : Bytes) (hk : Keeps msk s0 s) : Keeps msk s0
    (State.epAuth s p e payload tag).1 := by
  unfold State.epAuth
  dsimp only
  repeat' (first | with_reducible assumption | with_reducible apply State.modDocent_keeps | split)

theorem State.protoErr_keeps (p : Nat) (hk : Keeps msk s0 s) : Keeps msk s0 (State.protoErr s p) := by
  unfold State.protoErr
  repeat' (first | with_reducible assumption | with_reducible apply State.modDocent_keeps)

theorem State.dropReq_keeps (p tag : Nat) (hk : Keeps msk s0 s) : Keeps msk s0 (State.dropReq s p tag) := by
  unfold State.dropReq
  repeat' (first | with_reducible assumption | with_reducible apply State.modDocent_keeps)

theorem State.finishReq_keeps (p : Nat) (q : EpReq) (status : Nat) (payload : Bytes) (hk : Keeps msk s0 s) : Keeps
    msk s0 (State.finishReq s p q status payload) := by
  unfold State.finishReq
  repeat' (first | with_reducible assumption | with_reducible apply State.dropReq_keeps
                 | with_reducible apply State.epComplete_keeps | with_reducible apply State.endStream_keeps)

theorem State.epSend_keeps (p : Nat) (q : EpReq) (fpa : Nat) (hk : Keeps msk s0 s) : Keeps msk s0 (State.epSend s
    p q fpa).1 := by
  unfold State.epSend
  repeat' (first | with_reducible assumption | (with_reducible apply Keeps.iteFst) <;> intro _
                 | with_reducible apply State.request_keeps)

theorem State.epAdvance_keeps (p tag : Nat) (hk : Keeps msk s0 s) : Keeps msk s0 (State.epAdvance s p tag) := by
  unfold State.epAdvance
  dsimp only
  repeat' (first | with_reducible assumption | with_reducible apply State.modDocent_keeps
                 | with_reducible apply State.finishReq_keeps | with_reducible apply State.translate_keeps
                 | with_reducible apply State.epSend_keeps | with_reducible refine Keeps.ofEq ‹_› ?_ | split)

theorem State.epRequest_keeps (opcode : Nat) (p : Nat) (hdr : Header) (payload tag : Bytes) (hk : Keeps msk s0 s)
    : Keeps msk s0 (State.epRequest s opcode p hdr payload tag) := by
  unfold State.epRequest
  dsimp only
  repeat' (first | with_reducible assumption | with_reducible apply State.modDocent_keeps
                 | with_reducible apply State.protoErr_keeps | with_reducible apply State.epAuth_keeps
                 | with_reducible apply State.takeEp_keeps | with_reducible apply State.epComplete_keeps
                 | with_reducible apply State.epAdvance_keeps | with_reducible refine Keeps.ofEq ‹_› ?_ | split)

theorem execLoad_keeps (p : Port) (hdr : Header) (payload tag : Bytes) (hk : Keeps msk s0 s) : KeepsO msk s0
    (execLoad p hdr payload tag s) := by
  unfold execLoad
  repeat' (first | with_reducible assumption | with_reducible apply KeepsO.next
                 | with_reducible apply State.epRequest_keeps)

theorem execStore_keeps (p : Port) (hdr : Header) (payload tag : Bytes) (hk : Keeps msk s0 s) : KeepsO msk s0
    (execStore p hdr payload tag s) := by
  unfold execStore
  repeat' (first | with_reducible assumption | with_reducible apply KeepsO.next
                 | with_reducible apply State.epRequest_keeps)

theorem execStoreMasked_keeps (p : Port) (hdr : Header) (payload tag : Bytes) (hk : Keeps msk s0 s) : KeepsO msk
    s0 (execStoreMasked p hdr payload tag s) := by
  unfold execStoreMasked
  repeat' (first | with_reducible assumption | with_reducible apply KeepsO.next
                 | with_reducible apply State.epRequest_keeps)

theorem execSync_keeps (p : Port) (hdr : Header) (payload tag : Bytes) (hk : Keeps msk s0 s) : KeepsO msk s0
    (execSync p hdr payload tag s) := by
  unfold execSync
  repeat' (first | with_reducible assumption | with_reducible apply KeepsO.next
                 | with_reducible apply State.epRequest_keeps)

theorem execAtomic_keeps (p : Port) (hdr : Header) (payload tag : Bytes) (hk : Keeps msk s0 s) : KeepsO msk s0
    (execAtomic p hdr payload tag s) := by
  unfold execAtomic
  repeat' (first | with_reducible assumption | with_reducible apply KeepsO.next
                 | with_reducible apply State.epRequest_keeps)

theorem execReservedOpcode_keeps (p : Port) (hdr : Header) (payload tag : Bytes) (hk : Keeps msk s0 s) : KeepsO
    msk s0 (execReservedOpcode p hdr payload tag s) := by
  unfold execReservedOpcode
  dsimp only
  repeat' (first | with_reducible assumption | with_reducible apply KeepsO.next
                 | with_reducible apply State.protoErr_keeps | with_reducible apply State.epAuth_keeps
                 | with_reducible apply State.takeEp_keeps | with_reducible apply State.epComplete_keeps
                 | with_reducible refine Keeps.ofEq ‹_› ?_ | split)

theorem State.answerFail_keeps (inp : Nat) (h : FHdr) (status : Nat) (hk : Keeps msk s0 s) : Keeps msk s0
    (State.answerFail s inp h status) := by
  unfold State.answerFail
  repeat' (first | with_reducible assumption | with_reducible apply State.respond_keeps
                 | with_reducible apply State.handled_keeps | with_reducible apply State.modWindow_keeps)

theorem State.ackWrite_keeps (inp : Nat) (h : FHdr) (hk : Keeps msk s0 s) : Keeps msk s0 (State.ackWrite s inp h)
    := by
  unfold State.ackWrite
  repeat' (first | with_reducible assumption | with_reducible apply State.respond_keeps
                 | with_reducible apply State.handled_keeps)

theorem State.setArv_keeps (k : Nat × Nat × Nat) (a : ArvCount) (hk : Keeps msk s0 s) : Keeps msk s0 (State.setArv
    s k a) := by
  unfold State.setArv
  repeat' (first | (simp only [Keeps.mark]; exact Updated.same ‹_›))

theorem State.arvDrain_keeps (so gal n : Nat) (a : ArvCount) (hk : Keeps msk s0 s) : Keeps msk s0 ((s.arvDrain so
    gal n a).1) := by
  induction n generalizing s a with
  | zero =>
    unfold State.arvDrain
    try dsimp only
    repeat' (first | with_reducible assumption)
  | succ n ih =>
    unfold State.arvDrain
    try dsimp only
    repeat' (first | with_reducible assumption | with_reducible apply State.ackWrite_keeps
                   | with_reducible apply State.soAddOf_keeps | with_reducible apply ih | split)

theorem State.committed_keeps (inp : Nat) (h : FHdr) (xfer : Option (Nat × Nat)) (hk : Keeps msk s0 s) : Keeps msk
    s0 (State.committed s inp h xfer) := by
  unfold State.committed
  dsimp only
  repeat' (first | with_reducible assumption | with_reducible apply State.ackWrite_keeps
                 | with_reducible apply State.setArv_keeps | with_reducible apply State.soAddOf_keeps
                 | with_reducible apply State.arvDrain_keeps | split)

theorem State.writeFailed_keeps (inp : Nat) (h : FHdr) (xfer : Option (Nat × Nat)) (status : Nat) (hk : Keeps msk
    s0 s) : Keeps msk s0 (State.writeFailed s inp h xfer status) := by
  unfold State.writeFailed
  repeat' (first | with_reducible assumption | with_reducible apply Keeps.foldl | intro _
                 | with_reducible apply State.ackWrite_keeps | with_reducible apply State.setArv_keeps
                 | with_reducible apply State.answerFail_keeps | split)

theorem State.target_keeps (p : Nat) (opcode linesM1 addr word : Nat) (payload : Bytes) (h : FHdr) (reqPayload :
    Bytes) (xfer : Option (Nat × Nat)) (hk : Keeps msk s0 s) : Keeps msk s0 (State.target s p opcode linesM1 addr word
    payload h reqPayload xfer).1 := by
  unfold State.target
  repeat' (first | with_reducible assumption | with_reducible apply State.modDocent_keeps
                 | with_reducible apply State.sendEp_keeps | split)

theorem State.targetAnswer_keeps (p : Nat) (q : TgtReq) (status : Nat) (payload : Bytes) (hk : Keeps msk s0 s) :
    Keeps msk s0 (State.targetAnswer s p q status payload) := by
  unfold State.targetAnswer
  repeat' (first | with_reducible assumption | (with_reducible apply Keeps.ite) <;> intro _
                 | with_reducible apply State.respond_keeps | with_reducible apply State.handled_keeps
                 | with_reducible apply State.keepValue_keeps | with_reducible apply State.writeFailed_keeps
                 | with_reducible apply State.committed_keeps)

theorem State.targetDone_keeps (opcode : Nat) (p : Nat) (hdr : Header) (payload tag : Bytes) (hk : Keeps msk s0 s)
    : Keeps msk s0 (State.targetDone s opcode p hdr payload tag) := by
  unfold State.targetDone
  dsimp only
  repeat' (first | with_reducible assumption | with_reducible apply State.modDocent_keeps
                 | with_reducible apply State.protoErr_keeps | with_reducible apply State.epAuth_keeps
                 | with_reducible apply State.takeEp_keeps | with_reducible apply State.targetAnswer_keeps
                 | with_reducible refine Keeps.ofEq ‹_› ?_ | split)

theorem execTReadData_keeps (p : Port) (hdr : Header) (payload tag : Bytes) (hk : Keeps msk s0 s) : KeepsO msk s0
    (execTReadData p hdr payload tag s) := by
  unfold execTReadData
  repeat' (first | with_reducible assumption | with_reducible apply KeepsO.next
                 | with_reducible apply State.targetDone_keeps)

theorem execTWriteDone_keeps (p : Port) (hdr : Header) (payload tag : Bytes) (hk : Keeps msk s0 s) : KeepsO msk s0
    (execTWriteDone p hdr payload tag s) := by
  unfold execTWriteDone
  repeat' (first | with_reducible assumption | with_reducible apply KeepsO.next
                 | with_reducible apply State.targetDone_keeps)

theorem execTMaskedDone_keeps (p : Port) (hdr : Header) (payload tag : Bytes) (hk : Keeps msk s0 s) : KeepsO msk
    s0 (execTMaskedDone p hdr payload tag s) := by
  unfold execTMaskedDone
  repeat' (first | with_reducible assumption | with_reducible apply KeepsO.next
                 | with_reducible apply State.targetDone_keeps)

theorem execTAtomicDone_keeps (p : Port) (hdr : Header) (payload tag : Bytes) (hk : Keeps msk s0 s) : KeepsO msk
    s0 (execTAtomicDone p hdr payload tag s) := by
  unfold execTAtomicDone
  repeat' (first | with_reducible assumption | with_reducible apply KeepsO.next
                 | with_reducible apply State.targetDone_keeps)

theorem execTargetTimeout_keeps (p : Port) (tag : BitVec 10) (hk : Keeps msk s0 s) : KeepsO msk s0
    (execTargetTimeout p tag s) := by
  unfold execTargetTimeout
  repeat' (first | with_reducible assumption | with_reducible apply KeepsO.next
                 | with_reducible apply State.modDocent_keeps | with_reducible apply State.targetAnswer_keeps | split)

theorem State.receive_keeps (ft : Nat) (hdr : Header) (payload tag : Bytes) (hk : Keeps msk s0 s) : Keeps msk s0
    (State.receive s ft hdr payload tag).1 := by
  unfold State.receive
  dsimp only
  repeat' (first | with_reducible assumption | with_reducible apply State.unqueue_keeps
                 | with_reducible apply State.acceptPacket_keeps | with_reducible refine Keeps.ofEq ‹_› ?_ | split)

theorem State.writeRequest_keeps (h : FHdr) (xfer : Option (Nat × Nat)) (shelf : State → State × Bool) (target :
    State → State × Bool) (keep : State) (k_shelf : ∀ (y : State) , Keeps msk s0 y → Keeps msk s0 (shelf y ).1)
    (k_target : ∀ (y : State) , Keeps msk s0 y → Keeps msk s0 (target y ).1) (k_keep : Keeps msk s0 keep) (hk : Keeps
    msk s0 s) : Keeps msk s0 (State.writeRequest s h xfer shelf target keep) := by
  unfold State.writeRequest
  repeat' (first | with_reducible assumption | with_reducible apply State.ackAgain_keeps
                 | with_reducible apply State.writeFailed_keeps | with_reducible apply State.committed_keeps
                 | (with_reducible apply k_shelf) | (with_reducible apply k_target)
                 | with_reducible refine Keeps.ofEq ‹_› ?_ | split)

theorem execRead_keeps (hdr : Header) (payload tag : Bytes) (hk : Keeps msk s0 s) : KeepsO msk s0 (execRead hdr
    payload tag s) := by
  unfold execRead
  dsimp only
  repeat' (first | with_reducible assumption | with_reducible apply KeepsO.next
                 | with_reducible apply State.respond_keeps | with_reducible apply State.answerFail_keeps
                 | with_reducible apply State.handled_keeps | with_reducible apply State.vmRead_keeps
                 | with_reducible apply State.receive_keeps | with_reducible apply State.target_keeps
                 | with_reducible refine Keeps.ofEq ‹_› ?_ | split)

theorem execWrite_keeps (hdr : Header) (payload tag : Bytes) (xfer : Option (Nat × Nat)) (hk : Keeps msk s0 s) :
    KeepsO msk s0 (execWrite hdr payload tag xfer s) := by
  unfold execWrite
  repeat' (first | with_reducible assumption | with_reducible apply KeepsO.next | intro _
                 | with_reducible apply State.vmWrite_keeps | with_reducible apply State.receive_keeps
                 | with_reducible apply State.target_keeps | with_reducible apply State.writeRequest_keeps
                 | with_reducible refine Keeps.ofEq ‹_› ?_ | split)

theorem State.shelfMasked_keeps (vpa : Nat) (mask new : Bytes) (hk : Keeps msk s0 s) : Keeps msk s0
    (State.shelfMasked s vpa mask new).1 := by
  unfold State.shelfMasked
  repeat' (first | with_reducible assumption | (with_reducible apply Keeps.ite) <;> intro _
                 | (with_reducible apply Keeps.iteFst) <;> intro _ | with_reducible apply State.vmTouch_keeps
                 | with_reducible apply State.vmWrite_keeps)

theorem execWriteMasked_keeps (hdr : Header) (payload tag : Bytes) (xfer : Option (Nat × Nat)) (hk : Keeps msk s0
    s) : KeepsO msk s0 (execWriteMasked hdr payload tag xfer s) := by
  unfold execWriteMasked
  repeat' (first | with_reducible assumption | with_reducible apply KeepsO.next | intro _
                 | with_reducible apply State.receive_keeps | with_reducible apply State.target_keeps
                 | with_reducible apply State.shelfMasked_keeps | with_reducible apply State.writeRequest_keeps
                 | with_reducible refine Keeps.ofEq ‹_› ?_ | split)

theorem execZeroRun_keeps (hdr : Header) (payload tag : Bytes) (xfer : Option (Nat × Nat)) (hk : Keeps msk s0 s) :
    KeepsO msk s0 (execZeroRun hdr payload tag xfer s) := by
  unfold execZeroRun
  repeat' (first | with_reducible assumption | with_reducible apply KeepsO.next | intro _
                 | with_reducible apply State.vmZero_keeps | with_reducible apply State.receive_keeps
                 | with_reducible apply State.target_keeps | with_reducible apply State.writeRequest_keeps
                 | with_reducible refine Keeps.ofEq ‹_› ?_ | split)

theorem State.syncDone_keeps (h : FHdr) (status : Nat) (v : Word) (hk : Keeps msk s0 s) : Keeps msk s0
    (State.syncDone s h status v) := by
  unfold State.syncDone
  repeat' (first | with_reducible assumption | with_reducible apply State.handled_keeps
                 | with_reducible apply State.keepValue_keeps | with_reducible apply State.respond_keeps)

theorem State.dupValue_keeps (inp : Nat) (h : FHdr) (hk : Keeps msk s0 s) : Keeps msk s0 (State.dupValue s inp h)
    := by
  unfold State.dupValue
  repeat' (first | with_reducible assumption | with_reducible apply State.respond_keeps
                 | with_reducible apply State.ackAgain_keeps | split)

theorem State.enterWait_keeps (so : Nat) (h : FHdr) (eq : Bool) (operand : Word) (timeout : Nat) (hk : Keeps msk
    s0 s) : Keeps msk s0 (State.enterWait s so h eq operand timeout) := by
  unfold State.enterWait
  repeat' (first | with_reducible assumption | (with_reducible apply Keeps.ite) <;> intro _
                 | with_reducible apply State.setSo_keeps | with_reducible apply State.handled_keeps
                 | with_reducible apply State.syncDone_keeps | with_reducible apply State.respond_keeps
                 | (simp only [Keeps.mark]; exact Updated.same ‹_›))

theorem execFabricSync_keeps (hdr : Header) (payload tag : Bytes) (hk : Keeps msk s0 s) : KeepsO msk s0
    (execFabricSync hdr payload tag s) := by
  unfold execFabricSync
  dsimp only
  repeat' (first | with_reducible assumption | with_reducible apply KeepsO.next
                 | with_reducible apply State.answerFail_keeps | with_reducible apply State.handled_keeps
                 | with_reducible apply State.modWindow_keeps | with_reducible apply State.syncDone_keeps
                 | with_reducible apply State.dupValue_keeps | with_reducible apply State.soCommit_keeps
                 | with_reducible apply State.receive_keeps | with_reducible apply State.enterWait_keeps
                 | with_reducible refine Keeps.ofEq ‹_› ?_ | split)

theorem State.takeOnce_keeps (ft : Nat) (inp : FHdr → Nat) (mine : Bytes → Bool) (pkt : FabPkt) (act : State →
    FHdr → Bytes → State) (k_act : ∀ (y : State) x0 x1, Keeps msk s0 y → Keeps msk s0 (act y x0 x1)) (hk : Keeps msk
    s0 s) : Keeps msk s0 (State.takeOnce s ft inp mine pkt act) := by
  unfold State.takeOnce
  dsimp only
  repeat' (first | with_reducible assumption | with_reducible apply State.ackWrite_keeps
                 | with_reducible apply State.unqueue_keeps | with_reducible apply State.ackAgain_keeps
                 | with_reducible apply State.acceptPacket_keeps | (with_reducible apply k_act)
                 | with_reducible refine Keeps.ofEq ‹_› ?_ | split)

theorem State.dropWait_keeps (srcNode srcPort dseq : Nat) (hk : Keeps msk s0 s) : Keeps msk s0 (State.dropWait s
    srcNode srcPort dseq) := by
  unfold State.dropWait
  repeat' (first | with_reducible assumption | (with_reducible apply Keeps.ite) <;> intro _
                 | (simp only [Keeps.mark]; exact Updated.same ‹_›))

theorem execWaitWithdrawal_keeps (pkt : FabPkt) (hk : Keeps msk s0 s) : KeepsO msk s0 (execWaitWithdrawal pkt s) := by
  unfold execWaitWithdrawal
  repeat' (first | with_reducible assumption | with_reducible apply KeepsO.next | intro _
                 | with_reducible apply State.dropWait_keeps | with_reducible apply State.takeOnce_keeps)

theorem execWaitExpiry_keeps (so : SoNo) (idx : Nat) (hk : Keeps msk s0 s) : KeepsO msk s0 (execWaitExpiry so idx
    s) := by
  unfold execWaitExpiry
  dsimp only
  repeat' (first | with_reducible assumption | with_reducible apply KeepsO.next
                 | with_reducible apply State.setSo_keeps | with_reducible apply State.waitDone_keeps | split)

theorem execFabricAtomic_keeps (hdr : Header) (payload tag : Bytes) (hk : Keeps msk s0 s) : KeepsO msk s0
    (execFabricAtomic hdr payload tag s) := by
  unfold execFabricAtomic
  dsimp only
  repeat' (first | with_reducible assumption | with_reducible apply KeepsO.next
                 | with_reducible apply State.answerFail_keeps | with_reducible apply State.syncDone_keeps
                 | with_reducible apply State.vmRead_keeps | with_reducible apply State.dupValue_keeps
                 | with_reducible apply State.vmWrite_keeps | with_reducible apply State.receive_keeps
                 | with_reducible apply State.target_keeps | with_reducible refine Keeps.ofEq ‹_› ?_ | split)

theorem State.redPieces_keeps (src : Nat) (org : Origin) (kind gal node : Nat) (port : Option Nat) (l : List
    Bytes) (hk : Keeps msk s0 s) : Keeps msk s0 ((s.redPieces src org kind gal node port l).1) := by
  induction l generalizing s with
  | nil =>
    unfold State.redPieces
    try dsimp only
    repeat' (first | with_reducible assumption)
  | cons b t ih =>
    unfold State.redPieces
    try dsimp only
    repeat' (first | with_reducible assumption | with_reducible apply State.request_keeps | with_reducible apply ih
                   | with_reducible refine Keeps.ofEq ‹_› ?_ | split)

theorem State.redSend_keeps (src : Nat) (org : Origin) (kind gal node : Nat) (port : Option Nat) (sched inst :
    Nat) (nums : List Nat) (bs : Bytes) (hk : Keeps msk s0 s) : Keeps msk s0 (State.redSend s src org kind gal node
    port sched inst nums bs).1 := by
  unfold State.redSend
  repeat' (first | with_reducible assumption | with_reducible apply State.out_keeps
                 | with_reducible apply State.redPieces_keeps)

theorem State.sendAbort_keeps (gal node : Nat) (port : Option Nat) (sched inst status : Nat) (pathLost : Bool)
    (begun : Option (Nat × Nat)) (hk : Keeps msk s0 s) : Keeps msk s0 (State.sendAbort s gal node port sched inst
    status pathLost begun) := by
  unfold State.sendAbort
  repeat' (first | with_reducible assumption | with_reducible apply State.redSend_keeps)

theorem State.redArrive_keeps (kind : Nat) (pkt : FabPkt) (act : State → Bytes → State) (k_act : ∀ (y : State) x0,
    Keeps msk s0 y → Keeps msk s0 (act y x0)) (hk : Keeps msk s0 s) : Keeps msk s0 (State.redArrive s kind pkt act) :=
    by
  unfold State.redArrive
  repeat' (first | with_reducible assumption | (with_reducible apply Keeps.ite) <;> intro _ | intro _
                 | with_reducible apply State.takeOnce_keeps | (with_reducible apply k_act))

end Sys2Proof.Machine
end

