-- ==== Sys2Proof/Laws/KeepsTour.lean ====
section
/-! SUPPORT. What each operation keeps (`Keeps`): tours and packet transfers. -/

set_option maxRecDepth 4000
set_option Elab.async false

namespace Sys2Proof.Machine

variable {msk : Part} {s0 s : State}

theorem State.grantSlot_keeps (p : Nat) (hk : Keeps msk s0 s) : Keeps msk s0 (State.grantSlot s p) := by
  unfold State.grantSlot
  dsimp only
  repeat' (first | with_reducible assumption | with_reducible apply State.modCtx_keeps
                 | with_reducible apply State.modDocent_keeps | split)

theorem State.doQuantumExpiry_keeps (p : Port) (hk : Keeps msk s0 s) : Keeps msk s0 (State.doQuantumExpiry s p) := by
  unfold State.doQuantumExpiry
  dsimp only
  repeat' (first | with_reducible assumption | with_reducible apply State.modCtx_keeps
                 | with_reducible apply State.grantSlot_keeps | split)

theorem State.orphan_keeps (sel : Origin → Bool) (hk : Keeps msk s0 s) : Keeps msk s0 (State.orphan s sel) := by
  unfold State.orphan
  repeat' (first | with_reducible assumption | with_reducible apply State.mcUnsent_keeps
                 | (simp only [Keeps.mark]; refine Updated.same ?_))

theorem State.copiesGone_keeps (ops : List Op) (hk : Keeps msk s0 s) : Keeps msk s0 (State.copiesGone s ops) := by
  unfold State.copiesGone
  repeat' (first | with_reducible assumption | with_reducible apply Keeps.foldl
                 | with_reducible apply State.mcRelease_keeps)

theorem State.withdrawMember_keeps (g : Nat) (o : Op) (own : Nat) (pathLost : Bool) (hk : Keeps msk s0 s) : Keeps
    msk s0 (State.withdrawMember s g o own pathLost) := by
  unfold State.withdrawMember
  repeat' (first | with_reducible assumption | with_reducible apply State.redSend_keeps | split)

theorem State.withdrawWait_keeps (g : Nat) (hk : Keeps msk s0 s) : Keeps msk s0 (State.withdrawWait s g) := by
  unfold State.withdrawWait
  dsimp only
  repeat' (first | with_reducible apply State.request_keeps | (simp only [Keeps.mark]; exact Updated.same ‹_›)
                 | split)

theorem State.beginEnding_keeps (g : Nat) (hk : Keeps msk s0 s) : Keeps msk s0 (State.beginEnding s g) := by
  unfold State.beginEnding
  dsimp only
  repeat' (first | with_reducible assumption | with_reducible apply State.modCtx_keeps
                 | with_reducible apply State.withdrawWait_keeps | with_reducible apply State.endStream_keeps | split)

theorem State.endLater_keeps (g i : Nat) (hk : Keeps msk s0 s) : Keeps msk s0 (State.endLater s g i) := by
  unfold State.endLater
  repeat' (first | with_reducible assumption | with_reducible apply Keeps.foldl | intro _
                 | with_reducible apply State.copiesGone_keeps | with_reducible apply State.modCtx_keeps
                 | with_reducible apply State.withdrawMember_keeps | with_reducible apply State.orphan_keeps)

theorem State.opFailing_keeps (g i : Nat) (hk : Keeps msk s0 s) : Keeps msk s0 (State.opFailing s g i) := by
  unfold State.opFailing
  repeat' (first | with_reducible assumption | with_reducible apply State.endLater_keeps
                 | with_reducible apply State.beginEnding_keeps)

theorem State.instrFail_keeps (g status : Nat) (hk : Keeps msk s0 s) : Keeps msk s0 (State.instrFail s g status) := by
  unfold State.instrFail
  repeat' (first | with_reducible assumption | with_reducible apply State.modCtx_keeps
                 | with_reducible apply State.beginEnding_keeps)

theorem State.launchDone_keeps (g status : Nat) (hk : Keeps msk s0 s) : Keeps msk s0 (State.launchDone s g status)
    := by
  unfold State.launchDone
  dsimp only
  repeat' (first | with_reducible assumption | with_reducible apply State.complete_keeps
                 | with_reducible apply State.epComplete_keeps | split)

theorem State.toIdle_keeps (g status : Nat) (hk : Keeps msk s0 s) : Keeps msk s0 (State.toIdle s g status) := by
  unfold State.toIdle
  repeat' (first | with_reducible assumption | with_reducible apply State.copiesGone_keeps
                 | with_reducible apply State.modCtx_keeps | with_reducible apply State.orphan_keeps
                 | with_reducible apply State.endStream_keeps)

theorem State.finishTour_keeps (g : Nat) (moveEndSo : Bool) (hk : Keeps msk s0 s) : Keeps msk s0 (State.finishTour
    s g moveEndSo) := by
  unfold State.finishTour
  repeat' (first | with_reducible assumption | (with_reducible apply Keeps.ite) <;> intro _
                 | with_reducible apply State.soAddOf_keeps | with_reducible apply State.toIdle_keeps
                 | with_reducible apply State.launchDone_keeps)

theorem State.launchFail_keeps (g status : Nat) (hk : Keeps msk s0 s) : Keeps msk s0 (State.launchFail s g status)
    := by
  unfold State.launchFail
  repeat' (first | with_reducible assumption | with_reducible apply State.modCtx_keeps
                 | with_reducible apply State.finishTour_keeps)

theorem State.endRecordFailed_keeps (g status : Nat) (hk : Keeps msk s0 s) : Keeps msk s0 (State.endRecordFailed s
    g status) := by
  unfold State.endRecordFailed
  repeat' (first | with_reducible assumption | with_reducible apply State.galIncident_keeps
                 | with_reducible apply State.finishTour_keeps)

theorem State.ctxTranslate_keeps (g : Nat) (want : Want) (fva : Nat) (r w : Bool) (hk : Keeps msk s0 s) : Keeps
    msk s0 (State.ctxTranslate s g want fva r w).1 := by
  unfold State.ctxTranslate
  dsimp only
  repeat' (first | with_reducible assumption | with_reducible apply State.modCtx_keeps
                 | with_reducible apply State.translate_keeps | with_reducible refine Keeps.ofEq ‹_› ?_ | split)

theorem State.sendEndRecord_keeps (g : Nat) (hk : Keeps msk s0 s) : Keeps msk s0 (State.sendEndRecord s g) := by
  unfold State.sendEndRecord
  dsimp only
  repeat' (first | with_reducible assumption | with_reducible apply State.modCtx_keeps
                 | with_reducible apply State.endRecordFailed_keeps | with_reducible apply State.request_keeps
                 | with_reducible apply State.ctxTranslate_keeps | with_reducible refine Keeps.ofEq ‹_› ?_ | split)

theorem State.doTourEnd_keeps (p : Port) (c : CtxNo) (hk : Keeps msk s0 s) : Keeps msk s0 (State.doTourEnd s p c)
    := by
  unfold State.doTourEnd
  repeat' (first | with_reducible assumption | (with_reducible apply Keeps.ite) <;> intro _
                 | with_reducible apply State.modCtx_keeps | with_reducible apply State.finishTour_keeps
                 | with_reducible apply State.sendEndRecord_keeps)

theorem State.abortTour_keeps (g : Nat) (hk : Keeps msk s0 s) : Keeps msk s0 (State.abortTour s g) := by
  unfold State.abortTour
  dsimp only
  repeat' (first | with_reducible assumption | with_reducible apply Keeps.foldl | intro _
                 | with_reducible apply State.modCtx_keeps | with_reducible apply State.withdrawMember_keeps
                 | with_reducible apply State.toIdle_keeps | with_reducible apply State.withdrawWait_keeps
                 | with_reducible apply State.launchDone_keeps | split)

theorem State.goTo_keeps (g pc : Nat) (hk : Keeps msk s0 s) : Keeps msk s0 (State.goTo s g pc) := by
  unfold State.goTo
  repeat' (first | with_reducible assumption | (with_reducible apply Keeps.ite) <;> intro _
                 | with_reducible apply State.modCtx_keeps | with_reducible apply State.instrFail_keeps)

theorem State.blockOn_keeps (g : Nat) (b : Block) (hk : Keeps msk s0 s) : Keeps msk s0 (State.blockOn s g b) := by
  unfold State.blockOn
  repeat' (first | with_reducible assumption | with_reducible apply State.modCtx_keeps)

theorem State.unpark_keeps (g : Nat) (hk : Keeps msk s0 s) : Keeps msk s0 (State.unpark s g) := by
  unfold State.unpark
  repeat' (first | with_reducible assumption | with_reducible apply State.modCtx_keeps)

theorem State.park_keeps (g : Nat) (hk : Keeps msk s0 s) : Keeps msk s0 (State.park s g) := by
  unfold State.park
  repeat' (first | with_reducible assumption | (with_reducible apply Keeps.ite) <;> intro _
                 | with_reducible apply State.modCtx_keeps | with_reducible apply State.orphan_keeps)

theorem State.queueFreed_keeps (p : Nat) (hk : Keeps msk s0 s) : Keeps msk s0 (State.queueFreed s p) := by
  unfold State.queueFreed
  repeat' (first | with_reducible assumption | (with_reducible apply Keeps.ite) <;> intro _
                 | with_reducible apply Keeps.foldl | intro _ | with_reducible apply State.goTo_keeps)

theorem State.launch_keeps (g base arg : Nat) (l : Launcher) (hk : Keeps msk s0 s) : Keeps msk s0 (State.launch s
    g base arg l) := by
  unfold State.launch
  repeat' (first | with_reducible apply State.modCtx_keeps | (simp only [Keeps.mark]; exact Updated.same ‹_›))

theorem State.startTour_keeps (g : Nat) (h : Bytes) (hk : Keeps msk s0 s) : Keeps msk s0 (State.startTour s g h) := by
  unfold State.startTour
  repeat' (first | with_reducible assumption | (with_reducible apply Keeps.ite) <;> intro _
                 | with_reducible apply State.modCtx_keeps | with_reducible apply State.launchFail_keeps
                 | with_reducible apply State.goTo_keeps)

theorem State.tourLineArrives_keeps (g line : Nat) (what : Fetched) (hk : Keeps msk s0 s) : Keeps msk s0
    (State.tourLineArrives s g line what) := by
  unfold State.tourLineArrives
  dsimp only
  repeat' (first | with_reducible assumption | with_reducible apply State.modCtx_keeps
                 | with_reducible apply State.launchFail_keeps | with_reducible apply State.instrFail_keeps
                 | with_reducible apply State.startTour_keeps | with_reducible apply State.goTo_keeps | split)

theorem State.beginFlush_keeps (g : Nat) (hk : Keeps msk s0 s) : Keeps msk s0 (State.beginFlush s g) := by
  unfold State.beginFlush
  dsimp only
  repeat' (first | with_reducible assumption | with_reducible apply State.modCtx_keeps
                 | with_reducible apply State.pcFlush_keeps | split)

theorem State.modOp_keeps (g i : Nat) (f : Op → Op) (hk : Keeps msk s0 s) : Keeps msk s0 (State.modOp s g i f) := by
  unfold State.modOp
  repeat' (first | with_reducible assumption | with_reducible apply State.modCtx_keeps)

theorem State.opFailed_keeps (g i status delivered : Nat) (hk : Keeps msk s0 s) : Keeps msk s0 (State.opFailed s g
    i status delivered) := by
  unfold State.opFailed
  repeat' (first | with_reducible assumption | with_reducible apply State.copiesGone_keeps
                 | with_reducible apply State.modCtx_keeps | with_reducible apply State.opFailing_keeps
                 | with_reducible apply State.queueFreed_keeps | with_reducible apply State.beginEnding_keeps | split)

theorem State.performSignal_keeps (g : Nat) (o : Op) (hk : Keeps msk s0 s) : Keeps msk s0 (State.performSignal s g
    o) := by
  unfold State.performSignal
  dsimp only
  repeat' (first | with_reducible assumption | with_reducible apply State.modOp_keeps
                 | with_reducible apply State.request_keeps | with_reducible apply State.opFailed_keeps
                 | with_reducible refine Keeps.ofEq ‹_› ?_ | split)

theorem State.signalHead_keeps (g : Nat) (hk : Keeps msk s0 s) : Keeps msk s0 (State.signalHead s g) := by
  unfold State.signalHead
  repeat' (first | with_reducible assumption | with_reducible apply State.performSignal_keeps | split)

theorem State.doOperationRetire_keeps (p : Port) (c : CtxNo) (hk : Keeps msk s0 s) : Keeps msk s0
    (State.doOperationRetire s p c) := by
  unfold State.doOperationRetire
  dsimp only
  repeat' (first | with_reducible assumption | with_reducible apply State.modCtx_keeps
                 | with_reducible apply State.soAddOf_keeps | with_reducible apply State.signalHead_keeps
                 | with_reducible apply State.queueFreed_keeps | with_reducible apply State.beginFlush_keeps
                 | with_reducible apply State.grantSlot_keeps | split)

theorem State.orFail_keeps (g : Nat) (check : Option Nat) (go : State → State) (k_go : ∀ (y : State) , Keeps msk
    s0 y → Keeps msk s0 (go y )) (hk : Keeps msk s0 s) : Keeps msk s0 (State.orFail s g check go) := by
  unfold State.orFail
  repeat' (first | with_reducible assumption | with_reducible apply State.instrFail_keeps
                 | with_reducible apply State.grantSlot_keeps | (with_reducible apply k_go) | split)

theorem State.doWait_keeps (p : Port) (c : CtxNo) (hk : Keeps msk s0 s) : Keeps msk s0 (State.doWait s p c) := by
  unfold State.doWait
  dsimp only
  repeat' (first | with_reducible assumption | intro _ | with_reducible apply State.blockOn_keeps
                 | with_reducible apply State.instrFail_keeps | with_reducible apply State.orFail_keeps
                 | with_reducible apply State.request_keeps | with_reducible refine Keeps.ofEq ‹_› ?_ | split)

theorem State.waitAnswered_keeps (g status : Nat) (v : Nat) (hk : Keeps msk s0 s) : Keeps msk s0
    (State.waitAnswered s g status v) := by
  unfold State.waitAnswered
  dsimp only
  repeat' (first | with_reducible assumption | with_reducible apply State.modCtx_keeps
                 | with_reducible apply State.instrFail_keeps | with_reducible apply State.abortTour_keeps
                 | with_reducible apply State.goTo_keeps | with_reducible apply State.acquire_keeps | split)

theorem State.doFence_keeps (p : Port) (c : CtxNo) (hk : Keeps msk s0 s) : Keeps msk s0 (State.doFence s p c) := by
  unfold State.doFence
  repeat' (first | with_reducible assumption | intro _ | with_reducible apply State.blockOn_keeps
                 | with_reducible apply State.orFail_keeps | split)

theorem State.doFenceComplete_keeps (p : Port) (c : CtxNo) (hk : Keeps msk s0 s) : Keeps msk s0
    (State.doFenceComplete s p c) := by
  unfold State.doFenceComplete
  dsimp only
  repeat' (first | with_reducible assumption | with_reducible apply State.modCtx_keeps
                 | with_reducible apply State.instrFail_keeps | with_reducible apply State.grantSlot_keeps
                 | with_reducible apply State.goTo_keeps | with_reducible apply State.acquire_keeps | split)

theorem State.issueFlush_keeps (g : Nat) (t : TInstr) (drop : Bool) (hk : Keeps msk s0 s) : Keeps msk s0
    (State.issueFlush s g t drop) := by
  unfold State.issueFlush
  repeat' (first | with_reducible assumption | intro _ | with_reducible apply State.blockOn_keeps
                 | with_reducible apply State.orFail_keeps | with_reducible apply State.beginFlush_keeps)

theorem State.doFlush_keeps (p : Port) (c : CtxNo) (hk : Keeps msk s0 s) : Keeps msk s0 (State.doFlush s p c) := by
  unfold State.doFlush
  repeat' (first | with_reducible assumption | with_reducible apply State.issueFlush_keeps | split)

theorem State.doInval_keeps (p : Port) (c : CtxNo) (hk : Keeps msk s0 s) : Keeps msk s0 (State.doInval s p c) := by
  unfold State.doInval
  repeat' (first | with_reducible assumption | with_reducible apply State.issueFlush_keeps | split)

theorem State.doFlushComplete_keeps (p : Port) (c : CtxNo) (hk : Keeps msk s0 s) : Keeps msk s0
    (State.doFlushComplete s p c) := by
  unfold State.doFlushComplete
  dsimp only
  repeat' (first | with_reducible assumption | with_reducible apply State.modCtx_keeps
                 | with_reducible apply State.modDocent_keeps | with_reducible apply State.instrFail_keeps
                 | with_reducible apply State.grantSlot_keeps | with_reducible apply State.goTo_keeps | split)

theorem State.doLoop_keeps (p : Port) (c : CtxNo) (hk : Keeps msk s0 s) : Keeps msk s0 (State.doLoop s p c) := by
  unfold State.doLoop
  dsimp only
  repeat' (first | with_reducible assumption | intro _ | with_reducible apply State.modCtx_keeps
                 | with_reducible apply State.orFail_keeps | with_reducible apply State.goTo_keeps | split)

theorem State.doHalt_keeps (p : Port) (c : CtxNo) (hk : Keeps msk s0 s) : Keeps msk s0 (State.doHalt s p c) := by
  unfold State.doHalt
  repeat' (first | with_reducible assumption | intro _ | with_reducible apply State.modCtx_keeps
                 | with_reducible apply State.orFail_keeps | split)

theorem State.sendAtomic_keeps (g : Nat) (hk : Keeps msk s0 s) : Keeps msk s0 (State.sendAtomic s g) := by
  unfold State.sendAtomic
  dsimp only
  repeat' (first | with_reducible assumption | with_reducible apply State.modCtx_keeps
                 | with_reducible apply State.instrFail_keeps | with_reducible apply State.request_keeps
                 | with_reducible apply State.ctxTranslate_keeps | with_reducible refine Keeps.ofEq ‹_› ?_ | split)

theorem State.doTourAtomic_keeps (p : Port) (c : CtxNo) (hk : Keeps msk s0 s) : Keeps msk s0 (State.doTourAtomic s
    p c) := by
  unfold State.doTourAtomic
  repeat' (first | with_reducible assumption | intro _ | with_reducible apply State.blockOn_keeps
                 | with_reducible apply State.orFail_keeps | with_reducible apply State.sendAtomic_keeps | split)

theorem State.atomicAnswered_keeps (g status v : Nat) (hk : Keeps msk s0 s) : Keeps msk s0 (State.atomicAnswered s
    g status v) := by
  unfold State.atomicAnswered
  dsimp only
  repeat' (first | with_reducible assumption | with_reducible apply State.modCtx_keeps
                 | with_reducible apply State.instrFail_keeps | with_reducible apply State.goTo_keeps | split)

theorem State.doReservedTourOpcode_keeps (p : Port) (c : CtxNo) (hk : Keeps msk s0 s) : Keeps msk s0
    (State.doReservedTourOpcode s p c) := by
  unfold State.doReservedTourOpcode
  dsimp only
  repeat' (first | with_reducible assumption | with_reducible apply State.instrFail_keeps
                 | with_reducible apply State.grantSlot_keeps | split)

theorem State.enterOp_keeps (g : Nat) (o : Op) (hk : Keeps msk s0 s) : Keeps msk s0 (State.enterOp s g o) := by
  unfold State.enterOp
  repeat' (first | with_reducible assumption | (with_reducible apply Keeps.ite) <;> intro _
                 | with_reducible apply State.modCtx_keeps | with_reducible apply State.blockOn_keeps
                 | with_reducible apply State.goTo_keeps)

theorem State.doSignal_keeps (p : Port) (c : CtxNo) (hk : Keeps msk s0 s) : Keeps msk s0 (State.doSignal s p c) := by
  unfold State.doSignal
  dsimp only
  repeat' (first | with_reducible assumption | intro _ | with_reducible apply State.orFail_keeps
                 | with_reducible apply State.enterOp_keeps | with_reducible apply State.signalHead_keeps
                 | with_reducible apply State.performSignal_keeps | split)

theorem State.xferStop_keeps (g i k status : Nat) (hk : Keeps msk s0 s) : Keeps msk s0 (State.xferStop s g i k
    status) := by
  unfold State.xferStop
  repeat' (first | with_reducible assumption | with_reducible apply State.modOp_keeps)

theorem State.readTable_keeps (g i k fva : Nat) (hk : Keeps msk s0 s) : Keeps msk s0 (State.readTable s g i k fva)
    := by
  unfold State.readTable
  dsimp only
  repeat' (first | with_reducible assumption | with_reducible apply State.xferStop_keeps
                 | with_reducible apply State.request_keeps | with_reducible apply State.ctxTranslate_keeps
                 | with_reducible refine Keeps.ofEq ‹_› ?_ | split)

theorem State.readLines_keeps (g i k n fva fpa : Nat) (hk : Keeps msk s0 s) : Keeps msk s0 (State.readLines s g i
    k n fva fpa) := by
  unfold State.readLines
  dsimp only
  repeat' (first | with_reducible assumption | with_reducible apply State.modOp_keeps
                 | with_reducible apply State.request_keeps | with_reducible refine Keeps.ofEq ‹_› ?_ | split)

theorem State.readAhead_keeps (g i : Nat) (d : TDesc) (n : Nat) (hk : Keeps msk s0 s) : Keeps msk s0 (s.readAhead
    g i d n) := by
  induction n generalizing s with
  | zero =>
    unfold State.readAhead
    try dsimp only
    repeat' (first | with_reducible assumption)
  | succ n ih =>
    unfold State.readAhead
    try dsimp only
    repeat' (first | with_reducible assumption | with_reducible apply State.modOp_keeps
                   | with_reducible apply State.readLines_keeps | with_reducible apply State.lookAhead_keeps
                   | with_reducible apply ih | with_reducible refine Keeps.ofEq ‹_› ?_ | split)

theorem State.sendLines_keeps (g i k n fva fpa arv : Nat) (zero : Bool) (payload : Bytes) (hk : Keeps msk s0 s) :
    Keeps msk s0 (State.sendLines s g i k n fva fpa arv zero payload) := by
  unfold State.sendLines
  dsimp only
  repeat' (first | with_reducible assumption | with_reducible apply Keeps.foldl | intro _
                 | with_reducible apply State.modDocent_keeps | with_reducible apply State.modOp_keeps
                 | with_reducible apply State.xferStop_keeps | with_reducible apply State.request_keeps
                 | with_reducible refine Keeps.ofEq ‹_› ?_ | split)

theorem State.fetchSource_keeps (g i k src : Nat) (d : TDesc) (hk : Keeps msk s0 s) : Keeps msk s0
    (State.fetchSource s g i k src d).1 := by
  unfold State.fetchSource
  dsimp only
  repeat' (first | with_reducible assumption | with_reducible apply State.modOp_keeps
                 | with_reducible apply State.xferStop_keeps | with_reducible apply State.pcGet_keeps
                 | with_reducible apply State.ctxTranslate_keeps | with_reducible apply State.readLines_keeps
                 | with_reducible apply State.readAhead_keeps | with_reducible refine Keeps.ofEq ‹_› ?_ | split)

theorem State.emitLine_keeps (g i k dst : Nat) (o : Op) (d : TDesc) (content : Option Bytes) (hk : Keeps msk s0 s)
    : Keeps msk s0 (State.emitLine s g i k dst o d content).1 := by
  unfold State.emitLine
  dsimp only
  repeat' (first | with_reducible assumption | with_reducible apply State.modOp_keeps
                 | with_reducible apply State.xferStop_keeps | with_reducible apply State.pcPut_keeps
                 | with_reducible apply State.ctxTranslate_keeps | with_reducible apply State.sendLines_keeps
                 | with_reducible refine Keeps.ofEq ‹_› ?_ | split)

theorem State.xferStep_keeps (g i : Nat) (hk : Keeps msk s0 s) : Keeps msk s0 (State.xferStep s g i).1 := by
  unfold State.xferStep
  dsimp only
  repeat' (first | with_reducible assumption | with_reducible apply State.xferStop_keeps
                 | with_reducible apply State.readTable_keeps | with_reducible apply State.fetchSource_keeps
                 | with_reducible apply State.emitLine_keeps | split)

theorem State.xferSettle_keeps (g i : Nat) (hk : Keeps msk s0 s) : Keeps msk s0 (State.xferSettle s g i) := by
  unfold State.xferSettle
  repeat' (first | with_reducible assumption | with_reducible apply State.opFailing_keeps
                 | with_reducible apply State.modOp_keeps | with_reducible apply State.opFailed_keeps | split)

theorem State.xferAnswered_keeps (g i first status dest : Nat) (hk : Keeps msk s0 s) : Keeps msk s0
    (State.xferAnswered s g i first status dest) := by
  unfold State.xferAnswered
  repeat' (first | with_reducible assumption | with_reducible apply State.modOp_keeps
                 | with_reducible apply State.xferSettle_keeps)

theorem State.srcArrives_keeps (g i first n fpa : Nat) (fill : Bool) (what : Fetched) (hk : Keeps msk s0 s) :
    Keeps msk s0 (State.srcArrives s g i first n fpa fill what) := by
  unfold State.srcArrives
  dsimp only
  repeat' (first | with_reducible assumption | with_reducible apply State.modOp_keeps
                 | with_reducible apply State.pcPut_keeps | split)

theorem State.tableArrives_keeps (g i line : Nat) (what : Fetched) (hk : Keeps msk s0 s) : Keeps msk s0
    (State.tableArrives s g i line what) := by
  unfold State.tableArrives
  repeat' (first | with_reducible assumption | with_reducible apply State.modOp_keeps
                 | with_reducible apply State.xferStop_keeps | split)

theorem State.xferDesc_keeps (g i : Nat) (b : Bytes) (hk : Keeps msk s0 s) : Keeps msk s0 (State.xferDesc s g i b)
    := by
  unfold State.xferDesc
  dsimp only
  repeat' (first | with_reducible assumption | with_reducible apply State.modOp_keeps
                 | with_reducible apply State.opFailed_keeps | split)

theorem State.mcastDesc_keeps (g i : Nat) (b : Bytes) (hk : Keeps msk s0 s) : Keeps msk s0 (State.mcastDesc s g i
    b) := by
  unfold State.mcastDesc
  dsimp only
  repeat' (first | with_reducible assumption | with_reducible apply State.modOp_keeps
                 | with_reducible apply State.opFailed_keeps | split)

theorem State.modTarget_keeps (g i t : Nat) (f : McTarget → McTarget) (hk : Keeps msk s0 s) : Keeps msk s0
    (State.modTarget s g i t f) := by
  unfold State.modTarget
  repeat' (first | with_reducible assumption | with_reducible apply State.modOp_keeps)

theorem State.mcBlockDone_keeps (g i : Nat) (hk : Keeps msk s0 s) : Keeps msk s0 (State.mcBlockDone s g i) := by
  unfold State.mcBlockDone
  repeat' (first | with_reducible assumption | with_reducible apply State.modOp_keeps
                 | with_reducible apply State.mcRelease_keeps | split)

theorem State.mcEndAll_keeps (g i status : Nat) (hk : Keeps msk s0 s) : Keeps msk s0 (State.mcEndAll s g i status)
    := by
  unfold State.mcEndAll
  repeat' (first | with_reducible assumption | with_reducible apply State.modOp_keeps
                 | with_reducible apply State.mcBlockDone_keeps)

theorem State.mcCopy_keeps (cells refs : Nat) (result : Bool) (hk : Keeps msk s0 s) : Keeps msk s0
    (State.mcCopy s cells refs result).1 := by
  unfold State.mcCopy
  repeat' (first | (with_reducible apply Keeps.iteFst) <;> intro _ | (simp only [Keeps.mark]; exact Updated.same ‹_›))

theorem State.mcRefer_keeps (id : Nat) (hk : Keeps msk s0 s) : Keeps msk s0 (State.mcRefer s id) := by
  unfold State.mcRefer
  repeat' (first | (simp only [Keeps.mark]; exact Updated.same ‹_›))

theorem State.mcSendTo_keeps (g i t id : Nat) (x : McTarget) (d : McDesc) (first last : Nat) (block : Bytes) (hk :
    Keeps msk s0 s) : Keeps msk s0 (State.mcSendTo s g i t id x d first last block).1 := by
  unfold State.mcSendTo
  dsimp only
  repeat' (first | with_reducible assumption | with_reducible apply State.modTarget_keeps
                 | with_reducible apply State.mcRefer_keeps | with_reducible apply State.mcRelease_keeps
                 | with_reducible apply State.request_keeps | with_reducible apply State.ctxTranslate_keeps
                 | with_reducible refine Keeps.ofEq ‹_› ?_ | split)

theorem State.mcRead_keeps (g i l n src : Nat) (hk : Keeps msk s0 s) : Keeps msk s0 (State.mcRead s g i l n src) := by
  unfold State.mcRead
  dsimp only
  repeat' (first | with_reducible assumption | with_reducible apply State.mcEndAll_keeps
                 | with_reducible apply State.request_keeps | with_reducible apply State.ctxTranslate_keeps
                 | with_reducible refine Keeps.ofEq ‹_› ?_ | split)

theorem State.mcastStep_keeps (g i : Nat) (hk : Keeps msk s0 s) : Keeps msk s0 (State.mcastStep s g i).1 := by
  unfold State.mcastStep
  dsimp only
  repeat' (first | with_reducible assumption | with_reducible apply State.modOp_keeps
                 | with_reducible apply State.mcBlockDone_keeps | with_reducible apply State.mcCopy_keeps
                 | with_reducible apply State.opFailed_keeps | with_reducible apply State.mcRead_keeps
                 | with_reducible apply State.readTable_keeps | with_reducible apply State.mcSendTo_keeps
                 | with_reducible refine Keeps.ofEq ‹_› ?_ | split)

theorem State.mcReadArrives_keeps (g i l : Nat) (what : Fetched) (hk : Keeps msk s0 s) : Keeps msk s0
    (State.mcReadArrives s g i l what) := by
  unfold State.mcReadArrives
  repeat' (first | with_reducible assumption | with_reducible apply State.modOp_keeps
                 | with_reducible apply State.mcEndAll_keeps | split)

theorem State.mcStatusLine_keeps (g i : Nat) (o : Op) (d : McDesc) (l : Nat) (hk : Keeps msk s0 s) : Keeps msk s0
    (State.mcStatusLine s g i o d l) := by
  unfold State.mcStatusLine
  dsimp only
  repeat' (first | with_reducible assumption | with_reducible apply State.modOp_keeps
                 | with_reducible apply State.xferStop_keeps | with_reducible apply State.request_keeps
                 | with_reducible apply State.ctxTranslate_keeps | with_reducible refine Keeps.ofEq ‹_› ?_ | split)

theorem State.mcSettle_keeps (g i : Nat) (hk : Keeps msk s0 s) : Keeps msk s0 (State.mcSettle s g i) := by
  unfold State.mcSettle
  dsimp only
  repeat' (first | with_reducible assumption | with_reducible apply State.opFailing_keeps
                 | with_reducible apply State.modOp_keeps | with_reducible apply State.opFailed_keeps
                 | with_reducible apply State.mcStatusLine_keeps | split)

theorem State.mcAnswered_keeps (g i t status : Nat) (hk : Keeps msk s0 s) : Keeps msk s0 (State.mcAnswered s g i t
    status) := by
  unfold State.mcAnswered
  repeat' (first | with_reducible assumption | with_reducible apply State.modTarget_keeps)

theorem State.mcStatusAnswered_keeps (g i status : Nat) (hk : Keeps msk s0 s) : Keeps msk s0
    (State.mcStatusAnswered s g i status) := by
  unfold State.mcStatusAnswered
  repeat' (first | with_reducible assumption | with_reducible apply State.modOp_keeps)

end Sys2Proof.Machine
end

