-- ==== Sys2Proof/Laws/KeepsColl.lean ====
section
/-! SUPPORT. What each operation keeps (`Keeps`): collectives, translation and packet paths. -/

set_option maxRecDepth 4000
set_option Elab.async false

namespace Sys2Proof.Machine

variable {msk : Part} {s0 s : State}

theorem State.issueColl_keeps (p : Port) (c : CtxNo) (opcode : Nat) (kind : OpKind) (hk : Keeps msk s0 s) : Keeps
    msk s0 (State.issueColl s p c opcode kind) := by
  unfold State.issueColl
  repeat' (first | with_reducible assumption | intro _ | with_reducible apply State.blockOn_keeps
                 | with_reducible apply State.orFail_keeps | with_reducible apply State.enterOp_keeps
                 | (simp only [Keeps.mark]; exact Updated.same ‹_›) | split)

theorem State.schedSwitch_keeps (p id : Nat) (epoch : Bool) (hk : Keeps msk s0 s) : Keeps msk s0
    (State.schedSwitch s p id epoch) := by
  unfold State.schedSwitch
  repeat' (first | with_reducible assumption | (simp only [Keeps.mark]; exact Updated.same ‹_›) | split)

theorem State.collFailed_keeps (g i status : Nat) (withdraw pathLost : Bool) (hk : Keeps msk s0 s) : Keeps msk s0
    (State.collFailed s g i status withdraw pathLost) := by
  unfold State.collFailed
  repeat' (first | with_reducible assumption | with_reducible apply State.withdrawMember_keeps
                 | with_reducible apply State.schedSwitch_keeps | with_reducible apply State.opFailed_keeps | split)

theorem State.modCol_keeps (g i : Nat) (f : Coll → Coll) (hk : Keeps msk s0 s) : Keeps msk s0 (State.modCol s g i
    f) := by
  unfold State.modCol
  repeat' (first | with_reducible assumption | with_reducible apply State.modOp_keeps)

theorem State.collRead_keeps (g i kind idx fva : Nat) (hk : Keeps msk s0 s) : Keeps msk s0 (State.collRead s g i
    kind idx fva) := by
  unfold State.collRead
  dsimp only
  repeat' (first | with_reducible assumption | with_reducible apply State.modCol_keeps
                 | with_reducible apply State.request_keeps | with_reducible apply State.collFailed_keeps
                 | with_reducible apply State.ctxTranslate_keeps | with_reducible refine Keeps.ofEq ‹_› ?_ | split)

theorem State.collArrives_keeps (g i kind idx : Nat) (what : Fetched) (hk : Keeps msk s0 s) : Keeps msk s0
    (State.collArrives s g i kind idx what) := by
  unfold State.collArrives
  repeat' (first | with_reducible assumption | with_reducible apply State.modCol_keeps
                 | with_reducible apply State.collFailed_keeps | split)

theorem State.keepPage_keeps (g i fva : Nat) (hk : Keeps msk s0 s) : Keeps msk s0 (State.keepPage s g i fva).1 := by
  unfold State.keepPage
  repeat' (first | with_reducible assumption | with_reducible apply State.modCol_keeps
                 | with_reducible apply State.collFailed_keeps | with_reducible apply State.ctxTranslate_keeps
                 | with_reducible refine Keeps.ofEq ‹_› ?_ | split)

theorem State.toHome_keeps (g : Nat) (o : Op) (rank kind : Nat) (nums : List Nat) (bs : Bytes) (hk : Keeps msk s0
    s) : Keeps msk s0 (State.toHome s g o rank kind nums bs).1 := by
  unfold State.toHome
  repeat' (first | with_reducible assumption | with_reducible apply State.redSend_keeps)

theorem State.toHomeAll_keeps (g : Nat) (o : Op) (rank kind : Nat) (nums : List Nat) (off : Nat) (l : List Bytes)
    (hk : Keeps msk s0 s) : Keeps msk s0 ((s.toHomeAll g o rank kind nums off l).1) := by
  induction l generalizing s off with
  | nil =>
    unfold State.toHomeAll
    try dsimp only
    repeat' (first | with_reducible assumption)
  | cons b t ih =>
    unfold State.toHomeAll
    try dsimp only
    repeat' (first | with_reducible assumption | with_reducible apply State.toHome_keeps | with_reducible apply ih
                   | with_reducible refine Keeps.ofEq ‹_› ?_ | split)

theorem State.sendJoin_keeps (g i : Nat) (counts : List Nat) (experts : List (Nat × Nat)) (hk : Keeps msk s0 s) :
    Keeps msk s0 (State.sendJoin s g i counts experts) := by
  unfold State.sendJoin
  repeat' (first | with_reducible assumption | with_reducible apply State.modOp_keeps
                 | with_reducible apply State.toHome_keeps | with_reducible apply State.collFailed_keeps
                 | with_reducible refine Keeps.ofEq ‹_› ?_ | split)

theorem State.collDesc_keeps (g i : Nat) (b : Bytes) (hk : Keeps msk s0 s) : Keeps msk s0 (State.collDesc s g i b)
    := by
  unfold State.collDesc
  dsimp only
  repeat' (first | with_reducible assumption | with_reducible apply State.modOp_keeps
                 | with_reducible apply State.collFailed_keeps | split)

theorem State.rangeStep_keeps (g i : Nat) (o : Op) (hk : Keeps msk s0 s) : Keeps msk s0 (State.rangeStep s g i
    o).1 := by
  unfold State.rangeStep
  dsimp only
  repeat' (first | with_reducible assumption | with_reducible apply State.collFailed_keeps
                 | with_reducible apply State.keepPage_keeps | with_reducible apply State.collRead_keeps
                 | with_reducible apply State.sendJoin_keeps | split)

theorem State.homeLost_keeps (g i : Nat) (hk : Keeps msk s0 s) : Keeps msk s0 (State.homeLost s g i).1 := by
  unfold State.homeLost
  repeat' (first | with_reducible assumption | with_reducible apply State.collFailed_keeps)

theorem State.denseStep_keeps (g i : Nat) (o : Op) (hk : Keeps msk s0 s) : Keeps msk s0 (State.denseStep s g i
    o).1 := by
  unfold State.denseStep
  dsimp only
  repeat' (first | with_reducible assumption | with_reducible apply State.homeLost_keeps
                 | with_reducible apply State.modCol_keeps | with_reducible apply State.modOp_keeps
                 | with_reducible apply State.toHome_keeps | with_reducible apply State.collRead_keeps
                 | with_reducible refine Keeps.ofEq ‹_› ?_ | split)

theorem State.sparseStep_keeps (g i : Nat) (o : Op) (hk : Keeps msk s0 s) : Keeps msk s0 (State.sparseStep s g i
    o).1 := by
  unfold State.sparseStep
  dsimp only
  repeat' (first | with_reducible assumption | with_reducible apply State.homeLost_keeps
                 | with_reducible apply State.modOp_keeps | with_reducible apply State.toHomeAll_keeps
                 | with_reducible apply State.collFailed_keeps | with_reducible apply State.collRead_keeps
                 | with_reducible refine Keeps.ofEq ‹_› ?_ | split)

theorem State.collAddr_keeps (g i dst : Nat) (hk : Keeps msk s0 s) : Keeps msk s0 (State.collAddr s g i dst).1 := by
  unfold State.collAddr
  repeat' (first | with_reducible assumption | with_reducible apply State.ctxTranslate_keeps | split)

theorem State.dispatchPut_keeps (g i dst : Nat) (mask : Option Nat) (bs : Bytes) (hk : Keeps msk s0 s) : Keeps msk
    s0 (State.dispatchPut s g i dst mask bs).1 := by
  unfold State.dispatchPut
  dsimp only
  repeat' (first | with_reducible assumption | with_reducible apply State.modCol_keeps
                 | with_reducible apply State.collAddr_keeps | with_reducible apply State.request_keeps
                 | with_reducible apply State.collFailed_keeps | with_reducible refine Keeps.ofEq ‹_› ?_ | split)

theorem State.dispatchStep_keeps (g i : Nat) (o : Op) (hk : Keeps msk s0 s) : Keeps msk s0 (State.dispatchStep s g
    i o).1 := by
  unfold State.dispatchStep
  repeat' (first | with_reducible assumption | with_reducible apply State.modOp_keeps
                 | with_reducible apply State.collRead_keeps | with_reducible apply State.dispatchPut_keeps | split)

theorem State.sendWeights_keeps (g i : Nat) (o : Op) (hk : Keeps msk s0 s) : Keeps msk s0 (State.sendWeights s g i
    o).1 := by
  unfold State.sendWeights
  dsimp only
  repeat' (first | with_reducible assumption | with_reducible apply Keeps.foldlFst | intro _
                 | with_reducible apply State.homeLost_keeps | with_reducible apply State.modCol_keeps
                 | with_reducible apply State.toHome_keeps | with_reducible refine Keeps.ofEq ‹_› ?_ | split)

theorem State.combineStep_keeps (g i : Nat) (o : Op) (hk : Keeps msk s0 s) : Keeps msk s0 (State.combineStep s g i
    o).1 := by
  unfold State.combineStep
  dsimp only
  repeat' (first | with_reducible assumption | with_reducible apply State.homeLost_keeps
                 | with_reducible apply State.modCol_keeps | with_reducible apply State.modOp_keeps
                 | with_reducible apply State.toHomeAll_keeps | with_reducible apply State.collFailed_keeps
                 | with_reducible apply State.collRead_keeps | with_reducible apply State.sendWeights_keeps
                 | with_reducible refine Keeps.ofEq ‹_› ?_ | split)

theorem State.collStep_keeps (g i : Nat) (hk : Keeps msk s0 s) : Keeps msk s0 (State.collStep s g i).1 := by
  unfold State.collStep
  repeat' (first | with_reducible assumption | with_reducible apply State.dispatchStep_keeps
                 | with_reducible apply State.denseStep_keeps | with_reducible apply State.rangeStep_keeps
                 | with_reducible apply State.sparseStep_keeps | with_reducible apply State.combineStep_keeps | split)

theorem State.abortSettle_keeps (g i : Nat) (o : Op) (a : AbortNote) (hk : Keeps msk s0 s) : Keeps msk s0
    (State.abortSettle s g i o a) := by
  unfold State.abortSettle
  repeat' (first | with_reducible assumption | (with_reducible apply Keeps.ite) <;> intro _
                 | with_reducible apply State.collFailed_keeps)

theorem State.collSettle_keeps (g i : Nat) (hk : Keeps msk s0 s) : Keeps msk s0 (State.collSettle s g i) := by
  unfold State.collSettle
  dsimp only
  repeat' (first | with_reducible assumption | with_reducible apply State.modOp_keeps
                 | with_reducible apply State.abortSettle_keeps | with_reducible apply State.collFailed_keeps | split)

theorem State.writeResult_keeps (g i dseq fva n : Nat) (bs : Bytes) (hk : Keeps msk s0 s) : Keeps msk s0
    (s.writeResult g i dseq fva n bs) := by
  induction n generalizing s fva bs with
  | zero =>
    unfold State.writeResult
    try dsimp only
    repeat' (first | with_reducible assumption)
  | succ n ih =>
    unfold State.writeResult
    try dsimp only
    repeat' (first | with_reducible assumption | with_reducible apply State.modCol_keeps
                   | with_reducible apply State.request_keeps | with_reducible apply ih
                   | with_reducible refine Keeps.ofEq ‹_› ?_ | split)

theorem State.countResults_keeps (g i : Nat) (hk : Keeps msk s0 s) : Keeps msk s0 (State.countResults s g i) := by
  unfold State.countResults
  dsimp only
  repeat' (first | with_reducible assumption | with_reducible apply Keeps.foldl | intro _
                 | with_reducible apply State.modCol_keeps | with_reducible apply State.soAddOf_keeps | split)

theorem State.collAnswered_keeps (g i first status : Nat) (hk : Keeps msk s0 s) : Keeps msk s0 (State.collAnswered
    s g i first status) := by
  unfold State.collAnswered
  repeat' (first | with_reducible assumption | with_reducible apply State.modCol_keeps
                 | with_reducible apply State.countResults_keeps | with_reducible apply State.collSettle_keeps)

theorem State.settleMembers_keeps (hk : Keeps msk s0 s) : Keeps msk s0 (State.settleMembers s) := by
  unfold State.settleMembers
  repeat' (first | with_reducible assumption | with_reducible apply Keeps.foldl | intro _
                 | with_reducible apply State.countResults_keeps | with_reducible apply State.collSettle_keeps)

theorem State.readTourLine_keeps (g line fpa : Nat) (hk : Keeps msk s0 s) : Keeps msk s0 (State.readTourLine s g
    line fpa).1 := by
  unfold State.readTourLine
  repeat' (first | with_reducible assumption | with_reducible apply State.request_keeps)

theorem State.fetchTour_keeps (g line : Nat) (want : Want) (hk : Keeps msk s0 s) : Keeps msk s0 (State.fetchTour s
    g line want) := by
  unfold State.fetchTour
  repeat' (first | with_reducible assumption | with_reducible apply State.launchFail_keeps
                 | with_reducible apply State.instrFail_keeps | with_reducible apply State.readTourLine_keeps
                 | with_reducible apply State.ctxTranslate_keeps | with_reducible refine Keeps.ofEq ‹_› ?_ | split)

theorem State.prefetch_keeps (g : Nat) (hk : Keeps msk s0 s) : Keeps msk s0 (State.prefetch s g) := by
  unfold State.prefetch
  dsimp only
  repeat' (first | with_reducible assumption | with_reducible apply Keeps.foldl | intro _
                 | with_reducible apply State.readTourLine_keeps | with_reducible apply State.lookAhead_keeps
                 | with_reducible refine Keeps.ofEq ‹_› ?_ | split)

theorem State.fetchDesc_keeps (g i : Nat) (o : Op) (hk : Keeps msk s0 s) : Keeps msk s0 (State.fetchDesc s g i o)
    := by
  unfold State.fetchDesc
  dsimp only
  repeat' (first | with_reducible assumption | with_reducible apply State.request_keeps
                 | with_reducible apply State.collFailed_keeps | with_reducible apply State.ctxTranslate_keeps
                 | with_reducible refine Keeps.ofEq ‹_› ?_ | split)

theorem State.descArrives_keeps (g i : Nat) (what : Fetched) (hk : Keeps msk s0 s) : Keeps msk s0
    (State.descArrives s g i what) := by
  unfold State.descArrives
  repeat' (first | with_reducible assumption | with_reducible apply State.mcastDesc_keeps
                 | with_reducible apply State.collFailed_keeps | with_reducible apply State.xferDesc_keeps
                 | with_reducible apply State.collDesc_keeps | split)

theorem State.opSettle_keeps (g i : Nat) (hk : Keeps msk s0 s) : Keeps msk s0 (State.opSettle s g i) := by
  unfold State.opSettle
  repeat' (first | with_reducible assumption | with_reducible apply State.collSettle_keeps
                 | with_reducible apply State.xferSettle_keeps | with_reducible apply State.mcSettle_keeps | split)

theorem State.streamStep_keeps (g : Nat) (hk : Keeps msk s0 s) : Keeps msk s0 (State.streamStep s g).1 := by
  unfold State.streamStep
  repeat' (first | with_reducible assumption | with_reducible apply State.opSettle_keeps
                 | with_reducible apply State.fetchDesc_keeps | with_reducible apply State.collStep_keeps
                 | with_reducible apply State.xferStep_keeps | with_reducible apply State.mcastStep_keeps | split)

theorem State.actWhen_keeps (g : Nat) (due : Ctx → Bool) (f : State → State) (k_f : ∀ (y : State) , Keeps msk s0 y
    → Keeps msk s0 (f y )) (hk : Keeps msk s0 s) : Keeps msk s0 (State.actWhen s g due f) := by
  unfold State.actWhen
  repeat' (first | with_reducible assumption | (with_reducible apply Keeps.ite) <;> intro _
                 | (with_reducible apply k_f))

theorem State.act_keeps (g : Nat) (hk : Keeps msk s0 s) : Keeps msk s0 (State.act s g) := by
  unfold State.act
  repeat' (first | with_reducible assumption | with_reducible apply Keeps.foldl | intro _
                 | with_reducible apply State.actWhen_keeps | with_reducible apply State.opSettle_keeps
                 | with_reducible apply State.sendEndRecord_keeps | with_reducible apply State.fetchTour_keeps
                 | with_reducible apply State.sendAtomic_keeps | split)

theorem State.actAll_keeps (p : Nat) (hk : Keeps msk s0 s) : Keeps msk s0 (State.actAll s p) := by
  unfold State.actAll
  repeat' (first | with_reducible assumption | with_reducible apply Keeps.foldl | intro _
                 | with_reducible apply State.act_keeps)

theorem State.deliveryLost_keeps (sched inst rank status : Nat) (hk : Keeps msk s0 s) : Keeps msk s0
    (State.deliveryLost s sched inst rank status) := by
  unfold State.deliveryLost
  dsimp only
  repeat' (first | with_reducible assumption | with_reducible apply State.modCol_keeps
                 | with_reducible apply State.redSend_keeps | with_reducible apply State.collSettle_keeps | split)

theorem State.resultOut_keeps (id : Nat) (k : ResultPkt) (l : List (Nat × Nat × Nat)) (hk : Keeps msk s0 s) :
    Keeps msk s0 (s.resultOut id k l) := by
  induction l generalizing s with
  | nil =>
    unfold State.resultOut
    try dsimp only
    repeat' (first | with_reducible assumption)
  | cons x t ih =>
    unfold State.resultOut
    try dsimp only
    repeat' (first | with_reducible assumption | with_reducible apply State.out_keeps
                   | with_reducible apply State.mcRelease_keeps | with_reducible apply State.request_keeps
                   | with_reducible apply State.deliveryLost_keeps | with_reducible apply ih
                   | with_reducible refine Keeps.ofEq ‹_› ?_ | split)

theorem State.resultsGo_keeps (l : List ResultPkt) (hk : Keeps msk s0 s) : Keeps msk s0 (s.resultsGo l) := by
  induction l generalizing s with
  | nil =>
    unfold State.resultsGo
    dsimp only
    repeat' (first | (simp only [Keeps.mark]; exact Updated.same ‹_›))
  | cons x t ih =>
    unfold State.resultsGo
    dsimp only
    repeat' (first | with_reducible assumption | with_reducible apply Keeps.foldl | intro _
                   | with_reducible apply State.sendAbort_keeps | with_reducible apply State.mcCopy_keeps
                   | with_reducible apply State.resultOut_keeps | with_reducible apply ih
                   | with_reducible refine Keeps.ofEq ‹_› ?_ | split
                   | (simp only [Keeps.mark]; refine Updated.same ?_))

theorem State.pumpResults_keeps (hk : Keeps msk s0 s) : Keeps msk s0 (State.pumpResults s) :=
  State.resultsGo_keeps _ hk

theorem State.lostWrite_keeps (g status : Nat) (hk : Keeps msk s0 s) : Keeps msk s0 (State.lostWrite s g status) := by
  unfold State.lostWrite
  repeat' (first | with_reducible assumption | (with_reducible apply Keeps.ite) <;> intro _
                 | (simp only [Keeps.mark]; exact Updated.same ‹_›))

theorem State.resolve_keeps (o : Outst) (status : Nat) (bs : Bytes) (hk : Keeps msk s0 s) : Keeps msk s0
    (State.resolve s o status bs) := by
  unfold State.resolve
  dsimp only
  repeat' (first | with_reducible assumption | with_reducible apply State.finishReq_keeps
                 | with_reducible apply State.modOp_keeps | with_reducible apply State.mcReadArrives_keeps
                 | with_reducible apply State.mcStatusAnswered_keeps | with_reducible apply State.collAnswered_keeps
                 | with_reducible apply State.endRecordFailed_keeps | with_reducible apply State.finishTour_keeps
                 | with_reducible apply State.collArrives_keeps | with_reducible apply State.mcAnswered_keeps
                 | with_reducible apply State.tableArrives_keeps | with_reducible apply State.atomicAnswered_keeps
                 | with_reducible apply State.waitAnswered_keeps | with_reducible apply State.xferAnswered_keeps
                 | with_reducible apply State.opSettle_keeps | with_reducible apply State.opFailed_keeps
                 | with_reducible apply State.descArrives_keeps | with_reducible apply State.wbFailed_keeps
                 | with_reducible apply State.tourLineArrives_keeps | with_reducible apply State.srcArrives_keeps
                 | with_reducible apply State.deliveryLost_keeps | with_reducible apply Keeps.elim | intro _
                 | with_reducible apply State.mcRelease_keeps | with_reducible apply State.lostWrite_keeps
                 | with_reducible apply State.collFailed_keeps | (simp only [Keeps.mark]; exact Updated.same ‹_›)
                 | split)

theorem State.unsent_keeps (o : Outst) (status : Nat) (hk : Keeps msk s0 s) : Keeps msk s0 (State.unsent s o
    status) := by
  unfold State.unsent
  repeat' (first | with_reducible assumption | (with_reducible apply Keeps.ite) <;> intro _
                 | with_reducible apply State.mcUnsent_keeps | with_reducible apply State.resolve_keeps)

theorem State.flushHeld_keeps (hk : Keeps msk s0 s) : Keeps msk s0 (State.flushHeld s) := by
  unfold State.flushHeld
  repeat' (first | with_reducible assumption | with_reducible apply Keeps.foldl | intro _
                 | with_reducible apply State.unsent_keeps | with_reducible apply State.pumpHeld_keeps)

theorem State.heldNow_keeps {o : Outst} {r : State × Option Nat} (e : s.heldNow o = some r) (hk : Keeps msk s0 s) :
    Keeps msk s0 r.1 := by
  unfold State.heldNow at e
  have h : Keeps msk s0 ({ s with held := s.held.filter fun x => x.uid != o.uid }.trySend o).1 :=
    State.trySend_keeps o (by simp only [Keeps.mark]; exact Updated.same hk)
  split at e
  · cases e
  · rename_i w; cases e; rw [w] at h; exact h
  · rename_i w; cases e; rw [w] at h; exact h

theorem State.epTurn_keeps (p : Nat) (hk : Keeps msk s0 s) : Keeps msk s0 (State.epTurn s p).1 := by
  unfold State.epTurn
  have h {o : Outst} {r : State × Option Nat}
      (e : ((s.held.filter fun o => o.ofEp == some p).findSome? fun o => (s.heldNow o).map fun r => (o, r)) = some
          (o, r)) :
      Keeps msk s0 r.1 := by
    obtain ⟨x, _, w⟩ := List.exists_of_findSome?_eq_some e
    cases w' : s.heldNow x with
    | none => rw [w'] at w; cases w
    | some q => rw [w'] at w; cases w; exact State.heldNow_keeps w' hk
  dsimp only
  split
  · rename_i w; exact State.modDocent_keeps _ _ (h w)
  · rename_i w; exact State.modDocent_keeps _ _ (State.unsent_keeps _ _ (h w))
  · split
    · exact State.modDocent_keeps _ _ (State.epAdvance_keeps _ _ hk)
    · exact hk

theorem State.lineTurn_keeps (p : Nat) (hk : Keeps msk s0 s) : Keeps msk s0 (State.lineTurn s p).1 := by
  unfold State.lineTurn
  repeat' (first | with_reducible assumption | with_reducible apply Keeps.foldlFst | intro _
                 | with_reducible apply State.modDocent_keeps | with_reducible apply State.streamStep_keeps
                 | with_reducible refine Keeps.ofEq ‹_› ?_ | split)

theorem State.turns_keeps (p n : Nat) (hk : Keeps msk s0 s) : Keeps msk s0 (s.turns p n) := by
  induction n generalizing s with
  | zero =>
    unfold State.turns
    try dsimp only
    repeat' (first | with_reducible assumption)
  | succ n ih =>
    unfold State.turns
    try dsimp only
    repeat' (first | with_reducible assumption | with_reducible apply State.lineTurn_keeps
                   | with_reducible apply State.epTurn_keeps | with_reducible apply ih
                   | with_reducible refine Keeps.ofEq ‹_› ?_ | split)

theorem State.drive_keeps (p : Nat) (hk : Keeps msk s0 s) : Keeps msk s0 (State.drive s p) := by
  unfold State.drive
  repeat' (first | with_reducible assumption | with_reducible apply Keeps.foldl | intro _
                 | with_reducible apply State.actWhen_keeps | with_reducible apply State.actAll_keeps
                 | with_reducible apply State.flushHeld_keeps | with_reducible apply State.queueFreed_keeps
                 | with_reducible apply State.turns_keeps | with_reducible apply State.grantSlot_keeps
                 | with_reducible apply State.prefetch_keeps)

theorem State.driveAll_keeps (hk : Keeps msk s0 s) : Keeps msk s0 (State.driveAll s) := by
  unfold State.driveAll
  repeat' (first | with_reducible assumption | with_reducible apply Keeps.foldl | intro _
                 | with_reducible apply State.flushHeld_keeps | with_reducible apply State.pumpResults_keeps
                 | with_reducible apply State.drive_keeps)

theorem State.resumeStream_keeps (p : Nat) (st : Stream) (hk : Keeps msk s0 s) : Keeps msk s0 (State.resumeStream
    s p st) := by
  unfold State.resumeStream
  repeat' (first | with_reducible assumption | with_reducible apply State.unpark_keeps
                 | with_reducible apply State.drive_keeps | with_reducible apply State.epAdvance_keeps | split)

theorem State.noteAccess_keeps (g : Nat) (x : StreamWait) (f : Access → Access) (hk : Keeps msk s0 s) : Keeps msk
    s0 (State.noteAccess s g x f) := by
  unfold State.noteAccess
  repeat' (first | with_reducible assumption | with_reducible apply State.modCtx_keeps)

theorem State.accessFail_keeps (p : Nat) (x : StreamWait) (status : Nat) (hk : Keeps msk s0 s) : Keeps msk s0
    (State.accessFail s p x status) := by
  unfold State.accessFail
  dsimp only
  repeat' (first | with_reducible assumption | with_reducible apply State.finishReq_keeps
                 | with_reducible apply State.noteAccess_keeps | with_reducible apply State.unpark_keeps
                 | with_reducible apply State.drive_keeps | with_reducible apply State.endStream_keeps | split)

theorem State.addSuccess_keeps (p : Nat) (x : StreamWait) (hk : Keeps msk s0 s) : Keeps msk s0 (State.addSuccess s
    p x) := by
  unfold State.addSuccess
  repeat' (first | with_reducible assumption | with_reducible apply State.modDocent_keeps
                 | with_reducible apply State.noteAccess_keeps | split)

theorem State.pageNeed_keeps (p gal pasid : Nat) (x : StreamWait) (gotR gotW : Bool) (hk : Keeps msk s0 s) : Keeps
    msk s0 (State.pageNeed s p gal pasid x gotR gotW) := by
  unfold State.pageNeed
  repeat' (first | with_reducible assumption | with_reducible apply State.modFn_keeps
                 | with_reducible apply State.accessFail_keeps | with_reducible apply State.grantSlot_keeps
                 | with_reducible apply State.park_keeps | with_reducible apply State.sendPage_keeps | split)

theorem State.translateStream_keeps (p gal pasid : Nat) (x : StreamWait) (hk : Keeps msk s0 s) : Keeps msk s0
    (State.translateStream s p gal pasid x) := by
  unfold State.translateStream
  repeat' (first | with_reducible assumption | with_reducible apply State.resumeStream_keeps
                 | with_reducible apply State.accessFail_keeps | with_reducible apply State.lookup_keeps
                 | with_reducible apply State.askAts_keeps | with_reducible refine Keeps.ofEq ‹_› ?_ | split)

theorem State.retry_keeps (p : Nat) (x : StreamWait) (hk : Keeps msk s0 s) : Keeps msk s0 (State.retry s p x) := by
  unfold State.retry
  repeat' (first | with_reducible assumption | with_reducible apply State.drive_keeps
                 | with_reducible apply State.translateStream_keeps | with_reducible apply State.epAdvance_keeps
                 | split)

theorem State.slotFreed_keeps (p : Nat) (hk : Keeps msk s0 s) : Keeps msk s0 (State.slotFreed s p) := by
  unfold State.slotFreed
  repeat' (first | with_reducible assumption | with_reducible apply Keeps.foldl | intro _
                 | with_reducible apply State.modDocent_keeps | with_reducible apply State.retry_keeps)

theorem execLaunch_keeps (p : Port) (hdr : Header) (payload tag : Bytes) (hk : Keeps msk s0 s) : KeepsO msk s0
    (execLaunch p hdr payload tag s) := by
  unfold execLaunch
  dsimp only
  repeat' (first | with_reducible assumption | with_reducible apply KeepsO.next
                 | with_reducible apply State.protoErr_keeps | with_reducible apply State.drive_keeps
                 | with_reducible apply State.epAuth_keeps | with_reducible apply State.launch_keeps
                 | with_reducible apply State.takeEp_keeps | with_reducible apply State.epComplete_keeps
                 | with_reducible refine Keeps.ofEq ‹_› ?_ | split)

theorem State.issueBulk_keeps (p : Port) (c : CtxNo) (opcode : Nat) (kind : OpKind) (hk : Keeps msk s0 s) : Keeps
    msk s0 (State.issueBulk s p c opcode kind) := by
  unfold State.issueBulk
  repeat' (first | with_reducible assumption | intro _ | with_reducible apply State.orFail_keeps
                 | with_reducible apply State.drive_keeps | with_reducible apply State.enterOp_keeps | split)

theorem execCopy_keeps (p : Port) (c : CtxNo) (hk : Keeps msk s0 s) : KeepsO msk s0 (execCopy p c s) := by
  unfold execCopy
  repeat' (first | with_reducible assumption | with_reducible apply KeepsO.next
                 | with_reducible apply State.issueBulk_keeps)

theorem execGather_keeps (p : Port) (c : CtxNo) (hk : Keeps msk s0 s) : KeepsO msk s0 (execGather p c s) := by
  unfold execGather
  repeat' (first | with_reducible assumption | with_reducible apply KeepsO.next
                 | with_reducible apply State.issueBulk_keeps)

theorem execScatter_keeps (p : Port) (c : CtxNo) (hk : Keeps msk s0 s) : KeepsO msk s0 (execScatter p c s) := by
  unfold execScatter
  repeat' (first | with_reducible assumption | with_reducible apply KeepsO.next
                 | with_reducible apply State.issueBulk_keeps)

theorem execMcast_keeps (p : Port) (c : CtxNo) (hk : Keeps msk s0 s) : KeepsO msk s0 (execMcast p c s) := by
  unfold execMcast
  repeat' (first | with_reducible assumption | with_reducible apply KeepsO.next
                 | with_reducible apply State.issueBulk_keeps)

theorem execReduce_keeps (p : Port) (c : CtxNo) (hk : Keeps msk s0 s) : KeepsO msk s0 (execReduce p c s) := by
  unfold execReduce
  repeat' (first | with_reducible assumption | with_reducible apply KeepsO.next
                 | with_reducible apply State.drive_keeps | with_reducible apply State.issueColl_keeps)

theorem execDispatch_keeps (p : Port) (c : CtxNo) (hk : Keeps msk s0 s) : KeepsO msk s0 (execDispatch p c s) := by
  unfold execDispatch
  repeat' (first | with_reducible assumption | with_reducible apply KeepsO.next
                 | with_reducible apply State.drive_keeps | with_reducible apply State.issueColl_keeps)

theorem execCombine_keeps (p : Port) (c : CtxNo) (hk : Keeps msk s0 s) : KeepsO msk s0 (execCombine p c s) := by
  unfold execCombine
  repeat' (first | with_reducible assumption | with_reducible apply KeepsO.next
                 | with_reducible apply State.drive_keeps | with_reducible apply State.issueColl_keeps)

theorem execSignal_keeps (p : Port) (c : CtxNo) (hk : Keeps msk s0 s) : KeepsO msk s0 (execSignal p c s) := by
  unfold execSignal
  repeat' (first | with_reducible assumption | with_reducible apply KeepsO.next
                 | with_reducible apply State.drive_keeps | with_reducible apply State.doSignal_keeps)

theorem execWait_keeps (p : Port) (c : CtxNo) (hk : Keeps msk s0 s) : KeepsO msk s0 (execWait p c s) := by
  unfold execWait
  repeat' (first | with_reducible assumption | with_reducible apply KeepsO.next
                 | with_reducible apply State.drive_keeps | with_reducible apply State.doWait_keeps)

theorem execFence_keeps (p : Port) (c : CtxNo) (hk : Keeps msk s0 s) : KeepsO msk s0 (execFence p c s) := by
  unfold execFence
  repeat' (first | with_reducible assumption | with_reducible apply KeepsO.next
                 | with_reducible apply State.drive_keeps | with_reducible apply State.doFence_keeps)

theorem execFlush_keeps (p : Port) (c : CtxNo) (hk : Keeps msk s0 s) : KeepsO msk s0 (execFlush p c s) := by
  unfold execFlush
  repeat' (first | with_reducible assumption | with_reducible apply KeepsO.next
                 | with_reducible apply State.doFlush_keeps | with_reducible apply State.drive_keeps)

theorem execInval_keeps (p : Port) (c : CtxNo) (hk : Keeps msk s0 s) : KeepsO msk s0 (execInval p c s) := by
  unfold execInval
  repeat' (first | with_reducible assumption | with_reducible apply KeepsO.next
                 | with_reducible apply State.doInval_keeps | with_reducible apply State.drive_keeps)

theorem execLoop_keeps (p : Port) (c : CtxNo) (hk : Keeps msk s0 s) : KeepsO msk s0 (execLoop p c s) := by
  unfold execLoop
  repeat' (first | with_reducible assumption | with_reducible apply KeepsO.next
                 | with_reducible apply State.drive_keeps | with_reducible apply State.doLoop_keeps)

theorem execHalt_keeps (p : Port) (c : CtxNo) (hk : Keeps msk s0 s) : KeepsO msk s0 (execHalt p c s) := by
  unfold execHalt
  repeat' (first | with_reducible assumption | with_reducible apply KeepsO.next
                 | with_reducible apply State.drive_keeps | with_reducible apply State.doHalt_keeps)

theorem execTourAtomic_keeps (p : Port) (c : CtxNo) (hk : Keeps msk s0 s) : KeepsO msk s0 (execTourAtomic p c s) := by
  unfold execTourAtomic
  repeat' (first | with_reducible assumption | with_reducible apply KeepsO.next
                 | with_reducible apply State.drive_keeps | with_reducible apply State.doTourAtomic_keeps)

theorem execReservedTourOpcode_keeps (p : Port) (c : CtxNo) (hk : Keeps msk s0 s) : KeepsO msk s0
    (execReservedTourOpcode p c s) := by
  unfold execReservedTourOpcode
  repeat' (first | with_reducible assumption | with_reducible apply KeepsO.next
                 | with_reducible apply State.drive_keeps | with_reducible apply State.doReservedTourOpcode_keeps)

theorem execQuantumExpiry_keeps (p : Port) (hk : Keeps msk s0 s) : KeepsO msk s0 (execQuantumExpiry p s) := by
  unfold execQuantumExpiry
  repeat' (first | with_reducible assumption | with_reducible apply KeepsO.next
                 | with_reducible apply State.doQuantumExpiry_keeps)

theorem State.takeRead_keeps (org : Origin) (hk : Keeps msk s0 s) : Keeps msk s0 (State.takeRead s org).1 := by
  unfold State.takeRead
  repeat' (first | (with_reducible apply Keeps.iteFst) <;> intro _ | (simp only [Keeps.mark]; exact Updated.same ‹_›))

theorem execInstructionLineArrival_keeps (p : Port) (c : CtxNo) (line : Nat) (what : Fetched) (hk : Keeps msk s0
    s) : KeepsO msk s0 (execInstructionLineArrival p c line what s) := by
  unfold execInstructionLineArrival
  repeat' (first | with_reducible assumption | with_reducible apply KeepsO.next | with_reducible apply KeepsO.fault
                 | with_reducible apply State.drive_keeps | with_reducible apply State.takeRead_keeps
                 | with_reducible apply State.tourLineArrives_keeps | with_reducible refine Keeps.ofEq ‹_› ?_ | split)

theorem execDescriptorArrival_keeps (p : Port) (c : CtxNo) (op : Nat) (what : Fetched) (hk : Keeps msk s0 s) :
    KeepsO msk s0 (execDescriptorArrival p c op what s) := by
  unfold execDescriptorArrival
  repeat' (first | with_reducible assumption | with_reducible apply KeepsO.next | with_reducible apply KeepsO.fault
                 | with_reducible apply State.drive_keeps | with_reducible apply State.takeRead_keeps
                 | with_reducible apply State.descArrives_keeps | with_reducible refine Keeps.ofEq ‹_› ?_ | split)

theorem execOperationRetire_keeps (p : Port) (c : CtxNo) (hk : Keeps msk s0 s) : KeepsO msk s0
    (execOperationRetire p c s) := by
  unfold execOperationRetire
  repeat' (first | with_reducible assumption | with_reducible apply KeepsO.next
                 | with_reducible apply State.drive_keeps | with_reducible apply State.doOperationRetire_keeps)

theorem execTourEnd_keeps (p : Port) (c : CtxNo) (hk : Keeps msk s0 s) : KeepsO msk s0 (execTourEnd p c s) := by
  unfold execTourEnd
  repeat' (first | with_reducible assumption | with_reducible apply KeepsO.next
                 | with_reducible apply State.drive_keeps | with_reducible apply State.doTourEnd_keeps)

theorem execFenceComplete_keeps (p : Port) (c : CtxNo) (hk : Keeps msk s0 s) : KeepsO msk s0 (execFenceComplete p
    c s) := by
  unfold execFenceComplete
  repeat' (first | with_reducible assumption | with_reducible apply KeepsO.next
                 | with_reducible apply State.drive_keeps | with_reducible apply State.doFenceComplete_keeps)

theorem execFlushComplete_keeps (p : Port) (c : CtxNo) (hk : Keeps msk s0 s) : KeepsO msk s0 (execFlushComplete p
    c s) := by
  unfold execFlushComplete
  repeat' (first | with_reducible assumption | with_reducible apply KeepsO.next
                 | with_reducible apply State.drive_keeps | with_reducible apply State.doFlushComplete_keeps)

theorem State.nodeUnreachable_keeps (dest : Nat) (hk : Keeps msk s0 s) : Keeps msk s0 (State.nodeUnreachable s
    dest) := by
  unfold State.nodeUnreachable
  repeat' (first | with_reducible assumption | (with_reducible apply Keeps.ite) <;> intro _
                 | with_reducible apply State.curEvent_keeps | (simp only [Keeps.mark]; exact Updated.same ‹_›))

theorem State.resend_keeps (o : Outst) (r : Nat) (hk : Keeps msk s0 s) : Keeps msk s0 (State.resend s o r) := by
  unfold State.resend
  repeat' (first | with_reducible assumption | with_reducible apply State.enqueue_keeps)

theorem State.replayOver_keeps (hit : Outst → Bool) (hk : Keeps msk s0 s) : Keeps msk s0 (State.replayOver s
    hit).1 := by
  unfold State.replayOver
  dsimp only
  repeat' (first | with_reducible apply Keeps.foldlFst | intro _ | with_reducible apply State.resend_keeps
                 | (simp only [Keeps.mark]; exact Updated.same ‹_›) | split)

theorem State.markRoute_keeps (o : Outst) (hk : Keeps msk s0 s) : Keeps msk s0 (State.markRoute s o) := by
  unfold State.markRoute
  repeat' (first | with_reducible assumption | (with_reducible apply Keeps.ite) <;> intro _
                 | (simp only [Keeps.mark]; exact Updated.same ‹_›))

theorem State.loseAll_keeps (lost : List Outst) (hk : Keeps msk s0 s) : Keeps msk s0 (State.loseAll s lost) := by
  unfold State.loseAll
  repeat' (first | with_reducible assumption | with_reducible apply Keeps.foldl | intro _
                 | with_reducible apply State.nodeUnreachable_keeps | with_reducible apply State.resolve_keeps)

theorem State.routeFailed_keeps (o : Outst) (hk : Keeps msk s0 s) : Keeps msk s0 (State.routeFailed s o) := by
  unfold State.routeFailed
  repeat' (first | with_reducible assumption | with_reducible apply State.loseAll_keeps
                 | with_reducible apply State.markRoute_keeps | with_reducible apply State.replayOver_keeps)

theorem State.copyFailed_keeps (o : Outst) (at_ : Nat) (hk : Keeps msk s0 s) : Keeps msk s0 (State.copyFailed s o
    at_) := by
  unfold State.copyFailed
  repeat' (first | with_reducible assumption | with_reducible apply State.routeFailed_keeps
                 | (simp only [Keeps.mark]; exact Updated.same ‹_›) | split)

theorem State.release_keeps (o : Outst) (hk : Keeps msk s0 s) : Keeps msk s0 (State.release s o) := by
  unfold State.release
  repeat' (first | (simp only [Keeps.mark]; exact Updated.same ‹_›))

theorem State.afterAnswer_keeps (src : Nat) (hk : Keeps msk s0 s) : Keeps msk s0 (State.afterAnswer s src) := by
  unfold State.afterAnswer
  repeat' (first | with_reducible assumption | (with_reducible apply Keeps.ite) <;> intro _
                 | with_reducible apply State.drive_keeps | with_reducible apply State.driveAll_keeps)

theorem State.targetTimeoutRecord_keeps (o : Outst) (hk : Keeps msk s0 s) : Keeps msk s0
    (State.targetTimeoutRecord s o) := by
  unfold State.targetTimeoutRecord
  repeat' (first | with_reducible assumption | with_reducible apply State.galIncident_keeps | split)

theorem State.translationError_keeps (a : AtsReq) (status : Nat) (log2 : Option Nat) (hk : Keeps msk s0 s) : Keeps
    msk s0 (State.translationError s a status log2) := by
  unfold State.translationError
  repeat' (first | with_reducible assumption | with_reducible apply State.galIncident_keeps | split)

theorem State.failStreams_keeps (p : Nat) (xs : List StreamWait) (hk : Keeps msk s0 s) : Keeps msk s0
    (State.failStreams s p xs) := by
  unfold State.failStreams
  repeat' (first | with_reducible assumption | with_reducible apply Keeps.foldl | intro _
                 | with_reducible apply State.accessFail_keeps)

theorem State.atsFailed_keeps (p : Nat) (a : AtsReq) (status : Nat) (log2 : Option Nat) (hk : Keeps msk s0 s) :
    Keeps msk s0 (State.atsFailed s p a status log2) := by
  unfold State.atsFailed
  repeat' (first | with_reducible assumption | with_reducible apply State.failStreams_keeps
                 | with_reducible apply State.translationError_keeps)

theorem State.atsAgain_keeps (p : Nat) (a : AtsReq) (retried : Bool) (hk : Keeps msk s0 s) : Keeps msk s0
    (State.atsAgain s p a retried) := by
  unfold State.atsAgain
  repeat' (first | with_reducible assumption | with_reducible apply State.modDocent_keeps
                 | with_reducible apply State.out_keeps | with_reducible apply State.failStreams_keeps | split)

theorem State.usePage_keeps (p gal pasid : Nat) (e : TlbEntry) (x : StreamWait) (hk : Keeps msk s0 s) : Keeps msk
    s0 (State.usePage s p gal pasid e x) := by
  unfold State.usePage
  repeat' (first | with_reducible assumption | (with_reducible apply Keeps.ite) <;> intro _
                 | with_reducible apply State.modDocent_keeps | with_reducible apply State.resumeStream_keeps
                 | with_reducible apply State.pageNeed_keeps)

theorem State.takePage_keeps (p : Nat) (a : AtsReq) (lg addr : Nat) (r w : Bool) (hk : Keeps msk s0 s) : Keeps msk
    s0 (State.takePage s p a lg addr r w) := by
  unfold State.takePage
  repeat' (first | with_reducible assumption | with_reducible apply Keeps.foldl | intro _
                 | with_reducible apply State.fillCidx_keeps | with_reducible apply State.fillUcache_keeps
                 | with_reducible apply State.usePage_keeps)

theorem execAtsCompletion_keeps (p : Port) (req : Nat) (res : AtsResult) (hk : Keeps msk s0 s) : KeepsO msk s0
    (execAtsCompletion p req res s) := by
  unfold execAtsCompletion
  repeat' (first | with_reducible assumption | with_reducible apply KeepsO.next | with_reducible apply Keeps.foldl
                 | intro _ | with_reducible apply State.modDocent_keeps | with_reducible apply State.atsFailed_keeps
                 | with_reducible apply State.slotFreed_keeps | with_reducible apply State.takePage_keeps
                 | with_reducible apply State.drive_keeps | with_reducible apply State.atsAgain_keeps
                 | with_reducible apply State.pageNeed_keeps | split)

theorem execAtsCompletionTimeout_keeps (p : Port) (req : Nat) (hk : Keeps msk s0 s) : KeepsO msk s0
    (execAtsCompletionTimeout p req s) := by
  unfold execAtsCompletionTimeout
  repeat' (first | with_reducible assumption | with_reducible apply KeepsO.next
                 | with_reducible apply State.modDocent_keeps | with_reducible apply State.atsFailed_keeps
                 | with_reducible apply State.slotFreed_keeps | with_reducible apply State.drive_keeps
                 | with_reducible apply State.atsAgain_keeps | split)

theorem execPageRequest_keeps (f : FnNo) (hk : Keeps msk s0 s) : KeepsO msk s0 (execPageRequest f s) := by
  unfold execPageRequest
  repeat' (first | with_reducible assumption | with_reducible apply KeepsO.next
                 | with_reducible apply State.sendPage_keeps)

theorem State.refusePage_keeps (q : PageReq) (hk : Keeps msk s0 s) : Keeps msk s0 (State.refusePage s q) := by
  unfold State.refusePage
  repeat' (first | with_reducible assumption | with_reducible apply Keeps.foldl | intro _
                 | with_reducible apply State.accessFail_keeps)

theorem State.translateAgain_keeps (q : PageReq) (x : StreamWait) (hk : Keeps msk s0 s) : Keeps msk s0
    (State.translateAgain s q x) := by
  unfold State.translateAgain
  repeat' (first | with_reducible assumption | with_reducible apply State.addSuccess_keeps
                 | with_reducible apply State.translateStream_keeps)

theorem State.stopPri_keeps (f idx : Nat) (hk : Keeps msk s0 s) : Keeps msk s0 (State.stopPri s f idx) := by
  unfold State.stopPri
  repeat' (first | with_reducible assumption | with_reducible apply Keeps.foldl
                 | with_reducible apply State.modFn_keeps | with_reducible apply State.refusePage_keeps
                 | with_reducible apply State.incident_keeps)

theorem execPrgResponse_keeps (f : FnNo) (idx : BitVec 9) (code : PrgCode) (hk : Keeps msk s0 s) : KeepsO msk s0
    (execPrgResponse f idx code s) := by
  unfold execPrgResponse
  repeat' (first | with_reducible assumption | with_reducible apply KeepsO.next | with_reducible apply Keeps.foldl
                 | intro _ | with_reducible apply State.modFn_keeps | with_reducible apply State.refusePage_keeps
                 | with_reducible apply State.translateAgain_keeps | with_reducible apply State.driveAll_keeps
                 | with_reducible apply State.stopPri_keeps | with_reducible apply State.sendPage_keeps | split
                 | (simp only [Keeps.mark]; refine Updated.same ?_))

theorem execPrTimeoutExpiry_keeps (f : FnNo) (idx : BitVec 9) (hk : Keeps msk s0 s) : KeepsO msk s0
    (execPrTimeoutExpiry f idx s) := by
  unfold execPrTimeoutExpiry
  repeat' (first | with_reducible assumption | with_reducible apply KeepsO.next
                 | with_reducible apply State.modFn_keeps | with_reducible apply State.refusePage_keeps
                 | with_reducible apply State.driveAll_keeps | split
                 | (simp only [Keeps.mark]; refine Updated.same ?_))

theorem State.beginInval_keeps (f itag gal : Nat) (pasid : Option Nat) (base len log2 : Nat) (held : Bool) (hk :
    Keeps msk s0 s) : Keeps msk s0 (State.beginInval s f itag gal pasid base len log2 held) := by
  unfold State.beginInval
  repeat' (first | with_reducible assumption | with_reducible apply State.modFn_keeps
                 | with_reducible apply State.invalidate_keeps)

theorem execAtsInvalidateRequest_keeps (f : FnNo) (itag : BitVec 5) (pasid : Option (BitVec 20)) (base : Word)
    (log2Range : Nat) (hk : Keeps msk s0 s) : KeepsO msk s0 (execAtsInvalidateRequest f itag pasid base log2Range s)
    := by
  unfold execAtsInvalidateRequest
  repeat' (first | with_reducible assumption | with_reducible apply KeepsO.next
                 | with_reducible apply State.modFn_keeps | with_reducible apply State.driveAll_keeps
                 | with_reducible apply State.beginInval_keeps | split)

theorem execInvalidateCompletion_keeps (f : FnNo) (itag : BitVec 5) (hk : Keeps msk s0 s) : KeepsO msk s0
    (execInvalidateCompletion f itag s) := by
  unfold execInvalidateCompletion
  repeat' (first | with_reducible assumption | with_reducible apply KeepsO.next
                 | with_reducible apply State.modFn_keeps | with_reducible apply State.out_keeps
                 | (simp only [Keeps.mark]; exact Updated.same ‹_›) | split)

theorem State.modInst_keeps (i : Instance) (f : Instance → Instance) (hk : Keeps msk s0 s) : Keeps msk s0
    (State.modInst s i f) := by
  unfold State.modInst
  repeat' (first | (simp only [Keeps.mark]; exact Updated.same ‹_›))

theorem State.toMember_keeps (i : Instance) (m : HomeMember) (kind : Nat) (nums : List Nat) (hk : Keeps msk s0 s)
    : Keeps msk s0 (State.toMember s i m kind nums) := by
  unfold State.toMember
  repeat' (first | with_reducible assumption | with_reducible apply State.redSend_keeps)

theorem State.toHomeNode_keeps (i : Instance) (node kind : Nat) (nums : List Nat) (bs : Bytes) (hk : Keeps msk s0
    s) : Keeps msk s0 (State.toHomeNode s i node kind nums bs) := by
  unfold State.toHomeNode
  repeat' (first | with_reducible assumption | with_reducible apply Keeps.foldl | intro _
                 | with_reducible apply State.redSend_keeps)

theorem State.sendResult_keeps (i : Instance) (ms : List HomeMember) (off : Nat) (bs : Bytes) (hk : Keeps msk s0
    s) : Keeps msk s0 (State.sendResult s i ms off bs) := by
  unfold State.sendResult
  repeat' (first | with_reducible assumption | (with_reducible apply Keeps.ite) <;> intro _
                 | with_reducible apply State.pumpResults_keeps | (simp only [Keeps.mark]; refine Updated.same ?_))

theorem State.dwWrite_keeps (i : Instance) (x n : Nat) (bs : Bytes) (hk : Keeps msk s0 s) : Keeps msk s0
    (s.dwWrite i x n bs) := by
  induction n generalizing s x bs with
  | zero =>
    unfold State.dwWrite
    try dsimp only
    repeat' (first | with_reducible assumption)
  | succ n ih =>
    unfold State.dwWrite
    try dsimp only
    repeat' (first | with_reducible assumption | (with_reducible apply Keeps.ite) <;> intro _
                   | with_reducible apply State.vmWrite_keeps | with_reducible apply ih)

theorem State.dwRead_keeps (i : Instance) (x k n : Nat) (hk : Keeps msk s0 s) : Keeps msk s0 ((s.dwRead i x k
    n).1) := by
  induction n generalizing s x k with
  | zero =>
    unfold State.dwRead
    dsimp only
    repeat' (first | with_reducible assumption)
  | succ n ih =>
    unfold State.dwRead
    dsimp only
    repeat' (first | with_reducible assumption | with_reducible apply State.vmRead_keeps | with_reducible apply ih
                   | with_reducible refine Keeps.ofEq ‹_› ?_ | split)

theorem State.freeInst_keeps (i : Instance) (hk : Keeps msk s0 s) : Keeps msk s0 (State.freeInst s i) := by
  unfold State.freeInst
  repeat' (first | (simp only [Keeps.mark]; exact Updated.same ‹_›))

theorem State.overInst_keeps (i : Instance) (status : Nat) (pathLost : Bool) (hk : Keeps msk s0 s) : Keeps msk s0
    (State.overInst s i status pathLost) := by
  unfold State.overInst
  repeat' (first | with_reducible assumption | with_reducible apply State.pumpResults_keeps
                 | with_reducible apply State.freeInst_keeps | (simp only [Keeps.mark]; refine Updated.same ?_))

theorem State.settleAborts_keeps (hk : Keeps msk s0 s) : Keeps msk s0 (State.settleAborts s) := by
  unfold State.settleAborts
  repeat' (first | with_reducible assumption | with_reducible apply Keeps.foldl | intro _
                 | with_reducible apply State.overInst_keeps)

theorem State.abortOne_keeps (e : Bool) (sched inst status : Nat) (pathLost : Bool) (hk : Keeps msk s0 s) : Keeps
    msk s0 (State.abortOne s e sched inst status pathLost) := by
  unfold State.abortOne
  repeat' (first | with_reducible assumption | (with_reducible apply Keeps.ite) <;> intro _
                 | with_reducible apply Keeps.foldl | intro _ | with_reducible apply State.sendAbort_keeps
                 | with_reducible apply State.settleAborts_keeps | with_reducible apply State.overInst_keeps
                 | (simp only [Keeps.mark]; exact Updated.same ‹_›))

theorem State.abortInst_keeps (e : Bool) (sched inst status : Nat) (pathLost : Bool) (hk : Keeps msk s0 s) : Keeps
    msk s0 (State.abortInst s e sched inst status pathLost) := by
  unfold State.abortInst
  repeat' (first | with_reducible assumption | (with_reducible apply Keeps.ite) <;> intro _
                 | with_reducible apply Keeps.foldl | intro _ | with_reducible apply State.abortOne_keeps
                 | (simp only [Keeps.mark]; refine Updated.same ?_))

theorem State.firstCredits_keeps (i : Instance) (m : HomeMember) (hk : Keeps msk s0 s) : Keeps msk s0
    (State.firstCredits s i m) := by
  unfold State.firstCredits
  repeat' (first | with_reducible assumption | (with_reducible apply Keeps.ite) <;> intro _
                 | with_reducible apply Keeps.foldl | intro _ | with_reducible apply State.toMember_keeps)

theorem State.sendOffsets_keeps (i : Instance) (hk : Keeps msk s0 s) : Keeps msk s0 (State.sendOffsets s i) := by
  unfold State.sendOffsets
  repeat' (first | with_reducible assumption | with_reducible apply Keeps.foldl | intro _
                 | with_reducible apply State.modInst_keeps | with_reducible apply State.toMember_keeps
                 | (simp only [Keeps.mark]; exact Updated.same ‹_›) | split)

theorem State.announce_keeps (i : Instance) (hk : Keeps msk s0 s) : Keeps msk s0 (State.announce s i) := by
  unfold State.announce
  repeat' (first | with_reducible assumption | with_reducible apply Keeps.foldl | intro _
                 | with_reducible apply State.redSend_keeps | split)

theorem State.placeClaim_keeps (i : Instance) (hk : Keeps msk s0 s) : Keeps msk s0 (State.placeClaim s i) := by
  unfold State.placeClaim
  repeat' (first | with_reducible assumption | (with_reducible apply Keeps.ite) <;> intro _
                 | with_reducible apply State.modInst_keeps | with_reducible apply State.abortInst_keeps
                 | (simp only [Keeps.mark]; refine Updated.same ?_))

theorem State.refuseJoin_keeps (m : JoinMsg) (status : Nat) (pathLost : Bool) (hk : Keeps msk s0 s) : Keeps msk s0
    (State.refuseJoin s m status pathLost) := by
  unfold State.refuseJoin
  repeat' (first | with_reducible assumption | with_reducible apply State.sendAbort_keeps)

theorem State.joinMember_keeps (i : Instance) (m : JoinMsg) (rank : Nat) (hk : Keeps msk s0 s) : Keeps msk s0
    (State.joinMember s i m rank) := by
  unfold State.joinMember
  repeat' (first | with_reducible assumption | (with_reducible apply Keeps.ite) <;> intro _
                 | with_reducible apply State.modInst_keeps | with_reducible apply State.refuseJoin_keeps
                 | with_reducible apply State.firstCredits_keeps | with_reducible apply State.abortInst_keeps
                 | with_reducible apply State.sendOffsets_keeps)

theorem State.takeJoin_keeps (m : JoinMsg) (sc : Sched) (rank : Nat) (hk : Keeps msk s0 s) : Keeps msk s0
    (State.takeJoin s m sc rank) := by
  unfold State.takeJoin
  dsimp only
  repeat' (first | with_reducible assumption | with_reducible apply State.refuseJoin_keeps
                 | with_reducible apply State.placeClaim_keeps | with_reducible apply State.joinMember_keeps
                 | (simp only [Keeps.mark]; exact Updated.same ‹_›) | split)

theorem State.doJoin_keeps (m : JoinMsg) (hk : Keeps msk s0 s) : Keeps msk s0 (State.doJoin s m) := by
  unfold State.doJoin
  repeat' (first | with_reducible assumption | with_reducible apply State.refuseJoin_keeps
                 | with_reducible apply State.abortInst_keeps | with_reducible apply State.takeJoin_keeps
                 | (simp only [Keeps.mark]; exact Updated.same ‹_›) | split)

theorem State.redTake_keeps (kind : Nat) (pkt : FabPkt) (act : State → Bytes → State) (k_act : ∀ (y : State) x0,
    Keeps msk s0 y → Keeps msk s0 (act y x0)) (hk : Keeps msk s0 s) : Keeps msk s0 (State.redTake s kind pkt act) :=
    by
  unfold State.redTake
  repeat' (first | with_reducible assumption | with_reducible apply State.redArrive_keeps
                 | with_reducible apply State.settleMembers_keeps)

theorem execJoin_keeps (m : JoinMsg) (pkt : FabPkt) (hk : Keeps msk s0 s) : KeepsO msk s0 (execJoin m pkt s) := by
  unfold execJoin
  repeat' (first | with_reducible assumption | with_reducible apply KeepsO.next | intro _
                 | with_reducible apply State.redTake_keeps | with_reducible apply State.doJoin_keeps)

theorem execJoinAdmitted_keeps (hk : Keeps msk s0 s) : KeepsO msk s0 (execJoinAdmitted s) := by
  unfold execJoinAdmitted
  repeat' (first | with_reducible assumption | with_reducible apply KeepsO.next
                 | with_reducible apply State.doJoin_keeps | (simp only [Keeps.mark]; exact Updated.same ‹_›) | split)

theorem execClaimGrant_keeps (g : GalNo) (hk : Keeps msk s0 s) : KeepsO msk s0 (execClaimGrant g s) := by
  unfold execClaimGrant
  dsimp only
  repeat' (first | with_reducible assumption | with_reducible apply KeepsO.next | with_reducible apply Keeps.foldl
                 | intro _ | with_reducible apply State.modGal_keeps | with_reducible apply State.modInst_keeps
                 | with_reducible apply State.firstCredits_keeps | with_reducible apply State.announce_keeps
                 | with_reducible apply State.sendOffsets_keeps | split
                 | (simp only [Keeps.mark]; refine Updated.same ?_))

theorem execDrawerZeroingDone_keeps (hk : Keeps msk s0 s) : KeepsO msk s0 (execDrawerZeroingDone s) := by
  unfold execDrawerZeroingDone
  repeat' (first | with_reducible assumption | with_reducible apply KeepsO.next | with_reducible apply Keeps.foldl
                 | intro _ | with_reducible apply State.modGal_keeps | with_reducible apply State.vmZero_keeps | split
                 | (simp only [Keeps.mark]; refine Updated.same ?_))

theorem State.sparseChunk_keeps (i : Instance) (x : HomeMember) (chunk off records : Nat) (bs : Bytes) (last :
    Bool) (hk : Keeps msk s0 s) : Keeps msk s0 (State.sparseChunk s i x chunk off records bs last) := by
  unfold State.sparseChunk
  repeat' (first | with_reducible assumption | (with_reducible apply Keeps.ite) <;> intro _
                 | with_reducible apply State.modInst_keeps | with_reducible apply State.dwWrite_keeps)

theorem State.denseChunk_keeps (i : Instance) (rank chunk off : Nat) (bs : Bytes) (hk : Keeps msk s0 s) : Keeps
    msk s0 (State.denseChunk s i rank chunk off bs) := by
  unfold State.denseChunk
  repeat' (first | with_reducible assumption | (with_reducible apply Keeps.ite) <;> intro _
                 | with_reducible apply State.modInst_keeps | with_reducible apply State.dwWrite_keeps)

theorem State.doContribution_keeps (m : MemberId) (chunk off records : Nat) (bs : Bytes) (last : Bool) (hk : Keeps
    msk s0 s) : Keeps msk s0 (State.doContribution s m chunk off records bs last) := by
  unfold State.doContribution
  repeat' (first | with_reducible assumption | with_reducible apply State.denseChunk_keeps
                 | with_reducible apply State.sparseChunk_keeps | split)

theorem execContribution_keeps (m : MemberId) (chunk off records : Nat) (lines : Bytes) (last : Bool) (pkt :
    FabPkt) (hk : Keeps msk s0 s) : KeepsO msk s0 (execContribution m chunk off records lines last pkt s) := by
  unfold execContribution
  repeat' (first | with_reducible assumption | with_reducible apply KeepsO.next | intro _
                 | with_reducible apply State.redTake_keeps | with_reducible apply State.doContribution_keeps)

theorem State.deliver_keeps (i : Instance) (n : Nat) (hk : Keeps msk s0 s) : Keeps msk s0 (s.deliver i n) := by
  induction n generalizing s i with
  | zero =>
    unfold State.deliver
    try dsimp only
    repeat' (first | with_reducible assumption)
  | succ n ih =>
    unfold State.deliver
    try dsimp only
    repeat' (first | with_reducible assumption | with_reducible apply Keeps.foldl | intro _
                   | with_reducible apply State.modInst_keeps | with_reducible apply State.sendResult_keeps
                   | with_reducible apply ih | split)

theorem State.finishChunk_keeps (i : Instance) (c : Nat) (bs : Bytes) (hk : Keeps msk s0 s) : Keeps msk s0
    (State.finishChunk s i c bs) := by
  unfold State.finishChunk
  repeat' (first | with_reducible assumption | (with_reducible apply Keeps.ite) <;> intro _
                 | with_reducible apply State.modInst_keeps | with_reducible apply State.deliver_keeps)

theorem State.putPartial_keeps (i : Instance) (g c off : Nat) (bs : Bytes) (hk : Keeps msk s0 s) : Keeps msk s0
    (State.putPartial s i g c off bs) := by
  unfold State.putPartial
  repeat' (first | with_reducible assumption | with_reducible apply State.modInst_keeps
                 | with_reducible apply State.dwWrite_keeps)

theorem State.readPartials_keeps (i : Instance) (c : Nat) (l : List PartialIn) (hk : Keeps msk s0 s) : Keeps msk
    s0 ((s.readPartials i c l).1) := by
  induction l generalizing s with
  | nil =>
    unfold State.readPartials
    try dsimp only
    repeat' (first | with_reducible assumption)
  | cons r t ih =>
    unfold State.readPartials
    try dsimp only
    repeat' (first | with_reducible assumption | with_reducible apply State.dwRead_keeps | with_reducible apply ih
                   | with_reducible refine Keeps.ofEq ‹_› ?_ | split)

theorem State.addPartial_keeps (i : Instance) (group c off : Nat) (bs : Bytes) (hk : Keeps msk s0 s) : Keeps msk
    s0 (State.addPartial s i group c off bs) := by
  unfold State.addPartial
  dsimp only
  repeat' (first | with_reducible assumption | with_reducible apply Keeps.foldl | intro _
                 | with_reducible apply State.modInst_keeps | with_reducible apply State.toHomeNode_keeps
                 | with_reducible apply State.finishChunk_keeps | with_reducible apply State.settleAborts_keeps
                 | with_reducible apply State.abortInst_keeps | with_reducible apply State.readPartials_keeps
                 | with_reducible apply State.putPartial_keeps | with_reducible refine Keeps.ofEq ‹_› ?_ | split)

theorem State.readCopies_keeps (i : Instance) (c : Nat) (l : List Nat) (hk : Keeps msk s0 s) : Keeps msk s0
    ((s.readCopies i c l).1) := by
  induction l generalizing s with
  | nil =>
    unfold State.readCopies
    try dsimp only
    repeat' (first | with_reducible assumption)
  | cons r t ih =>
    unfold State.readCopies
    try dsimp only
    repeat' (first | with_reducible assumption | with_reducible apply State.dwRead_keeps | with_reducible apply ih
                   | with_reducible refine Keeps.ofEq ‹_› ?_ | split)

theorem State.sumChunk_keeps (i : Instance) (hk : Keeps msk s0 s) : Keeps msk s0 (State.sumChunk s i) := by
  unfold State.sumChunk
  dsimp only
  repeat' (first | with_reducible assumption | with_reducible apply Keeps.foldl | intro _
                 | with_reducible apply State.modInst_keeps | with_reducible apply State.toMember_keeps
                 | with_reducible apply State.toHomeNode_keeps | with_reducible apply State.finishChunk_keeps
                 | with_reducible apply State.abortInst_keeps | with_reducible apply State.readCopies_keeps
                 | with_reducible apply State.putPartial_keeps | with_reducible apply State.addPartial_keeps
                 | with_reducible refine Keeps.ofEq ‹_› ?_ | split)

theorem State.served_keeps (i : Instance) (hk : Keeps msk s0 s) : Keeps msk s0 (State.served s i) := by
  unfold State.served
  repeat' (first | (simp only [Keeps.mark]; exact Updated.same ‹_›))

theorem State.sparseEmit_keeps (i : Instance) (rs : List (Nat × Nat)) (atEnd : Bool) (unselected : Nat) (hk :
    Keeps msk s0 s) : Keeps msk s0 (State.sparseEmit s i rs atEnd unselected) := by
  unfold State.sparseEmit
  repeat' (first | with_reducible assumption | (with_reducible apply Keeps.ite) <;> intro _
                 | with_reducible apply Keeps.foldl | intro _ | with_reducible apply State.modInst_keeps
                 | with_reducible apply State.toMember_keeps | with_reducible apply State.sendResult_keeps)

theorem State.windowRecords_keeps (i : Instance) (w : Nat) (l : List ChunkCopy) (hk : Keeps msk s0 s) : Keeps msk
    s0 ((s.windowRecords i w l).1) := by
  induction l generalizing s with
  | nil =>
    unfold State.windowRecords
    dsimp only
    repeat' (first | with_reducible assumption)
  | cons r t ih =>
    unfold State.windowRecords
    dsimp only
    repeat' (first | with_reducible assumption | with_reducible apply State.dwRead_keeps | with_reducible apply ih
                   | with_reducible refine Keeps.ofEq ‹_› ?_ | split)

theorem State.windowRanks_keeps (i : Instance) (w : Nat) (l : List Nat) (hk : Keeps msk s0 s) : Keeps msk s0
    ((s.windowRanks i w l).1) := by
  induction l generalizing s with
  | nil =>
    unfold State.windowRanks
    try dsimp only
    repeat' (first | with_reducible assumption)
  | cons r t ih =>
    unfold State.windowRanks
    try dsimp only
    repeat' (first | with_reducible assumption | with_reducible apply State.windowRecords_keeps
                   | with_reducible apply ih | with_reducible refine Keeps.ofEq ‹_› ?_ | split)

theorem State.topkMerge_keeps (i : Instance) (merged : List (Nat × Nat)) (last : Bool) (hk : Keeps msk s0 s) :
    Keeps msk s0 (State.topkMerge s i merged last) := by
  unfold State.topkMerge
  repeat' (first | with_reducible assumption | with_reducible apply State.modInst_keeps
                 | with_reducible apply State.dwWrite_keeps | with_reducible apply State.abortInst_keeps
                 | with_reducible apply State.sparseEmit_keeps | with_reducible apply State.dwRead_keeps
                 | with_reducible refine Keeps.ofEq ‹_› ?_ | split)

theorem State.mergeWindow_keeps (i : Instance) (hk : Keeps msk s0 s) : Keeps msk s0 (State.mergeWindow s i) := by
  unfold State.mergeWindow
  repeat' (first | with_reducible assumption | with_reducible apply Keeps.foldl | intro _
                 | with_reducible apply State.modInst_keeps | with_reducible apply State.toMember_keeps
                 | with_reducible apply State.abortInst_keeps | with_reducible apply State.windowRanks_keeps
                 | with_reducible apply State.topkMerge_keeps | with_reducible apply State.sparseEmit_keeps
                 | with_reducible refine Keeps.ofEq ‹_› ?_ | split | (simp only [Keeps.mark]; refine Updated.same ?_))

theorem execChunkSummation_keeps (sched : BitVec 12) (inst : Nat) (hk : Keeps msk s0 s) : KeepsO msk s0
    (execChunkSummation sched inst s) := by
  unfold execChunkSummation
  repeat' (first | with_reducible assumption | with_reducible apply KeepsO.next
                 | with_reducible apply State.served_keeps | with_reducible apply State.sumChunk_keeps | split)

theorem execWindowMerge_keeps (sched : BitVec 12) (inst : Nat) (hk : Keeps msk s0 s) : KeepsO msk s0
    (execWindowMerge sched inst s) := by
  unfold execWindowMerge
  repeat' (first | with_reducible assumption | with_reducible apply KeepsO.next
                 | with_reducible apply State.served_keeps | with_reducible apply State.mergeWindow_keeps | split)

theorem execPartialChunk_keeps (sched : BitVec 12) (inst group chunk off : Nat) (bs : Bytes) (pkt : FabPkt) (hk :
    Keeps msk s0 s) : KeepsO msk s0 (execPartialChunk sched inst group chunk off bs pkt s) := by
  unfold execPartialChunk
  repeat' (first | with_reducible assumption | with_reducible apply KeepsO.next | intro _
                 | with_reducible apply State.redTake_keeps | with_reducible apply State.addPartial_keeps | split)

theorem State.finishedIn_keeps (i : Instance) (c off : Nat) (bs : Bytes) (hk : Keeps msk s0 s) : Keeps msk s0
    (State.finishedIn s i c off bs) := by
  unfold State.finishedIn
  repeat' (first | with_reducible assumption | (with_reducible apply Keeps.ite) <;> intro _
                 | with_reducible apply State.modInst_keeps | with_reducible apply State.finishChunk_keeps
                 | with_reducible apply State.settleAborts_keeps)

theorem execFinishedChunk_keeps (sched : BitVec 12) (inst chunk off : Nat) (bs : Bytes) (pkt : FabPkt) (hk : Keeps
    msk s0 s) : KeepsO msk s0 (execFinishedChunk sched inst chunk off bs pkt s) := by
  unfold execFinishedChunk
  repeat' (first | with_reducible assumption | with_reducible apply KeepsO.next | with_reducible apply Keeps.foldl
                 | intro _ | with_reducible apply State.redTake_keeps | with_reducible apply State.finishedIn_keeps)

theorem State.modToken_keeps (i : Instance) (rank token : Nat) (f : TokenState → TokenState) (hk : Keeps msk s0 s)
    : Keeps msk s0 (State.modToken s i rank token f) := by
  unfold State.modToken
  repeat' (first | with_reducible assumption | with_reducible apply State.modInst_keeps)

theorem State.readChoices_keeps (i : Instance) (t : TokenState) (l : List Nat) (hk : Keeps msk s0 s) : Keeps msk
    s0 ((s.readChoices i t l).1) := by
  induction l generalizing s with
  | nil =>
    unfold State.readChoices
    try dsimp only
    repeat' (first | with_reducible assumption)
  | cons r t2 ih =>
    unfold State.readChoices
    try dsimp only
    repeat' (first | with_reducible assumption | with_reducible apply State.dwRead_keeps | with_reducible apply ih
                   | with_reducible refine Keeps.ofEq ‹_› ?_ | split)

theorem State.sendTokens_keeps (i : Instance) (rank n : Nat) (hk : Keeps msk s0 s) : Keeps msk s0 (s.sendTokens i
    rank n) := by
  induction n generalizing s i with
  | zero =>
    unfold State.sendTokens
    try dsimp only
    repeat' (first | with_reducible assumption)
  | succ n ih =>
    unfold State.sendTokens
    try dsimp only
    repeat' (first | with_reducible assumption | with_reducible apply State.modInst_keeps
                   | with_reducible apply State.sendResult_keeps | with_reducible apply State.abortInst_keeps
                   | with_reducible apply State.readChoices_keeps | with_reducible apply ih
                   | with_reducible refine Keeps.ofEq ‹_› ?_ | split)

theorem State.doExpertOutput_keeps (m : MemberId) (token choice off : Nat) (bs : Bytes) (hk : Keeps msk s0 s) :
    Keeps msk s0 (State.doExpertOutput s m token choice off bs) := by
  unfold State.doExpertOutput
  dsimp only
  repeat' (first | with_reducible assumption | with_reducible apply State.modToken_keeps
                 | with_reducible apply State.dwWrite_keeps | with_reducible apply State.sendTokens_keeps | split)

theorem execExpertOutput_keeps (m : MemberId) (token choice off : Nat) (bs : Bytes) (pkt : FabPkt) (hk : Keeps msk
    s0 s) : KeepsO msk s0 (execExpertOutput m token choice off bs pkt s) := by
  unfold execExpertOutput
  repeat' (first | with_reducible assumption | with_reducible apply KeepsO.next | intro _
                 | with_reducible apply State.redTake_keeps | with_reducible apply State.doExpertOutput_keeps)

theorem State.doWeights_keeps (m : MemberId) (token : Nat) (weights : List Word) (delivered : List Bool) (hk :
    Keeps msk s0 s) : Keeps msk s0 (State.doWeights s m token weights delivered) := by
  unfold State.doWeights
  repeat' (first | with_reducible assumption | with_reducible apply State.modToken_keeps
                 | with_reducible apply State.sendTokens_keeps | split)

theorem execCombineWeights_keeps (m : MemberId) (token : Nat) (weights : List Word) (delivered : List Bool) (pkt :
    FabPkt) (hk : Keeps msk s0 s) : KeepsO msk s0 (execCombineWeights m token weights delivered pkt s) := by
  unfold execCombineWeights
  repeat' (first | with_reducible assumption | with_reducible apply KeepsO.next | intro _
                 | with_reducible apply State.redTake_keeps | with_reducible apply State.doWeights_keeps)

theorem execCredit_keeps (p : Port) (m : MemberId) (chunk : Nat) (pkt : FabPkt) (hk : Keeps msk s0 s) : KeepsO msk
    s0 (execCredit p m chunk pkt s) := by
  unfold execCredit
  repeat' (first | with_reducible assumption | with_reducible apply KeepsO.next | intro _
                 | with_reducible apply State.modCol_keeps | with_reducible apply State.redTake_keeps
                 | with_reducible apply State.drive_keeps | split)

theorem State.resultArrives_keeps (p : Port) (m : MemberId) (dseq off : Nat) (lines : Bytes) (hk : Keeps msk s0 s)
    : Keeps msk s0 (State.resultArrives s p m dseq off lines) := by
  unfold State.resultArrives
  repeat' (first | with_reducible assumption | with_reducible apply State.modCol_keeps
                 | with_reducible apply State.drive_keeps | with_reducible apply State.collSettle_keeps
                 | with_reducible apply State.writeResult_keeps | split)

theorem State.resultLost_keeps (p : Port) (m : MemberId) (status : Nat) (hk : Keeps msk s0 s) : Keeps msk s0
    (State.resultLost s p m status) := by
  unfold State.resultLost
  repeat' (first | with_reducible assumption | with_reducible apply State.modCol_keeps
                 | with_reducible apply State.drive_keeps | with_reducible apply State.collSettle_keeps | split)

theorem execResult_keeps (p : Port) (m : MemberId) (off : Nat) (lost : Option Nat) (pkt : FabPkt) (hk : Keeps msk
    s0 s) : KeepsO msk s0 (execResult p m off lost pkt s) := by
  unfold execResult
  repeat' (first | with_reducible assumption | with_reducible apply KeepsO.next | intro _
                 | with_reducible apply State.redTake_keeps | with_reducible apply State.resultLost_keeps
                 | with_reducible apply State.resultArrives_keeps | split)

theorem execOffsets_keeps (p : Port) (m : MemberId) (off kept recv : List Nat) (bases : List (Nat × Nat)) (pkt :
    FabPkt) (hk : Keeps msk s0 s) : KeepsO msk s0 (execOffsets p m off kept recv bases pkt s) := by
  unfold execOffsets
  repeat' (first | with_reducible assumption | with_reducible apply KeepsO.next | intro _
                 | with_reducible apply State.modCol_keeps | with_reducible apply State.redTake_keeps
                 | with_reducible apply State.drive_keeps | split)

theorem State.grantIn_keeps (p : Port) (m : MemberId) (group : Nat) (hk : Keeps msk s0 s) : Keeps msk s0
    (State.grantIn s p m group) := by
  unfold State.grantIn
  dsimp only
  repeat' (first | with_reducible assumption | with_reducible apply State.modCol_keeps
                 | with_reducible apply State.drive_keeps | (simp only [Keeps.mark]; exact Updated.same ‹_›) | split)

theorem execGrantAnnouncement_keeps (p : Port) (m : MemberId) (group : Nat) (pkt : FabPkt) (hk : Keeps msk s0 s) :
    KeepsO msk s0 (execGrantAnnouncement p m group pkt s) := by
  unfold execGrantAnnouncement
  repeat' (first | with_reducible assumption | with_reducible apply KeepsO.next | intro _
                 | with_reducible apply State.redTake_keeps | with_reducible apply State.grantIn_keeps)

theorem State.completeIdle_keeps (sched inst p : Nat) (hk : Keeps msk s0 s) : Keeps msk s0 (State.completeIdle s
    sched inst p) := by
  unfold State.completeIdle
  repeat' (first | with_reducible assumption | with_reducible apply State.modOp_keeps
                 | with_reducible apply State.drive_keeps | split)

theorem execInstanceComplete_keeps (sched : BitVec 12) (inst : Nat) (failed : List Nat) (hk : Keeps msk s0 s) :
    KeepsO msk s0 (execInstanceComplete sched inst failed s) := by
  unfold execInstanceComplete
  repeat' (first | with_reducible assumption | (with_reducible apply Keeps.ite) <;> intro _
                 | with_reducible apply KeepsO.next | (with_reducible apply KeepsO.ite) <;> intro _
                 | with_reducible apply Keeps.foldl | intro _ | with_reducible apply State.soAddOf_keeps
                 | with_reducible apply State.freeInst_keeps | with_reducible apply State.completeIdle_keeps
                 | (simp only [Keeps.mark]; refine Updated.same ?_))

theorem State.memberLeft_keeps (i : Instance) (rank : Nat) (hk : Keeps msk s0 s) : Keeps msk s0 (State.memberLeft
    s i rank) := by
  unfold State.memberLeft
  repeat' (first | with_reducible assumption | with_reducible apply State.modInst_keeps)

theorem State.doWithdrawal_keeps (e : Bool) (m : MemberId) (pathLost : Bool) (hk : Keeps msk s0 s) : Keeps msk s0
    (State.doWithdrawal s e m pathLost) := by
  unfold State.doWithdrawal
  repeat' (first | with_reducible assumption | with_reducible apply State.memberLeft_keeps
                 | with_reducible apply State.abortInst_keeps | split)

theorem execWithdrawal_keeps (m : MemberId) (pathLost : Bool) (pkt : FabPkt) (hk : Keeps msk s0 s) : KeepsO msk s0
    (execWithdrawal m pathLost pkt s) := by
  unfold execWithdrawal
  repeat' (first | with_reducible assumption | with_reducible apply KeepsO.next | intro _
                 | with_reducible apply State.redTake_keeps | with_reducible apply State.doWithdrawal_keeps)

theorem State.memberAborted_keeps (sched inst : Nat) (a : AbortNote) (p : Nat) (hk : Keeps msk s0 s) : Keeps msk
    s0 (State.memberAborted s sched inst a p) := by
  unfold State.memberAborted
  repeat' (first | with_reducible assumption | with_reducible apply State.modCol_keeps | split)

theorem State.homeAborted_keeps (e : Bool) (sched inst status : Nat) (pathLost : Bool) (begun : Option (Nat ×
    Nat)) (hk : Keeps msk s0 s) : Keeps msk s0 (State.homeAborted s e sched inst status pathLost begun) := by
  unfold State.homeAborted
  repeat' (first | with_reducible assumption | with_reducible apply State.settleAborts_keeps
                 | with_reducible apply State.abortInst_keeps | split
                 | (simp only [Keeps.mark]; refine Updated.same ?_))

theorem execAbort_keeps (sched : BitVec 12) (inst : Nat) (status : Nat) (pathLost : Bool) (only : Option Port)
    (begun : Option (Nat × Nat)) (pkt : FabPkt) (hk : Keeps msk s0 s) : KeepsO msk s0 (execAbort sched inst status
    pathLost only begun pkt s) := by
  unfold execAbort
  repeat' (first | with_reducible assumption | with_reducible apply KeepsO.next | with_reducible apply Keeps.foldl
                 | intro _ | with_reducible apply State.redTake_keeps | with_reducible apply State.driveAll_keeps
                 | with_reducible apply State.memberAborted_keeps | with_reducible apply State.homeAborted_keeps
                 | split)

theorem execJoinTimeout_keeps (sched : BitVec 12) (inst : Nat) (hk : Keeps msk s0 s) : KeepsO msk s0
    (execJoinTimeout sched inst s) := by
  unfold execJoinTimeout
  repeat' (first | with_reducible assumption | with_reducible apply KeepsO.next
                 | with_reducible apply State.abortInst_keeps | split)

theorem State.memberPath_keeps (p : Nat) (hk : Keeps msk s0 s) : Keeps msk s0 (State.memberPath s p) := by
  unfold State.memberPath
  repeat' (first | with_reducible assumption | (with_reducible apply Keeps.ite) <;> intro _
                 | with_reducible apply Keeps.foldl | intro _ | with_reducible apply State.collFailed_keeps)

theorem State.membersLost_keeps (i : Instance) (hk : Keeps msk s0 s) : Keeps msk s0 (State.membersLost s i) := by
  unfold State.membersLost
  repeat' (first | with_reducible assumption | (with_reducible apply Keeps.ite) <;> intro _
                 | with_reducible apply Keeps.foldl | intro _ | with_reducible apply State.memberLeft_keeps
                 | with_reducible apply State.abortInst_keeps)

theorem State.homesLost_keeps (i : Instance) (hk : Keeps msk s0 s) : Keeps msk s0 (State.homesLost s i) := by
  unfold State.homesLost
  repeat' (first | with_reducible assumption | (with_reducible apply Keeps.ite) <;> intro _
                 | with_reducible apply State.abortInst_keeps)

theorem State.pathCheck_keeps (hk : Keeps msk s0 s) : Keeps msk s0 (State.pathCheck s) := by
  unfold State.pathCheck
  repeat' (first | with_reducible assumption | with_reducible apply Keeps.foldl | intro _
                 | with_reducible apply State.homesLost_keeps | with_reducible apply State.membersLost_keeps
                 | with_reducible apply State.settleAborts_keeps | with_reducible apply State.memberPath_keeps)

theorem State.floodNotice_keeps (from_ : Nat) (b : BitVec 128) (hk : Keeps msk s0 s) : Keeps msk s0
    (State.floodNotice s from_ b) := by
  unfold State.floodNotice
  repeat' (first | with_reducible assumption | with_reducible apply Keeps.foldl | intro _
                 | with_reducible apply State.leaveIdle_keeps | with_reducible apply State.ctrlOut_keeps)

theorem State.noticeArrives_keeps (from_ : Nat) (b : BitVec 128) (hk : Keeps msk s0 s) : Keeps msk s0
    (State.noticeArrives s from_ b) := by
  unfold State.noticeArrives
  repeat' (first | with_reducible assumption | (with_reducible apply Keeps.ite) <;> intro _
                 | with_reducible apply State.loseAll_keeps | with_reducible apply State.driveAll_keeps
                 | with_reducible apply State.pathCheck_keeps | with_reducible apply State.floodNotice_keeps
                 | with_reducible apply State.replayOver_keeps | (simp only [Keeps.mark]; exact Updated.same ‹_›))

theorem execNotice_keeps (p : Port) (body : BitVec 128) (hk : Keeps msk s0 s) : KeepsO msk s0 (execNotice p body
    s) := by
  unfold execNotice
  repeat' (first | with_reducible assumption | with_reducible apply KeepsO.next
                 | with_reducible apply State.noticeArrives_keeps)

theorem execPathTimeout_keeps (src : BitVec 6) (dest : NodeId) (hk : Keeps msk s0 s) : KeepsO msk s0
    (execPathTimeout src dest s) := by
  unfold execPathTimeout
  repeat' (first | with_reducible assumption | with_reducible apply KeepsO.next
                 | (with_reducible apply KeepsO.ite) <;> intro _ | with_reducible apply Keeps.foldl
                 | with_reducible apply State.loseAll_keeps | with_reducible apply State.markRoute_keeps
                 | with_reducible apply State.pathCheck_keeps | with_reducible apply State.driveAll_keeps
                 | with_reducible apply State.replayOver_keeps)

theorem execBeRetxExpiry_keeps (src : BitVec 6) (dest : NodeId) (dseq : BitVec 32) (hk : Keeps msk s0 s) : KeepsO
    msk s0 (execBeRetxExpiry src dest dseq s) := by
  unfold execBeRetxExpiry
  dsimp only
  repeat' (first | with_reducible assumption | with_reducible apply KeepsO.next
                 | with_reducible apply State.afterAnswer_keeps | with_reducible apply State.release_keeps
                 | with_reducible apply State.resend_keeps | with_reducible apply State.resolve_keeps
                 | (simp only [Keeps.mark]; exact Updated.same ‹_›) | split)

theorem State.unbuffer_keeps (b : Buffered) (hk : Keeps msk s0 s) : Keeps msk s0 (State.unbuffer s b) := by
  unfold State.unbuffer
  repeat' (first | with_reducible apply State.mcCrossed_keeps | with_reducible apply State.linkFree_keeps
                 | with_reducible apply State.letIn_keeps | (simp only [Keeps.mark]; exact Updated.same ‹_›) | split)

theorem State.bufferError_keeps (b : Buffered) (hk : Keeps msk s0 s) : Keeps msk s0 (State.bufferError s b) := by
  unfold State.bufferError
  repeat' (first | with_reducible assumption | with_reducible apply Keeps.foldl | intro _
                 | with_reducible apply State.bareAck_keeps | with_reducible apply State.unbuffer_keeps
                 | (simp only [Keeps.mark]; exact Updated.same ‹_›))

theorem State.forward_keeps (b : Buffered) (hk : Keeps msk s0 s) : Keeps msk s0 (State.forward s b) := by
  unfold State.forward
  repeat' (first | with_reducible assumption | (with_reducible apply Keeps.ite) <;> intro _
                 | with_reducible apply State.out_keeps | with_reducible apply State.bareAck_keeps
                 | with_reducible apply State.linkSend_keeps | with_reducible apply State.unbuffer_keeps
                 | (simp only [Keeps.mark]; refine Updated.same ?_))

theorem State.matchSlot_keeps (hk : Keeps msk s0 s) : Keeps msk s0 (State.matchSlot s) := by
  unfold State.matchSlot
  repeat' (first | (simp only [Keeps.mark]; exact Updated.same ‹_›))

theorem State.unlock_keeps (inp out : Nat) (hk : Keeps msk s0 s) : Keeps msk s0 (State.unlock s inp out) := by
  unfold State.unlock
  repeat' (first | (simp only [Keeps.mark]; exact Updated.same ‹_›))

theorem execPacketForward_keeps (inp out : Nat) (vc : BitVec 3) (corrected : Nat) (failed : Bool)
    (hk : Keeps msk s0 s) : KeepsO msk s0 (execPacketForward inp out vc corrected failed s) := by
  unfold execPacketForward
  have h : Keeps msk s0 s.matchSlot := State.matchSlot_keeps hk
  generalize s.matchSlot = t at h ⊢
  dsimp only
  split
  · exact h
  · rename_i b _
    refine KeepsO.ite (fun _ => h) fun _ => KeepsO.next ?_
    have h1 : Keeps msk s0 ({ t.unlock inp out with
        swc := { (t.unlock inp out).swc with bufCe := wrapAdd 32 (t.unlock inp out).swc.bufCe corrected } } :
            State) := by
      simp only [Keeps.mark]
      exact Updated.same (State.unlock_keeps inp out h)
    have h2 := Keeps.ite (c := failed = true) (fun _ => State.bufferError_keeps b h1) fun _ => State.forward_keeps
        b h1
    exact Keeps.ite (fun _ => State.driveAll_keeps h2) fun _ => h2

theorem State.receiveResp_keeps (ft : Nat) (hdr : Header) (payload tag : Bytes) (hk : Keeps msk s0 s) : Keeps msk
    s0 (State.receiveResp s ft hdr payload tag).1 := by
  unfold State.receiveResp
  repeat' (first | with_reducible assumption | (with_reducible apply Keeps.iteFst) <;> intro _
                 | with_reducible apply State.unqueue_keeps | (simp only [Keeps.mark]; refine Updated.same ?_))

theorem State.listWait_keeps (o : Outst) (hk : Keeps msk s0 s) : Keeps msk s0 (State.listWait s o) := by
  unfold State.listWait
  repeat' (first | (simp only [Keeps.mark]; exact Updated.same ‹_›))

theorem execAck_keeps (hdr : Header) (tag : Bytes) (timedOut : Bool) (hk : Keeps msk s0 s) : KeepsO msk s0
    (execAck hdr tag timedOut s) := by
  unfold execAck
  dsimp only
  repeat' (first | with_reducible assumption | with_reducible apply KeepsO.next
                 | with_reducible apply State.afterAnswer_keeps | with_reducible apply State.release_keeps
                 | with_reducible apply State.listWait_keeps | with_reducible apply State.pathCheck_keeps
                 | with_reducible apply State.copyFailed_keeps | with_reducible apply State.driveAll_keeps
                 | with_reducible apply State.receiveResp_keeps | with_reducible apply State.targetTimeoutRecord_keeps
                 | with_reducible apply State.resolve_keeps | with_reducible refine Keeps.ofEq ‹_› ?_ | split)

theorem execData_keeps (hdr : Header) (payload tag : Bytes) (hk : Keeps msk s0 s) : KeepsO msk s0 (execData hdr
    payload tag s) := by
  unfold execData
  repeat' (first | with_reducible assumption | with_reducible apply KeepsO.next
                 | with_reducible apply State.afterAnswer_keeps | with_reducible apply State.release_keeps
                 | with_reducible apply State.receiveResp_keeps | with_reducible apply State.resolve_keeps
                 | with_reducible refine Keeps.ofEq ‹_› ?_ | split)

theorem execValue_keeps (hdr : Header) (payload tag : Bytes) (hk : Keeps msk s0 s) : KeepsO msk s0 (execValue hdr
    payload tag s) := by
  unfold execValue
  dsimp only
  repeat' (first | with_reducible assumption | with_reducible apply KeepsO.next
                 | with_reducible apply State.afterAnswer_keeps | with_reducible apply State.release_keeps
                 | with_reducible apply State.receiveResp_keeps | with_reducible apply State.resolve_keeps
                 | with_reducible refine Keeps.ofEq ‹_› ?_ | split)

end Sys2Proof.Machine
end

