-- ==== Sys2Proof/Laws/KeepsLink.lean ====
section
/-! SUPPORT. What each operation keeps (`Keeps`): links, command completions, the vault and fabric keys. -/

set_option maxRecDepth 4000
set_option Elab.async false

namespace Sys2Proof.Machine

variable {msk : Part} {s0 s : State}

theorem State.modLanes_keeps (p : Nat) (f : Nat → Lane → Lane) (hk : Keeps msk s0 s) : Keeps msk s0
    (State.modLanes s p f) := by
  unfold State.modLanes
  repeat' (first | with_reducible assumption | with_reducible apply Keeps.foldl | intro _
                 | with_reducible apply State.modLane_keeps)

theorem State.failLanes_keeps (p : Nat) (lanes : List Nat) (hk : Keeps msk s0 s) : Keeps msk s0 (State.failLanes s
    p lanes) := by
  unfold State.failLanes
  repeat' (first | with_reducible assumption | (with_reducible apply Keeps.ite) <;> intro _
                 | with_reducible apply Keeps.foldl | intro _ | with_reducible apply State.modLane_keeps
                 | with_reducible apply State.incident_keeps)

theorem State.mapOut_keeps (p : Nat) (hk : Keeps msk s0 s) : Keeps msk s0 (State.mapOut s p) := by
  unfold State.mapOut
  repeat' (first | with_reducible assumption | with_reducible apply State.modLink_keeps
                 | with_reducible apply State.incident_keeps | (simp only [Keeps.mark]; refine Updated.same ?_))

theorem State.linkLost_keeps (p : Nat) (st : LinkState) (hk : Keeps msk s0 s) : Keeps msk s0 (State.linkLost s p
    st) := by
  unfold State.linkLost
  repeat' (first | with_reducible assumption | (with_reducible apply Keeps.ite) <;> intro _
                 | with_reducible apply Keeps.foldl | intro _ | with_reducible apply State.modDocent_keeps
                 | with_reducible apply State.modLanes_keeps | with_reducible apply State.modLink_keeps
                 | with_reducible apply State.targetAnswer_keeps | with_reducible apply State.noticeArrives_keeps
                 | (simp only [Keeps.mark]; refine Updated.same ?_))

theorem State.goDown_keeps (p cause : Nat) (hk : Keeps msk s0 s) : Keeps msk s0 (State.goDown s p cause) := by
  unfold State.goDown
  repeat' (first | with_reducible assumption | (with_reducible apply Keeps.ite) <;> intro _
                 | with_reducible apply State.modLink_keeps | with_reducible apply State.incident_keeps
                 | with_reducible apply State.mapOut_keeps | with_reducible apply State.linkLost_keeps)

theorem State.trainFailed_keeps (p : Nat) (hk : Keeps msk s0 s) : Keeps msk s0 (State.trainFailed s p) := by
  unfold State.trainFailed
  repeat' (first | with_reducible assumption | (with_reducible apply Keeps.ite) <;> intro _
                 | with_reducible apply State.modLanes_keeps | with_reducible apply State.modLink_keeps
                 | with_reducible apply State.mapOut_keeps)

theorem State.startTraining_keeps (p : Nat) (hk : Keeps msk s0 s) : Keeps msk s0 (State.startTraining s p) := by
  unfold State.startTraining
  repeat' (first | with_reducible assumption | (with_reducible apply Keeps.ite) <;> intro _
                 | with_reducible apply State.out_keeps | with_reducible apply State.modLanes_keeps
                 | with_reducible apply State.modLink_keeps)

theorem State.startRetrain_keeps (p : Nat) (hk : Keeps msk s0 s) : Keeps msk s0 (State.startRetrain s p) := by
  unfold State.startRetrain
  repeat' (first | with_reducible assumption | with_reducible apply State.out_keeps
                 | with_reducible apply State.modLanes_keeps | with_reducible apply State.modLink_keeps
                 | with_reducible apply State.sendTs_keeps | (simp only [Keeps.mark]; refine Updated.same ?_))

theorem State.failedRetrain_keeps (p : Nat) (hk : Keeps msk s0 s) : Keeps msk s0 (State.failedRetrain s p) := by
  unfold State.failedRetrain
  repeat' (first | with_reducible assumption | (with_reducible apply Keeps.ite) <;> intro _
                 | with_reducible apply State.modLink_keeps | with_reducible apply State.goDown_keeps
                 | with_reducible apply State.startRetrain_keeps)

theorem State.retrainAgain_keeps (p : Nat) (hk : Keeps msk s0 s) : Keeps msk s0 (State.retrainAgain s p) := by
  unfold State.retrainAgain
  repeat' (first | with_reducible assumption | (with_reducible apply Keeps.ite) <;> intro _
                 | with_reducible apply State.failedRetrain_keeps | with_reducible apply State.startRetrain_keeps)

theorem State.lanesFail_keeps (p : Nat) (lanes : List Nat) (hk : Keeps msk s0 s) : Keeps msk s0 (State.lanesFail s
    p lanes) := by
  unfold State.lanesFail
  repeat' (first | with_reducible assumption | (with_reducible apply Keeps.ite) <;> intro _
                 | with_reducible apply State.goDown_keeps | with_reducible apply State.startRetrain_keeps
                 | with_reducible apply State.failLanes_keeps)

theorem State.replayFlits_keeps (p : Nat) (hk : Keeps msk s0 s) : Keeps msk s0 (State.replayFlits s p) := by
  unfold State.replayFlits
  dsimp only
  repeat' (first | with_reducible assumption | with_reducible apply Keeps.foldl | intro _
                 | with_reducible apply State.modLink_keeps | with_reducible apply State.sendData_keeps
                 | with_reducible apply State.retrainAgain_keeps | split)

theorem State.ackFlits_keeps (p ack : Nat) (hk : Keeps msk s0 s) : Keeps msk s0 (State.ackFlits s p ack) := by
  unfold State.ackFlits
  repeat' (first | with_reducible assumption | (with_reducible apply Keeps.ite) <;> intro _
                 | with_reducible apply State.modLink_keeps | with_reducible apply State.protoErr_keeps)

theorem State.flitFields_keeps (p : Nat) (h : Word) (hk : Keeps msk s0 s) : Keeps msk s0 (State.flitFields s p h)
    := by
  unfold State.flitFields
  repeat' (first | with_reducible assumption | (with_reducible apply Keeps.ite) <;> intro _
                 | with_reducible apply State.modLink_keeps | with_reducible apply State.ackFlits_keeps
                 | with_reducible apply State.linkPump_keeps | with_reducible apply State.replayFlits_keeps)

theorem State.sendNak_keeps (p : Nat) (hk : Keeps msk s0 s) : Keeps msk s0 (State.sendNak s p) := by
  unfold State.sendNak
  repeat' (first | with_reducible assumption | (with_reducible apply Keeps.ite) <;> intro _
                 | with_reducible apply State.modLink_keeps | with_reducible apply State.sendCtrl_keeps
                 | with_reducible apply State.leaveIdle_keeps)

theorem State.countCorrected_keeps (p : Nat) (corrected : List Nat) (hk : Keeps msk s0 s) : Keeps msk s0
    (State.countCorrected s p corrected) := by
  unfold State.countCorrected
  repeat' (first | with_reducible assumption | (with_reducible apply Keeps.ite) <;> intro _
                 | with_reducible apply Keeps.foldl | intro _ | with_reducible apply State.modLane_keeps
                 | with_reducible apply State.modLink_keeps)

theorem State.badFlit_keeps (p : Nat) (hk : Keeps msk s0 s) : Keeps msk s0 (State.badFlit s p) := by
  unfold State.badFlit
  repeat' (first | with_reducible assumption | with_reducible apply State.modLink_keeps
                 | with_reducible apply State.sendNak_keeps)

theorem State.packetIn_keeps (p cls : Nat) (bs : Bytes) (hk : Keeps msk s0 s) : Keeps msk s0 (State.packetIn s p
    cls bs) := by
  unfold State.packetIn
  repeat' (first | with_reducible assumption | (with_reducible apply Keeps.ite) <;> intro _
                 | with_reducible apply State.enqueue_keeps | (simp only [Keeps.mark]; exact Updated.same ‹_›))

theorem State.parseBody_keeps (p vc : Nat) (body : Bytes) (off n : Nat) (hk : Keeps msk s0 s) : Keeps msk s0
    (s.parseBody p vc body off n) := by
  induction n generalizing s off with
  | zero =>
    unfold State.parseBody
    try dsimp only
    repeat' (first | with_reducible assumption)
  | succ n ih =>
    unfold State.parseBody
    try dsimp only
    repeat' (first | with_reducible assumption | (with_reducible apply Keeps.ite) <;> intro _
                   | with_reducible apply State.modLink_keeps | with_reducible apply State.protoErr_keeps
                   | with_reducible apply State.packetIn_keeps | with_reducible apply State.linkFree_keeps
                   | with_reducible apply ih)

theorem State.takeBody_keeps (p vc sop : Nat) (body : Bytes) (hk : Keeps msk s0 s) : Keeps msk s0 (State.takeBody
    s p vc sop body) := by
  unfold State.takeBody
  dsimp only
  repeat' (first | with_reducible assumption | with_reducible apply State.modLink_keeps
                 | with_reducible apply State.packetIn_keeps | with_reducible apply State.parseBody_keeps | split)

theorem State.elastic_keeps (p : Nat) (filler : Bool) (hk : Keeps msk s0 s) : Keeps msk s0 (State.elastic s p
    filler) := by
  unfold State.elastic
  repeat' (first | with_reducible assumption | with_reducible apply State.draw_keeps
                 | with_reducible apply State.modLink_keeps)

theorem State.flitArrives_keeps (p : Nat) (lanes : List (List Pam)) (hk : Keeps msk s0 s) : Keeps msk s0
    (State.flitArrives s p lanes).1 := by
  unfold State.flitArrives
  repeat' (first | with_reducible assumption | with_reducible apply State.unwire_keeps)

theorem State.countPlaces_keeps (p : Nat) (places : List Nat) (hk : Keeps msk s0 s) : Keeps msk s0
    (State.countPlaces s p places) := by
  unfold State.countPlaces
  repeat' (first | with_reducible assumption | with_reducible apply State.countCorrected_keeps)

theorem State.dataIn_keeps (p : Nat) (hdr : Word) (body : Bytes) (hk : Keeps msk s0 s) : Keeps msk s0
    (State.dataIn s p hdr body) := by
  unfold State.dataIn
  repeat' (first | with_reducible assumption | (with_reducible apply Keeps.ite) <;> intro _
                 | with_reducible apply State.modLink_keeps | with_reducible apply State.sendCtrl_keeps
                 | with_reducible apply State.sendNak_keeps | with_reducible apply State.flitFields_keeps
                 | with_reducible apply State.takeBody_keeps)

theorem State.ctrlIn_keeps (p : Nat) (hdr : Word) (body : Bytes) (hk : Keeps msk s0 s) : Keeps msk s0
    (State.ctrlIn s p hdr body) := by
  unfold State.ctrlIn
  repeat' (first | with_reducible assumption | (with_reducible apply Keeps.ite) <;> intro _
                 | with_reducible apply Keeps.foldl | intro _ | with_reducible apply State.modLink_keeps
                 | with_reducible apply State.flitFields_keeps | with_reducible apply State.noticeArrives_keeps)

theorem execDataFlit_keeps (p : Port) (lanes : List (List Pam)) (hk : Keeps msk s0 s) : KeepsO msk s0
    (execDataFlit p lanes s) := by
  unfold execDataFlit
  repeat' (first | with_reducible assumption | with_reducible apply KeepsO.next | with_reducible apply KeepsO.fault
                 | with_reducible apply State.countPlaces_keeps | with_reducible apply State.flitArrives_keeps
                 | with_reducible apply State.badFlit_keeps | with_reducible apply State.elastic_keeps
                 | with_reducible apply State.dataIn_keeps | with_reducible refine Keeps.ofEq ‹_› ?_ | split)

theorem execCtrlFlit_keeps (p : Port) (lanes : List (List Pam)) (hk : Keeps msk s0 s) : KeepsO msk s0
    (execCtrlFlit p lanes s) := by
  unfold execCtrlFlit
  repeat' (first | with_reducible assumption | with_reducible apply KeepsO.next | with_reducible apply KeepsO.fault
                 | with_reducible apply State.countPlaces_keeps | with_reducible apply State.flitArrives_keeps
                 | with_reducible apply State.elastic_keeps | with_reducible apply State.ctrlIn_keeps
                 | with_reducible refine Keeps.ofEq ‹_› ?_ | split)

theorem execFiller_keeps (p : Port) (lanes : List (List Pam)) (hk : Keeps msk s0 s) : KeepsO msk s0 (execFiller p
    lanes s) := by
  unfold execFiller
  repeat' (first | with_reducible assumption | with_reducible apply KeepsO.next | with_reducible apply KeepsO.fault
                 | with_reducible apply State.countPlaces_keeps | with_reducible apply State.flitArrives_keeps
                 | with_reducible apply State.elastic_keeps | with_reducible refine Keeps.ofEq ‹_› ?_ | split)

theorem execRetryTimeout_keeps (p : Port) (hk : Keeps msk s0 s) : KeepsO msk s0 (execRetryTimeout p s) := by
  unfold execRetryTimeout
  repeat' (first | with_reducible assumption | with_reducible apply KeepsO.next
                 | (with_reducible apply KeepsO.ite) <;> intro _ | with_reducible apply State.replayFlits_keeps)

theorem State.toStep_keeps (p n : Nat) (hk : Keeps msk s0 s) : Keeps msk s0 (State.toStep s p n) := by
  unfold State.toStep
  repeat' (first | with_reducible assumption | with_reducible apply State.out_keeps
                 | with_reducible apply State.modLanes_keeps | with_reducible apply State.modLink_keeps
                 | with_reducible apply State.sendTs_keeps)

theorem execCdrLock_keeps (p : Port) (i : LaneNo) (hk : Keeps msk s0 s) : KeepsO msk s0 (execCdrLock p i s) := by
  unfold execCdrLock
  repeat' (first | with_reducible assumption | (with_reducible apply Keeps.ite) <;> intro _
                 | with_reducible apply KeepsO.next | (with_reducible apply KeepsO.ite) <;> intro _
                 | with_reducible apply State.modLane_keeps | with_reducible apply State.toStep_keeps)

theorem State.ts1Good_keeps (p i : Nat) (f : Header) (inverted : Bool) (ctle : Nat) (hk : Keeps msk s0 s) : Keeps
    msk s0 (State.ts1Good s p i f inverted ctle) := by
  unfold State.ts1Good
  repeat' (first | with_reducible assumption | (with_reducible apply Keeps.ite) <;> intro _
                 | with_reducible apply State.modLane_keeps | with_reducible apply State.sendFrames_keeps
                 | with_reducible apply State.toStep_keeps)

theorem execTs1_keeps (p : Port) (i : LaneNo) (frame : Header) (inverted : Bool) (ctle : Nat) (hk : Keeps msk s0
    s) : KeepsO msk s0 (execTs1 p i frame inverted ctle s) := by
  unfold execTs1
  repeat' (first | with_reducible assumption | (with_reducible apply Keeps.ite) <;> intro _
                 | with_reducible apply KeepsO.next | (with_reducible apply KeepsO.ite) <;> intro _
                 | with_reducible apply State.modLane_keeps | with_reducible apply State.trainFailed_keeps
                 | with_reducible apply State.retrainAgain_keeps | with_reducible apply State.ts1Good_keeps)

theorem execTrainingWindowExpiry_keeps (p : Port) (hk : Keeps msk s0 s) : KeepsO msk s0 (execTrainingWindowExpiry
    p s) := by
  unfold execTrainingWindowExpiry
  repeat' (first | with_reducible assumption | (with_reducible apply Keeps.ite) <;> intro _
                 | with_reducible apply KeepsO.next | (with_reducible apply KeepsO.ite) <;> intro _
                 | with_reducible apply State.modLink_keeps | with_reducible apply State.toStep_keeps
                 | with_reducible apply State.goDown_keeps | with_reducible apply State.trainFailed_keeps
                 | with_reducible apply State.failLanes_keeps)

theorem State.trained_keeps (p : Nat) (f : Header) (ok : Nat) (hk : Keeps msk s0 s) : Keeps msk s0 (State.trained
    s p f ok) := by
  unfold State.trained
  repeat' (first | with_reducible assumption | (with_reducible apply Keeps.ite) <;> intro _
                 | with_reducible apply Keeps.foldl | intro _ | with_reducible apply State.out_keeps
                 | with_reducible apply State.modLink_keeps | with_reducible apply State.sendData_keeps
                 | with_reducible apply State.payDue_keeps | with_reducible apply State.loadScramblers_keeps
                 | with_reducible apply State.linkPump_keeps | with_reducible apply State.ackFlits_keeps
                 | with_reducible apply State.failLanes_keeps)

theorem execTs2_keeps (p : Port) (i : LaneNo) (frame : Header) (hk : Keeps msk s0 s) : KeepsO msk s0 (execTs2 p i
    frame s) := by
  unfold execTs2
  repeat' (first | with_reducible assumption | (with_reducible apply Keeps.ite) <;> intro _
                 | with_reducible apply KeepsO.next | (with_reducible apply KeepsO.ite) <;> intro _
                 | with_reducible apply State.modLane_keeps | with_reducible apply State.modLink_keeps
                 | with_reducible apply State.sendFrames_keeps | with_reducible apply State.retrainAgain_keeps
                 | with_reducible apply State.incident_keeps | with_reducible apply State.goDown_keeps
                 | with_reducible apply State.trainFailed_keeps | with_reducible apply State.trained_keeps)

theorem execTsExit_keeps (p : Port) (hk : Keeps msk s0 s) : KeepsO msk s0 (execTsExit p s) := by
  unfold execTsExit
  repeat' (first | with_reducible assumption | (with_reducible apply Keeps.ite) <;> intro _
                 | with_reducible apply KeepsO.next | (with_reducible apply KeepsO.ite) <;> intro _
                 | with_reducible apply State.modLink_keeps | with_reducible apply State.retrainAgain_keeps
                 | with_reducible apply State.loadScramblers_keeps | with_reducible apply State.lanesFail_keeps)

theorem execLaneCdrLoss_keeps (p : Port) (i : LaneNo) (hk : Keeps msk s0 s) : KeepsO msk s0 (execLaneCdrLoss p i
    s) := by
  unfold execLaneCdrLoss
  repeat' (first | with_reducible assumption | with_reducible apply KeepsO.next
                 | (with_reducible apply Keeps.ite) <;> intro _ | (with_reducible apply KeepsO.ite) <;> intro _
                 | with_reducible apply State.modLane_keeps | with_reducible apply State.lanesFail_keeps)

theorem execLaneSerExceeded_keeps (p : Port) (i : LaneNo) (hk : Keeps msk s0 s) : KeepsO msk s0
    (execLaneSerExceeded p i s) := by
  unfold execLaneSerExceeded
  repeat' (first | with_reducible assumption | with_reducible apply KeepsO.next
                 | (with_reducible apply KeepsO.ite) <;> intro _ | with_reducible apply State.lanesFail_keeps)

theorem execDeadTimerExpiry_keeps (p : Port) (hk : Keeps msk s0 s) : KeepsO msk s0 (execDeadTimerExpiry p s) := by
  unfold execDeadTimerExpiry
  repeat' (first | with_reducible assumption | with_reducible apply KeepsO.next
                 | (with_reducible apply KeepsO.ite) <;> intro _ | with_reducible apply State.goDown_keeps)

theorem execDownRetryTimer_keeps (p : Port) (hk : Keeps msk s0 s) : KeepsO msk s0 (execDownRetryTimer p s) := by
  unfold execDownRetryTimer
  repeat' (first | with_reducible assumption | (with_reducible apply Keeps.ite) <;> intro _
                 | with_reducible apply KeepsO.next | (with_reducible apply KeepsO.ite) <;> intro _
                 | with_reducible apply State.mapOut_keeps | with_reducible apply State.startTraining_keeps)

theorem execSignalDetect_keeps (p : Port) (i : LaneNo) (hk : Keeps msk s0 s) : KeepsO msk s0 (execSignalDetect p i
    s) := by
  unfold execSignalDetect
  repeat' (first | with_reducible assumption | with_reducible apply KeepsO.next
                 | (with_reducible apply KeepsO.ite) <;> intro _ | with_reducible apply State.modLane_keeps
                 | with_reducible apply State.startTraining_keeps)

theorem execStep1NoSignal_keeps (p : Port) (hk : Keeps msk s0 s) : KeepsO msk s0 (execStep1NoSignal p s) := by
  unfold execStep1NoSignal
  repeat' (first | with_reducible assumption | with_reducible apply KeepsO.next
                 | (with_reducible apply KeepsO.ite) <;> intro _ | with_reducible apply State.modLink_keeps
                 | with_reducible apply State.trainFailed_keeps)

theorem execRetrainBoundExpiry_keeps (p : Port) (hk : Keeps msk s0 s) : KeepsO msk s0 (execRetrainBoundExpiry p s)
    := by
  unfold execRetrainBoundExpiry
  repeat' (first | with_reducible assumption | with_reducible apply KeepsO.next
                 | (with_reducible apply KeepsO.ite) <;> intro _ | with_reducible apply State.failedRetrain_keeps)

theorem execIdleEntry_keeps (p : Port) (hk : Keeps msk s0 s) : KeepsO msk s0 (execIdleEntry p s) := by
  unfold execIdleEntry
  repeat' (first | with_reducible assumption | with_reducible apply KeepsO.next
                 | (with_reducible apply KeepsO.ite) <;> intro _ | with_reducible apply State.modLink_keeps
                 | with_reducible apply State.ctrlOut_keeps)

theorem execIdleExit_keeps (p : Port) (hk : Keeps msk s0 s) : KeepsO msk s0 (execIdleExit p s) := by
  unfold execIdleExit
  repeat' (first | with_reducible assumption | with_reducible apply KeepsO.next
                 | (with_reducible apply KeepsO.ite) <;> intro _ | with_reducible apply State.leaveIdle_keeps)

theorem execIdleBurst_keeps (p : Port) (hk : Keeps msk s0 s) : KeepsO msk s0 (execIdleBurst p s) := by
  unfold execIdleBurst
  repeat' (first | with_reducible assumption | with_reducible apply KeepsO.next
                 | (with_reducible apply KeepsO.ite) <;> intro _ | with_reducible apply Keeps.foldl | intro _
                 | with_reducible apply State.sendBurst_keeps | with_reducible apply State.sendFiller_keeps
                 | with_reducible apply State.ctrlOut_keeps)

theorem State.linkRefused_keeps (p : Nat) (hk : Keeps msk s0 s) : Keeps msk s0 (State.linkRefused s p) := by
  unfold State.linkRefused
  repeat' (first | with_reducible assumption | with_reducible apply State.modLink_keeps)

theorem State.doRetrain_keeps (p : Nat) (hk : Keeps msk s0 s) : Keeps msk s0 (State.doRetrain s p) := by
  unfold State.doRetrain
  repeat' (first | with_reducible assumption | with_reducible apply State.linkRefused_keeps
                 | with_reducible apply State.startRetrain_keeps | with_reducible apply State.startTraining_keeps
                 | split)

theorem execRetrain_keeps (p : Port) (hk : Keeps msk s0 s) : KeepsO msk s0 (execRetrain p s) := by
  unfold execRetrain
  repeat' (first | with_reducible assumption | with_reducible apply KeepsO.next
                 | (with_reducible apply KeepsO.ite) <;> intro _ | with_reducible apply State.doRetrain_keeps)

theorem State.doRestore_keeps (p : Nat) (hk : Keeps msk s0 s) : Keeps msk s0 (State.doRestore s p) := by
  unfold State.doRestore
  repeat' (first | with_reducible assumption | (with_reducible apply Keeps.ite) <;> intro _
                 | with_reducible apply State.linkRefused_keeps | with_reducible apply State.modLanes_keeps
                 | with_reducible apply State.modLink_keeps | with_reducible apply State.startTraining_keeps)

theorem execRestore_keeps (p : Port) (hk : Keeps msk s0 s) : KeepsO msk s0 (execRestore p s) := by
  unfold execRestore
  repeat' (first | with_reducible assumption | with_reducible apply KeepsO.next
                 | (with_reducible apply KeepsO.ite) <;> intro _ | with_reducible apply State.doRestore_keeps)

theorem State.doLaneMask_keeps (p : Nat) (mask : BitVec 8) (hk : Keeps msk s0 s) : Keeps msk s0 (State.doLaneMask
    s p mask) := by
  unfold State.doLaneMask
  repeat' (first | with_reducible assumption | (with_reducible apply Keeps.ite) <;> intro _
                 | with_reducible apply State.linkRefused_keeps | with_reducible apply State.modLink_keeps
                 | with_reducible apply State.startTraining_keeps)

theorem execLaneMaskWrite_keeps (p : Port) (mask : BitVec 8) (hk : Keeps msk s0 s) : KeepsO msk s0
    (execLaneMaskWrite p mask s) := by
  unfold execLaneMaskWrite
  repeat' (first | with_reducible assumption | with_reducible apply KeepsO.next
                 | (with_reducible apply KeepsO.ite) <;> intro _ | with_reducible apply State.doLaneMask_keeps)

theorem State.readBlock_keeps (t : Taken) (hk : Keeps msk s0 s) : Keeps msk s0 (State.readBlock s t).1 := by
  unfold State.readBlock
  repeat' (first | with_reducible assumption | (with_reducible apply Keeps.iteFst) <;> intro _
                 | with_reducible apply State.vmRead_keeps)

theorem State.refuse_keeps (t : Taken) (status : Nat) (hk : Keeps msk s0 s) : Keeps msk s0 (State.refuse s t
    status) := by
  unfold State.refuse
  repeat' (first | with_reducible assumption | (with_reducible apply Keeps.ite) <;> intro _
                 | with_reducible apply State.complete_keeps | (simp only [Keeps.mark]; exact Updated.same ‹_›))

theorem State.runTaken_keeps (t : Taken) (c : CmdForm) (act : State → Taken → Bytes → State) (k_act : ∀ (y :
    State) x0 x1, Keeps msk s0 y → Keeps msk s0 (act y x0 x1)) (hk : Keeps msk s0 s) : Keeps msk s0 (State.runTaken s
    t c act) := by
  unfold State.runTaken
  repeat' (first | with_reducible assumption | with_reducible apply State.readBlock_keeps
                 | with_reducible apply State.refuse_keeps | (with_reducible apply k_act)
                 | with_reducible refine Keeps.ofEq ‹_› ?_ | split)

theorem State.runPf_keeps (p : Taken → Bool) (c : CmdForm) (act : State → Taken → Bytes → State) (k_act : ∀ (y :
    State) x0 x1, Keeps msk s0 y → Keeps msk s0 (act y x0 x1)) (hk : Keeps msk s0 s) : Keeps msk s0 (State.runPf s p c
    act) := by
  unfold State.runPf
  repeat' (first | with_reducible assumption | with_reducible apply State.runTaken_keeps | split)

theorem execNop_keeps (f : FnNo) (hk : Keeps msk s0 s) : KeepsO msk s0 (execNop f s) := by
  unfold execNop
  repeat' (first | with_reducible assumption | with_reducible apply KeepsO.next | intro _
                 | with_reducible apply State.complete_keeps | with_reducible apply State.runTaken_keeps | split)

theorem execReservedCommand_keeps (f : FnNo) (hk : Keeps msk s0 s) : KeepsO msk s0 (execReservedCommand f s) := by
  unfold execReservedCommand
  repeat' (first | with_reducible assumption | with_reducible apply KeepsO.next
                 | with_reducible apply State.readBlock_keeps | with_reducible apply State.complete_keeps
                 | with_reducible apply State.vmZero_keeps | with_reducible refine Keeps.ofEq ‹_› ?_ | split)

theorem State.extWrite_keeps (g i : Nat) (v : Word) (hk : Keeps msk s0 s) : Keeps msk s0 (State.extWrite s g i v)
    := by
  unfold State.extWrite
  repeat' (first | with_reducible assumption | (with_reducible apply Keeps.ite) <;> intro _
                 | with_reducible apply State.modGal_keeps | (simp only [Keeps.mark]; exact Updated.same ‹_›))

theorem execShelfExtWrite_keeps (g : GalNo) (i : Fin 4) (v : Word) (hk : Keeps msk s0 s) : KeepsO msk s0
    (execShelfExtWrite g i v s) := by
  unfold execShelfExtWrite
  repeat' (first | with_reducible assumption | with_reducible apply KeepsO.next
                 | (with_reducible apply KeepsO.ite) <;> intro _ | with_reducible apply State.extWrite_keeps)

theorem State.extZeroed_keeps (g i : Nat) (hk : Keeps msk s0 s) : Keeps msk s0 (State.extZeroed s g i) := by
  unfold State.extZeroed
  repeat' (first | with_reducible assumption | with_reducible apply Keeps.foldl | intro _
                 | with_reducible apply State.modGal_keeps | with_reducible apply State.vmZero_keeps)

theorem execExtentZeroingDone_keeps (g : GalNo) (i : Fin 4) (hk : Keeps msk s0 s) : KeepsO msk s0
    (execExtentZeroingDone g i s) := by
  unfold execExtentZeroingDone
  repeat' (first | with_reducible assumption | with_reducible apply KeepsO.next
                 | (with_reducible apply KeepsO.ite) <;> intro _ | with_reducible apply State.extZeroed_keeps)

theorem State.passDone_keeps (d : Nat) (hk : Keeps msk s0 s) : Keeps msk s0 (State.passDone s d) := by
  unfold State.passDone
  repeat' (first | with_reducible assumption | with_reducible apply State.modDie_keeps
                 | (simp only [Keeps.mark]; refine Updated.same ?_))

theorem State.scrubBad_keeps (cw : Nat) (hk : Keeps msk s0 s) : Keeps msk s0 (State.scrubBad s cw) := by
  unfold State.scrubBad
  repeat' (first | with_reducible assumption | (with_reducible apply Keeps.ite) <;> intro _
                 | with_reducible apply State.lifeUe_keeps | with_reducible apply State.modDie_keeps
                 | with_reducible apply State.vmZero_keeps | with_reducible apply State.vmUncorrectable_keeps
                 | (simp only [Keeps.mark]; refine Updated.same ?_))

theorem execScrubRead_keeps (cw errs : Nat) (hk : Keeps msk s0 s) : KeepsO msk s0 (execScrubRead cw errs s) := by
  unfold execScrubRead
  repeat' (first | with_reducible assumption | (with_reducible apply Keeps.ite) <;> intro _
                 | with_reducible apply KeepsO.next | (with_reducible apply KeepsO.ite) <;> intro _
                 | with_reducible apply State.vmCorrected_keeps | with_reducible apply State.passDone_keeps
                 | with_reducible apply State.scrubBad_keeps | (simp only [Keeps.mark]; exact Updated.same ‹_›))

theorem execDieFailed_keeps (d : DieNo) (hk : Keeps msk s0 s) : KeepsO msk s0 (execDieFailed d s) := by
  unfold execDieFailed
  repeat' (first | with_reducible assumption | with_reducible apply KeepsO.next
                 | (with_reducible apply KeepsO.ite) <;> intro _ | with_reducible apply State.curEvent_keeps
                 | with_reducible apply State.modDie_keeps)

theorem State.rotated_keeps (hk : Keeps msk s0 s) : Keeps msk s0 (State.rotated s) := by
  unfold State.rotated
  repeat' (first | (simp only [Keeps.mark]; exact Updated.same ‹_›))

theorem State.resetGen_keeps (gal : Nat) (hk : Keeps msk s0 s) : Keeps msk s0 (State.resetGen s gal) := by
  unfold State.resetGen
  repeat' (first | (simp only [Keeps.mark]; exact Updated.same ‹_›))

theorem State.erasePairs_keeps (gal : Nat) (drop : Nat → Bool) (hk : Keeps msk s0 s) : Keeps msk s0
    (State.erasePairs s gal drop) := by
  unfold State.erasePairs
  repeat' (first | (simp only [Keeps.mark]; exact Updated.same ‹_›))

theorem State.installRoot_keeps (gal gen : Nat) (secret : Bytes) (lead period : Nat) (members : List NodeId) (hk :
    Keeps msk s0 s) : Keeps msk s0 (State.installRoot s gal gen secret lead period members) := by
  unfold State.installRoot
  repeat' (first | with_reducible assumption | with_reducible apply State.modGal_keeps
                 | with_reducible apply State.erasePairs_keeps | with_reducible apply State.resetGen_keeps)

theorem State.eraseRoot_keeps (gal : Nat) (hk : Keeps msk s0 s) : Keeps msk s0 (State.eraseRoot s gal) := by
  unfold State.eraseRoot
  repeat' (first | with_reducible assumption | with_reducible apply State.modGal_keeps
                 | with_reducible apply State.erasePairs_keeps | with_reducible apply State.resetGen_keeps)

theorem State.advance_keeps (gal : Nat) (hk : Keeps msk s0 s) : Keeps msk s0 (State.advance s gal) := by
  unfold State.advance
  repeat' (first | with_reducible assumption | with_reducible apply State.modGal_keeps
                 | with_reducible apply State.rotated_keeps | with_reducible apply State.erasePairs_keeps
                 | with_reducible apply State.resetGen_keeps)

theorem State.mgmtArrive_keeps (mine : Nat → Bool) (pkt : FabPkt) (act : State → FHdr → Bytes → State) (k_act : ∀
    (y : State) x0 x1, Keeps msk s0 y → Keeps msk s0 (act y x0 x1)) (hk : Keeps msk s0 s) : Keeps msk s0
    (State.mgmtArrive s mine pkt act) := by
  unfold State.mgmtArrive
  repeat' (first | with_reducible assumption | (with_reducible apply Keeps.ite) <;> intro _
                 | with_reducible apply State.driveAll_keeps | with_reducible apply State.takeOnce_keeps)

theorem State.stepTo_keeps (g lead gen : Nat) (hk : Keeps msk s0 s) : Keeps msk s0 (State.stepTo s g lead gen) := by
  unfold State.stepTo
  repeat' (first | with_reducible assumption | (with_reducible apply Keeps.ite) <;> intro _
                 | with_reducible apply State.mgmtSend_keeps | with_reducible apply State.advance_keeps)

theorem execStep_keeps (pkt : FabPkt) (hk : Keeps msk s0 s) : KeepsO msk s0 (execStep pkt s) := by
  unfold execStep
  repeat' (first | with_reducible assumption | with_reducible apply KeepsO.next | intro _
                 | with_reducible apply State.mgmtArrive_keeps | with_reducible apply State.stepTo_keeps)

theorem State.stepReplied_keeps (g member gen : Nat) (hk : Keeps msk s0 s) : Keeps msk s0 (State.stepReplied s g
    member gen) := by
  unfold State.stepReplied
  dsimp only
  repeat' (first | with_reducible assumption | with_reducible apply State.modGal_keeps
                 | with_reducible apply State.askStep_keeps | split)

theorem execStepReply_keeps (pkt : FabPkt) (hk : Keeps msk s0 s) : KeepsO msk s0 (execStepReply pkt s) := by
  unfold execStepReply
  repeat' (first | with_reducible assumption | with_reducible apply KeepsO.next | intro _
                 | with_reducible apply State.mgmtArrive_keeps | with_reducible apply State.stepReplied_keeps)

theorem execStepPeriodExpiry_keeps (g : GalNo) (hk : Keeps msk s0 s) : KeepsO msk s0 (execStepPeriodExpiry g s) := by
  unfold execStepPeriodExpiry
  repeat' (first | with_reducible assumption | with_reducible apply KeepsO.next
                 | (with_reducible apply KeepsO.ite) <;> intro _ | with_reducible apply State.askStep_keeps
                 | with_reducible apply State.driveAll_keeps)

theorem execPairKeyDerived_keeps (g : GalNo) (gen : BitVec 16) (a b : NodeId) (resp : Bool) (hk : Keeps msk s0 s)
    : KeepsO msk s0 (execPairKeyDerived g gen a b resp s) := by
  unfold execPairKeyDerived
  repeat' (first | with_reducible assumption | with_reducible apply KeepsO.next
                 | (with_reducible apply KeepsO.ite) <;> intro _ | with_reducible apply State.addPair_keeps
                 | with_reducible apply State.driveAll_keeps)

theorem execMgmt_keeps (pkt : FabPkt) (hk : Keeps msk s0 s) : KeepsO msk s0 (execMgmt pkt s) := by
  unfold execMgmt
  repeat' (first | with_reducible assumption | (with_reducible apply Keeps.ite) <;> intro _
                 | with_reducible apply KeepsO.next | intro _ | with_reducible apply State.mgmtArrive_keeps
                 | with_reducible apply State.askStep_keeps)

end Sys2Proof.Machine
end

