-- ==== Sys2Proof/Laws/KeepsHost.lean ====
section
/-! SUPPORT. What each operation keeps (`Keeps`): sessions, galleries, tenant messages and rings. -/

set_option maxRecDepth 4000
set_option Elab.async false

namespace Sys2Proof.Machine

variable {msk : Part} {s0 s : State}

theorem State.endSession_keeps (id : Nat) (hk : Keeps msk s0 s) : Keeps msk s0 (State.endSession s id) := by
  unfold State.endSession
  repeat' (first | (simp only [Keeps.mark]; exact Updated.same ‹_›))

theorem State.endAllSessions_keeps (hk : Keeps msk s0 s) : Keeps msk s0 (State.endAllSessions s) := by
  unfold State.endAllSessions
  repeat' (first | with_reducible assumption | with_reducible apply Keeps.foldl | intro _
                 | with_reducible apply State.endSession_keeps)

theorem State.setNegotiated_keeps (mctp v : Bool) (hk : Keeps msk s0 s) : Keeps msk s0 (State.setNegotiated s mctp
    v) := by
  unfold State.setNegotiated
  repeat' (first | (with_reducible apply Keeps.ite) <;> intro _ | (simp only [Keeps.mark]; exact Updated.same ‹_›))

theorem State.answering_keeps (act : State → State) (k_act : ∀ (y : State) , Keeps msk s0 y → Keeps msk s0 (act y
    )) (hk : Keeps msk s0 s) : Keeps msk s0 (State.answering s act) := by
  unfold State.answering
  repeat' (first | with_reducible assumption | (with_reducible apply Keeps.ite) <;> intro _
                 | (with_reducible apply k_act))

theorem State.afterNegotiation_keeps (mctp : Bool) (act : State → State) (k_act : ∀ (y : State) , Keeps msk s0 y →
    Keeps msk s0 (act y )) (hk : Keeps msk s0 s) : Keeps msk s0 (State.afterNegotiation s mctp act) := by
  unfold State.afterNegotiation
  repeat' (first | with_reducible assumption | (with_reducible apply Keeps.ite) <;> intro _ | intro _
                 | with_reducible apply State.answering_keeps | with_reducible apply State.out_keeps
                 | (with_reducible apply k_act))

theorem execGetVersion_keeps (mctp : Bool) (hk : Keeps msk s0 s) : KeepsO msk s0 (execGetVersion mctp s) := by
  unfold execGetVersion
  repeat' (first | with_reducible assumption | with_reducible apply KeepsO.next | intro _
                 | with_reducible apply State.answering_keeps | with_reducible apply State.out_keeps
                 | with_reducible apply State.setNegotiated_keeps)

theorem execGetCapabilities_keeps (_mctp : Bool) (hk : Keeps msk s0 s) : KeepsO msk s0 (execGetCapabilities _mctp
    s) := by
  unfold execGetCapabilities
  repeat' (first | with_reducible assumption | with_reducible apply KeepsO.next | intro _
                 | with_reducible apply State.answering_keeps | with_reducible apply State.out_keeps)

theorem execNegotiateAlgorithms_keeps (mctp offersAll : Bool) (hk : Keeps msk s0 s) : KeepsO msk s0
    (execNegotiateAlgorithms mctp offersAll s) := by
  unfold execNegotiateAlgorithms
  repeat' (first | with_reducible assumption | (with_reducible apply Keeps.ite) <;> intro _
                 | with_reducible apply KeepsO.next | intro _ | with_reducible apply State.answering_keeps
                 | with_reducible apply State.out_keeps | with_reducible apply State.setNegotiated_keeps)

theorem execGetDigests_keeps (mctp : Bool) (hk : Keeps msk s0 s) : KeepsO msk s0 (execGetDigests mctp s) := by
  unfold execGetDigests
  repeat' (first | with_reducible assumption | with_reducible apply KeepsO.next | intro _
                 | with_reducible apply State.out_keeps | with_reducible apply State.afterNegotiation_keeps)

theorem execGetCertificate_keeps (mctp : Bool) (slot off len : Nat) (hk : Keeps msk s0 s) : KeepsO msk s0
    (execGetCertificate mctp slot off len s) := by
  unfold execGetCertificate
  repeat' (first | with_reducible assumption | (with_reducible apply Keeps.ite) <;> intro _
                 | with_reducible apply KeepsO.next | intro _ | with_reducible apply State.out_keeps
                 | with_reducible apply State.afterNegotiation_keeps)

theorem execChallenge_keeps (mctp : Bool) (slot : Nat) (_nonce : Bytes) (hk : Keeps msk s0 s) : KeepsO msk s0
    (execChallenge mctp slot _nonce s) := by
  unfold execChallenge
  repeat' (first | with_reducible assumption | (with_reducible apply Keeps.ite) <;> intro _
                 | with_reducible apply KeepsO.next | intro _ | with_reducible apply State.draw_keeps
                 | with_reducible apply State.out_keeps | with_reducible apply State.afterNegotiation_keeps)

theorem execGetMeasurements_keeps (mctp : Bool) (index : Nat) (signed : Bool) (hk : Keeps msk s0 s) : KeepsO msk
    s0 (execGetMeasurements mctp index signed s) := by
  unfold execGetMeasurements
  repeat' (first | with_reducible assumption | (with_reducible apply Keeps.ite) <;> intro _
                 | with_reducible apply KeepsO.next | intro _ | with_reducible apply State.draw_keeps
                 | with_reducible apply State.out_keeps | with_reducible apply State.afterNegotiation_keeps)

theorem execKeyExchange_keeps (mctp : Bool) (hk : Keeps msk s0 s) : KeepsO msk s0 (execKeyExchange mctp s) := by
  unfold execKeyExchange
  repeat' (first | with_reducible assumption | (with_reducible apply Keeps.ite) <;> intro _
                 | with_reducible apply KeepsO.next | intro _ | with_reducible apply State.out_keeps
                 | with_reducible apply State.afterNegotiation_keeps
                 | (simp only [Keeps.mark]; exact Updated.same ‹_›))

theorem State.modSession_keeps (id : Nat) (f : Session → Session) (hk : Keeps msk s0 s) : Keeps msk s0
    (State.modSession s id f) := by
  unfold State.modSession
  repeat' (first | (simp only [Keeps.mark]; exact Updated.same ‹_›))

theorem execFinish_keeps (session : Nat) (ok : Bool) (hk : Keeps msk s0 s) : KeepsO msk s0 (execFinish session ok
    s) := by
  unfold execFinish
  repeat' (first | with_reducible assumption | with_reducible apply KeepsO.next | intro _
                 | with_reducible apply State.answering_keeps | with_reducible apply State.out_keeps
                 | with_reducible apply State.modSession_keeps | with_reducible apply State.endSession_keeps | split)

theorem State.inSession_keeps (session : Nat) (act : State → State) (k_act : ∀ (y : State) , Keeps msk s0 y →
    Keeps msk s0 (act y )) (hk : Keeps msk s0 s) : Keeps msk s0 (State.inSession s session act) := by
  unfold State.inSession
  repeat' (first | with_reducible assumption | (with_reducible apply Keeps.ite) <;> intro _ | intro _
                 | with_reducible apply State.answering_keeps | with_reducible apply State.out_keeps
                 | (with_reducible apply k_act))

theorem execHeartbeat_keeps (session : Nat) (hk : Keeps msk s0 s) : KeepsO msk s0 (execHeartbeat session s) := by
  unfold execHeartbeat
  repeat' (first | with_reducible assumption | with_reducible apply KeepsO.next | intro _
                 | with_reducible apply State.out_keeps | with_reducible apply State.inSession_keeps)

theorem execKeyUpdate_keeps (session : Nat) (hk : Keeps msk s0 s) : KeepsO msk s0 (execKeyUpdate session s) := by
  unfold execKeyUpdate
  repeat' (first | with_reducible assumption | with_reducible apply KeepsO.next | intro _
                 | with_reducible apply State.out_keeps | with_reducible apply State.inSession_keeps
                 | with_reducible apply State.modSession_keeps)

theorem execEndSession_keeps (session : Nat) (hk : Keeps msk s0 s) : KeepsO msk s0 (execEndSession session s) := by
  unfold execEndSession
  repeat' (first | with_reducible assumption | with_reducible apply KeepsO.next | intro _
                 | with_reducible apply State.out_keeps | with_reducible apply State.inSession_keeps
                 | with_reducible apply State.endSession_keeps)

theorem State.ideKm_keeps (session : Option Nat) (act : State → State) (k_act : ∀ (y : State) , Keeps msk s0 y →
    Keeps msk s0 (act y )) (hk : Keeps msk s0 s) : Keeps msk s0 (State.ideKm s session act) := by
  unfold State.ideKm
  repeat' (first | with_reducible assumption | intro _ | with_reducible apply State.answering_keeps
                 | with_reducible apply State.out_keeps | (with_reducible apply k_act) | split)

theorem execQuery_keeps (session : Option Nat) (hk : Keeps msk s0 s) : KeepsO msk s0 (execQuery session s) := by
  unfold execQuery
  repeat' (first | with_reducible assumption | with_reducible apply KeepsO.next | intro _
                 | with_reducible apply State.out_keeps | with_reducible apply State.ideKm_keeps)

theorem State.modIde_keeps (f : Nat) (g : IdeStream → IdeStream) (hk : Keeps msk s0 s) : Keeps msk s0
    (State.modIde s f g) := by
  unfold State.modIde
  repeat' (first | with_reducible assumption | with_reducible apply State.modFn_keeps)

theorem execKeyProg_keeps (session : Option Nat) (f : FnNo) (keySet : Bool) (key : Bytes) (hk : Keeps msk s0 s) :
    KeepsO msk s0 (execKeyProg session f keySet key s) := by
  unfold execKeyProg
  repeat' (first | with_reducible assumption | with_reducible apply KeepsO.next | with_reducible apply KeepsO.fault
                 | (with_reducible apply KeepsO.ite) <;> intro _ | intro _ | with_reducible apply State.out_keeps
                 | with_reducible apply State.modIde_keeps | with_reducible apply State.ideKm_keeps)

theorem execKSetGo_keeps (session : Option Nat) (f : FnNo) (keySet : Bool) (hk : Keeps msk s0 s) : KeepsO msk s0
    (execKSetGo session f keySet s) := by
  unfold execKSetGo
  repeat' (first | with_reducible assumption | (with_reducible apply Keeps.ite) <;> intro _
                 | with_reducible apply KeepsO.next | intro _ | with_reducible apply State.out_keeps
                 | with_reducible apply State.modIde_keeps | with_reducible apply State.ideKm_keeps)

theorem execKSetStop_keeps (session : Option Nat) (f : FnNo) (keySet : Bool) (hk : Keeps msk s0 s) : KeepsO msk s0
    (execKSetStop session f keySet s) := by
  unfold execKSetStop
  repeat' (first | with_reducible assumption | with_reducible apply KeepsO.next | intro _
                 | with_reducible apply State.out_keeps | with_reducible apply State.modIde_keeps
                 | with_reducible apply State.ideKm_keeps)

theorem State.tdisp_keeps (f : Nat) (act : State → State) (k_act : ∀ (y : State) , Keeps msk s0 y → Keeps msk s0
    (act y )) (hk : Keeps msk s0 s) : Keeps msk s0 (State.tdisp s f act) := by
  unfold State.tdisp
  repeat' (first | with_reducible assumption | (with_reducible apply Keeps.ite) <;> intro _ | intro _
                 | with_reducible apply State.answering_keeps | with_reducible apply State.out_keeps
                 | (with_reducible apply k_act))

theorem State.tdispBad_keeps (hk : Keeps msk s0 s) : Keeps msk s0 (State.tdispBad s) := by
  unfold State.tdispBad
  repeat' (first | with_reducible assumption | with_reducible apply State.out_keeps)

theorem execGetTdispVersion_keeps (f : FnNo) (hk : Keeps msk s0 s) : KeepsO msk s0 (execGetTdispVersion f s) := by
  unfold execGetTdispVersion
  repeat' (first | with_reducible assumption | with_reducible apply KeepsO.next | intro _
                 | with_reducible apply State.out_keeps | with_reducible apply State.tdisp_keeps)

theorem execGetTdispCapabilities_keeps (f : FnNo) (hk : Keeps msk s0 s) : KeepsO msk s0 (execGetTdispCapabilities
    f s) := by
  unfold execGetTdispCapabilities
  repeat' (first | with_reducible assumption | with_reducible apply KeepsO.next | intro _
                 | with_reducible apply State.out_keeps | with_reducible apply State.tdisp_keeps)

theorem execLockInterfaceRequest_keeps (f : FnNo) (hk : Keeps msk s0 s) : KeepsO msk s0 (execLockInterfaceRequest
    f s) := by
  unfold execLockInterfaceRequest
  repeat' (first | with_reducible assumption | (with_reducible apply Keeps.ite) <;> intro _
                 | with_reducible apply KeepsO.next | intro _ | with_reducible apply State.draw_keeps
                 | with_reducible apply State.modFn_keeps | with_reducible apply State.out_keeps
                 | with_reducible apply State.tdisp_keeps | with_reducible apply State.tdispBad_keeps)

theorem execGetDeviceInterfaceReport_keeps (f : FnNo) (hk : Keeps msk s0 s) : KeepsO msk s0
    (execGetDeviceInterfaceReport f s) := by
  unfold execGetDeviceInterfaceReport
  repeat' (first | with_reducible assumption | (with_reducible apply Keeps.ite) <;> intro _
                 | with_reducible apply KeepsO.next | intro _ | with_reducible apply State.out_keeps
                 | with_reducible apply State.tdisp_keeps | with_reducible apply State.tdispBad_keeps)

theorem execGetDeviceInterfaceState_keeps (f : FnNo) (hk : Keeps msk s0 s) : KeepsO msk s0
    (execGetDeviceInterfaceState f s) := by
  unfold execGetDeviceInterfaceState
  repeat' (first | with_reducible assumption | with_reducible apply KeepsO.next | intro _
                 | with_reducible apply State.out_keeps | with_reducible apply State.tdisp_keeps)

theorem execStartInterfaceRequest_keeps (f : FnNo) (hk : Keeps msk s0 s) : KeepsO msk s0
    (execStartInterfaceRequest f s) := by
  unfold execStartInterfaceRequest
  repeat' (first | with_reducible assumption | (with_reducible apply Keeps.ite) <;> intro _
                 | with_reducible apply KeepsO.next | intro _ | with_reducible apply State.modFn_keeps
                 | with_reducible apply State.out_keeps | with_reducible apply State.tdisp_keeps
                 | with_reducible apply State.tdispBad_keeps)

theorem State.tdiError_keeps (f : Nat) (hk : Keeps msk s0 s) : Keeps msk s0 (State.tdiError s f) := by
  unfold State.tdiError
  repeat' (first | with_reducible assumption | (with_reducible apply Keeps.ite) <;> intro _
                 | with_reducible apply State.dropTranslations_keeps | with_reducible apply State.modFn_keeps
                 | with_reducible apply State.setGalState_keeps)

theorem State.zeroizeSlot_keeps (p k : Nat) (owner : Option Nat) (hk : Keeps msk s0 s) : Keeps msk s0
    (State.zeroizeSlot s p k owner) := by
  unfold State.zeroizeSlot
  repeat' (first | with_reducible assumption | with_reducible apply State.modDocent_keeps)

theorem State.dropSend_keeps (p g : Nat) (gone : List Nat) (hk : Keeps msk s0 s) : Keeps msk s0 (State.dropSend s
    p g gone) := by
  unfold State.dropSend
  repeat' (first | with_reducible assumption | with_reducible apply State.modDocent_keeps)

theorem State.releaseSlots_keeps (p g : Nat) (ks : List Nat) (hk : Keeps msk s0 s) : Keeps msk s0
    (State.releaseSlots s p g ks) := by
  unfold State.releaseSlots
  repeat' (first | with_reducible assumption | with_reducible apply Keeps.foldl | intro _
                 | with_reducible apply State.zeroizeSlot_keeps | with_reducible apply State.dropSend_keeps)

theorem State.takeSlots_keeps (p g n : Nat) (hk : Keeps msk s0 s) : Keeps msk s0 (State.takeSlots s p g n) := by
  unfold State.takeSlots
  repeat' (first | with_reducible assumption | with_reducible apply Keeps.foldl | intro _
                 | with_reducible apply State.modDocent_keeps)

theorem State.unbind_keeps (g : Nat) (hk : Keeps msk s0 s) : Keeps msk s0 (State.unbind s g) := by
  unfold State.unbind
  repeat' (first | (simp only [Keeps.mark]; exact Updated.same ‹_›))

theorem State.bind_keeps (g gal pasid : Nat) (hk : Keeps msk s0 s) : Keeps msk s0 (State.bind s g gal pasid) := by
  unfold State.bind
  repeat' (first | with_reducible assumption | with_reducible apply State.modCtx_keeps)

theorem State.releaseSo_keeps (n : Nat) (hk : Keeps msk s0 s) : Keeps msk s0 (State.releaseSo s n) := by
  unfold State.releaseSo
  repeat' (first | with_reducible assumption | with_reducible apply Keeps.foldl | intro _
                 | with_reducible apply State.setSo_keeps | with_reducible apply State.waitDone_keeps)

theorem State.applyRegs_keeps (g : Nat) (a : AccBlock) (block : Bytes) (hk : Keeps msk s0 s) : Keeps msk s0
    (State.applyRegs s g a block) := by
  unfold State.applyRegs
  repeat' (first | with_reducible assumption | with_reducible apply Keeps.foldl | intro _
                 | with_reducible apply State.modDocent_keeps | with_reducible apply State.modGal_keeps
                 | with_reducible apply State.extWrite_keeps)

theorem State.doAccession_keeps (a : AccBlock) (block : Bytes) (hk : Keeps msk s0 s) : Keeps msk s0
    (State.doAccession s a block) := by
  unfold State.doAccession
  repeat' (first | with_reducible assumption | with_reducible apply Keeps.foldl | intro _
                 | with_reducible apply State.modFn_keeps | with_reducible apply State.modGal_keeps
                 | with_reducible apply State.setSo_keeps | with_reducible apply State.bind_keeps
                 | with_reducible apply State.takeSlots_keeps | with_reducible apply State.applyRegs_keeps)

theorem execGalleryAccession_keeps (hk : Keeps msk s0 s) : KeepsO msk s0 (execGalleryAccession s) := by
  unfold execGalleryAccession
  dsimp only
  repeat' (first | with_reducible assumption | with_reducible apply KeepsO.next | intro _
                 | with_reducible apply State.setGalState_keeps | with_reducible apply State.complete_keeps
                 | with_reducible apply State.runPf_keeps | with_reducible apply State.doAccession_keeps | split)

theorem State.endCtxRequests_keeps (g : Nat) (hk : Keeps msk s0 s) : Keeps msk s0 (State.endCtxRequests s g) := by
  unfold State.endCtxRequests
  repeat' (first | with_reducible assumption | with_reducible apply Keeps.foldl | intro _
                 | with_reducible apply State.finishReq_keeps)

theorem State.doG0Setup_keeps (a : AccBlock) (block : Bytes) (hk : Keeps msk s0 s) : Keeps msk s0 (State.doG0Setup
    s a block) := by
  unfold State.doG0Setup
  repeat' (first | with_reducible assumption | (with_reducible apply Keeps.ite) <;> intro _
                 | with_reducible apply Keeps.foldl | intro _ | with_reducible apply State.modDocent_keeps
                 | with_reducible apply State.setSo_keeps | with_reducible apply State.releaseSlots_keeps
                 | with_reducible apply State.unbind_keeps | with_reducible apply State.endCtxRequests_keeps
                 | with_reducible apply State.releaseSo_keeps | with_reducible apply State.takeSlots_keeps
                 | with_reducible apply State.bind_keeps | with_reducible apply State.applyRegs_keeps)

theorem execG0Setup_keeps (hk : Keeps msk s0 s) : KeepsO msk s0 (execG0Setup s) := by
  unfold execG0Setup
  dsimp only
  repeat' (first | with_reducible assumption | with_reducible apply KeepsO.next | intro _
                 | with_reducible apply State.complete_keeps | with_reducible apply State.runPf_keeps
                 | with_reducible apply State.doG0Setup_keeps | split)

theorem State.doG0Release_keeps (gs : List Nat) (hk : Keeps msk s0 s) : Keeps msk s0 (State.doG0Release s gs) := by
  unfold State.doG0Release
  repeat' (first | with_reducible assumption | (with_reducible apply Keeps.ite) <;> intro _
                 | with_reducible apply Keeps.foldl | intro _ | with_reducible apply State.releaseSlots_keeps
                 | with_reducible apply State.unbind_keeps | with_reducible apply State.endCtxRequests_keeps)

theorem execG0Release_keeps (hk : Keeps msk s0 s) : KeepsO msk s0 (execG0Release s) := by
  unfold execG0Release
  repeat' (first | with_reducible assumption | (with_reducible apply Keeps.ite) <;> intro _
                 | with_reducible apply KeepsO.next | intro _ | with_reducible apply State.doG0Release_keeps
                 | with_reducible apply State.complete_keeps | with_reducible apply State.runPf_keeps)

theorem State.clearBindings_keeps (g : Nat) (hk : Keeps msk s0 s) : Keeps msk s0 (State.clearBindings s g) := by
  unfold State.clearBindings
  repeat' (first | with_reducible assumption | with_reducible apply Keeps.foldl | intro _
                 | with_reducible apply State.unbind_keeps | with_reducible apply State.abortTour_keeps
                 | with_reducible apply State.endStream_keeps)

theorem State.endRequests_keeps (g : Nat) (all : Bool) (hk : Keeps msk s0 s) : Keeps msk s0 (State.endRequests s g
    all) := by
  unfold State.endRequests
  repeat' (first | with_reducible assumption | with_reducible apply Keeps.foldl | intro _
                 | with_reducible apply State.finishReq_keeps | with_reducible apply State.endStream_keeps)

theorem State.abortWaits_keeps (g : Nat) (hk : Keeps msk s0 s) : Keeps msk s0 (State.abortWaits s g) := by
  unfold State.abortWaits
  repeat' (first | with_reducible assumption | (with_reducible apply Keeps.ite) <;> intro _
                 | with_reducible apply Keeps.foldl | intro _ | with_reducible apply State.setSo_keeps
                 | with_reducible apply State.waitDone_keeps)

theorem State.abortGallery_keeps (g : Nat) (hk : Keeps msk s0 s) : Keeps msk s0 (State.abortGallery s g) := by
  unfold State.abortGallery
  repeat' (first | with_reducible assumption | with_reducible apply Keeps.foldl | intro _
                 | with_reducible apply State.abortInst_keeps)

theorem State.deaccStart_keeps (g cause : Nat) (t : Option Taken) (hk : Keeps msk s0 s) : Keeps msk s0
    (State.deaccStart s g cause t) := by
  unfold State.deaccStart
  dsimp only
  repeat' (first | with_reducible assumption | with_reducible apply State.modGal_keeps
                 | with_reducible apply State.endRequests_keeps | with_reducible apply State.setGalState_keeps
                 | with_reducible apply State.startTaken_keeps | with_reducible apply State.abortGallery_keeps
                 | with_reducible apply State.clearBindings_keeps | with_reducible apply State.abortWaits_keeps
                 | with_reducible apply State.driveAll_keeps | split)

theorem execGalleryDeaccession_keeps (hk : Keeps msk s0 s) : KeepsO msk s0 (execGalleryDeaccession s) := by
  unfold execGalleryDeaccession
  repeat' (first | with_reducible assumption | (with_reducible apply Keeps.ite) <;> intro _
                 | with_reducible apply KeepsO.next | intro _ | with_reducible apply State.complete_keeps
                 | with_reducible apply State.runPf_keeps | with_reducible apply State.deaccStart_keeps)

theorem execStopInterfaceRequest_keeps (f : FnNo) (hk : Keeps msk s0 s) : KeepsO msk s0 (execStopInterfaceRequest
    f s) := by
  unfold execStopInterfaceRequest
  repeat' (first | with_reducible assumption | (with_reducible apply Keeps.ite) <;> intro _
                 | with_reducible apply KeepsO.next | intro _ | with_reducible apply State.dropTranslations_keeps
                 | with_reducible apply State.modFn_keeps | with_reducible apply State.out_keeps
                 | with_reducible apply State.tdisp_keeps | with_reducible apply State.deaccStart_keeps)

theorem State.dropCaches_keeps (g : Nat) (hk : Keeps msk s0 s) : Keeps msk s0 (State.dropCaches s g) := by
  unfold State.dropCaches
  repeat' (first | (simp only [Keeps.mark]; exact Updated.same ‹_›))

theorem State.deaccErase_keeps (g : Nat) (hk : Keeps msk s0 s) : Keeps msk s0 (State.deaccErase s g) := by
  unfold State.deaccErase
  repeat' (first | with_reducible assumption | with_reducible apply State.modGal_keeps
                 | with_reducible apply State.eraseRoot_keeps | with_reducible apply State.dropCaches_keeps)

theorem execDeaccessionDrained_keeps (g : GalNo) (hk : Keeps msk s0 s) : KeepsO msk s0 (execDeaccessionDrained g
    s) := by
  unfold execDeaccessionDrained
  repeat' (first | with_reducible assumption | with_reducible apply KeepsO.next
                 | (with_reducible apply KeepsO.ite) <;> intro _ | with_reducible apply State.deaccErase_keeps)

theorem State.discardGal_keeps (g : Nat) (hk : Keeps msk s0 s) : Keeps msk s0 (State.discardGal s g) := by
  unfold State.discardGal
  repeat' (first | with_reducible assumption | (with_reducible apply Keeps.ite) <;> intro _
                 | with_reducible apply Keeps.foldl | intro _ | with_reducible apply State.bareAck_keeps
                 | with_reducible apply State.endRequests_keeps | with_reducible apply State.unbuffer_keeps
                 | with_reducible apply State.mcUnsent_keeps | (simp only [Keeps.mark]; refine Updated.same ?_))

theorem execDrainTimeoutExpiry_keeps (g : GalNo) (hk : Keeps msk s0 s) : KeepsO msk s0 (execDrainTimeoutExpiry g
    s) := by
  unfold execDrainTimeoutExpiry
  repeat' (first | with_reducible assumption | with_reducible apply KeepsO.next
                 | (with_reducible apply KeepsO.ite) <;> intro _ | with_reducible apply State.deaccErase_keeps
                 | with_reducible apply State.discardGal_keeps)

theorem State.zeroGallery_keeps (g : Nat) (hk : Keeps msk s0 s) : Keeps msk s0 (State.zeroGallery s g) := by
  unfold State.zeroGallery
  repeat' (first | with_reducible assumption | with_reducible apply Keeps.foldl | intro _
                 | with_reducible apply State.releaseSo_keeps | with_reducible apply State.extZeroed_keeps
                 | with_reducible apply State.vmZero_keeps | with_reducible apply State.freeInst_keeps
                 | (simp only [Keeps.mark]; refine Updated.same ?_))

theorem State.deaccKeys_keeps (g : Nat) (hk : Keeps msk s0 s) : Keeps msk s0 (State.deaccKeys s g) := by
  unfold State.deaccKeys
  repeat' (first | with_reducible assumption | with_reducible apply Keeps.foldl | intro _
                 | with_reducible apply State.modDocent_keeps | with_reducible apply State.modFn_keeps
                 | with_reducible apply State.releaseSlots_keeps)

theorem State.deaccFree_keeps (g : Nat) (hk : Keeps msk s0 s) : Keeps msk s0 (State.deaccFree s g) := by
  unfold State.deaccFree
  repeat' (first | with_reducible assumption | with_reducible apply Keeps.foldl | intro _
                 | with_reducible apply State.modFn_keeps | with_reducible apply State.complete_keeps
                 | with_reducible apply State.galStateRecord_keeps | (simp only [Keeps.mark]; refine Updated.same ?_))

theorem execDeaccessionZeroed_keeps (g : GalNo) (hk : Keeps msk s0 s) : KeepsO msk s0 (execDeaccessionZeroed g s)
    := by
  unfold execDeaccessionZeroed
  repeat' (first | with_reducible assumption | with_reducible apply KeepsO.next
                 | (with_reducible apply KeepsO.ite) <;> intro _ | with_reducible apply State.deaccFree_keeps
                 | with_reducible apply State.deaccKeys_keeps | with_reducible apply State.zeroGallery_keeps)

theorem State.installKey_keeps (p k g : Nat) (key : Bytes) (hk : Keeps msk s0 s) : Keeps msk s0 (State.installKey
    s p k g key) := by
  unfold State.installKey
  repeat' (first | with_reducible assumption | with_reducible apply State.modDocent_keeps
                 | with_reducible apply State.rotated_keeps)

theorem State.retireKey_keeps (p k g : Nat) (hk : Keeps msk s0 s) : Keeps msk s0 (State.retireKey s p k g) := by
  unfold State.retireKey
  repeat' (first | with_reducible assumption | with_reducible apply State.rotated_keeps
                 | with_reducible apply State.zeroizeSlot_keeps)

theorem State.activateKey_keeps (p k g : Nat) (hk : Keeps msk s0 s) : Keeps msk s0 (State.activateKey s p k g) := by
  unfold State.activateKey
  repeat' (first | with_reducible assumption | with_reducible apply State.modDocent_keeps)

theorem State.keyEffect_keeps (code g : Nat) (m : TenantMsg) (hk : Keeps msk s0 s) : Keeps msk s0 (State.keyEffect
    s code g m) := by
  unfold State.keyEffect
  repeat' (first | with_reducible assumption | (with_reducible apply Keeps.ite) <;> intro _
                 | with_reducible apply State.retireKey_keeps | with_reducible apply State.activateKey_keeps
                 | with_reducible apply State.installKey_keeps | with_reducible apply State.askStep_keeps
                 | with_reducible apply State.drive_keeps | with_reducible apply State.driveAll_keeps
                 | with_reducible apply State.installRoot_keeps)

theorem State.tenantAnswer_keeps (m : TenantMsg) (status : Nat) (entries : Bytes) (hk : Keeps msk s0 s) : Keeps
    msk s0 (State.tenantAnswer s m status entries) := by
  unfold State.tenantAnswer
  repeat' (first | with_reducible assumption | with_reducible apply State.out_keeps)

theorem State.tenantMsg_keeps (session : Option Nat) (code : Nat) (m : TenantMsg) (act : State → Nat → State)
    (k_act : ∀ (y : State) x0, Keeps msk s0 y → Keeps msk s0 (act y x0)) (hk : Keeps msk s0 s) : Keeps msk s0
    (State.tenantMsg s session code m act) := by
  unfold State.tenantMsg
  repeat' (first | with_reducible assumption | intro _ | with_reducible apply State.answering_keeps
                 | with_reducible apply State.out_keeps | with_reducible apply State.tenantAnswer_keeps
                 | (with_reducible apply k_act) | split)

theorem execGalQuery_keeps (session : Option Nat) (m : TenantMsg) (hk : Keeps msk s0 s) : KeepsO msk s0
    (execGalQuery session m s) := by
  unfold execGalQuery
  repeat' (first | with_reducible assumption | with_reducible apply KeepsO.next | intro _
                 | with_reducible apply State.tenantAnswer_keeps | with_reducible apply State.tenantMsg_keeps)

theorem State.newChallenge_keeps (g : Nat) (hk : Keeps msk s0 s) : Keeps msk s0 (State.newChallenge s g) := by
  unfold State.newChallenge
  repeat' (first | with_reducible assumption | with_reducible apply State.draw_keeps
                 | with_reducible apply State.modGal_keeps)

theorem execGalClaim_keeps (session : Option Nat) (m : TenantMsg) (hk : Keeps msk s0 s) : KeepsO msk s0
    (execGalClaim session m s) := by
  unfold execGalClaim
  repeat' (first | with_reducible assumption | with_reducible apply KeepsO.next | intro _
                 | with_reducible apply State.modGal_keeps | with_reducible apply State.newChallenge_keeps
                 | with_reducible apply State.setGalState_keeps | with_reducible apply State.tenantAnswer_keeps
                 | with_reducible apply State.tenantMsg_keeps)

theorem execGalResume_keeps (session : Option Nat) (m : TenantMsg) (hk : Keeps msk s0 s) : KeepsO msk s0
    (execGalResume session m s) := by
  unfold execGalResume
  repeat' (first | with_reducible assumption | with_reducible apply KeepsO.next | intro _
                 | with_reducible apply State.modGal_keeps | with_reducible apply State.newChallenge_keeps
                 | with_reducible apply State.tenantAnswer_keeps | with_reducible apply State.tenantMsg_keeps)

theorem State.keyMsg_keeps (session : Option Nat) (code : Nat) (m : TenantMsg) (hk : Keeps msk s0 s) : Keeps msk
    s0 (State.keyMsg s session code m) := by
  unfold State.keyMsg
  repeat' (first | with_reducible assumption | intro _ | with_reducible apply State.tenantAnswer_keeps
                 | with_reducible apply State.keyEffect_keeps | with_reducible apply State.tenantMsg_keeps)

theorem execGalKeyInstall_keeps (session : Option Nat) (m : TenantMsg) (hk : Keeps msk s0 s) : KeepsO msk s0
    (execGalKeyInstall session m s) := by
  unfold execGalKeyInstall
  repeat' (first | with_reducible assumption | with_reducible apply KeepsO.next
                 | with_reducible apply State.keyMsg_keeps)

theorem execGalKeyRetire_keeps (session : Option Nat) (m : TenantMsg) (hk : Keeps msk s0 s) : KeepsO msk s0
    (execGalKeyRetire session m s) := by
  unfold execGalKeyRetire
  repeat' (first | with_reducible assumption | with_reducible apply KeepsO.next
                 | with_reducible apply State.keyMsg_keeps)

theorem execGalKeyActivate_keeps (session : Option Nat) (m : TenantMsg) (hk : Keeps msk s0 s) : KeepsO msk s0
    (execGalKeyActivate session m s) := by
  unfold execGalKeyActivate
  repeat' (first | with_reducible assumption | with_reducible apply KeepsO.next
                 | with_reducible apply State.keyMsg_keeps)

theorem execGalFabricRoot_keeps (session : Option Nat) (m : TenantMsg) (hk : Keeps msk s0 s) : KeepsO msk s0
    (execGalFabricRoot session m s) := by
  unfold execGalFabricRoot
  repeat' (first | with_reducible assumption | with_reducible apply KeepsO.next
                 | with_reducible apply State.keyMsg_keeps)

theorem execGalFabricStep_keeps (session : Option Nat) (m : TenantMsg) (hk : Keeps msk s0 s) : KeepsO msk s0
    (execGalFabricStep session m s) := by
  unfold execGalFabricStep
  repeat' (first | with_reducible assumption | with_reducible apply KeepsO.next
                 | with_reducible apply State.keyMsg_keeps)

theorem execGalOpen_keeps (session : Option Nat) (m : TenantMsg) (hk : Keeps msk s0 s) : KeepsO msk s0
    (execGalOpen session m s) := by
  unfold execGalOpen
  repeat' (first | with_reducible assumption | (with_reducible apply Keeps.ite) <;> intro _
                 | with_reducible apply KeepsO.next | intro _ | with_reducible apply State.setGalState_keeps
                 | with_reducible apply State.tenantAnswer_keeps | with_reducible apply State.tenantMsg_keeps)

theorem execGalDeaccess_keeps (session : Option Nat) (m : TenantMsg) (hk : Keeps msk s0 s) : KeepsO msk s0
    (execGalDeaccess session m s) := by
  unfold execGalDeaccess
  repeat' (first | with_reducible assumption | with_reducible apply KeepsO.next | intro _
                 | with_reducible apply State.tenantAnswer_keeps | with_reducible apply State.deaccStart_keeps
                 | with_reducible apply State.tenantMsg_keeps)

theorem execReservedTenantMessage_keeps (session : Option Nat) (m : TenantMsg) (hk : Keeps msk s0 s) : KeepsO msk
    s0 (execReservedTenantMessage session m s) := by
  unfold execReservedTenantMessage
  repeat' (first | with_reducible assumption | with_reducible apply KeepsO.next | intro _
                 | with_reducible apply State.answering_keeps | with_reducible apply State.out_keeps
                 | with_reducible apply State.tenantAnswer_keeps | split)

theorem State.g0Key_keeps (code : Nat) (hk : Keeps msk s0 s) : Keeps msk s0 (State.g0Key s code) := by
  unfold State.g0Key
  dsimp only
  repeat' (first | with_reducible assumption | with_reducible apply State.readBlock_keeps
                 | with_reducible apply State.complete_keeps | with_reducible apply State.vmZero_keeps
                 | with_reducible apply State.keyEffect_keeps | with_reducible refine Keeps.ofEq ‹_› ?_ | split)

theorem execG0KeyInstall_keeps (hk : Keeps msk s0 s) : KeepsO msk s0 (execG0KeyInstall s) := by
  unfold execG0KeyInstall
  repeat' (first | with_reducible assumption | with_reducible apply KeepsO.next
                 | with_reducible apply State.g0Key_keeps)

theorem execG0KeyRetire_keeps (hk : Keeps msk s0 s) : KeepsO msk s0 (execG0KeyRetire s) := by
  unfold execG0KeyRetire
  repeat' (first | with_reducible assumption | with_reducible apply KeepsO.next
                 | with_reducible apply State.g0Key_keeps)

theorem execG0KeyActivate_keeps (hk : Keeps msk s0 s) : KeepsO msk s0 (execG0KeyActivate s) := by
  unfold execG0KeyActivate
  repeat' (first | with_reducible assumption | with_reducible apply KeepsO.next
                 | with_reducible apply State.g0Key_keeps)

theorem execG0FabricRoot_keeps (hk : Keeps msk s0 s) : KeepsO msk s0 (execG0FabricRoot s) := by
  unfold execG0FabricRoot
  repeat' (first | with_reducible assumption | with_reducible apply KeepsO.next
                 | with_reducible apply State.g0Key_keeps)

theorem execG0FabricStep_keeps (hk : Keeps msk s0 s) : KeepsO msk s0 (execG0FabricStep s) := by
  unfold execG0FabricStep
  repeat' (first | with_reducible assumption | with_reducible apply KeepsO.next
                 | with_reducible apply State.g0Key_keeps)

theorem State.installSet_keeps (hm_quorum : msk.quorum = false) (b : Bytes) (hk : Keeps msk s0 s) : Keeps msk s0
    (State.installSet s b) := by
  unfold State.installSet
  repeat' (first | with_reducible assumption | with_reducible apply State.measChanged_keeps
                 | (simp only [Keeps.mark]; refine Updated.upd ?_))

theorem execQuorumSet_keeps (hm_quorum : msk.quorum = false) (hk : Keeps msk s0 s) : KeepsO msk s0 (execQuorumSet
    s) := by
  unfold execQuorumSet
  repeat' (first | with_reducible assumption | with_reducible apply KeepsO.next | intro _
                 | with_reducible apply State.complete_keeps | with_reducible apply State.installSet_keeps
                 | with_reducible apply State.runPf_keeps)

theorem State.quorumRecord_keeps (b : Bytes) (status verified : Nat) (hk : Keeps msk s0 s) : Keeps msk s0
    (State.quorumRecord s b status verified) := by
  unfold State.quorumRecord
  repeat' (first | with_reducible assumption | with_reducible apply State.incident_keeps)

theorem State.expel_keeps (p : Nat) (hk : Keeps msk s0 s) : Keeps msk s0 (State.expel s p) := by
  unfold State.expel
  repeat' (first | with_reducible assumption | (with_reducible apply Keeps.ite) <;> intro _
                 | with_reducible apply State.draw_keeps | with_reducible apply State.incident_keeps
                 | with_reducible apply State.linkLost_keeps)

theorem State.lift_keeps (p : Nat) (hk : Keeps msk s0 s) : Keeps msk s0 (State.lift s p) := by
  unfold State.lift
  repeat' (first | with_reducible assumption | (with_reducible apply Keeps.ite) <;> intro _
                 | with_reducible apply State.modLink_keeps | with_reducible apply State.startTraining_keeps)

theorem State.enterDrain_keeps (hm_ctl : msk.ctl = false) (hk : Keeps msk s0 s) : Keeps msk s0 (State.enterDrain
    s) := by
  unfold State.enterDrain
  repeat' (first | with_reducible assumption | with_reducible apply State.setModState_keeps
                 | (simp only [Keeps.mark]; refine Updated.upd ?_))

theorem State.quorumDrain_keeps (hm_ctl : msk.ctl = false) (hk : Keeps msk s0 s) : Keeps msk s0 (State.quorumDrain
    s).1 := by
  unfold State.quorumDrain
  repeat' (first | with_reducible assumption | (with_reducible apply Keeps.iteFst) <;> intro _
                 | with_reducible apply State.enterDrain_keeps | (simp only [Keeps.mark]; refine Updated.upd ?_))

theorem State.quorumAct_keeps (hm_ctl : msk.ctl = false) (hm_quorum : msk.quorum = false) (action : Nat) (b :
    Bytes) (hk : Keeps msk s0 s) : Keeps msk s0 (State.quorumAct s action b).1 := by
  unfold State.quorumAct
  repeat' (first | with_reducible assumption | (with_reducible apply Keeps.iteFst) <;> intro _
                 | with_reducible apply Keeps.foldl | with_reducible apply State.lift_keeps
                 | with_reducible apply State.quorumDrain_keeps | with_reducible apply State.installSet_keeps
                 | with_reducible apply State.expel_keeps)

theorem State.quorumRequest_keeps (hm_ctl : msk.ctl = false) (hm_quorum : msk.quorum = false) (b : Bytes) (hk :
    Keeps msk s0 s) : Keeps msk s0 (State.quorumRequest s b).1 := by
  unfold State.quorumRequest
  repeat' (first | with_reducible assumption | (with_reducible apply Keeps.iteFst) <;> intro _
                 | with_reducible apply State.quorumRecord_keeps | with_reducible apply State.quorumAct_keeps
                 | (simp only [Keeps.mark]; refine Updated.upd ?_))

theorem State.quorumRow_keeps (hm_ctl : msk.ctl = false) (hm_quorum : msk.quorum = false) (mine : Nat → Bool) (via
    : QuorumVia) (hk : Keeps msk s0 s) : Keeps msk s0 (State.quorumRow s mine via) := by
  unfold State.quorumRow
  repeat' (first | with_reducible assumption | intro _ | with_reducible apply State.out_keeps
                 | with_reducible apply State.complete_keeps | with_reducible apply State.runPf_keeps
                 | with_reducible apply State.driveAll_keeps | with_reducible apply State.quorumRequest_keeps | split)

theorem execExpelPort_keeps (hm_ctl : msk.ctl = false) (hm_quorum : msk.quorum = false) (via : QuorumVia) (hk :
    Keeps msk s0 s) : KeepsO msk s0 (execExpelPort via s) := by
  unfold execExpelPort
  repeat' (first | with_reducible assumption | with_reducible apply KeepsO.next
                 | with_reducible apply State.quorumRow_keeps)

theorem execExpelPeer_keeps (hm_ctl : msk.ctl = false) (hm_quorum : msk.quorum = false) (via : QuorumVia) (hk :
    Keeps msk s0 s) : KeepsO msk s0 (execExpelPeer via s) := by
  unfold execExpelPeer
  repeat' (first | with_reducible assumption | with_reducible apply KeepsO.next
                 | with_reducible apply State.quorumRow_keeps)

theorem execIsolate_keeps (hm_ctl : msk.ctl = false) (hm_quorum : msk.quorum = false) (via : QuorumVia) (hk :
    Keeps msk s0 s) : KeepsO msk s0 (execIsolate via s) := by
  unfold execIsolate
  repeat' (first | with_reducible assumption | with_reducible apply KeepsO.next
                 | with_reducible apply State.quorumRow_keeps)

theorem execLiftPort_keeps (hm_ctl : msk.ctl = false) (hm_quorum : msk.quorum = false) (via : QuorumVia) (hk :
    Keeps msk s0 s) : KeepsO msk s0 (execLiftPort via s) := by
  unfold execLiftPort
  repeat' (first | with_reducible assumption | with_reducible apply KeepsO.next
                 | with_reducible apply State.quorumRow_keeps)

theorem execLiftAll_keeps (hm_ctl : msk.ctl = false) (hm_quorum : msk.quorum = false) (via : QuorumVia) (hk :
    Keeps msk s0 s) : KeepsO msk s0 (execLiftAll via s) := by
  unfold execLiftAll
  repeat' (first | with_reducible assumption | with_reducible apply KeepsO.next
                 | with_reducible apply State.quorumRow_keeps)

theorem execDrain_keeps (hm_ctl : msk.ctl = false) (hm_quorum : msk.quorum = false) (via : QuorumVia) (hk : Keeps
    msk s0 s) : KeepsO msk s0 (execDrain via s) := by
  unfold execDrain
  repeat' (first | with_reducible assumption | with_reducible apply KeepsO.next
                 | with_reducible apply State.quorumRow_keeps)

theorem execReplaceSet_keeps (hm_ctl : msk.ctl = false) (hm_quorum : msk.quorum = false) (via : QuorumVia) (hk :
    Keeps msk s0 s) : KeepsO msk s0 (execReplaceSet via s) := by
  unfold execReplaceSet
  repeat' (first | with_reducible assumption | with_reducible apply KeepsO.next
                 | with_reducible apply State.quorumRow_keeps)

theorem execReservedQuorumAction_keeps (hm_ctl : msk.ctl = false) (hm_quorum : msk.quorum = false) (via :
    QuorumVia) (hk : Keeps msk s0 s) : KeepsO msk s0 (execReservedQuorumAction via s) := by
  unfold execReservedQuorumAction
  repeat' (first | with_reducible assumption | with_reducible apply KeepsO.next
                 | with_reducible apply State.quorumRow_keeps)

theorem State.takeOne_keeps (f : Nat) (hk : Keeps msk s0 s) : Keeps msk s0 (State.takeOne s f) := by
  unfold State.takeOne
  dsimp only
  repeat' (first | with_reducible assumption | with_reducible apply State.draw_keeps
                 | with_reducible apply State.modFn_keeps | with_reducible apply State.vmRead_keeps
                 | with_reducible apply State.ringPut_keeps | split)

theorem State.takeLoop_keeps (f n : Nat) (hk : Keeps msk s0 s) : Keeps msk s0 (s.takeLoop f n) := by
  induction n generalizing s with
  | zero =>
    unfold State.takeLoop
    try dsimp only
    repeat' (first | with_reducible assumption)
  | succ n ih =>
    unfold State.takeLoop
    try dsimp only
    repeat' (first | with_reducible assumption | (with_reducible apply Keeps.ite) <;> intro _
                   | with_reducible apply State.takeOne_keeps | with_reducible apply ih)

theorem State.takeAll_keeps (f : Nat) (hk : Keeps msk s0 s) : Keeps msk s0 (State.takeAll s f) := by
  unfold State.takeAll
  repeat' (first | with_reducible assumption | with_reducible apply State.takeLoop_keeps)

theorem State.takeTurn_keeps (hk : Keeps msk s0 s) : Keeps msk s0 (State.takeTurn s) := by
  unfold State.takeTurn
  repeat' (first | with_reducible assumption | (with_reducible apply Keeps.ite) <;> intro _
                 | with_reducible apply Keeps.foldl | intro _ | with_reducible apply State.takeOne_keeps)

theorem State.takeTurns_keeps (n : Nat) (hk : Keeps msk s0 s) : Keeps msk s0 (s.takeTurns n) := by
  induction n generalizing s with
  | zero =>
    unfold State.takeTurns
    try dsimp only
    repeat' (first | with_reducible assumption)
  | succ n ih =>
    unfold State.takeTurns
    try dsimp only
    repeat' (first | with_reducible assumption | with_reducible apply State.takeTurn_keeps | with_reducible apply ih)

theorem State.takeEvery_keeps (hk : Keeps msk s0 s) : Keeps msk s0 (State.takeEvery s) := by
  unfold State.takeEvery
  repeat' (first | with_reducible assumption | with_reducible apply State.takeTurns_keeps)

theorem State.doorbell_keeps (f pi : Nat) (hk : Keeps msk s0 s) : Keeps msk s0 (State.doorbell s f pi) := by
  unfold State.doorbell
  repeat' (first | with_reducible assumption | (with_reducible apply Keeps.ite) <;> intro _
                 | with_reducible apply State.modFn_keeps | with_reducible apply State.takeAll_keeps)

theorem execCommandDoorbell_keeps (f : FnNo) (pi : BitVec 32) (hk : Keeps msk s0 s) : KeepsO msk s0
    (execCommandDoorbell f pi s) := by
  unfold execCommandDoorbell
  repeat' (first | with_reducible assumption | with_reducible apply KeepsO.next
                 | (with_reducible apply KeepsO.ite) <;> intro _ | with_reducible apply State.doorbell_keeps)

theorem State.sendPages_keeps (f : Nat) (hk : Keeps msk s0 s) : Keeps msk s0 (State.sendPages s f) := by
  unfold State.sendPages
  repeat' (first | with_reducible assumption | with_reducible apply Keeps.foldl | intro _
                 | with_reducible apply State.sendPage_keeps)

theorem State.consumer_keeps (f r ci : Nat) (hk : Keeps msk s0 s) : Keeps msk s0 (State.consumer s f r ci) := by
  unfold State.consumer
  repeat' (first | with_reducible assumption | (with_reducible apply Keeps.ite) <;> intro _
                 | with_reducible apply State.modFn_keeps | with_reducible apply State.takeAll_keeps
                 | with_reducible apply State.sendPages_keeps)

theorem execConsumerIndexWrite_keeps (f : FnNo) (r : Fin 5) (ci : BitVec 32) (hk : Keeps msk s0 s) : KeepsO msk s0
    (execConsumerIndexWrite f r ci s) := by
  unfold execConsumerIndexWrite
  repeat' (first | with_reducible assumption | with_reducible apply KeepsO.next
                 | (with_reducible apply KeepsO.ite) <;> intro _ | with_reducible apply State.consumer_keeps)

theorem State.ringCfg_keeps (f r : Nat) (v : Word) (hk : Keeps msk s0 s) : Keeps msk s0 (State.ringCfg s f r v) := by
  unfold State.ringCfg
  repeat' (first | with_reducible assumption | (with_reducible apply Keeps.ite) <;> intro _
                 | with_reducible apply State.modFn_keeps | with_reducible apply State.takeAll_keeps
                 | with_reducible apply State.sendPages_keeps)

theorem execRingEnable_keeps (f : FnNo) (r : Fin 5) (v : Word) (hk : Keeps msk s0 s) : KeepsO msk s0
    (execRingEnable f r v s) := by
  unfold execRingEnable
  repeat' (first | with_reducible assumption | with_reducible apply KeepsO.next
                 | (with_reducible apply KeepsO.ite) <;> intro _ | with_reducible apply State.ringCfg_keeps)

theorem execRingDisable_keeps (f : FnNo) (r : Fin 5) (v : Word) (hk : Keeps msk s0 s) : KeepsO msk s0
    (execRingDisable f r v s) := by
  unfold execRingDisable
  repeat' (first | with_reducible assumption | with_reducible apply KeepsO.next
                 | (with_reducible apply KeepsO.ite) <;> intro _ | with_reducible apply State.ringCfg_keeps)

theorem State.msixDue_keeps (f v : Nat) (hk : Keeps msk s0 s) : Keeps msk s0 (State.msixDue s f v) := by
  unfold State.msixDue
  repeat' (first | with_reducible assumption | (with_reducible apply Keeps.ite) <;> intro _
                 | with_reducible apply State.modFn_keeps | with_reducible apply State.out_keeps)

theorem State.flushMsix_keeps (f : Nat) (hk : Keeps msk s0 s) : Keeps msk s0 (State.flushMsix s f) := by
  unfold State.flushMsix
  repeat' (first | with_reducible assumption | with_reducible apply Keeps.foldl | intro _
                 | with_reducible apply State.msixDue_keeps)

theorem execMsiXMessage_keeps (f : FnNo) (c : Fin 5) (hk : Keeps msk s0 s) : KeepsO msk s0 (execMsiXMessage f c s)
    := by
  unfold execMsiXMessage
  repeat' (first | with_reducible assumption | with_reducible apply KeepsO.next
                 | (with_reducible apply KeepsO.ite) <;> intro _ | with_reducible apply State.modFn_keeps
                 | with_reducible apply State.msixDue_keeps)

theorem State.bar2Refuse_keeps (f : Nat) (hk : Keeps msk s0 s) : Keeps msk s0 (State.bar2Refuse s f) := by
  unfold State.bar2Refuse
  repeat' (first | with_reducible assumption | with_reducible apply State.modFn_keeps)

theorem execBar2Read_keeps (f : FnNo) (off len : Nat) (tee : Bool) (hk : Keeps msk s0 s) : KeepsO msk s0
    (execBar2Read f off len tee s) := by
  unfold execBar2Read
  repeat' (first | with_reducible assumption | with_reducible apply KeepsO.next | with_reducible apply State.out_keeps
                 | with_reducible apply State.bar2Refuse_keeps | with_reducible apply State.vmRead_keeps
                 | with_reducible refine Keeps.ofEq ‹_› ?_ | split)

theorem execBar2Write_keeps (f : FnNo) (off : Nat) (bs : Bytes) (tee : Bool) (hk : Keeps msk s0 s) : KeepsO msk s0
    (execBar2Write f off bs tee s) := by
  unfold execBar2Write
  repeat' (first | with_reducible assumption | with_reducible apply KeepsO.next | with_reducible apply State.out_keeps
                 | with_reducible apply State.bar2Refuse_keeps | with_reducible apply State.vmMerge_keeps | split)

theorem State.portalDone_keeps (f status : Nat) (v : Option Word) (hk : Keeps msk s0 s) : Keeps msk s0
    (State.portalDone s f status v) := by
  unfold State.portalDone
  repeat' (first | with_reducible assumption | with_reducible apply State.draw_keeps
                 | with_reducible apply State.modFn_keeps | split)

theorem State.portal_keeps (f so sub : Nat) (hk : Keeps msk s0 s) : Keeps msk s0 (State.portal s f so sub) := by
  unfold State.portal
  repeat' (first | with_reducible assumption | (with_reducible apply Keeps.ite) <;> intro _
                 | with_reducible apply State.portalDone_keeps | with_reducible apply State.soCommit_keeps)

theorem execGalSoRead_keeps (f : FnNo) (so : SoNo) (hk : Keeps msk s0 s) : KeepsO msk s0 (execGalSoRead f so s) := by
  unfold execGalSoRead
  repeat' (first | with_reducible assumption | with_reducible apply KeepsO.next
                 | with_reducible apply State.portal_keeps)

theorem execGalSoAdd_keeps (f : FnNo) (so : SoNo) (hk : Keeps msk s0 s) : KeepsO msk s0 (execGalSoAdd f so s) := by
  unfold execGalSoAdd
  repeat' (first | with_reducible assumption | with_reducible apply KeepsO.next
                 | with_reducible apply State.portal_keeps)

theorem execGalSoSet_keeps (f : FnNo) (so : SoNo) (hk : Keeps msk s0 s) : KeepsO msk s0 (execGalSoSet f so s) := by
  unfold execGalSoSet
  repeat' (first | with_reducible assumption | with_reducible apply KeepsO.next
                 | with_reducible apply State.portal_keeps)

theorem execGalSoMin_keeps (f : FnNo) (so : SoNo) (hk : Keeps msk s0 s) : KeepsO msk s0 (execGalSoMin f so s) := by
  unfold execGalSoMin
  repeat' (first | with_reducible assumption | with_reducible apply KeepsO.next
                 | with_reducible apply State.portal_keeps)

theorem execGalSoMax_keeps (f : FnNo) (so : SoNo) (hk : Keeps msk s0 s) : KeepsO msk s0 (execGalSoMax f so s) := by
  unfold execGalSoMax
  repeat' (first | with_reducible assumption | with_reducible apply KeepsO.next
                 | with_reducible apply State.portal_keeps)

theorem execGalSoCas_keeps (f : FnNo) (so : SoNo) (hk : Keeps msk s0 s) : KeepsO msk s0 (execGalSoCas f so s) := by
  unfold execGalSoCas
  repeat' (first | with_reducible assumption | with_reducible apply KeepsO.next
                 | with_reducible apply State.portal_keeps)

theorem State.soWrite_keeps (n : Nat) (v : Word) (hk : Keeps msk s0 s) : Keeps msk s0 (State.soWrite s n v) := by
  unfold State.soWrite
  repeat' (first | with_reducible assumption | (with_reducible apply Keeps.ite) <;> intro _
                 | with_reducible apply State.soCommit_keeps)

theorem execSoValueWrite_keeps (so : SoNo) (v : Word) (hk : Keeps msk s0 s) : KeepsO msk s0 (execSoValueWrite so v
    s) := by
  unfold execSoValueWrite
  repeat' (first | with_reducible assumption | with_reducible apply KeepsO.next
                 | (with_reducible apply KeepsO.ite) <;> intro _ | with_reducible apply State.soWrite_keeps)

theorem execTourLaunch_keeps (f : FnNo) (hk : Keeps msk s0 s) : KeepsO msk s0 (execTourLaunch f s) := by
  unfold execTourLaunch
  dsimp only
  repeat' (first | with_reducible assumption | with_reducible apply KeepsO.next | intro _
                 | with_reducible apply State.startTaken_keeps | with_reducible apply State.complete_keeps
                 | with_reducible apply State.drive_keeps | with_reducible apply State.launch_keeps
                 | with_reducible apply State.runTaken_keeps | split)

theorem State.stateStatus_keeps (hm_ctl : msk.ctl = false) (st : Nat) (hk : Keeps msk s0 s) : Keeps msk s0
    (State.stateStatus s st) := by
  unfold State.stateStatus
  repeat' (first | with_reducible assumption | (simp only [Keeps.mark]; refine Updated.upd ?_))

theorem execStateSet_keeps (hm_ctl : msk.ctl = false) (hk : Keeps msk s0 s) : KeepsO msk s0 (execStateSet s) := by
  unfold execStateSet
  repeat' (first | with_reducible assumption | (with_reducible apply Keeps.ite) <;> intro _
                 | with_reducible apply KeepsO.next | intro _ | with_reducible apply State.stateStatus_keeps
                 | with_reducible apply State.enterDrain_keeps | with_reducible apply State.startTaken_keeps
                 | with_reducible apply State.complete_keeps | with_reducible apply State.runPf_keeps
                 | (simp only [Keeps.mark]; refine Updated.upd ?_))

theorem execEnterOperational_keeps (hm_ctl : msk.ctl = false) (hk : Keeps msk s0 s) : KeepsO msk s0
    (execEnterOperational s) := by
  unfold execEnterOperational
  repeat' (first | with_reducible assumption | with_reducible apply KeepsO.next
                 | with_reducible apply State.setModState_keeps | with_reducible apply State.complete_keeps | split
                 | (simp only [Keeps.mark]; refine Updated.upd ?_))

theorem execDrainExit_keeps (hm_ctl : msk.ctl = false) (hk : Keeps msk s0 s) : KeepsO msk s0 (execDrainExit s) := by
  unfold execDrainExit
  repeat' (first | with_reducible assumption | with_reducible apply KeepsO.next
                 | (with_reducible apply KeepsO.ite) <;> intro _ | with_reducible apply State.setModState_keeps)

theorem State.flrVf_keeps (f : Nat) (hk : Keeps msk s0 s) : Keeps msk s0 (State.flrVf s f) := by
  unfold State.flrVf
  repeat' (first | with_reducible assumption | (with_reducible apply Keeps.ite) <;> intro _
                 | with_reducible apply State.modFn_keeps | with_reducible apply State.tdiError_keeps)

theorem State.flrVfs_keeps (hk : Keeps msk s0 s) : Keeps msk s0 (State.flrVfs s) := by
  unfold State.flrVfs
  repeat' (first | with_reducible assumption | with_reducible apply Keeps.foldl | intro _
                 | with_reducible apply State.flrVf_keeps)

theorem execFlrVf_keeps (vf : FnNo) (hk : Keeps msk s0 s) : KeepsO msk s0 (execFlrVf vf s) := by
  unfold execFlrVf
  repeat' (first | with_reducible assumption | with_reducible apply KeepsO.next
                 | (with_reducible apply KeepsO.ite) <;> intro _ | with_reducible apply State.driveAll_keeps
                 | with_reducible apply State.flrVf_keeps)

theorem State.flrPf_keeps (hm_ctl : msk.ctl = false) (hk : Keeps msk s0 s) : Keeps msk s0 (State.flrPf s) := by
  unfold State.flrPf
  repeat' (first | with_reducible assumption | with_reducible apply State.flrVfs_keeps
                 | with_reducible apply State.modFn_keeps | (simp only [Keeps.mark]; refine Updated.upd ?_))

theorem execFlrPf_keeps (hm_ctl : msk.ctl = false) (hk : Keeps msk s0 s) : KeepsO msk s0 (execFlrPf s) := by
  unfold execFlrPf
  repeat' (first | with_reducible assumption | with_reducible apply KeepsO.next
                 | (with_reducible apply KeepsO.ite) <;> intro _ | with_reducible apply State.flrPf_keeps
                 | with_reducible apply State.driveAll_keeps)

theorem State.priOff_keeps (f : Nat) (hk : Keeps msk s0 s) : Keeps msk s0 (State.priOff s f) := by
  unfold State.priOff
  repeat' (first | with_reducible assumption | with_reducible apply Keeps.foldl
                 | with_reducible apply State.modFn_keeps | with_reducible apply State.refusePage_keeps)

theorem State.fnDrop_keeps (f : Nat) (hk : Keeps msk s0 s) : Keeps msk s0 (State.fnDrop s f) := by
  unfold State.fnDrop
  repeat' (first | with_reducible assumption | with_reducible apply State.dropTranslations_keeps | split)

theorem State.setCfg_keeps (f : Nat) (w : CfgWrite) (hk : Keeps msk s0 s) : Keeps msk s0 (s.setCfg f w) := by
  cases w
  all_goals unfold State.setCfg
  all_goals try dsimp only
  repeat' (first | with_reducible assumption | (with_reducible apply Keeps.ite) <;> intro _
                 | with_reducible apply State.flrVfs_keeps | with_reducible apply State.modFn_keeps
                 | with_reducible apply State.takeAll_keeps | with_reducible apply State.flushMsix_keeps
                 | with_reducible apply State.sendPages_keeps | with_reducible apply State.fnDrop_keeps
                 | with_reducible apply State.priOff_keeps)

theorem execConfigurationWrite_keeps (f : FnNo) (w : CfgWrite) (hk : Keeps msk s0 s) : KeepsO msk s0
    (execConfigurationWrite f w s) := by
  unfold execConfigurationWrite
  repeat' (first | with_reducible assumption | with_reducible apply KeepsO.next
                 | with_reducible apply State.driveAll_keeps | with_reducible apply State.setCfg_keeps | split)

theorem State.resetCfg_keeps (f : Nat) (hk : Keeps msk s0 s) : Keeps msk s0 (State.resetCfg s f) := by
  unfold State.resetCfg
  repeat' (first | with_reducible assumption | with_reducible apply State.modFn_keeps
                 | with_reducible apply State.fnDrop_keeps | with_reducible apply State.priOff_keeps)

theorem execConventionalReset_keeps (hm_ctl : msk.ctl = false) (hk : Keeps msk s0 s) : KeepsO msk s0
    (execConventionalReset s) := by
  unfold execConventionalReset
  repeat' (first | with_reducible assumption | with_reducible apply KeepsO.next
                 | (with_reducible apply KeepsO.ite) <;> intro _ | with_reducible apply Keeps.foldl
                 | with_reducible apply State.flrPf_keeps | with_reducible apply State.driveAll_keeps
                 | with_reducible apply State.resetCfg_keeps)

end Sys2Proof.Machine
end

