-- ==== Sys2Proof/Laws/Power.lean ====
section
/-! SUPPORT. Power states: what the updates of caps, tiers and causes keep of `Power.sound`. -/

set_option Elab.async false

namespace Sys2Proof.Machine

/-- `q` has the causes of `p`, a legal tier if `p` has one, and T3 where an emergency holds `p` in it. -/
structure Power.Calm (p q : Power) : Prop where
  causes : q.causes = p.causes
  emergency : q.emergency = p.emergency
  legal : p.tier ≤ 3 → q.tier ≤ 3
  deep : p.emergency = true → p.tier = 3 → q.tier = 3

theorem Power.Calm.refl (p : Power) : Power.Calm p p := ⟨rfl, rfl, id, fun _ h => h⟩

theorem Power.Calm.trans {p q r : Power} (a : Power.Calm p q) (b : Power.Calm q r) : Power.Calm p r :=
  ⟨b.causes.trans a.causes, b.emergency.trans a.emergency, fun h => b.legal (a.legal h),
    fun h k => b.deep (a.emergency.trans h) (a.deep h k)⟩

theorem Power.Calm.sound {p q : Power} {hold : Bool} (a : Power.Calm p q) (h : p.sound hold) : q.sound hold :=
  ⟨by rw [a.emergency, h.1]; simp [Power.anyCause, a.causes], a.legal h.2.1,
    fun x => ⟨a.deep (a.emergency ▸ x) (h.2.2 (a.emergency ▸ x)).1, (h.2.2 (a.emergency ▸ x)).2⟩⟩

theorem Power.toTier_emergency (p : Power) (t : Nat) : (p.toTier t).emergency = p.emergency := by
  unfold Power.toTier; split <;> rfl

theorem Power.toTier_causes (p : Power) (t : Nat) : (p.toTier t).causes = p.causes := by
  unfold Power.toTier; split <;> rfl

theorem Power.toTier_tier (p : Power) (t : Nat) : (p.toTier t).tier = t := by
  unfold Power.toTier; split
  · rename_i h; exact h.symm
  · rfl

theorem Power.floor_le (p : Power) : p.floor ≤ 3 := by
  unfold Power.floor; split <;> (try split) <;> omega

theorem Power.floor_emergency (p : Power) (h : p.emergency = true) : p.floor = 3 := by
  unfold Power.floor; rw [if_pos (by simp [h])]

theorem tierFor_le (c : Nat) : tierFor c ≤ 3 := by
  unfold tierFor; split <;> (try split) <;> (try split) <;> omega

theorem Power.deepen_calm (p : Power) (t : Nat) (h : t ≤ 3) : Power.Calm p (p.deepen t) := by
  unfold Power.deepen
  refine ⟨p.toTier_causes _, p.toTier_emergency _, fun k => ?_, fun _ k => ?_⟩ <;> rw [p.toTier_tier] <;> omega

theorem Power.setCaps_calm (p : Power) (bmc drv : Nat) : Power.Calm p (p.setCaps bmc drv) := by
  unfold Power.setCaps
  dsimp only
  split
  · exact ⟨rfl, rfl, id, fun _ h => h⟩
  · exact Power.Calm.trans (q := { p with bmcCap := bmc, drvCap := drv, capNotMet := _ })
      ⟨rfl, rfl, id, fun _ h => h⟩ (Power.deepen_calm _ _ (tierFor_le _))

theorem Power.average_calm (p : Power) (x : Sample) : Power.Calm p (p.average x) := by
  unfold Power.average
  dsimp only
  split
  · split
    · exact ⟨rfl, rfl, id, fun _ h => h⟩
    · refine ⟨Power.toTier_causes _ _, Power.toTier_emergency _ _, fun _ => ?_, fun _ k => ?_⟩ <;>
        rw [Power.toTier_tier]
      · exact Nat.min_le_left _ _
      · omega
  · split
    · split
      · rename_i h
        simp only [Bool.and_eq_true, decide_eq_true_eq] at h
        refine ⟨Power.toTier_causes _ _, Power.toTier_emergency _ _, fun k => ?_, fun e k => ?_⟩ <;>
          rw [Power.toTier_tier]
        · omega
        · have f : (3 : Nat) < p.tier := by
            have := h.2
            rw [Power.floor_emergency _ (by exact e)] at this
            exact this
          omega
      · exact ⟨rfl, rfl, id, fun _ h => h⟩
    · exact ⟨rfl, rfl, id, fun _ h => h⟩

theorem Power.window_calm (p : Power) (x : Sample) : Power.Calm p (p.window x) := by
  unfold Power.window
  dsimp only
  split <;> exact ⟨rfl, rfl, id, fun _ h => h⟩

theorem Power.mayUnlock_calm (p : Power) : Power.Calm p p.mayUnlock := by
  unfold Power.mayUnlock
  split <;> exact ⟨rfl, rfl, id, fun _ h => h⟩

/-- Main enable may unlock main conversion. -/
theorem Power.enable_calm (p : Power) : Power.Calm p ({ p with enableSet := p.lockedOut } : Power).mayUnlock :=
  Power.Calm.trans (q := { p with enableSet := p.lockedOut }) ⟨rfl, rfl, id, fun _ h => h⟩ (Power.mayUnlock_calm _)

/-- A failed sensor deepens the tier to the floor. -/
theorem Power.sensorFail_calm (p : Power) (b : BitVec 5) :
    Power.Calm p (({ p with sensorFail := b } : Power).deepen ({ p with sensorFail := b } : Power).floor) :=
  Power.Calm.trans (q := { p with sensorFail := b }) ⟨rfl, rfl, id, fun _ h => h⟩
    (Power.deepen_calm _ _ (Power.floor_le _))

theorem Power.fastThrottle_calm (p : Power) :
    Power.Calm p (({ p with fthr := true, fthrHold := true } : Power).deepen 3) :=
  Power.Calm.trans (q := { p with fthr := true, fthrHold := true }) ⟨rfl, rfl, id, fun _ h => h⟩
    (Power.deepen_calm _ _ (Nat.le_refl _))

theorem Power.powerCap_calm (p : Power) (cap : Nat) (t : Option (Taken × Nat)) :
    Power.Calm p { p.setCaps p.bmcCap cap with capToken := t } :=
  Power.Calm.trans (Power.setCaps_calm p _ _) ⟨rfl, rfl, id, fun _ h => h⟩

theorem Power.inStandby_calm (p : Power) (b : Bool) : Power.Calm p (p.inStandby b) := by
  cases b <;> exact ⟨rfl, rfl, id, fun _ h => h⟩

theorem Power.update_calm (p : Power) (x : Sample) (b : Bool) : Power.Calm p (((p.average x).window x).inStandby b) :=
  ((Power.average_calm p x).trans (Power.window_calm _ x)).trans (Power.inStandby_calm _ b)

/-- A cause sets: an emergency. -/
theorem Power.causeOn_sound (p : Power) (b : Nat) (hb : b < 7) {hold : Bool} (h : p.sound hold) :
    (({ p with causes := causeSet p.causes b true, emergency := true } : Power).deepen 3).sound true := by
  have e : ∀ b, b < 7 → ∀ c : BitVec 8, (causeSet c b true &&& 0x7F#8 != 0#8) = true := by decide
  have t : (({ p with causes := causeSet p.causes b true, emergency := true } : Power).deepen 3).tier = 3 := by
    unfold Power.deepen
    rw [Power.toTier_tier]
    exact Nat.max_eq_right h.2.1
  refine ⟨?_, Nat.le_of_eq t, fun _ => ⟨t, rfl⟩⟩
  unfold Power.deepen Power.anyCause
  rw [Power.toTier_emergency, Power.toTier_causes, e b hb]

/-- A cause clears: the emergency lasts while another cause does. -/
theorem Power.causeOff_sound (p : Power) (c : BitVec 8) {hold : Bool} (k : (c &&& 0x7F#8 != 0#8) = true → p.anyCause = true)
    (h : p.sound hold) : ({ p with causes := c, emergency := ({ p with causes := c } : Power).anyCause } : Power).mayUnlock.sound hold :=
  (Power.mayUnlock_calm _).sound ⟨rfl, h.2.1, fun x => h.2.2 (h.1.trans (k x))⟩

/-- A bit that clears sets none. -/
theorem causeSet_off (c : BitVec 8) (b : Nat) (h : (causeSet c b false &&& 0x7F#8 != 0#8) = true) :
    (c &&& 0x7F#8 != 0#8) = true := by
  simp only [causeSet, bne_iff_ne, ne_eq, Bool.false_eq_true, if_false] at h ⊢
  intro e
  apply h
  rw [BitVec.and_assoc, BitVec.and_comm (~~~ BitVec.ofNat 8 (2 ^ b)), ← BitVec.and_assoc, e]
  simp

/-- The input current is no cause of an emergency. -/
theorem Power.overcurrent_sound (p : Power) {hold : Bool} (h : p.sound hold) :
    ({ p with causes := causeSet p.causes 7 true } : Power).sound hold := by
  have e : ∀ c : BitVec 8, causeSet c 7 true &&& 0x7F#8 = c &&& 0x7F#8 := by decide
  refine ⟨?_, h.2⟩
  have := h.1
  unfold Power.anyCause at this ⊢
  dsimp only
  rw [e, this]

/-- What survives keeps the emergency while a cause that persists does. -/
theorem Power.kept_sound (p : Power) (boot : Bool) {hold : Bool} (h : p.sound hold) : (p.kept boot).sound hold := by
  refine ⟨rfl, Power.floor_le _, fun x => ⟨Power.floor_emergency _ x, (h.2.2 ?_).2⟩⟩
  have x' : ((if boot then p.causes &&& 0x3F#8 else p.causes) &&& 0x7F#8 != 0#8) = true := x
  rw [h.1]
  unfold Power.anyCause
  cases boot with
  | false => exact x'
  | true =>
    simp only [if_true, bne_iff_ne, ne_eq] at x' ⊢
    intro e
    apply x'
    rw [BitVec.and_assoc, BitVec.and_comm 0x3F#8, ← BitVec.and_assoc, e]
    simp

end Sys2Proof.Machine
end

