-- ==== Sys2Proof/Laws/KeepsModule.lean ====
section
/-! SUPPORT. What each operation keeps (`Keeps`): power, telemetry, boot, firmware, rehangs, registers
and the service port. -/

set_option maxRecDepth 4000
set_option Elab.async false

namespace Sys2Proof.Machine

variable {msk : Part} {s0 s : State}

/-- An update of the power state that keeps the rule of emergencies. -/
theorem State.modPwr_keeps (hm_pwr : msk.pwr = false) (f : Power → Power)
    (hf : ∀ p hold, Power.sound p hold → Power.sound (f p) hold) (hk : Keeps msk s0 s) :
    Keeps msk s0 (State.modPwr s f) := by
  unfold State.modPwr
  simp only [Keeps.mark]
  exact Updated.upd hk (h_em := hf _ _)

theorem State.capDone_keeps (hm_pwr : msk.pwr = false) (hk : Keeps msk s0 s) : Keeps msk s0 (State.capDone s) := by
  unfold State.capDone
  repeat' (first | with_reducible assumption
                 | ((with_reducible apply State.modPwr_keeps) <;> try exact fun _ _ h => h)
                 | with_reducible apply State.complete_keeps | split)

theorem State.capCheck_keeps (hm_pwr : msk.pwr = false) (hk : Keeps msk s0 s) : Keeps msk s0 (State.capCheck s) := by
  unfold State.capCheck
  repeat' (first | with_reducible assumption | with_reducible apply State.capDone_keeps | split)

theorem execPowerCap_keeps (hm_pwr : msk.pwr = false) (hk : Keeps msk s0 s) : KeepsO msk s0 (execPowerCap s) := by
  unfold execPowerCap
  repeat' (first | with_reducible assumption | (with_reducible apply Keeps.ite) <;> intro _
                 | with_reducible apply KeepsO.next | intro _
                 | ((with_reducible apply State.modPwr_keeps) <;> try exact fun _ _ h => h)
                 | with_reducible apply State.startTaken_keeps | with_reducible apply State.capCheck_keeps
                 | with_reducible apply State.complete_keeps | with_reducible apply State.capDone_keeps
                 | with_reducible apply State.runPf_keeps)
  all_goals exact Power.Calm.sound (by apply Power.powerCap_calm) ‹_›

theorem execPowerCapTimeout_keeps (hm_pwr : msk.pwr = false) (hk : Keeps msk s0 s) : KeepsO msk s0
    (execPowerCapTimeout s) := by
  unfold execPowerCapTimeout
  repeat' (first | with_reducible assumption | with_reducible apply KeepsO.next
                 | with_reducible apply State.capDone_keeps)

theorem State.lifeMinute_keeps (hk : Keeps msk s0 s) : Keeps msk s0 (State.lifeMinute s) := by
  unfold State.lifeMinute
  repeat' (first | (simp only [Keeps.mark]; exact Updated.same ‹_›))

theorem State.lifeTick_keeps (hk : Keeps msk s0 s) : Keeps msk s0 (State.lifeTick s) := by
  unfold State.lifeTick
  repeat' (first | with_reducible assumption | (with_reducible apply Keeps.ite) <;> intro _
                 | with_reducible apply State.lifeMinute_keeps | (simp only [Keeps.mark]; exact Updated.same ‹_›))

theorem execPowerAverageUpdate_keeps (hm_pwr : msk.pwr = false) (x : Sample) (hk : Keeps msk s0 s) : KeepsO msk s0
    (execPowerAverageUpdate x s) := by
  unfold execPowerAverageUpdate
  repeat' (first | with_reducible assumption | (with_reducible apply Keeps.ite) <;> intro _
                 | with_reducible apply KeepsO.next | (with_reducible apply KeepsO.ite) <;> intro _
                 | ((with_reducible apply State.modPwr_keeps) <;> try exact fun _ _ h => h)
                 | with_reducible apply State.capCheck_keeps | with_reducible apply State.lifeTick_keeps)
  all_goals (intro p _ h; refine Power.Calm.sound ?_ h; apply Power.update_calm)

theorem State.causeOn_keeps (hm_pwr : msk.pwr = false) (hm_cur : msk.cur = false) (b : Nat) (hb : b < 7)
    (hk : Keeps msk s0 s) : Keeps msk s0 (State.causeOn s b) := by
  unfold State.causeOn State.modPwr
  simp only [Keeps.mark]
  exact Updated.upd hk (h_em := fun h => Power.causeOn_sound _ b hb h)

theorem State.causeOff_keeps (hm_pwr : msk.pwr = false) (b : Nat) (hk : Keeps msk s0 s) : Keeps msk s0
    (State.causeOff s b) := by
  unfold State.causeOff
  exact State.modPwr_keeps hm_pwr _ (fun p _ h => p.causeOff_sound _ (causeSet_off _ _) h) hk

theorem causeBit_lt (c : EmergencyCause) : causeBit c < 7 := by cases c <;> decide

theorem execEmergencyBegin_keeps (hm_pwr : msk.pwr = false) (hm_cur : msk.cur = false) (c : EmergencyCause) (hk :
    Keeps msk s0 s) : KeepsO msk s0 (execEmergencyBegin c s) := by
  unfold execEmergencyBegin
  repeat' (first | with_reducible assumption | with_reducible apply KeepsO.next
                 | (with_reducible apply KeepsO.ite) <;> intro _ | with_reducible apply State.causeOn_keeps)
  all_goals exact causeBit_lt _

theorem execLeakAssert_keeps (hm_pwr : msk.pwr = false) (hm_cur : msk.cur = false) (hk : Keeps msk s0 s) : KeepsO
    msk s0 (execLeakAssert s) := by
  unfold execLeakAssert
  repeat' (first | with_reducible assumption | with_reducible apply KeepsO.next
                 | (with_reducible apply KeepsO.ite) <;> intro _ | with_reducible apply State.causeOn_keeps
                 | ((with_reducible apply State.modPwr_keeps) <;> try exact fun _ _ h => h))
  all_goals first | exact causeBit_lt _ | decide

theorem execFastThrottleAssert_keeps (hm_pwr : msk.pwr = false) (hk : Keeps msk s0 s) : KeepsO msk s0
    (execFastThrottleAssert s) := by
  unfold execFastThrottleAssert
  repeat' (first | with_reducible assumption | with_reducible apply KeepsO.next
                 | (with_reducible apply KeepsO.ite) <;> intro _
                 | ((with_reducible apply State.modPwr_keeps) <;> try exact fun _ _ h => h))
  all_goals (intro p _ h; refine Power.Calm.sound ?_ h; apply Power.fastThrottle_calm)

theorem execFastThrottleHoldExpiry_keeps (hm_pwr : msk.pwr = false) (hk : Keeps msk s0 s) : KeepsO msk s0
    (execFastThrottleHoldExpiry s) := by
  unfold execFastThrottleHoldExpiry
  repeat' (first | with_reducible assumption | with_reducible apply KeepsO.next
                 | ((with_reducible apply State.modPwr_keeps) <;> try exact fun _ _ h => h))

theorem execAux3v3Short_keeps (hm_pwr : msk.pwr = false) (hk : Keeps msk s0 s) : KeepsO msk s0 (execAux3v3Short s)
    := by
  unfold execAux3v3Short
  repeat' (first | with_reducible assumption | with_reducible apply KeepsO.next
                 | (with_reducible apply KeepsO.ite) <;> intro _
                 | ((with_reducible apply State.modPwr_keeps) <;> try exact fun _ _ h => h))

theorem execAux3v3Retry_keeps (hm_pwr : msk.pwr = false) (stillShort : Bool) (hk : Keeps msk s0 s) : KeepsO msk s0
    (execAux3v3Retry stillShort s) := by
  unfold execAux3v3Retry
  repeat' (first | with_reducible assumption | with_reducible apply KeepsO.next
                 | (with_reducible apply KeepsO.ite) <;> intro _
                 | ((with_reducible apply State.modPwr_keeps) <;> try exact fun _ _ h => h))

theorem execSenseOpen_keeps (hm_pwr : msk.pwr = false) (hk : Keeps msk s0 s) : KeepsO msk s0 (execSenseOpen s) := by
  unfold execSenseOpen
  repeat' (first | with_reducible assumption | with_reducible apply KeepsO.next
                 | (with_reducible apply KeepsO.ite) <;> intro _
                 | ((with_reducible apply State.modPwr_keeps) <;> try exact fun _ _ h => h))

theorem execSensorFail_keeps (hm_pwr : msk.pwr = false) (x : Sensor) (hk : Keeps msk s0 s) : KeepsO msk s0
    (execSensorFail x s) := by
  unfold execSensorFail
  repeat' (first | with_reducible assumption | with_reducible apply KeepsO.next
                 | (with_reducible apply KeepsO.ite) <;> intro _
                 | ((with_reducible apply State.modPwr_keeps) <;> try exact fun _ _ h => h))
  all_goals (intro p _ h; refine Power.Calm.sound ?_ h; apply Power.sensorFail_calm)

theorem State.modClk_keeps (hm_clk : msk.clk = false) {f : Clocks → Clocks}
    (hf : ∀ c, c.legal → (f c).legal) (hk : Keeps msk s0 s) : Keeps msk s0 (State.modClk s f) :=
  { hk with legal := fun w => hf _ (hk.legal w), clk := fun w => by simp [hm_clk] at w }

theorem execReferenceFallback_keeps (hm_clk : msk.clk = false) (c : FallbackCause)
    (hk : Keeps msk s0 s) : KeepsO msk s0 (execReferenceFallback c s) := by
  unfold execReferenceFallback
  refine KeepsO.ite (fun _ => hk) fun _ => State.modClk_keeps hm_clk (fun c h => ?_) hk
  exact ⟨h.1, h.2.1, h.2.2.1, h.2.2.2.1, Nat.zero_le _⟩

theorem execReferenceRevert_keeps (hm_clk : msk.clk = false)
    (hk : Keeps msk s0 s) : KeepsO msk s0 (execReferenceRevert s) := by
  unfold execReferenceRevert
  refine KeepsO.ite (fun _ => State.modClk_keeps hm_clk (fun c h => ?_) hk) fun _ => hk
  exact ⟨h.1, h.2.1, h.2.2.1, h.2.2.2.1, Nat.le_refl _⟩

theorem ite_le_one (c : Prop) [Decidable c] : (if c then 1 else 0) ≤ 1 := by
  split <;> omega

theorem clamp_range (lo hi x : Nat) (h : lo ≤ hi) : lo ≤ clamp lo hi x ∧ clamp lo hi x ≤ hi := by
  unfold clamp
  omega

theorem State.clkCtl_keeps (hm_clk : msk.clk = false) (v : Word) (lo hi : Bool)
    (hk : Keeps msk s0 s) : Keeps msk s0 (State.clkCtl s v lo hi) := by
  have h1 : Keeps msk s0 (if !lo then s else _) :=
    Keeps.ite (fun _ => hk) fun _ =>
      State.modClk_keeps hm_clk
        (f := fun c => { c with refNow := if c.refSel = 1 &&
          (s.modClk fun c =>
            { c with
              refused := c.refused && !bitN v 14, refPort := fieldN v 8 6, revert := bitN v 2
              refSel := if fieldN v 0 2 = 1 then 1 else 0 }).refUp then 1 else 0 })
        (fun c h => ⟨h.1, h.2.1, h.2.2.1, h.2.2.2.1, by dsimp only; exact ite_le_one _⟩)
        (State.modClk_keeps hm_clk
          (f := fun c =>
            { c with
              refused := c.refused && !bitN v 14, refPort := fieldN v 8 6, revert := bitN v 2
              refSel := if fieldN v 0 2 = 1 then 1 else 0 })
          (fun c h => ⟨h.1, h.2.1, h.2.2.1, by dsimp only; split <;> omega, h.2.2.2.2⟩) hk)
  unfold State.clkCtl
  refine Keeps.ite (fun _ => h1) fun _ => Keeps.ite (fun _ => State.modClk_keeps hm_clk (fun _ h => h) h1) fun _ =>
    State.modClk_keeps hm_clk (fun c h => ?_) h1
  exact ⟨clamp_range _ _ _ (by decide), clamp_range _ _ _ (by decide), clamp_range _ _ _ (by decide), h.2.2.2⟩

theorem execClkCtlWrite_keeps (hm_clk : msk.clk = false) (v : Word) (hk : Keeps msk s0 s) : KeepsO msk s0
    (execClkCtlWrite v s) := by
  unfold execClkCtlWrite
  repeat' (first | with_reducible assumption | with_reducible apply KeepsO.next
                 | (with_reducible apply KeepsO.ite) <;> intro _ | with_reducible apply State.clkCtl_keeps)

theorem State.gatePort_keeps (p : Nat) (hk : Keeps msk s0 s) : Keeps msk s0 (State.gatePort s p) := by
  unfold State.gatePort
  repeat' (first | with_reducible assumption | with_reducible apply Keeps.foldl | intro _
                 | with_reducible apply State.modDocent_keeps | with_reducible apply State.modLanes_keeps
                 | with_reducible apply State.modLink_keeps | with_reducible apply State.targetAnswer_keeps)

theorem State.clkEn_keeps (hm_clk : msk.clk = false) (v : Word) (lo hi : Bool) (hk : Keeps msk s0 s) : Keeps msk
    s0 (State.clkEn s v lo hi) := by
  unfold State.clkEn
  repeat' (first | exact fun _ h => h | with_reducible assumption | (with_reducible apply Keeps.ite) <;> intro _
                 | with_reducible apply State.modClk_keeps)

theorem State.clkEnPort_keeps (hm_clk : msk.clk = false) (ports : BitVec 48) (hk : Keeps msk s0 s) : Keeps msk s0
    (State.clkEnPort s ports) := by
  unfold State.clkEnPort
  repeat' (first | exact fun _ h => h | with_reducible assumption | (with_reducible apply Keeps.ite) <;> intro _
                 | with_reducible apply Keeps.foldl | intro _ | with_reducible apply State.modClk_keeps
                 | with_reducible apply State.gatePort_keeps | with_reducible apply State.startTraining_keeps)

theorem execClkEnWrite_keeps (hm_clk : msk.clk = false) (ports : Bool) (v : Word) (hk : Keeps msk s0 s) : KeepsO
    msk s0 (execClkEnWrite ports v s) := by
  unfold execClkEnWrite
  repeat' (first | with_reducible assumption | with_reducible apply KeepsO.next
                 | (with_reducible apply KeepsO.ite) <;> intro _ | with_reducible apply State.driveAll_keeps
                 | with_reducible apply State.clkEn_keeps | with_reducible apply State.clkEnPort_keeps)

theorem State.ownCtl_keeps (hm_pwr : msk.pwr = false) (hm_own : msk.own = false)
    (v : Word) (hk : Keeps msk s0 s) : Keeps msk s0 (State.ownCtl s v) := by
  have h1 (x : OwnCtl) (hx : 1 ≤ x.tickDiv) : Keeps msk s0 { s with own := x } :=
    { hk with tick := fun _ => hx, own := fun w => by simp [hm_own] at w }
  unfold State.ownCtl
  refine Keeps.ite (fun _ => h1 _ ?_) fun _ => State.modPwr_keeps hm_pwr _ (fun _ _ h => h) (h1 _ ?_)
  all_goals dsimp only; split <;> omega

theorem execOwnCtlWrite_keeps (hm_pwr : msk.pwr = false) (hm_own : msk.own = false) (v : Word) (hk : Keeps msk s0
    s) : KeepsO msk s0 (execOwnCtlWrite v s) := by
  unfold execOwnCtlWrite
  repeat' (first | with_reducible assumption | with_reducible apply KeepsO.next
                 | (with_reducible apply KeepsO.ite) <;> intro _ | with_reducible apply State.ownCtl_keeps)

theorem State.modTel_keeps (f : Tel → Tel) (hk : Keeps msk s0 s) : Keeps msk s0 (State.modTel s f) := by
  unfold State.modTel
  repeat' (first | (simp only [Keeps.mark]; exact Updated.same ‹_›))

theorem State.writeRecord_keeps (hm_flash : msk.flash = false) {s : State}
    (kind reason : Nat) (ok : Bool) (hk : Keeps msk s0 s) : Keeps msk s0 (State.writeRecord s kind reason ok) := by
  unfold State.writeRecord
  split
  · exact { hk with }
  · exact { hk with
      hist := fun _ => by
        rw [List.length_take]
        exact Nat.min_le_left _ _
      flash := fun w => by simp [hm_flash] at w }

theorem State.holdUp_keeps (hm_flash : msk.flash = false) (reason : Nat) (hk : Keeps msk s0 s) : Keeps msk s0
    (State.holdUp s reason) := by
  unfold State.holdUp
  repeat' (first | with_reducible assumption | with_reducible apply State.modTel_keeps
                 | with_reducible apply State.writeRecord_keeps)

theorem execLifeHistoryHourly_keeps (hm_cur : msk.cur = false) (hm_flash : msk.flash = false) (ok : Bool) (hk :
    Keeps msk s0 s) : KeepsO msk s0 (execLifeHistoryHourly ok s) := by
  unfold execLifeHistoryHourly
  repeat' (first | with_reducible assumption | with_reducible apply KeepsO.next
                 | (with_reducible apply KeepsO.ite) <;> intro _ | with_reducible apply State.modTel_keeps
                 | with_reducible apply State.writeRecord_keeps | (simp only [Keeps.mark]; refine Updated.upd ?_))

theorem State.healthHour_keeps (hk : Keeps msk s0 s) : Keeps msk s0 (State.healthHour s) := by
  unfold State.healthHour
  repeat' (first | with_reducible assumption | with_reducible apply State.modTel_keeps)

theorem State.healthEvent_keeps (part : Nat) (old new : Health) (hk : Keeps msk s0 s) : Keeps msk s0
    (State.healthEvent s part old new) := by
  unfold State.healthEvent
  repeat' (first | with_reducible assumption | (with_reducible apply Keeps.ite) <;> intro _
                 | with_reducible apply State.curEvent_keeps)

theorem State.scorePort_keeps (p : Nat) (hk : Keeps msk s0 s) : Keeps msk s0 (State.scorePort s p) := by
  unfold State.scorePort
  repeat' (first | with_reducible assumption | (with_reducible apply Keeps.ite) <;> intro _
                 | with_reducible apply State.healthEvent_keeps | with_reducible apply State.modTel_keeps)

theorem State.scoreDie_keeps (d : Nat) (hk : Keeps msk s0 s) : Keeps msk s0 (State.scoreDie s d) := by
  unfold State.scoreDie
  repeat' (first | with_reducible assumption | with_reducible apply State.healthEvent_keeps
                 | with_reducible apply State.modTel_keeps)

theorem State.scoreModule_keeps (hk : Keeps msk s0 s) : Keeps msk s0 (State.scoreModule s) := by
  unfold State.scoreModule
  repeat' (first | with_reducible assumption | with_reducible apply State.healthEvent_keeps
                 | with_reducible apply State.modTel_keeps)

theorem State.newHour_keeps (hk : Keeps msk s0 s) : Keeps msk s0 (State.newHour s) := by
  unfold State.newHour
  repeat' (first | with_reducible assumption | with_reducible apply Keeps.foldl | intro _
                 | with_reducible apply State.modDie_keeps | with_reducible apply State.modLink_keeps)

theorem execHealthScoring_keeps (hk : Keeps msk s0 s) : KeepsO msk s0 (execHealthScoring s) := by
  unfold execHealthScoring
  repeat' (first | with_reducible assumption | with_reducible apply KeepsO.next
                 | (with_reducible apply KeepsO.ite) <;> intro _ | with_reducible apply Keeps.foldl
                 | with_reducible apply State.newHour_keeps | with_reducible apply State.scoreDie_keeps
                 | with_reducible apply State.scoreModule_keeps | with_reducible apply State.scorePort_keeps
                 | with_reducible apply State.healthHour_keeps)

theorem State.fwEvent_keeps (ev status cause core version svn : Nat) (hk : Keeps msk s0 s) : Keeps msk s0
    (State.fwEvent s ev status cause core version svn) := by
  unfold State.fwEvent
  repeat' (first | with_reducible assumption | with_reducible apply State.incident_keeps)

theorem State.runImage_keeps (hm_cur : msk.cur = false) (b : Bytes) (hk : Keeps msk s0 s) : Keeps msk s0
    (State.runImage s b) := by
  unfold State.runImage
  repeat' (first | with_reducible assumption | (simp only [Keeps.mark]; refine Updated.upd ?_))

theorem Flash.blow_grows (f : Flash) (b : Bytes) :
    f.fusedSvn ≤ (f.blow b).fusedSvn ∧ f.revoked &&& (f.blow b).revoked = f.revoked := by
  constructor
  · simp only [Flash.blow]
    split
    · rename_i h
      simp only [Bool.and_eq_true, decide_eq_true_eq] at h
      omega
    · exact Nat.le_refl _
  · simp only [Flash.blow]
    ext i
    simp only [BitVec.getElem_and, BitVec.getElem_or]
    cases f.revoked[i] <;> rfl

theorem State.activated_keeps (hm_cur : msk.cur = false) (hm_flash : msk.flash = false)
    (hm_fuse : msk.fuse = false) (hk : Keeps msk s0 s) : Keeps msk s0 (State.activated s) := by
  unfold State.activated
  dsimp only
  refine State.measChanged_keeps _ (State.measChanged_keeps _ (State.fwEvent_keeps _ _ _ _ _ _ (hk.trans ?_)))
  exact { Keeps.refl msk s with
    blown := Flash.blow_grows _ _
    flash := fun w => by simp [hm_flash] at w
    cur := fun w => by simp [hm_cur] at w
    fuse := fun w => by simp [hm_fuse] at w }

theorem State.bare_keeps (hm_ctl : msk.ctl = false) (hm_pwr : msk.pwr = false)
    (hm_clk : msk.clk = false) (hm_own : msk.own = false) (hm_cur : msk.cur = false) (hm_svc : msk.svc = false)
    (hm_banks : msk.banks = false) (hm_quorum : msk.quorum = false) (st : ModState) (hk : Keeps msk s0 s) :
    Keeps msk s0 (s.bare st) where
  pending := hk.pending
  mem := fun _ => rfl
  legal := fun _ => by simp [State.bare, State.reset, Clocks.reset, Clocks.legal]
  tick := fun _ => Nat.le_refl 1
  em := fun w => Power.kept_sound _ _ (hk.em w)
  hist := hk.hist
  blown := hk.blown
  ctl := fun w => by simp [hm_ctl] at w
  pwr := fun w => by simp [hm_pwr] at w
  clk := fun w => by simp [hm_clk] at w
  own := fun w => by simp [hm_own] at w
  cur := fun w => by simp [hm_cur] at w
  flash := hk.flash
  svc := fun w => by simp [hm_svc] at w
  banks := fun w => by simp [hm_banks] at w
  quorum := fun w => by simp [hm_quorum] at w
  fuse := hk.fuse

theorem State.enterBoot_keeps (hm_ctl : msk.ctl = false) (hm_pwr : msk.pwr = false) (hm_clk : msk.clk = false)
    (hm_own : msk.own = false) (hm_cur : msk.cur = false) (hm_svc : msk.svc = false) (hm_banks : msk.banks = false)
    (hm_quorum : msk.quorum = false) (hk : Keeps msk s0 s) : Keeps msk s0 (State.enterBoot s) := by
  unfold State.enterBoot
  repeat' (first | with_reducible assumption | with_reducible apply State.bare_keeps
                 | (simp only [Keeps.mark]; refine Updated.same ?_))

theorem State.bringUp_keeps (hm_clk : msk.clk = false) {s : State}
    (hk : Keeps msk s0 s) : Keeps msk s0 s.bringUp := by
  unfold State.bringUp
  refine Keeps.foldl (fun s x h => State.startTraining_keeps x h) ?_
  exact { hk with mem := fun _ => rfl, legal := hk.legal, clk := fun w => by simp [hm_clk] at w }

theorem State.mainLost_keeps (hm_ctl : msk.ctl = false) (hm_pwr : msk.pwr = false) (hm_clk : msk.clk = false)
    (hm_own : msk.own = false) (hm_cur : msk.cur = false) (hm_flash : msk.flash = false) (hm_svc : msk.svc = false)
    (hm_banks : msk.banks = false) (hm_quorum : msk.quorum = false) (reason : Nat) (hk : Keeps msk s0 s) : Keeps msk
    s0 (State.mainLost s reason) := by
  unfold State.mainLost
  repeat' (first | with_reducible assumption | with_reducible apply State.holdUp_keeps
                 | ((with_reducible apply State.modPwr_keeps) <;> try exact fun _ _ h => h)
                 | with_reducible apply State.bare_keeps)

theorem State.moduleReset_keeps (hm_ctl : msk.ctl = false) (hm_pwr : msk.pwr = false) (hm_clk : msk.clk = false)
    (hm_own : msk.own = false) (hm_cur : msk.cur = false) (hm_flash : msk.flash = false) (hm_svc : msk.svc = false)
    (hm_banks : msk.banks = false) (hm_quorum : msk.quorum = false) (hk : Keeps msk s0 s) : Keeps msk s0
    (State.moduleReset s) := by
  unfold State.moduleReset
  repeat' (first | with_reducible assumption | with_reducible apply State.enterBoot_keeps
                 | with_reducible apply State.holdUp_keeps | with_reducible apply State.bringUp_keeps)

theorem State.railUp_keeps (hm_ctl : msk.ctl = false) (hk : Keeps msk s0 s) : Keeps msk s0 (State.railUp s) := by
  unfold State.railUp
  repeat' (first | with_reducible assumption | (with_reducible apply Keeps.ite) <;> intro _
                 | (simp only [Keeps.mark]; refine Updated.upd ?_))

theorem State.mainUp_keeps (hm_ctl : msk.ctl = false) (hm_pwr : msk.pwr = false) (hm_clk : msk.clk = false)
    (hm_own : msk.own = false) (hm_cur : msk.cur = false) (hm_svc : msk.svc = false) (hm_banks : msk.banks = false)
    (hm_quorum : msk.quorum = false) (hk : Keeps msk s0 s) : Keeps msk s0 (State.mainUp s) := by
  unfold State.mainUp
  repeat' (first | with_reducible assumption | (with_reducible apply Keeps.ite) <;> intro _
                 | with_reducible apply State.enterBoot_keeps | with_reducible apply State.bringUp_keeps)

theorem State.standbyLost_keeps (hm_ctl : msk.ctl = false) (hm_pwr : msk.pwr = false) (hm_clk : msk.clk = false)
    (hm_own : msk.own = false) (hm_cur : msk.cur = false) (hm_svc : msk.svc = false) (hm_banks : msk.banks = false)
    (hm_quorum : msk.quorum = false) (hk : Keeps msk s0 s) : Keeps msk s0 (State.standbyLost s) := by
  unfold State.standbyLost
  repeat' (first | with_reducible assumption | (with_reducible apply Keeps.ite) <;> intro _
                 | with_reducible apply KeepsO.next | (with_reducible apply KeepsO.ite) <;> intro _
                 | with_reducible apply State.mainUp_keeps | with_reducible apply State.railUp_keeps
                 | with_reducible apply State.bringUp_keeps | with_reducible apply State.bare_keeps
                 | with_reducible apply State.mainLost_keeps | with_reducible apply State.standbyLost_keeps
                 | with_reducible apply State.causeOff_keeps
                 | ((with_reducible apply State.modPwr_keeps) <;> try exact fun _ _ h => h))

theorem execAuxPowerGood_keeps (hm_ctl : msk.ctl = false) (hm_pwr : msk.pwr = false) (hm_clk : msk.clk = false)
    (hm_own : msk.own = false) (hm_cur : msk.cur = false) (hm_svc : msk.svc = false) (hm_banks : msk.banks = false)
    (hm_quorum : msk.quorum = false) (hk : Keeps msk s0 s) : KeepsO msk s0 (execAuxPowerGood s) := by
  unfold execAuxPowerGood
  repeat' (first | with_reducible assumption | (with_reducible apply Keeps.ite) <;> intro _
                 | with_reducible apply KeepsO.next | (with_reducible apply KeepsO.ite) <;> intro _
                 | with_reducible apply State.mainUp_keeps | with_reducible apply State.railUp_keeps
                 | with_reducible apply State.bringUp_keeps | with_reducible apply State.bare_keeps
                 | with_reducible apply State.mainLost_keeps | with_reducible apply State.standbyLost_keeps
                 | with_reducible apply State.causeOff_keeps
                 | ((with_reducible apply State.modPwr_keeps) <;> try exact fun _ _ h => h))

theorem execAuxPowerLost_keeps (hm_ctl : msk.ctl = false) (hm_pwr : msk.pwr = false) (hm_clk : msk.clk = false)
    (hm_own : msk.own = false) (hm_cur : msk.cur = false) (hm_svc : msk.svc = false) (hm_banks : msk.banks = false)
    (hm_quorum : msk.quorum = false) (hk : Keeps msk s0 s) : KeepsO msk s0 (execAuxPowerLost s) := by
  unfold execAuxPowerLost
  repeat' (first | with_reducible assumption | (with_reducible apply Keeps.ite) <;> intro _
                 | with_reducible apply KeepsO.next
                 | ((with_reducible apply State.modPwr_keeps) <;> try exact fun _ _ h => h)
                 | with_reducible apply State.bare_keeps)

theorem execEmergencyClear_keeps (hm_ctl : msk.ctl = false) (hm_pwr : msk.pwr = false) (hm_clk : msk.clk = false)
    (hm_own : msk.own = false) (hm_cur : msk.cur = false) (hm_svc : msk.svc = false) (hm_banks : msk.banks = false)
    (hm_quorum : msk.quorum = false) (c : EmergencyCause) (hk : Keeps msk s0 s) : KeepsO msk s0 (execEmergencyClear c
    s) := by
  unfold execEmergencyClear
  repeat' (first | with_reducible assumption | with_reducible apply KeepsO.next
                 | (with_reducible apply KeepsO.ite) <;> intro _ | with_reducible apply State.mainUp_keeps
                 | with_reducible apply State.causeOff_keeps)

theorem execLeakClearExpiry_keeps (hm_ctl : msk.ctl = false) (hm_pwr : msk.pwr = false) (hm_clk : msk.clk = false)
    (hm_own : msk.own = false) (hm_cur : msk.cur = false) (hm_svc : msk.svc = false) (hm_banks : msk.banks = false)
    (hm_quorum : msk.quorum = false) (hk : Keeps msk s0 s) : KeepsO msk s0 (execLeakClearExpiry s) := by
  unfold execLeakClearExpiry
  repeat' (first | with_reducible assumption | (with_reducible apply Keeps.ite) <;> intro _
                 | with_reducible apply KeepsO.next | (with_reducible apply KeepsO.ite) <;> intro _
                 | with_reducible apply State.mainUp_keeps | with_reducible apply State.railUp_keeps
                 | with_reducible apply State.bringUp_keeps | with_reducible apply State.bare_keeps
                 | with_reducible apply State.mainLost_keeps | with_reducible apply State.standbyLost_keeps
                 | with_reducible apply State.causeOff_keeps
                 | ((with_reducible apply State.modPwr_keeps) <;> try exact fun _ _ h => h))

theorem execPresentAsserted_keeps (hm_pwr : msk.pwr = false) (hk : Keeps msk s0 s) : KeepsO msk s0
    (execPresentAsserted s) := by
  unfold execPresentAsserted
  repeat' (first | with_reducible assumption | with_reducible apply KeepsO.next
                 | ((with_reducible apply State.modPwr_keeps) <;> try exact fun _ _ h => h))

theorem execPresentDeasserted_keeps (hm_ctl : msk.ctl = false) (hm_pwr : msk.pwr = false) (hm_clk : msk.clk =
    false) (hm_own : msk.own = false) (hm_cur : msk.cur = false) (hm_svc : msk.svc = false) (hm_banks : msk.banks =
    false) (hm_quorum : msk.quorum = false) (hm_flash : msk.flash = false) (hk : Keeps msk s0 s) : KeepsO msk s0
    (execPresentDeasserted s) := by
  unfold execPresentDeasserted
  repeat' (first | with_reducible assumption | (with_reducible apply Keeps.ite) <;> intro _
                 | with_reducible apply KeepsO.next | (with_reducible apply KeepsO.ite) <;> intro _
                 | with_reducible apply State.mainUp_keeps | with_reducible apply State.railUp_keeps
                 | with_reducible apply State.bringUp_keeps | with_reducible apply State.bare_keeps
                 | with_reducible apply State.mainLost_keeps | with_reducible apply State.standbyLost_keeps
                 | with_reducible apply State.causeOff_keeps
                 | ((with_reducible apply State.modPwr_keeps) <;> try exact fun _ _ h => h))

theorem execMainPowerGood_keeps (hm_ctl : msk.ctl = false) (hm_pwr : msk.pwr = false) (hm_clk : msk.clk = false)
    (hm_own : msk.own = false) (hm_cur : msk.cur = false) (hm_svc : msk.svc = false) (hm_banks : msk.banks = false)
    (hm_quorum : msk.quorum = false) (hk : Keeps msk s0 s) : KeepsO msk s0 (execMainPowerGood s) := by
  unfold execMainPowerGood
  repeat' (first | with_reducible assumption | (with_reducible apply Keeps.ite) <;> intro _
                 | with_reducible apply KeepsO.next | (with_reducible apply KeepsO.ite) <;> intro _
                 | with_reducible apply State.mainUp_keeps | with_reducible apply State.railUp_keeps
                 | with_reducible apply State.bringUp_keeps | with_reducible apply State.bare_keeps
                 | with_reducible apply State.mainLost_keeps | with_reducible apply State.standbyLost_keeps
                 | with_reducible apply State.causeOff_keeps
                 | ((with_reducible apply State.modPwr_keeps) <;> try exact fun _ _ h => h))

theorem execLossOfMainInput_keeps (hm_ctl : msk.ctl = false) (hm_pwr : msk.pwr = false) (hm_clk : msk.clk = false)
    (hm_own : msk.own = false) (hm_cur : msk.cur = false) (hm_flash : msk.flash = false) (hm_svc : msk.svc = false)
    (hm_banks : msk.banks = false) (hm_quorum : msk.quorum = false) (r : LossReason) (hk : Keeps msk s0 s) : KeepsO
    msk s0 (execLossOfMainInput r s) := by
  unfold execLossOfMainInput
  repeat' (first | with_reducible assumption | with_reducible apply KeepsO.next
                 | (with_reducible apply KeepsO.ite) <;> intro _ | with_reducible apply State.standbyLost_keeps
                 | with_reducible apply State.mainLost_keeps)

theorem execStageFault_keeps (hm_ctl : msk.ctl = false) (hm_pwr : msk.pwr = false) (hm_clk : msk.clk = false)
    (hm_own : msk.own = false) (hm_cur : msk.cur = false) (hm_flash : msk.flash = false) (hm_svc : msk.svc = false)
    (hm_banks : msk.banks = false) (hm_quorum : msk.quorum = false) (hk : Keeps msk s0 s) : KeepsO msk s0
    (execStageFault s) := by
  unfold execStageFault
  repeat' (first | with_reducible assumption | with_reducible apply KeepsO.next
                 | (with_reducible apply KeepsO.ite) <;> intro _ | with_reducible apply State.mainLost_keeps)

theorem State.countShutdown_keeps (bits : List Nat) (hk : Keeps msk s0 s) : Keeps msk s0 (State.countShutdown s
    bits) := by
  unfold State.countShutdown
  repeat' (first | with_reducible assumption | with_reducible apply State.modTel_keeps)

theorem execInputOvercurrent_keeps (hm_ctl : msk.ctl = false) (hm_pwr : msk.pwr = false) (hm_clk : msk.clk =
    false) (hm_own : msk.own = false) (hm_cur : msk.cur = false) (hm_flash : msk.flash = false) (hm_svc : msk.svc =
    false) (hm_banks : msk.banks = false) (hm_quorum : msk.quorum = false) (hk : Keeps msk s0 s) : KeepsO msk s0
    (execInputOvercurrent s) := by
  unfold execInputOvercurrent
  repeat' (first | with_reducible assumption | with_reducible apply KeepsO.next
                 | (with_reducible apply KeepsO.ite) <;> intro _ | with_reducible apply State.countShutdown_keeps
                 | ((with_reducible apply State.modPwr_keeps) <;> try exact fun _ _ h => h)
                 | with_reducible apply State.mainLost_keeps)
  all_goals (intro p _ h; exact p.overcurrent_sound h)

theorem execShutdown_keeps (hm_ctl : msk.ctl = false) (hm_pwr : msk.pwr = false) (hm_clk : msk.clk = false)
    (hm_own : msk.own = false) (hm_cur : msk.cur = false) (hm_flash : msk.flash = false) (hm_svc : msk.svc = false)
    (hm_banks : msk.banks = false) (hm_quorum : msk.quorum = false) (c : ShutdownCause) (hk : Keeps msk s0 s) : KeepsO
    msk s0 (execShutdown c s) := by
  unfold execShutdown
  repeat' (first | with_reducible assumption | with_reducible apply KeepsO.next
                 | (with_reducible apply KeepsO.ite) <;> intro _ | with_reducible apply State.countShutdown_keeps
                 | ((with_reducible apply State.modPwr_keeps) <;> try exact fun _ _ h => h)
                 | with_reducible apply State.mainLost_keeps)

theorem execPerstDeasserted_keeps (hm_ctl : msk.ctl = false) (hk : Keeps msk s0 s) : KeepsO msk s0
    (execPerstDeasserted s) := by
  unfold execPerstDeasserted
  repeat' (first | with_reducible assumption | with_reducible apply KeepsO.next
                 | (simp only [Keeps.mark]; refine Updated.upd ?_))

theorem execHostInterfaceReady_keeps (hm_ctl : msk.ctl = false) (hk : Keeps msk s0 s) : KeepsO msk s0
    (execHostInterfaceReady s) := by
  unfold execHostInterfaceReady
  repeat' (first | with_reducible assumption | with_reducible apply KeepsO.next
                 | (with_reducible apply KeepsO.ite) <;> intro _ | (simp only [Keeps.mark]; refine Updated.upd ?_))

theorem State.enterRecovery_keeps (hm_ctl : msk.ctl = false) (hm_cur : msk.cur = false) (hk : Keeps msk s0 s) :
    Keeps msk s0 (State.enterRecovery s) := by
  unfold State.enterRecovery
  repeat' (first | with_reducible assumption | with_reducible apply State.setModState_keeps
                 | (simp only [Keeps.mark]; refine Updated.upd ?_))

theorem State.bootStaged_keeps (hm_cur : msk.cur = false) (hm_flash : msk.flash = false) (readOk : Bool) (hk :
    Keeps msk s0 s) : Keeps msk s0 (State.bootStaged s readOk).1 := by
  unfold State.bootStaged
  repeat' (first | with_reducible assumption | (with_reducible apply Keeps.iteFst) <;> intro _
                 | (simp only [Keeps.mark]; refine Updated.upd ?_))

theorem State.bootImage_keeps (hm_ctl : msk.ctl = false) (hm_cur : msk.cur = false) (hm_flash : msk.flash = false)
    (hm_fuse : msk.fuse = false) (pending readOk : Bool) (hk : Keeps msk s0 s) : Keeps msk s0 (State.bootImage s
    pending readOk) := by
  unfold State.bootImage
  repeat' (first | with_reducible assumption | (with_reducible apply Keeps.ite) <;> intro _
                 | with_reducible apply State.enterRecovery_keeps | with_reducible apply State.runImage_keeps
                 | with_reducible apply State.activated_keeps | (simp only [Keeps.mark]; refine Updated.upd ?_))

theorem execRecoveryListenExpiry_keeps (hm_ctl : msk.ctl = false) (hm_cur : msk.cur = false) (hm_flash : msk.flash
    = false) (hm_fuse : msk.fuse = false) (stagedRead imageRead : Bool) (hk : Keeps msk s0 s) : KeepsO msk s0
    (execRecoveryListenExpiry stagedRead imageRead s) := by
  unfold execRecoveryListenExpiry
  repeat' (first | with_reducible assumption | with_reducible apply KeepsO.next
                 | (with_reducible apply KeepsO.ite) <;> intro _ | with_reducible apply State.enterRecovery_keeps
                 | with_reducible apply State.bootImage_keeps | with_reducible apply State.bootStaged_keeps
                 | (simp only [Keeps.mark]; refine Updated.upd ?_))

theorem execEnterService_keeps (hm_ctl : msk.ctl = false) (hm_cur : msk.cur = false) (hk : Keeps msk s0 s) :
    KeepsO msk s0 (execEnterService s) := by
  unfold execEnterService
  repeat' (first | with_reducible assumption | with_reducible apply KeepsO.next
                 | (with_reducible apply KeepsO.ite) <;> intro _ | with_reducible apply State.setModState_keeps
                 | with_reducible apply State.driveAll_keeps | (simp only [Keeps.mark]; refine Updated.upd ?_))

/-- An update of the curator that keeps the hold of activation. -/
theorem State.modCur_keeps (hm_cur : msk.cur = false) (f : Curator → Curator) (hf : ∀ c, (f c).hold = c.hold)
    (hk : Keeps msk s0 s) : Keeps msk s0 (State.modCur s f) := by
  unfold State.modCur
  simp only [Keeps.mark]
  exact Updated.upd hk (h_em := fun h => by rw [hf]; exact h)

theorem State.restart_keeps (hm_cur : msk.cur = false) (cause core : Nat) (hk : Keeps msk s0 s) : Keeps msk s0
    (State.restart s cause core) := by
  unfold State.restart
  repeat' (first | with_reducible assumption | with_reducible apply State.modTel_keeps
                 | with_reducible apply State.endAllSessions_keeps
                 | ((with_reducible apply State.modCur_keeps) <;> try exact fun _ => rfl))

theorem State.faultRestart_keeps (hm_cur : msk.cur = false) (cause core : Nat) (hk : Keeps msk s0 s) : Keeps msk
    s0 (State.faultRestart s cause core) := by
  unfold State.faultRestart
  repeat' (first | with_reducible assumption | (with_reducible apply Keeps.ite) <;> intro _
                 | ((with_reducible apply State.modCur_keeps) <;> try exact fun _ => rfl)
                 | with_reducible apply State.restart_keeps)

theorem State.waitedRestart_keeps (hm_cur : msk.cur = false) (hk : Keeps msk s0 s) : Keeps msk s0
    (State.waitedRestart s) := by
  unfold State.waitedRestart
  repeat' (first | with_reducible assumption | with_reducible apply State.restart_keeps | split)

theorem execWatchdogExpiry_keeps (hm_cur : msk.cur = false) (core : Fin 4) (hk : Keeps msk s0 s) : KeepsO msk s0
    (execWatchdogExpiry core s) := by
  unfold execWatchdogExpiry
  repeat' (first | with_reducible assumption | with_reducible apply KeepsO.next
                 | with_reducible apply State.faultRestart_keeps)

theorem execCuratorMemoryError_keeps (hm_cur : msk.cur = false) (core : Fin 4) (cw : Nat) (hk : Keeps msk s0 s) :
    KeepsO msk s0 (execCuratorMemoryError core cw s) := by
  unfold execCuratorMemoryError
  repeat' (first | with_reducible assumption | with_reducible apply KeepsO.next
                 | (with_reducible apply KeepsO.ite) <;> intro _ | with_reducible apply State.faultRestart_keeps
                 | with_reducible apply State.vmUncorrectable_keeps)

theorem State.actNext_keeps (hm_cur : msk.cur = false) (hm_flash : msk.flash = false) (hm_fuse : msk.fuse = false)
    (hk : Keeps msk s0 s) : Keeps msk s0 (State.actNext s) := by
  unfold State.actNext
  repeat' (first | with_reducible assumption | (with_reducible apply Keeps.ite) <;> intro _
                 | ((with_reducible apply State.modCur_keeps) <;> try exact fun _ => rfl)
                 | with_reducible apply State.waitedRestart_keeps | with_reducible apply State.restart_keeps
                 | with_reducible apply State.activated_keeps | (simp only [Keeps.mark]; refine Updated.upd ?_))

theorem State.actStepTo_keeps (hm_cur : msk.cur = false) (hm_flash : msk.flash = false) (hm_fuse : msk.fuse =
    false) (n : Nat) (hk : Keeps msk s0 s) : Keeps msk s0 (State.actStepTo s n) := by
  unfold State.actStepTo
  repeat' (first | with_reducible assumption | ((with_reducible apply State.modCur_keeps) <;> try exact fun _ => rfl)
                 | with_reducible apply State.actNext_keeps)

theorem execFwActivate_keeps (hm_cur : msk.cur = false) (hm_flash : msk.flash = false) (hm_fuse : msk.fuse =
    false) (hk : Keeps msk s0 s) : KeepsO msk s0 (execFwActivate s) := by
  unfold execFwActivate
  repeat' (first | with_reducible assumption | with_reducible apply KeepsO.next | intro _
                 | with_reducible apply State.actStepTo_keeps | with_reducible apply State.fwEvent_keeps
                 | with_reducible apply State.complete_keeps | with_reducible apply State.runPf_keeps | split
                 | (simp only [Keeps.mark]; refine Updated.upd ?_))

theorem execActivationHoldExpiry_keeps (hm_cur : msk.cur = false) (hm_flash : msk.flash = false) (hm_fuse :
    msk.fuse = false) (hk : Keeps msk s0 s) : KeepsO msk s0 (execActivationHoldExpiry s) := by
  unfold execActivationHoldExpiry
  refine KeepsO.ite (fun _ => hk) fun h => KeepsO.next (State.actNext_keeps hm_cur hm_flash hm_fuse ?_)
  unfold State.modCur
  simp only [Keeps.mark]
  exact Updated.upd hk (h_em := fun w => ⟨w.1, w.2.1, fun x => by simp [x] at h⟩)

theorem State.actFailed_keeps (hm_cur : msk.cur = false) (hm_flash : msk.flash = false) (status : Nat) (hk : Keeps
    msk s0 s) : Keeps msk s0 (State.actFailed s status) := by
  unfold State.actFailed
  repeat' (first | with_reducible assumption | with_reducible apply State.fwEvent_keeps
                 | ((with_reducible apply State.modCur_keeps) <;> try exact fun _ => rfl)
                 | (simp only [Keeps.mark]; refine Updated.upd ?_))

theorem State.actOver_keeps (hm_cur : msk.cur = false) (hk : Keeps msk s0 s) : Keeps msk s0 (State.actOver s) := by
  unfold State.actOver
  repeat' (first | with_reducible assumption | ((with_reducible apply State.modCur_keeps) <;> try exact fun _ => rfl))

theorem execStagedVerifyDone_keeps (hm_cur : msk.cur = false) (hm_flash : msk.flash = false) (hm_fuse : msk.fuse =
    false) (readOk : Bool) (hk : Keeps msk s0 s) : KeepsO msk s0 (execStagedVerifyDone readOk s) := by
  unfold execStagedVerifyDone
  repeat' (first | with_reducible assumption | with_reducible apply KeepsO.next
                 | (with_reducible apply KeepsO.ite) <;> intro _ | with_reducible apply State.actOver_keeps
                 | with_reducible apply State.actStepTo_keeps | with_reducible apply State.waitedRestart_keeps
                 | with_reducible apply State.actFailed_keeps)

theorem State.overwritten_keeps (hm_flash : msk.flash = false) (hk : Keeps msk s0 s) : Keeps msk s0
    (State.overwritten s) := by
  unfold State.overwritten
  repeat' (first | with_reducible assumption | (simp only [Keeps.mark]; refine Updated.upd ?_))

theorem execOverwriteDone_keeps (hm_cur : msk.cur = false) (hm_flash : msk.flash = false) (hm_fuse : msk.fuse =
    false) (readOk : Bool) (hk : Keeps msk s0 s) : KeepsO msk s0 (execOverwriteDone readOk s) := by
  unfold execOverwriteDone
  repeat' (first | with_reducible assumption | (with_reducible apply Keeps.ite) <;> intro _
                 | with_reducible apply KeepsO.next | (with_reducible apply KeepsO.ite) <;> intro _ | intro _
                 | with_reducible apply State.actOver_keeps | with_reducible apply State.actStepTo_keeps
                 | with_reducible apply State.modCur_keeps | with_reducible apply State.overwritten_keeps
                 | with_reducible apply State.waitedRestart_keeps | with_reducible apply State.actFailed_keeps
                 | with_reducible apply State.restart_keeps | dsimp only
                 | (simp only [Keeps.mark]; refine Updated.upd ?_))

theorem State.askedSteps_keeps (hk : Keeps msk s0 s) : Keeps msk s0 (State.askedSteps s) := by
  unfold State.askedSteps
  repeat' (first | with_reducible assumption | with_reducible apply Keeps.foldl | intro _
                 | with_reducible apply State.askStep_keeps)

theorem execFwStage_keeps (hm_cur : msk.cur = false) (hk : Keeps msk s0 s) : KeepsO msk s0 (execFwStage s) := by
  unfold execFwStage
  repeat' (first | with_reducible assumption | (with_reducible apply Keeps.ite) <;> intro _
                 | with_reducible apply KeepsO.next | intro _
                 | ((with_reducible apply State.modCur_keeps) <;> try exact fun _ => rfl)
                 | with_reducible apply State.startTaken_keeps | with_reducible apply State.complete_keeps
                 | with_reducible apply State.runPf_keeps)

theorem State.readStaging_keeps (len : Nat) (hk : Keeps msk s0 s) : Keeps msk s0 (State.readStaging s len).1 := by
  unfold State.readStaging
  repeat' (first | with_reducible assumption | (with_reducible apply Keeps.iteFst) <;> intro _
                 | with_reducible apply State.vmRead_keeps)

theorem execFwStageVerified_keeps (hm_cur : msk.cur = false) (hm_flash : msk.flash = false) (readOk : Bool) (hk :
    Keeps msk s0 s) : KeepsO msk s0 (execFwStageVerified readOk s) := by
  unfold execFwStageVerified
  repeat' (first | with_reducible assumption | with_reducible apply KeepsO.next | intro _
                 | with_reducible apply State.readStaging_keeps | with_reducible apply State.modCur_keeps
                 | with_reducible apply State.complete_keeps | dsimp only | split
                 | (simp only [Keeps.mark]; refine Updated.upd ?_))

theorem execStageWriteDone_keeps (hm_cur : msk.cur = false) (hm_flash : msk.flash = false) (readOk : Bool) (hk :
    Keeps msk s0 s) : KeepsO msk s0 (execStageWriteDone readOk s) := by
  unfold execStageWriteDone
  repeat' (first | with_reducible assumption | with_reducible apply KeepsO.next
                 | (with_reducible apply KeepsO.ite) <;> intro _ | intro _
                 | with_reducible apply State.readStaging_keeps | with_reducible apply State.fwEvent_keeps
                 | with_reducible apply State.modCur_keeps | dsimp only
                 | (simp only [Keeps.mark]; refine Updated.upd ?_))

theorem State.modCat_keeps (hm_banks : msk.banks = false) (f : Cat → Cat) (hk : Keeps msk s0 s) : Keeps msk s0
    (State.modCat s f) := by
  unfold State.modCat
  repeat' (first | with_reducible assumption | (simp only [Keeps.mark]; refine Updated.upd ?_))

theorem State.rehangEnds_keeps (hm_banks : msk.banks = false) (t : Taken) (status value : Nat) (hk : Keeps msk s0
    s) : Keeps msk s0 (State.rehangEnds s t status value) := by
  unfold State.rehangEnds
  repeat' (first | with_reducible assumption | with_reducible apply State.modCat_keeps
                 | with_reducible apply State.complete_keeps)

theorem State.rehangRefused_keeps (hm_banks : msk.banks = false) (t : Taken) (status value : Nat) (hk : Keeps msk
    s0 s) : Keeps msk s0 (State.rehangRefused s t status value) := by
  unfold State.rehangRefused
  repeat' (first | with_reducible assumption | with_reducible apply State.modCat_keeps
                 | with_reducible apply State.complete_keeps)

theorem State.fill_keeps (hm_banks : msk.banks = false) (t : Taken) (both : Bool) (hk : Keeps msk s0 s) : Keeps
    msk s0 (State.fill s t both) := by
  unfold State.fill
  dsimp only
  repeat' (first | with_reducible assumption | with_reducible apply State.modCat_keeps
                 | with_reducible apply State.rehangRefused_keeps | with_reducible apply State.setBank_keeps
                 | with_reducible apply State.startTaken_keeps | with_reducible apply State.vmRead_keeps
                 | with_reducible refine Keeps.ofEq ‹_› ?_ | split)

theorem execFill_keeps (hm_banks : msk.banks = false) (hk : Keeps msk s0 s) : KeepsO msk s0 (execFill s) := by
  unfold execFill
  repeat' (first | with_reducible assumption | with_reducible apply KeepsO.next | intro _
                 | with_reducible apply State.runPf_keeps | with_reducible apply State.fill_keeps)

theorem execFillThenSwitch_keeps (hm_banks : msk.banks = false) (hk : Keeps msk s0 s) : KeepsO msk s0
    (execFillThenSwitch s) := by
  unfold execFillThenSwitch
  repeat' (first | with_reducible assumption | with_reducible apply KeepsO.next | intro _
                 | with_reducible apply State.runPf_keeps | with_reducible apply State.fill_keeps)

theorem State.switchPort_keeps (p : Nat) (hk : Keeps msk s0 s) : Keeps msk s0 (State.switchPort s p) := by
  unfold State.switchPort
  repeat' (first | with_reducible assumption | (with_reducible apply Keeps.ite) <;> intro _
                 | with_reducible apply State.startTraining_keeps)

theorem State.switchBanks_keeps (hm_banks : msk.banks = false) (hk : Keeps msk s0 s) : Keeps msk s0
    (State.switchBanks s) := by
  unfold State.switchBanks
  repeat' (first | with_reducible assumption | (with_reducible apply Keeps.ite) <;> intro _
                 | with_reducible apply Keeps.foldl | intro _ | with_reducible apply State.modCat_keeps
                 | with_reducible apply State.modLink_keeps | with_reducible apply State.switchPort_keeps
                 | (simp only [Keeps.mark]; refine Updated.same ?_))

theorem State.doSwitch_keeps (hm_banks : msk.banks = false) (t : Taken) (hk : Keeps msk s0 s) : Keeps msk s0
    (State.doSwitch s t) := by
  unfold State.doSwitch
  repeat' (first | with_reducible assumption | (with_reducible apply Keeps.ite) <;> intro _
                 | with_reducible apply State.curEvent_keeps | with_reducible apply State.rehangEnds_keeps
                 | with_reducible apply State.measChanged_keeps | with_reducible apply State.driveAll_keeps
                 | with_reducible apply State.switchBanks_keeps)

theorem State.switchFrom_keeps (hm_banks : msk.banks = false) (t : Taken) (tag : Nat) (hk : Keeps msk s0 s) :
    Keeps msk s0 (State.switchFrom s t tag) := by
  unfold State.switchFrom
  repeat' (first | with_reducible assumption | (with_reducible apply Keeps.ite) <;> intro _
                 | with_reducible apply State.modCat_keeps | with_reducible apply State.rehangEnds_keeps
                 | with_reducible apply State.doSwitch_keeps)

theorem execSwitch_keeps (hm_banks : msk.banks = false) (hk : Keeps msk s0 s) : KeepsO msk s0 (execSwitch s) := by
  unfold execSwitch
  repeat' (first | with_reducible assumption | (with_reducible apply Keeps.ite) <;> intro _
                 | with_reducible apply KeepsO.next | intro _ | with_reducible apply State.rehangRefused_keeps
                 | with_reducible apply State.startTaken_keeps | with_reducible apply State.runPf_keeps
                 | with_reducible apply State.switchFrom_keeps)

theorem execShadowFilled_keeps (hm_banks : msk.banks = false) (hk : Keeps msk s0 s) : KeepsO msk s0
    (execShadowFilled s) := by
  unfold execShadowFilled
  repeat' (first | with_reducible assumption | with_reducible apply KeepsO.next
                 | with_reducible apply State.modCat_keeps | with_reducible apply State.rehangEnds_keeps
                 | with_reducible apply State.setBank_keeps | with_reducible apply State.vmRead_keeps
                 | with_reducible apply State.switchFrom_keeps | with_reducible refine Keeps.ofEq ‹_› ?_ | split)

theorem execSwitchQuiesceTimeout_keeps (hm_banks : msk.banks = false) (hk : Keeps msk s0 s) : KeepsO msk s0
    (execSwitchQuiesceTimeout s) := by
  unfold execSwitchQuiesceTimeout
  repeat' (first | with_reducible assumption | with_reducible apply KeepsO.next
                 | with_reducible apply State.rehangEnds_keeps | with_reducible apply State.driveAll_keeps | split)

theorem execEpochDrained_keeps (hm_banks : msk.banks = false) (hk : Keeps msk s0 s) : KeepsO msk s0
    (execEpochDrained s) := by
  unfold execEpochDrained
  dsimp only
  repeat' (first | with_reducible assumption | with_reducible apply KeepsO.next
                 | with_reducible apply State.modCat_keeps | with_reducible apply State.curEvent_keeps
                 | with_reducible apply State.doSwitch_keeps | split)

theorem State.modSwc_keeps (f : Swc → Swc) (hk : Keeps msk s0 s) : Keeps msk s0 (State.modSwc s f) := by
  unfold State.modSwc
  repeat' (first | (simp only [Keeps.mark]; exact Updated.same ‹_›))

theorem State.rcCtl_keeps (v : Word) (hk : Keeps msk s0 s) : Keeps msk s0 (State.rcCtl s v) := by
  unfold State.rcCtl
  repeat' (first | with_reducible assumption | with_reducible apply State.draw_keeps
                 | with_reducible apply State.modSwc_keeps)

theorem execSwcRcCtlWrite_keeps (v : Word) (hk : Keeps msk s0 s) : KeepsO msk s0 (execSwcRcCtlWrite v s) := by
  unfold execSwcRcCtlWrite
  repeat' (first | with_reducible assumption | with_reducible apply KeepsO.next
                 | (with_reducible apply KeepsO.ite) <;> intro _ | with_reducible apply State.rcCtl_keeps)

theorem State.portSpec_keeps (p : Nat) (v : Word) (hk : Keeps msk s0 s) : Keeps msk s0 (State.portSpec s p v) := by
  unfold State.portSpec
  repeat' (first | with_reducible assumption | (with_reducible apply Keeps.ite) <;> intro _
                 | with_reducible apply State.modSwc_keeps | with_reducible apply State.modSwcPort_keeps)

theorem execPortSpecWrite_keeps (p : Port) (v : Word) (hk : Keeps msk s0 s) : KeepsO msk s0 (execPortSpecWrite p v
    s) := by
  unfold execPortSpecWrite
  repeat' (first | with_reducible assumption | with_reducible apply KeepsO.next
                 | (with_reducible apply KeepsO.ite) <;> intro _ | with_reducible apply State.portSpec_keeps)

theorem execSwcVcModeWrite_keeps (v : Word) (hk : Keeps msk s0 s) : KeepsO msk s0 (execSwcVcModeWrite v s) := by
  unfold execSwcVcModeWrite
  repeat' (first | with_reducible assumption | with_reducible apply KeepsO.next
                 | (with_reducible apply KeepsO.ite) <;> intro _ | with_reducible apply State.modSwc_keeps)

theorem State.portCtl_keeps (p : Nat) (v : Word) (lo : Bool) (hk : Keeps msk s0 s) : Keeps msk s0 (State.portCtl s
    p v lo) := by
  unfold State.portCtl
  repeat' (first | with_reducible assumption | with_reducible apply State.modLink_keeps
                 | with_reducible apply State.doLaneMask_keeps | with_reducible apply State.doRestore_keeps
                 | with_reducible apply State.doRetrain_keeps | split)

theorem State.pcacheQuota_keeps (p g : Nat) (v : Word) (hk : Keeps msk s0 s) : Keeps msk s0 (State.pcacheQuota s p
    g v) := by
  unfold State.pcacheQuota
  repeat' (first | with_reducible assumption | (with_reducible apply Keeps.ite) <;> intro _
                 | with_reducible apply State.modDocent_keeps)

theorem State.portPut_keeps (p o : Nat) (w : Nat → Word) (lo hi : Bool) (hk : Keeps msk s0 s) : Keeps msk s0
    (State.portPut s p o w lo hi) := by
  unfold State.portPut
  repeat' (first | with_reducible assumption | (with_reducible apply Keeps.ite) <;> intro _
                 | with_reducible apply State.modDocent_keeps | with_reducible apply State.modLane_keeps
                 | with_reducible apply State.modLink_keeps | with_reducible apply State.pcacheQuota_keeps
                 | with_reducible apply State.portSpec_keeps | with_reducible apply State.portCtl_keeps)

theorem State.ringPutReg_keeps (f nr nc off : Nat) (w : Nat → Word) (lo hi : Bool) (hk : Keeps msk s0 s) : Keeps
    msk s0 (State.ringPutReg s f nr nc off w lo hi) := by
  unfold State.ringPutReg
  repeat' (first | with_reducible assumption | with_reducible apply State.modFn_keeps
                 | with_reducible apply State.doorbell_keeps | with_reducible apply State.consumer_keeps
                 | with_reducible apply State.ringCfg_keeps | split)

theorem State.lossPut_keeps (f off : Nat) (v : Word) (lo hi : Bool) (hk : Keeps msk s0 s) : Keeps msk s0
    (State.lossPut s f off v lo hi) := by
  unfold State.lossPut
  repeat' (first | with_reducible assumption | (with_reducible apply Keeps.ite) <;> intro _
                 | with_reducible apply State.modFn_keeps)

theorem State.msixPut_keeps (f off : Nat) (v : Word) (hk : Keeps msk s0 s) : Keeps msk s0 (State.msixPut s f off
    v) := by
  unfold State.msixPut
  repeat' (first | with_reducible assumption | (with_reducible apply Keeps.ite) <;> intro _
                 | with_reducible apply State.modFn_keeps | with_reducible apply State.msixDue_keeps)

theorem State.lowPut_keeps (hm_ctl : msk.ctl = false) (hm_pwr : msk.pwr = false) (hm_clk : msk.clk = false)
    (hm_own : msk.own = false) (hm_cur : msk.cur = false) (off : Nat) (w : Nat → Word) (lo hi : Bool) (hk : Keeps msk
    s0 s) : Keeps msk s0 (State.lowPut s off w lo hi) := by
  unfold State.lowPut
  repeat' (first | with_reducible assumption | (with_reducible apply Keeps.ite) <;> intro _
                 | with_reducible apply State.ownCtl_keeps | with_reducible apply State.clkEn_keeps
                 | with_reducible apply State.lossPut_keeps | with_reducible apply State.msixPut_keeps
                 | with_reducible apply State.ringPutReg_keeps | with_reducible apply State.clkEnPort_keeps
                 | with_reducible apply State.clkCtl_keeps | (simp only [Keeps.mark]; refine Updated.upd ?_))

theorem State.rwl_keeps (g : Nat) (f : Gallery → Gallery) (hk : Keeps msk s0 s) : Keeps msk s0 (State.rwl s g f) := by
  unfold State.rwl
  repeat' (first | with_reducible assumption | (with_reducible apply Keeps.ite) <;> intro _
                 | with_reducible apply State.modGal_keeps)

theorem State.corePut_keeps (off : Nat) (w : Nat → Word) (hk : Keeps msk s0 s) : Keeps msk s0 (State.corePut s off
    w) := by
  unfold State.corePut
  repeat' (first | with_reducible assumption | (with_reducible apply Keeps.ite) <;> intro _
                 | with_reducible apply State.draw_keeps | with_reducible apply State.modSwc_keeps
                 | with_reducible apply State.rwl_keeps | with_reducible apply State.rcCtl_keeps
                 | (simp only [Keeps.mark]; exact Updated.same ‹_›))

theorem State.unitPut_keeps (off : Nat) (w : Nat → Word) (hk : Keeps msk s0 s) : Keeps msk s0 (State.unitPut s off
    w) := by
  unfold State.unitPut
  repeat' (first | with_reducible assumption | (with_reducible apply Keeps.ite) <;> intro _
                 | with_reducible apply State.rwl_keeps | with_reducible apply State.soWrite_keeps)

theorem State.vaultPut_keeps (off : Nat) (w : Nat → Word) (lo : Bool) (hk : Keeps msk s0 s) : Keeps msk s0
    (State.vaultPut s off w lo) := by
  unfold State.vaultPut
  repeat' (first | with_reducible assumption | (with_reducible apply Keeps.ite) <;> intro _
                 | with_reducible apply State.extWrite_keeps | (simp only [Keeps.mark]; exact Updated.same ‹_›))

theorem State.pfPut_keeps (hm_ctl : msk.ctl = false) (hm_pwr : msk.pwr = false) (hm_clk : msk.clk = false) (hm_own
    : msk.own = false) (hm_cur : msk.cur = false) (off : Nat) (w : Nat → Word) (lo hi : Bool) (hk : Keeps msk s0 s) :
    Keeps msk s0 (State.pfPut s off w lo hi) := by
  unfold State.pfPut
  repeat' (first | with_reducible assumption | (with_reducible apply Keeps.ite) <;> intro _
                 | with_reducible apply State.corePut_keeps | with_reducible apply State.unitPut_keeps
                 | with_reducible apply State.vaultPut_keeps | with_reducible apply State.lowPut_keeps
                 | with_reducible apply State.portPut_keeps)

theorem State.vfPut_keeps (f off : Nat) (w : Nat → Word) (lo hi : Bool) (hk : Keeps msk s0 s) : Keeps msk s0
    (State.vfPut s f off w lo hi) := by
  unfold State.vfPut
  repeat' (first | with_reducible assumption | (with_reducible apply Keeps.ite) <;> intro _
                 | with_reducible apply State.modFn_keeps | with_reducible apply State.lossPut_keeps
                 | with_reducible apply State.msixPut_keeps | with_reducible apply State.ringPutReg_keeps
                 | with_reducible apply State.portal_keeps)

theorem State.regWrite_keeps (hm_ctl : msk.ctl = false) (hm_pwr : msk.pwr = false) (hm_clk : msk.clk = false)
    (hm_own : msk.own = false) (hm_cur : msk.cur = false) (f off size : Nat) (v : Word) (hk : Keeps msk s0 s) : Keeps
    msk s0 (State.regWrite s f off size v) := by
  unfold State.regWrite
  repeat' (first | with_reducible assumption | (with_reducible apply Keeps.ite) <;> intro _
                 | with_reducible apply State.pfPut_keeps | with_reducible apply State.vfPut_keeps)

theorem execRegisterWrite_keeps (hm_ctl : msk.ctl = false) (hm_pwr : msk.pwr = false) (hm_clk : msk.clk = false)
    (hm_own : msk.own = false) (hm_cur : msk.cur = false) (f : FnNo) (off size : Nat) (v : Word) (hk : Keeps msk s0 s)
    : KeepsO msk s0 (execRegisterWrite f off size v s) := by
  unfold execRegisterWrite
  repeat' (first | with_reducible assumption | with_reducible apply KeepsO.next
                 | (with_reducible apply KeepsO.ite) <;> intro _ | with_reducible apply State.driveAll_keeps
                 | with_reducible apply State.regWrite_keeps)

theorem State.modSvc_keeps (hm_svc : msk.svc = false) (f : SvcPort → SvcPort) (hk : Keeps msk s0 s) : Keeps msk s0
    (State.modSvc s f) := by
  unfold State.modSvc
  repeat' (first | with_reducible assumption | (simp only [Keeps.mark]; refine Updated.upd ?_))

theorem State.svcOut_keeps (what : String) (bs : Bytes) (hk : Keeps msk s0 s) : Keeps msk s0 (State.svcOut s what
    bs) := by
  unfold State.svcOut
  repeat' (first | with_reducible assumption | with_reducible apply State.out_keeps)

theorem State.i3cOut_keeps (what : String) (bs : Bytes) (hk : Keeps msk s0 s) : Keeps msk s0 (State.i3cOut s what
    bs) := by
  unfold State.i3cOut
  repeat' (first | with_reducible assumption | with_reducible apply State.out_keeps)

theorem execServicePortLinkUp_keeps (hm_svc : msk.svc = false) (hk : Keeps msk s0 s) : KeepsO msk s0
    (execServicePortLinkUp s) := by
  unfold execServicePortLinkUp
  repeat' (first | with_reducible assumption | with_reducible apply KeepsO.next
                 | (with_reducible apply KeepsO.ite) <;> intro _ | with_reducible apply State.modSvc_keeps)

theorem execDhcp_keeps (hm_svc : msk.svc = false) (addr : BitVec 32) (hk : Keeps msk s0 s) : KeepsO msk s0
    (execDhcp addr s) := by
  unfold execDhcp
  repeat' (first | with_reducible assumption | with_reducible apply KeepsO.next
                 | (with_reducible apply KeepsO.ite) <;> intro _ | with_reducible apply State.modSvc_keeps)

theorem execDhcpLeaseTimeout_keeps (hm_svc : msk.svc = false) (hk : Keeps msk s0 s) : KeepsO msk s0
    (execDhcpLeaseTimeout s) := by
  unfold execDhcpLeaseTimeout
  repeat' (first | with_reducible assumption | with_reducible apply KeepsO.next
                 | (with_reducible apply KeepsO.ite) <;> intro _ | with_reducible apply State.modSvc_keeps)

theorem execArp_keeps (addr : BitVec 32) (hk : Keeps msk s0 s) : KeepsO msk s0 (execArp addr s) := by
  unfold execArp
  repeat' (first | with_reducible assumption | with_reducible apply KeepsO.next
                 | (with_reducible apply KeepsO.ite) <;> intro _ | with_reducible apply State.svcOut_keeps)

theorem execIcmpEcho_keeps (addr : BitVec 32) (payload : Bytes) (hk : Keeps msk s0 s) : KeepsO msk s0
    (execIcmpEcho addr payload s) := by
  unfold execIcmpEcho
  repeat' (first | with_reducible assumption | with_reducible apply KeepsO.next
                 | (with_reducible apply KeepsO.ite) <;> intro _ | with_reducible apply State.svcOut_keeps)

theorem State.tftpBusy_keeps (hk : Keeps msk s0 s) : Keeps msk s0 (State.tftpBusy s).1 := by
  unfold State.tftpBusy
  repeat' (first | with_reducible assumption | (with_reducible apply Keeps.iteFst) <;> intro _
                 | with_reducible apply State.draw_keeps)

theorem State.tftpRequest_keeps (f : State → State) (k_f : ∀ (y : State) , Keeps msk s0 y → Keeps msk s0 (f y ))
    (hk : Keeps msk s0 s) : Keeps msk s0 (State.tftpRequest s f) := by
  unfold State.tftpRequest
  repeat' (first | with_reducible assumption | with_reducible apply State.svcOut_keeps
                 | with_reducible apply State.tftpBusy_keeps | (with_reducible apply k_f)
                 | with_reducible refine Keeps.ofEq ‹_› ?_ | split)

theorem State.tftpRead_keeps (hm_svc : msk.svc = false) (bs : Bytes) (hk : Keeps msk s0 s) : Keeps msk s0
    (State.tftpRead s bs) := by
  unfold State.tftpRead
  repeat' (first | with_reducible assumption | intro _ | with_reducible apply State.svcOut_keeps
                 | with_reducible apply State.modSvc_keeps | with_reducible apply State.tftpRequest_keeps)

theorem execTftpRetransmit_keeps (hm_svc : msk.svc = false) (hk : Keeps msk s0 s) : KeepsO msk s0
    (execTftpRetransmit s) := by
  unfold execTftpRetransmit
  repeat' (first | with_reducible assumption | with_reducible apply KeepsO.next
                 | (with_reducible apply KeepsO.ite) <;> intro _ | with_reducible apply State.svcOut_keeps
                 | with_reducible apply State.modSvc_keeps)

theorem execTftpReadLifehist_keeps (hm_svc : msk.svc = false) (hk : Keeps msk s0 s) : KeepsO msk s0
    (execTftpReadLifehist s) := by
  unfold execTftpReadLifehist
  repeat' (first | with_reducible assumption | with_reducible apply KeepsO.next
                 | (with_reducible apply KeepsO.ite) <;> intro _ | with_reducible apply State.tftpRead_keeps)

theorem execTftpWriteRequest_keeps (hk : Keeps msk s0 s) : KeepsO msk s0 (execTftpWriteRequest s) := by
  unfold execTftpWriteRequest
  repeat' (first | with_reducible assumption | with_reducible apply KeepsO.next
                 | (with_reducible apply KeepsO.ite) <;> intro _ | intro _ | with_reducible apply State.svcOut_keeps
                 | with_reducible apply State.tftpRequest_keeps)

theorem execTftpReadStatus_keeps (hm_svc : msk.svc = false) (hk : Keeps msk s0 s) : KeepsO msk s0
    (execTftpReadStatus s) := by
  unfold execTftpReadStatus
  repeat' (first | with_reducible assumption | with_reducible apply KeepsO.next
                 | (with_reducible apply KeepsO.ite) <;> intro _ | with_reducible apply State.tftpRead_keeps)

theorem execRecoveryRequest_keeps (hm_ctl : msk.ctl = false) (hm_cur : msk.cur = false) (serial : BitVec 128) (hk
    : Keeps msk s0 s) : KeepsO msk s0 (execRecoveryRequest serial s) := by
  unfold execRecoveryRequest
  repeat' (first | with_reducible assumption | with_reducible apply KeepsO.next
                 | (with_reducible apply KeepsO.ite) <;> intro _ | with_reducible apply State.enterRecovery_keeps)

theorem State.recoverySet_keeps (hm_cur : msk.cur = false) (st : Nat) (hk : Keeps msk s0 s) : Keeps msk s0
    (State.recoverySet s st) := by
  unfold State.recoverySet
  repeat' (first | with_reducible assumption | (simp only [Keeps.mark]; refine Updated.upd ?_))

theorem State.recoverWrite_keeps (hm_ctl : msk.ctl = false) (hm_pwr : msk.pwr = false) (hm_clk : msk.clk = false)
    (hm_own : msk.own = false) (hm_cur : msk.cur = false) (hm_flash : msk.flash = false) (hm_svc : msk.svc = false)
    (hm_banks : msk.banks = false) (hm_quorum : msk.quorum = false) (image : Bytes) (writeOk : Bool) (hk : Keeps msk
    s0 s) : Keeps msk s0 (State.recoverWrite s image writeOk) := by
  unfold State.recoverWrite
  repeat' (first | with_reducible assumption | (with_reducible apply Keeps.ite) <;> intro _
                 | with_reducible apply State.svcOut_keeps | with_reducible apply State.moduleReset_keeps
                 | with_reducible apply State.recoverySet_keeps | (simp only [Keeps.mark]; refine Updated.upd ?_))

theorem execTftpWriteImage_keeps (hm_ctl : msk.ctl = false) (hm_pwr : msk.pwr = false) (hm_clk : msk.clk = false)
    (hm_own : msk.own = false) (hm_cur : msk.cur = false) (hm_flash : msk.flash = false) (hm_svc : msk.svc = false)
    (hm_banks : msk.banks = false) (hm_quorum : msk.quorum = false) (image : Bytes) (writeOk : Bool) (hk : Keeps msk
    s0 s) : KeepsO msk s0 (execTftpWriteImage image writeOk s) := by
  unfold execTftpWriteImage
  repeat' (first | with_reducible assumption | (with_reducible apply Keeps.ite) <;> intro _
                 | with_reducible apply KeepsO.next | (with_reducible apply KeepsO.ite) <;> intro _ | intro _
                 | with_reducible apply State.svcOut_keeps | with_reducible apply State.modSvc_keeps
                 | with_reducible apply State.recoverySet_keeps | with_reducible apply State.tftpRequest_keeps
                 | with_reducible apply State.vmWrite_keeps | with_reducible apply State.recoverWrite_keeps)

theorem execMctpControl_keeps (cmd : Byte) (body : Bytes) (hk : Keeps msk s0 s) : KeepsO msk s0 (execMctpControl
    cmd body s) := by
  unfold execMctpControl
  repeat' (first | with_reducible assumption | with_reducible apply KeepsO.next
                 | (with_reducible apply KeepsO.ite) <;> intro _ | with_reducible apply State.i3cOut_keeps)

theorem State.pldmServe_keeps (hm_pwr : msk.pwr = false) (r : Pldm) (hr : r ≠ .moduleReset) (hr' : r ≠ .mainEnable)
    (hk : Keeps msk s0 s) : Keeps msk s0 (State.pldmServe s r) := by
  cases r with
  | moduleReset => exact absurd rfl hr
  | mainEnable => exact absurd rfl hr'
  | _ =>
    dsimp only [State.pldmServe]
    repeat' (first | with_reducible assumption | (with_reducible apply Keeps.ite) <;> intro _
                   | with_reducible apply State.i3cOut_keeps
                   | ((with_reducible apply State.modPwr_keeps) <;> try exact fun _ _ h => h) | split)
    try intro p _ h; refine Power.Calm.sound ?_ h; apply Power.setCaps_calm

theorem State.mainEnable_keeps (hm_ctl : msk.ctl = false) (hm_pwr : msk.pwr = false) (hm_clk : msk.clk = false)
    (hm_own : msk.own = false) (hm_cur : msk.cur = false) (hm_svc : msk.svc = false) (hm_banks : msk.banks = false)
    (hm_quorum : msk.quorum = false) (hk : Keeps msk s0 s) :
    Keeps msk s0 (State.pldmServe s .mainEnable) := by
  dsimp only [State.pldmServe]
  refine State.mainUp_keeps hm_ctl hm_pwr hm_clk hm_own hm_cur hm_svc hm_banks hm_quorum
    (State.i3cOut_keeps _ _ (State.modPwr_keeps hm_pwr _ ?_ hk))
  intro p _ h
  refine Power.Calm.sound ?_ h
  apply Power.enable_calm

theorem State.pldm_keeps (hm_cur : msk.cur = false) (r : Pldm) (hr : ∀ t, Keeps msk s0 t → Keeps msk s0
    (State.pldmServe t r)) (hk : Keeps msk s0 s) : Keeps msk s0 (State.pldm s r) := by
  unfold State.pldm
  repeat' (first | with_reducible assumption | (with_reducible apply Keeps.ite) <;> intro _
                 | (with_reducible apply hr) | ((with_reducible apply State.modCur_keeps) <;> try exact fun _ => rfl))

theorem State.pldmTaken_keeps (hm_ctl : msk.ctl = false) (hm_pwr : msk.pwr = false) (hm_clk : msk.clk = false)
    (hm_own : msk.own = false) (hm_cur : msk.cur = false) (hm_flash : msk.flash = false) (hm_svc : msk.svc = false)
    (hm_banks : msk.banks = false) (hm_quorum : msk.quorum = false) (hk : Keeps msk s0 s) :
    Keeps msk s0 (State.pldmTaken s) := by
  unfold State.pldmTaken
  refine Keeps.foldl (fun s r h => ?_) (State.modCur_keeps hm_cur _ (fun _ => rfl) hk)
  by_cases hr : r = .moduleReset
  · subst hr
    dsimp only [State.pldmServe]
    exact Keeps.ite (fun _ => State.moduleReset_keeps hm_ctl hm_pwr hm_clk hm_own hm_cur hm_flash hm_svc hm_banks
      hm_quorum h) (fun _ => h)
  · by_cases hr' : r = .mainEnable
    · subst hr'
      exact State.mainEnable_keeps hm_ctl hm_pwr hm_clk hm_own hm_cur hm_svc hm_banks hm_quorum h
    · exact State.pldmServe_keeps hm_pwr r hr hr' h

theorem execPldmSensor_keeps (hm_cur : msk.cur = false) (n : Nat) (hk : Keeps msk s0 s) : KeepsO msk s0
    (execPldmSensor n s) := by
  refine KeepsO.next (State.pldm_keeps hm_cur _ (fun t h => ?_) hk)
  dsimp only [State.pldmServe]
  repeat' (first | with_reducible assumption | with_reducible apply State.i3cOut_keeps | split)

theorem execPldmFru_keeps (hm_cur : msk.cur = false) (hk : Keeps msk s0 s) : KeepsO msk s0 (execPldmFru s) :=
  KeepsO.next (State.pldm_keeps hm_cur _ (fun _ h => State.i3cOut_keeps _ _ h) hk)

theorem execBmcPowerCap_keeps (hm_pwr : msk.pwr = false) (hm_cur : msk.cur = false) (watts : Nat)
    (hk : Keeps msk s0 s) : KeepsO msk s0 (execBmcPowerCap watts s) :=
  KeepsO.next (State.pldm_keeps hm_cur _ (fun _ h => State.pldmServe_keeps hm_pwr _ (fun w => nomatch w)
    (fun w => nomatch w) h) hk)

theorem execMainEnable_keeps (hm_ctl : msk.ctl = false) (hm_pwr : msk.pwr = false) (hm_clk : msk.clk = false)
    (hm_own : msk.own = false) (hm_cur : msk.cur = false) (hm_svc : msk.svc = false) (hm_banks : msk.banks = false)
    (hm_quorum : msk.quorum = false) (hk : Keeps msk s0 s) : KeepsO msk s0 (execMainEnable s) :=
  KeepsO.next (State.pldm_keeps hm_cur _ (fun _ h => State.mainEnable_keeps hm_ctl hm_pwr hm_clk hm_own hm_cur hm_svc
    hm_banks hm_quorum h) hk)

theorem execModuleReset_keeps (hm_ctl : msk.ctl = false) (hm_pwr : msk.pwr = false) (hm_clk : msk.clk = false)
    (hm_own : msk.own = false) (hm_cur : msk.cur = false) (hm_flash : msk.flash = false) (hm_svc : msk.svc = false)
    (hm_banks : msk.banks = false) (hm_quorum : msk.quorum = false) (hk : Keeps msk s0 s) :
    KeepsO msk s0 (execModuleReset s) :=
  KeepsO.next (State.pldm_keeps hm_cur _ (fun _ h => Keeps.ite (fun _ => State.moduleReset_keeps hm_ctl hm_pwr hm_clk
    hm_own hm_cur hm_flash hm_svc hm_banks hm_quorum h) (fun _ => h)) hk)

theorem execCuratorRestartDone_keeps (hm_ctl : msk.ctl = false) (hm_pwr : msk.pwr = false) (hm_clk : msk.clk =
    false) (hm_own : msk.own = false) (hm_cur : msk.cur = false) (hm_flash : msk.flash = false) (hm_svc : msk.svc =
    false) (hm_banks : msk.banks = false) (hm_quorum : msk.quorum = false) (hm_fuse : msk.fuse = false) (readOk :
    Bool) (hk : Keeps msk s0 s) : KeepsO msk s0 (execCuratorRestartDone readOk s) := by
  unfold execCuratorRestartDone
  repeat' (first | with_reducible assumption | (with_reducible apply Keeps.ite) <;> intro _
                 | with_reducible apply KeepsO.next | (with_reducible apply KeepsO.ite) <;> intro _ | intro _
                 | with_reducible apply State.actStepTo_keeps | with_reducible apply State.pldmTaken_keeps
                 | with_reducible apply State.fwEvent_keeps | with_reducible apply State.modCur_keeps
                 | with_reducible apply State.takeEvery_keeps | with_reducible apply State.askedSteps_keeps
                 | with_reducible apply State.runImage_keeps | with_reducible apply State.measChanged_keeps
                 | with_reducible apply State.driveAll_keeps | with_reducible apply State.writeRecord_keeps
                 | with_reducible apply State.actNext_keeps | dsimp only)

theorem execStatus_keeps (hk : Keeps msk s0 s) : KeepsO msk s0 (execStatus s) := by
  unfold execStatus
  repeat' (first | with_reducible assumption | with_reducible apply KeepsO.next
                 | (with_reducible apply KeepsO.ite) <;> intro _ | with_reducible apply State.i3cOut_keeps)

theorem execReservedVendorCommand_keeps (cmd : Byte) (x_1 : Bytes) (hk : Keeps msk s0 s) : KeepsO msk s0
    (execReservedVendorCommand cmd x_1 s) := by
  unfold execReservedVendorCommand
  repeat' (first | with_reducible assumption | with_reducible apply KeepsO.next
                 | (with_reducible apply KeepsO.ite) <;> intro _ | with_reducible apply State.i3cOut_keeps)

end Sys2Proof.Machine
end

