-- ==== Sys2Proof/Laws/KeepsExec.lean ====
section
/-! SUPPORT. What every command keeps: `spares` names the parts that a command never touches, and `exec_keeps`
says so of `exec`, with what `Keeps` says of every command. -/

set_option maxRecDepth 4000
set_option Elab.async false

namespace Sys2Proof.Machine

/-- Every part. -/
def Part.all : Part :=
  { ctl := true, pwr := true, clk := true, own := true, cur := true, flash := true, svc := true, banks := true
    quorum := true, fuse := true }

/-- The parts that a command never touches. -/
def spares : Instr → Part
  | .auxPowerGood | .auxPowerLost | .mainPowerGood | .emergencyClear _ | .mainEnable | .leakClearExpiry =>
    { Part.all with ctl := false, pwr := false, clk := false, own := false, cur := false, svc := false,
                    banks := false, quorum := false }
  | .presentAsserted | .powerAverageUpdate _ | .aux3v3Retry _ | .sensorFail _ | .powerCap | .powerCapTimeout |
    .aux3v3Short | .senseOpen | .fastThrottleAssert | .fastThrottleHoldExpiry =>
    { Part.all with pwr := false }
  | .presentDeasserted | .lossOfMainInput _ | .moduleReset | .tftpWriteImage _ _ | .shutdown _ | .inputOvercurrent |
    .stageFault =>
    { Part.all with ctl := false, pwr := false, clk := false, own := false, cur := false, flash := false,
                    svc := false, banks := false, quorum := false }
  | .recoveryListenExpiry _ _ =>
    { Part.all with ctl := false, cur := false, flash := false, fuse := false }
  | .enterService | .recoveryRequest _ =>
    { Part.all with ctl := false, cur := false }
  | .conventionalReset | .flrPf | .stateSet | .enterOperational | .drainExit | .perstDeasserted |
    .hostInterfaceReady =>
    { Part.all with ctl := false }
  | .quorumSet =>
    { Part.all with quorum := false }
  | .expelPort _ | .expelPeer _ | .isolate _ | .liftPort _ | .liftAll _ | .drain _ | .replaceSet _ |
    .reservedQuorumAction _ =>
    { Part.all with ctl := false, quorum := false }
  | .clkCtlWrite _ | .clkEnWrite _ _ | .referenceFallback _ | .referenceRevert =>
    { Part.all with clk := false }
  | .ownCtlWrite _ =>
    { Part.all with pwr := false, own := false }
  | .registerWrite _ _ _ _ =>
    { Part.all with ctl := false, pwr := false, clk := false, own := false, cur := false }
  | .watchdogExpiry _ | .curatorMemoryError _ _ | .pldmSensor _ | .fwStage | .pldmFru =>
    { Part.all with cur := false }
  | .curatorRestartDone _ =>
    { Part.all with ctl := false, pwr := false, clk := false, own := false, cur := false, flash := false,
                    svc := false, banks := false, quorum := false, fuse := false }
  | .stageWriteDone _ | .lifeHistoryHourly _ | .fwStageVerified _ =>
    { Part.all with cur := false, flash := false }
  | .stagedVerifyDone _ | .overwriteDone _ | .fwActivate | .activationHoldExpiry =>
    { Part.all with cur := false, flash := false, fuse := false }
  | .dhcp _ | .tftpReadStatus | .tftpReadLifehist | .tftpRetransmit | .dhcpLeaseTimeout | .servicePortLinkUp =>
    { Part.all with svc := false }
  | .bmcPowerCap _ | .emergencyBegin _ | .leakAssert =>
    { Part.all with pwr := false, cur := false }
  | .fill | .switch | .fillThenSwitch | .switchQuiesceTimeout | .epochDrained | .shadowFilled =>
    { Part.all with banks := false }
  | _ => Part.all

/-- Every command keeps what it spares. -/
theorem exec_keeps (c : Instr) (s : State) : KeepsO (spares c) s (exec c s) := by
  cases c with
  | auxPowerGood =>
    show KeepsO _ s (execAuxPowerGood s)
    apply execAuxPowerGood_keeps
    all_goals first | rfl | exact Keeps.refl _ _
  | auxPowerLost =>
    show KeepsO _ s (execAuxPowerLost s)
    apply execAuxPowerLost_keeps
    all_goals first | rfl | exact Keeps.refl _ _
  | presentAsserted =>
    show KeepsO _ s (execPresentAsserted s)
    apply execPresentAsserted_keeps
    all_goals first | rfl | exact Keeps.refl _ _
  | presentDeasserted =>
    show KeepsO _ s (execPresentDeasserted s)
    apply execPresentDeasserted_keeps
    all_goals first | rfl | exact Keeps.refl _ _
  | mainPowerGood =>
    show KeepsO _ s (execMainPowerGood s)
    apply execMainPowerGood_keeps
    all_goals first | rfl | exact Keeps.refl _ _
  | recoveryListenExpiry stagedRead imageRead =>
    show KeepsO _ s (execRecoveryListenExpiry stagedRead imageRead s)
    apply execRecoveryListenExpiry_keeps
    all_goals first | rfl | exact Keeps.refl _ _
  | enterService =>
    show KeepsO _ s (execEnterService s)
    apply execEnterService_keeps
    all_goals first | rfl | exact Keeps.refl _ _
  | lossOfMainInput reason =>
    show KeepsO _ s (execLossOfMainInput reason s)
    apply execLossOfMainInput_keeps
    all_goals first | rfl | exact Keeps.refl _ _
  | moduleReset =>
    show KeepsO _ s (execModuleReset s)
    apply execModuleReset_keeps
    all_goals first | rfl | exact Keeps.refl _ _
  | conventionalReset =>
    show KeepsO _ s (execConventionalReset s)
    apply execConventionalReset_keeps
    all_goals first | rfl | exact Keeps.refl _ _
  | flrVf vf =>
    show KeepsO _ s (execFlrVf vf s)
    apply execFlrVf_keeps
    all_goals first | rfl | exact Keeps.refl _ _
  | flrPf =>
    show KeepsO _ s (execFlrPf s)
    apply execFlrPf_keeps
    all_goals first | rfl | exact Keeps.refl _ _
  | stateSet =>
    show KeepsO _ s (execStateSet s)
    apply execStateSet_keeps
    all_goals first | rfl | exact Keeps.refl _ _
  | enterOperational =>
    show KeepsO _ s (execEnterOperational s)
    apply execEnterOperational_keeps
    all_goals first | rfl | exact Keeps.refl _ _
  | drainExit =>
    show KeepsO _ s (execDrainExit s)
    apply execDrainExit_keeps
    all_goals first | rfl | exact Keeps.refl _ _
  | load p hdr payload tag =>
    show KeepsO _ s (execLoad p hdr payload tag s)
    apply execLoad_keeps
    all_goals first | rfl | exact Keeps.refl _ _
  | store p hdr payload tag =>
    show KeepsO _ s (execStore p hdr payload tag s)
    apply execStore_keeps
    all_goals first | rfl | exact Keeps.refl _ _
  | storeMasked p hdr payload tag =>
    show KeepsO _ s (execStoreMasked p hdr payload tag s)
    apply execStoreMasked_keeps
    all_goals first | rfl | exact Keeps.refl _ _
  | sync p hdr payload tag =>
    show KeepsO _ s (execSync p hdr payload tag s)
    apply execSync_keeps
    all_goals first | rfl | exact Keeps.refl _ _
  | launch p hdr payload tag =>
    show KeepsO _ s (execLaunch p hdr payload tag s)
    apply execLaunch_keeps
    all_goals first | rfl | exact Keeps.refl _ _
  | atomic p hdr payload tag =>
    show KeepsO _ s (execAtomic p hdr payload tag s)
    apply execAtomic_keeps
    all_goals first | rfl | exact Keeps.refl _ _
  | reservedOpcode p hdr payload tag =>
    show KeepsO _ s (execReservedOpcode p hdr payload tag s)
    apply execReservedOpcode_keeps
    all_goals first | rfl | exact Keeps.refl _ _
  | tReadData p hdr payload tag =>
    show KeepsO _ s (execTReadData p hdr payload tag s)
    apply execTReadData_keeps
    all_goals first | rfl | exact Keeps.refl _ _
  | tWriteDone p hdr payload tag =>
    show KeepsO _ s (execTWriteDone p hdr payload tag s)
    apply execTWriteDone_keeps
    all_goals first | rfl | exact Keeps.refl _ _
  | tMaskedDone p hdr payload tag =>
    show KeepsO _ s (execTMaskedDone p hdr payload tag s)
    apply execTMaskedDone_keeps
    all_goals first | rfl | exact Keeps.refl _ _
  | tAtomicDone p hdr payload tag =>
    show KeepsO _ s (execTAtomicDone p hdr payload tag s)
    apply execTAtomicDone_keeps
    all_goals first | rfl | exact Keeps.refl _ _
  | targetTimeout p tag =>
    show KeepsO _ s (execTargetTimeout p tag s)
    apply execTargetTimeout_keeps
    all_goals first | rfl | exact Keeps.refl _ _
  | read hdr payload tag =>
    show KeepsO _ s (execRead hdr payload tag s)
    apply execRead_keeps
    all_goals first | rfl | exact Keeps.refl _ _
  | write hdr payload tag xfer =>
    show KeepsO _ s (execWrite hdr payload tag xfer s)
    apply execWrite_keeps
    all_goals first | rfl | exact Keeps.refl _ _
  | writeMasked hdr payload tag xfer =>
    show KeepsO _ s (execWriteMasked hdr payload tag xfer s)
    apply execWriteMasked_keeps
    all_goals first | rfl | exact Keeps.refl _ _
  | zeroRun hdr payload tag xfer =>
    show KeepsO _ s (execZeroRun hdr payload tag xfer s)
    apply execZeroRun_keeps
    all_goals first | rfl | exact Keeps.refl _ _
  | fabricSync hdr payload tag =>
    show KeepsO _ s (execFabricSync hdr payload tag s)
    apply execFabricSync_keeps
    all_goals first | rfl | exact Keeps.refl _ _
  | fabricAtomic hdr payload tag =>
    show KeepsO _ s (execFabricAtomic hdr payload tag s)
    apply execFabricAtomic_keeps
    all_goals first | rfl | exact Keeps.refl _ _
  | waitWithdrawal pkt =>
    show KeepsO _ s (execWaitWithdrawal pkt s)
    apply execWaitWithdrawal_keeps
    all_goals first | rfl | exact Keeps.refl _ _
  | ack hdr tag timedOut =>
    show KeepsO _ s (execAck hdr tag timedOut s)
    apply execAck_keeps
    all_goals first | rfl | exact Keeps.refl _ _
  | data hdr payload tag =>
    show KeepsO _ s (execData hdr payload tag s)
    apply execData_keeps
    all_goals first | rfl | exact Keeps.refl _ _
  | value hdr payload tag =>
    show KeepsO _ s (execValue hdr payload tag s)
    apply execValue_keeps
    all_goals first | rfl | exact Keeps.refl _ _
  | packetForward inp out vc corrected failed =>
    show KeepsO _ s (execPacketForward inp out vc corrected failed s)
    apply execPacketForward_keeps
    all_goals first | rfl | exact Keeps.refl _ _
  | beRetxExpiry src dest dseq =>
    show KeepsO _ s (execBeRetxExpiry src dest dseq s)
    apply execBeRetxExpiry_keeps
    all_goals first | rfl | exact Keeps.refl _ _
  | pathTimeout src dest =>
    show KeepsO _ s (execPathTimeout src dest s)
    apply execPathTimeout_keeps
    all_goals first | rfl | exact Keeps.refl _ _
  | notice p body =>
    show KeepsO _ s (execNotice p body s)
    apply execNotice_keeps
    all_goals first | rfl | exact Keeps.refl _ _
  | tourLaunch f =>
    show KeepsO _ s (execTourLaunch f s)
    apply execTourLaunch_keeps
    all_goals first | rfl | exact Keeps.refl _ _
  | copy p c =>
    show KeepsO _ s (execCopy p c s)
    apply execCopy_keeps
    all_goals first | rfl | exact Keeps.refl _ _
  | gather p c =>
    show KeepsO _ s (execGather p c s)
    apply execGather_keeps
    all_goals first | rfl | exact Keeps.refl _ _
  | scatter p c =>
    show KeepsO _ s (execScatter p c s)
    apply execScatter_keeps
    all_goals first | rfl | exact Keeps.refl _ _
  | mcast p c =>
    show KeepsO _ s (execMcast p c s)
    apply execMcast_keeps
    all_goals first | rfl | exact Keeps.refl _ _
  | reduce p c =>
    show KeepsO _ s (execReduce p c s)
    apply execReduce_keeps
    all_goals first | rfl | exact Keeps.refl _ _
  | dispatch p c =>
    show KeepsO _ s (execDispatch p c s)
    apply execDispatch_keeps
    all_goals first | rfl | exact Keeps.refl _ _
  | combine p c =>
    show KeepsO _ s (execCombine p c s)
    apply execCombine_keeps
    all_goals first | rfl | exact Keeps.refl _ _
  | signal p c =>
    show KeepsO _ s (execSignal p c s)
    apply execSignal_keeps
    all_goals first | rfl | exact Keeps.refl _ _
  | wait p c =>
    show KeepsO _ s (execWait p c s)
    apply execWait_keeps
    all_goals first | rfl | exact Keeps.refl _ _
  | fence p c =>
    show KeepsO _ s (execFence p c s)
    apply execFence_keeps
    all_goals first | rfl | exact Keeps.refl _ _
  | flush p c =>
    show KeepsO _ s (execFlush p c s)
    apply execFlush_keeps
    all_goals first | rfl | exact Keeps.refl _ _
  | inval p c =>
    show KeepsO _ s (execInval p c s)
    apply execInval_keeps
    all_goals first | rfl | exact Keeps.refl _ _
  | loop p c =>
    show KeepsO _ s (execLoop p c s)
    apply execLoop_keeps
    all_goals first | rfl | exact Keeps.refl _ _
  | halt p c =>
    show KeepsO _ s (execHalt p c s)
    apply execHalt_keeps
    all_goals first | rfl | exact Keeps.refl _ _
  | tourAtomic p c =>
    show KeepsO _ s (execTourAtomic p c s)
    apply execTourAtomic_keeps
    all_goals first | rfl | exact Keeps.refl _ _
  | reservedTourOpcode p c =>
    show KeepsO _ s (execReservedTourOpcode p c s)
    apply execReservedTourOpcode_keeps
    all_goals first | rfl | exact Keeps.refl _ _
  | quantumExpiry p =>
    show KeepsO _ s (execQuantumExpiry p s)
    apply execQuantumExpiry_keeps
    all_goals first | rfl | exact Keeps.refl _ _
  | instructionLineArrival p c line what =>
    show KeepsO _ s (execInstructionLineArrival p c line what s)
    apply execInstructionLineArrival_keeps
    all_goals first | rfl | exact Keeps.refl _ _
  | descriptorArrival p c op what =>
    show KeepsO _ s (execDescriptorArrival p c op what s)
    apply execDescriptorArrival_keeps
    all_goals first | rfl | exact Keeps.refl _ _
  | operationRetire p c =>
    show KeepsO _ s (execOperationRetire p c s)
    apply execOperationRetire_keeps
    all_goals first | rfl | exact Keeps.refl _ _
  | tourEnd p c =>
    show KeepsO _ s (execTourEnd p c s)
    apply execTourEnd_keeps
    all_goals first | rfl | exact Keeps.refl _ _
  | waitExpiry so idx =>
    show KeepsO _ s (execWaitExpiry so idx s)
    apply execWaitExpiry_keeps
    all_goals first | rfl | exact Keeps.refl _ _
  | fenceComplete p c =>
    show KeepsO _ s (execFenceComplete p c s)
    apply execFenceComplete_keeps
    all_goals first | rfl | exact Keeps.refl _ _
  | flushComplete p c =>
    show KeepsO _ s (execFlushComplete p c s)
    apply execFlushComplete_keeps
    all_goals first | rfl | exact Keeps.refl _ _
  | atsCompletion p req res =>
    show KeepsO _ s (execAtsCompletion p req res s)
    apply execAtsCompletion_keeps
    all_goals first | rfl | exact Keeps.refl _ _
  | atsCompletionTimeout p req =>
    show KeepsO _ s (execAtsCompletionTimeout p req s)
    apply execAtsCompletionTimeout_keeps
    all_goals first | rfl | exact Keeps.refl _ _
  | pageRequest f =>
    show KeepsO _ s (execPageRequest f s)
    apply execPageRequest_keeps
    all_goals first | rfl | exact Keeps.refl _ _
  | prgResponse f idx code =>
    show KeepsO _ s (execPrgResponse f idx code s)
    apply execPrgResponse_keeps
    all_goals first | rfl | exact Keeps.refl _ _
  | prTimeoutExpiry f idx =>
    show KeepsO _ s (execPrTimeoutExpiry f idx s)
    apply execPrTimeoutExpiry_keeps
    all_goals first | rfl | exact Keeps.refl _ _
  | atsInvalidateRequest f itag pasid base log2Range =>
    show KeepsO _ s (execAtsInvalidateRequest f itag pasid base log2Range s)
    apply execAtsInvalidateRequest_keeps
    all_goals first | rfl | exact Keeps.refl _ _
  | invalidateCompletion f itag =>
    show KeepsO _ s (execInvalidateCompletion f itag s)
    apply execInvalidateCompletion_keeps
    all_goals first | rfl | exact Keeps.refl _ _
  | join m pkt =>
    show KeepsO _ s (execJoin m pkt s)
    apply execJoin_keeps
    all_goals first | rfl | exact Keeps.refl _ _
  | joinAdmitted =>
    show KeepsO _ s (execJoinAdmitted s)
    apply execJoinAdmitted_keeps
    all_goals first | rfl | exact Keeps.refl _ _
  | claimGrant g =>
    show KeepsO _ s (execClaimGrant g s)
    apply execClaimGrant_keeps
    all_goals first | rfl | exact Keeps.refl _ _
  | credit p m chunk pkt =>
    show KeepsO _ s (execCredit p m chunk pkt s)
    apply execCredit_keeps
    all_goals first | rfl | exact Keeps.refl _ _
  | contribution m chunk off records lines last pkt =>
    show KeepsO _ s (execContribution m chunk off records lines last pkt s)
    apply execContribution_keeps
    all_goals first | rfl | exact Keeps.refl _ _
  | chunkSummation sched inst =>
    show KeepsO _ s (execChunkSummation sched inst s)
    apply execChunkSummation_keeps
    all_goals first | rfl | exact Keeps.refl _ _
  | partialChunk sched inst group chunk off bs pkt =>
    show KeepsO _ s (execPartialChunk sched inst group chunk off bs pkt s)
    apply execPartialChunk_keeps
    all_goals first | rfl | exact Keeps.refl _ _
  | finishedChunk sched inst chunk off bs pkt =>
    show KeepsO _ s (execFinishedChunk sched inst chunk off bs pkt s)
    apply execFinishedChunk_keeps
    all_goals first | rfl | exact Keeps.refl _ _
  | result p m off lost pkt =>
    show KeepsO _ s (execResult p m off lost pkt s)
    apply execResult_keeps
    all_goals first | rfl | exact Keeps.refl _ _
  | instanceComplete sched inst failed =>
    show KeepsO _ s (execInstanceComplete sched inst failed s)
    apply execInstanceComplete_keeps
    all_goals first | rfl | exact Keeps.refl _ _
  | withdrawal m pathLost pkt =>
    show KeepsO _ s (execWithdrawal m pathLost pkt s)
    apply execWithdrawal_keeps
    all_goals first | rfl | exact Keeps.refl _ _
  | abort sched inst status pathLost only begun pkt =>
    show KeepsO _ s (execAbort sched inst status pathLost only begun pkt s)
    apply execAbort_keeps
    all_goals first | rfl | exact Keeps.refl _ _
  | joinTimeout sched inst =>
    show KeepsO _ s (execJoinTimeout sched inst s)
    apply execJoinTimeout_keeps
    all_goals first | rfl | exact Keeps.refl _ _
  | drawerZeroingDone =>
    show KeepsO _ s (execDrawerZeroingDone s)
    apply execDrawerZeroingDone_keeps
    all_goals first | rfl | exact Keeps.refl _ _
  | windowMerge sched inst =>
    show KeepsO _ s (execWindowMerge sched inst s)
    apply execWindowMerge_keeps
    all_goals first | rfl | exact Keeps.refl _ _
  | offsets p m off kept recv bases pkt =>
    show KeepsO _ s (execOffsets p m off kept recv bases pkt s)
    apply execOffsets_keeps
    all_goals first | rfl | exact Keeps.refl _ _
  | grantAnnouncement p m group pkt =>
    show KeepsO _ s (execGrantAnnouncement p m group pkt s)
    apply execGrantAnnouncement_keeps
    all_goals first | rfl | exact Keeps.refl _ _
  | expertOutput m token choice off bs pkt =>
    show KeepsO _ s (execExpertOutput m token choice off bs pkt s)
    apply execExpertOutput_keeps
    all_goals first | rfl | exact Keeps.refl _ _
  | combineWeights m token weights delivered pkt =>
    show KeepsO _ s (execCombineWeights m token weights delivered pkt s)
    apply execCombineWeights_keeps
    all_goals first | rfl | exact Keeps.refl _ _
  | mgmt pkt =>
    show KeepsO _ s (execMgmt pkt s)
    apply execMgmt_keeps
    all_goals first | rfl | exact Keeps.refl _ _
  | step pkt =>
    show KeepsO _ s (execStep pkt s)
    apply execStep_keeps
    all_goals first | rfl | exact Keeps.refl _ _
  | stepReply pkt =>
    show KeepsO _ s (execStepReply pkt s)
    apply execStepReply_keeps
    all_goals first | rfl | exact Keeps.refl _ _
  | stepPeriodExpiry g =>
    show KeepsO _ s (execStepPeriodExpiry g s)
    apply execStepPeriodExpiry_keeps
    all_goals first | rfl | exact Keeps.refl _ _
  | pairKeyDerived g gen a b resp =>
    show KeepsO _ s (execPairKeyDerived g gen a b resp s)
    apply execPairKeyDerived_keeps
    all_goals first | rfl | exact Keeps.refl _ _
  | shelfExtWrite g k v =>
    show KeepsO _ s (execShelfExtWrite g k v s)
    apply execShelfExtWrite_keeps
    all_goals first | rfl | exact Keeps.refl _ _
  | extentZeroingDone g k =>
    show KeepsO _ s (execExtentZeroingDone g k s)
    apply execExtentZeroingDone_keeps
    all_goals first | rfl | exact Keeps.refl _ _
  | scrubRead cw errs =>
    show KeepsO _ s (execScrubRead cw errs s)
    apply execScrubRead_keeps
    all_goals first | rfl | exact Keeps.refl _ _
  | dieFailed d =>
    show KeepsO _ s (execDieFailed d s)
    apply execDieFailed_keeps
    all_goals first | rfl | exact Keeps.refl _ _
  | dataFlit p lanes =>
    show KeepsO _ s (execDataFlit p lanes s)
    apply execDataFlit_keeps
    all_goals first | rfl | exact Keeps.refl _ _
  | ctrlFlit p lanes =>
    show KeepsO _ s (execCtrlFlit p lanes s)
    apply execCtrlFlit_keeps
    all_goals first | rfl | exact Keeps.refl _ _
  | filler p lanes =>
    show KeepsO _ s (execFiller p lanes s)
    apply execFiller_keeps
    all_goals first | rfl | exact Keeps.refl _ _
  | retryTimeout p =>
    show KeepsO _ s (execRetryTimeout p s)
    apply execRetryTimeout_keeps
    all_goals first | rfl | exact Keeps.refl _ _
  | ts1 p k frame inverted ctle =>
    show KeepsO _ s (execTs1 p k frame inverted ctle s)
    apply execTs1_keeps
    all_goals first | rfl | exact Keeps.refl _ _
  | ts2 p k frame =>
    show KeepsO _ s (execTs2 p k frame s)
    apply execTs2_keeps
    all_goals first | rfl | exact Keeps.refl _ _
  | tsExit p =>
    show KeepsO _ s (execTsExit p s)
    apply execTsExit_keeps
    all_goals first | rfl | exact Keeps.refl _ _
  | trainingWindowExpiry p =>
    show KeepsO _ s (execTrainingWindowExpiry p s)
    apply execTrainingWindowExpiry_keeps
    all_goals first | rfl | exact Keeps.refl _ _
  | laneCdrLoss p k =>
    show KeepsO _ s (execLaneCdrLoss p k s)
    apply execLaneCdrLoss_keeps
    all_goals first | rfl | exact Keeps.refl _ _
  | laneSerExceeded p k =>
    show KeepsO _ s (execLaneSerExceeded p k s)
    apply execLaneSerExceeded_keeps
    all_goals first | rfl | exact Keeps.refl _ _
  | deadTimerExpiry p =>
    show KeepsO _ s (execDeadTimerExpiry p s)
    apply execDeadTimerExpiry_keeps
    all_goals first | rfl | exact Keeps.refl _ _
  | downRetryTimer p =>
    show KeepsO _ s (execDownRetryTimer p s)
    apply execDownRetryTimer_keeps
    all_goals first | rfl | exact Keeps.refl _ _
  | signalDetect p k =>
    show KeepsO _ s (execSignalDetect p k s)
    apply execSignalDetect_keeps
    all_goals first | rfl | exact Keeps.refl _ _
  | idleEntry p =>
    show KeepsO _ s (execIdleEntry p s)
    apply execIdleEntry_keeps
    all_goals first | rfl | exact Keeps.refl _ _
  | idleExit p =>
    show KeepsO _ s (execIdleExit p s)
    apply execIdleExit_keeps
    all_goals first | rfl | exact Keeps.refl _ _
  | idleBurst p =>
    show KeepsO _ s (execIdleBurst p s)
    apply execIdleBurst_keeps
    all_goals first | rfl | exact Keeps.refl _ _
  | retrain p =>
    show KeepsO _ s (execRetrain p s)
    apply execRetrain_keeps
    all_goals first | rfl | exact Keeps.refl _ _
  | restore p =>
    show KeepsO _ s (execRestore p s)
    apply execRestore_keeps
    all_goals first | rfl | exact Keeps.refl _ _
  | laneMaskWrite p mask =>
    show KeepsO _ s (execLaneMaskWrite p mask s)
    apply execLaneMaskWrite_keeps
    all_goals first | rfl | exact Keeps.refl _ _
  | getVersion mctp =>
    show KeepsO _ s (execGetVersion mctp s)
    apply execGetVersion_keeps
    all_goals first | rfl | exact Keeps.refl _ _
  | getCapabilities mctp =>
    show KeepsO _ s (execGetCapabilities mctp s)
    apply execGetCapabilities_keeps
    all_goals first | rfl | exact Keeps.refl _ _
  | negotiateAlgorithms mctp offersAll =>
    show KeepsO _ s (execNegotiateAlgorithms mctp offersAll s)
    apply execNegotiateAlgorithms_keeps
    all_goals first | rfl | exact Keeps.refl _ _
  | getDigests mctp =>
    show KeepsO _ s (execGetDigests mctp s)
    apply execGetDigests_keeps
    all_goals first | rfl | exact Keeps.refl _ _
  | getCertificate mctp slot off len =>
    show KeepsO _ s (execGetCertificate mctp slot off len s)
    apply execGetCertificate_keeps
    all_goals first | rfl | exact Keeps.refl _ _
  | challenge mctp slot nonce =>
    show KeepsO _ s (execChallenge mctp slot nonce s)
    apply execChallenge_keeps
    all_goals first | rfl | exact Keeps.refl _ _
  | getMeasurements mctp index signed =>
    show KeepsO _ s (execGetMeasurements mctp index signed s)
    apply execGetMeasurements_keeps
    all_goals first | rfl | exact Keeps.refl _ _
  | keyExchange mctp =>
    show KeepsO _ s (execKeyExchange mctp s)
    apply execKeyExchange_keeps
    all_goals first | rfl | exact Keeps.refl _ _
  | finish session ok =>
    show KeepsO _ s (execFinish session ok s)
    apply execFinish_keeps
    all_goals first | rfl | exact Keeps.refl _ _
  | heartbeat session =>
    show KeepsO _ s (execHeartbeat session s)
    apply execHeartbeat_keeps
    all_goals first | rfl | exact Keeps.refl _ _
  | keyUpdate session =>
    show KeepsO _ s (execKeyUpdate session s)
    apply execKeyUpdate_keeps
    all_goals first | rfl | exact Keeps.refl _ _
  | endSession session =>
    show KeepsO _ s (execEndSession session s)
    apply execEndSession_keeps
    all_goals first | rfl | exact Keeps.refl _ _
  | galQuery session m =>
    show KeepsO _ s (execGalQuery session m s)
    apply execGalQuery_keeps
    all_goals first | rfl | exact Keeps.refl _ _
  | galClaim session m =>
    show KeepsO _ s (execGalClaim session m s)
    apply execGalClaim_keeps
    all_goals first | rfl | exact Keeps.refl _ _
  | galResume session m =>
    show KeepsO _ s (execGalResume session m s)
    apply execGalResume_keeps
    all_goals first | rfl | exact Keeps.refl _ _
  | galKeyInstall session m =>
    show KeepsO _ s (execGalKeyInstall session m s)
    apply execGalKeyInstall_keeps
    all_goals first | rfl | exact Keeps.refl _ _
  | galKeyRetire session m =>
    show KeepsO _ s (execGalKeyRetire session m s)
    apply execGalKeyRetire_keeps
    all_goals first | rfl | exact Keeps.refl _ _
  | galKeyActivate session m =>
    show KeepsO _ s (execGalKeyActivate session m s)
    apply execGalKeyActivate_keeps
    all_goals first | rfl | exact Keeps.refl _ _
  | galFabricRoot session m =>
    show KeepsO _ s (execGalFabricRoot session m s)
    apply execGalFabricRoot_keeps
    all_goals first | rfl | exact Keeps.refl _ _
  | galFabricStep session m =>
    show KeepsO _ s (execGalFabricStep session m s)
    apply execGalFabricStep_keeps
    all_goals first | rfl | exact Keeps.refl _ _
  | galOpen session m =>
    show KeepsO _ s (execGalOpen session m s)
    apply execGalOpen_keeps
    all_goals first | rfl | exact Keeps.refl _ _
  | galDeaccess session m =>
    show KeepsO _ s (execGalDeaccess session m s)
    apply execGalDeaccess_keeps
    all_goals first | rfl | exact Keeps.refl _ _
  | query session =>
    show KeepsO _ s (execQuery session s)
    apply execQuery_keeps
    all_goals first | rfl | exact Keeps.refl _ _
  | keyProg session f keySet key =>
    show KeepsO _ s (execKeyProg session f keySet key s)
    apply execKeyProg_keeps
    all_goals first | rfl | exact Keeps.refl _ _
  | kSetGo session f keySet =>
    show KeepsO _ s (execKSetGo session f keySet s)
    apply execKSetGo_keeps
    all_goals first | rfl | exact Keeps.refl _ _
  | kSetStop session f keySet =>
    show KeepsO _ s (execKSetStop session f keySet s)
    apply execKSetStop_keeps
    all_goals first | rfl | exact Keeps.refl _ _
  | getTdispVersion f =>
    show KeepsO _ s (execGetTdispVersion f s)
    apply execGetTdispVersion_keeps
    all_goals first | rfl | exact Keeps.refl _ _
  | getTdispCapabilities f =>
    show KeepsO _ s (execGetTdispCapabilities f s)
    apply execGetTdispCapabilities_keeps
    all_goals first | rfl | exact Keeps.refl _ _
  | lockInterfaceRequest f =>
    show KeepsO _ s (execLockInterfaceRequest f s)
    apply execLockInterfaceRequest_keeps
    all_goals first | rfl | exact Keeps.refl _ _
  | getDeviceInterfaceReport f =>
    show KeepsO _ s (execGetDeviceInterfaceReport f s)
    apply execGetDeviceInterfaceReport_keeps
    all_goals first | rfl | exact Keeps.refl _ _
  | getDeviceInterfaceState f =>
    show KeepsO _ s (execGetDeviceInterfaceState f s)
    apply execGetDeviceInterfaceState_keeps
    all_goals first | rfl | exact Keeps.refl _ _
  | startInterfaceRequest f =>
    show KeepsO _ s (execStartInterfaceRequest f s)
    apply execStartInterfaceRequest_keeps
    all_goals first | rfl | exact Keeps.refl _ _
  | stopInterfaceRequest f =>
    show KeepsO _ s (execStopInterfaceRequest f s)
    apply execStopInterfaceRequest_keeps
    all_goals first | rfl | exact Keeps.refl _ _
  | galleryAccession =>
    show KeepsO _ s (execGalleryAccession s)
    apply execGalleryAccession_keeps
    all_goals first | rfl | exact Keeps.refl _ _
  | galleryDeaccession =>
    show KeepsO _ s (execGalleryDeaccession s)
    apply execGalleryDeaccession_keeps
    all_goals first | rfl | exact Keeps.refl _ _
  | deaccessionDrained g =>
    show KeepsO _ s (execDeaccessionDrained g s)
    apply execDeaccessionDrained_keeps
    all_goals first | rfl | exact Keeps.refl _ _
  | drainTimeoutExpiry g =>
    show KeepsO _ s (execDrainTimeoutExpiry g s)
    apply execDrainTimeoutExpiry_keeps
    all_goals first | rfl | exact Keeps.refl _ _
  | deaccessionZeroed g =>
    show KeepsO _ s (execDeaccessionZeroed g s)
    apply execDeaccessionZeroed_keeps
    all_goals first | rfl | exact Keeps.refl _ _
  | g0KeyInstall =>
    show KeepsO _ s (execG0KeyInstall s)
    apply execG0KeyInstall_keeps
    all_goals first | rfl | exact Keeps.refl _ _
  | g0KeyRetire =>
    show KeepsO _ s (execG0KeyRetire s)
    apply execG0KeyRetire_keeps
    all_goals first | rfl | exact Keeps.refl _ _
  | g0KeyActivate =>
    show KeepsO _ s (execG0KeyActivate s)
    apply execG0KeyActivate_keeps
    all_goals first | rfl | exact Keeps.refl _ _
  | g0FabricRoot =>
    show KeepsO _ s (execG0FabricRoot s)
    apply execG0FabricRoot_keeps
    all_goals first | rfl | exact Keeps.refl _ _
  | g0FabricStep =>
    show KeepsO _ s (execG0FabricStep s)
    apply execG0FabricStep_keeps
    all_goals first | rfl | exact Keeps.refl _ _
  | g0Setup =>
    show KeepsO _ s (execG0Setup s)
    apply execG0Setup_keeps
    all_goals first | rfl | exact Keeps.refl _ _
  | g0Release =>
    show KeepsO _ s (execG0Release s)
    apply execG0Release_keeps
    all_goals first | rfl | exact Keeps.refl _ _
  | quorumSet =>
    show KeepsO _ s (execQuorumSet s)
    apply execQuorumSet_keeps
    all_goals first | rfl | exact Keeps.refl _ _
  | expelPort via =>
    show KeepsO _ s (execExpelPort via s)
    apply execExpelPort_keeps
    all_goals first | rfl | exact Keeps.refl _ _
  | expelPeer via =>
    show KeepsO _ s (execExpelPeer via s)
    apply execExpelPeer_keeps
    all_goals first | rfl | exact Keeps.refl _ _
  | isolate via =>
    show KeepsO _ s (execIsolate via s)
    apply execIsolate_keeps
    all_goals first | rfl | exact Keeps.refl _ _
  | liftPort via =>
    show KeepsO _ s (execLiftPort via s)
    apply execLiftPort_keeps
    all_goals first | rfl | exact Keeps.refl _ _
  | liftAll via =>
    show KeepsO _ s (execLiftAll via s)
    apply execLiftAll_keeps
    all_goals first | rfl | exact Keeps.refl _ _
  | drain via =>
    show KeepsO _ s (execDrain via s)
    apply execDrain_keeps
    all_goals first | rfl | exact Keeps.refl _ _
  | replaceSet via =>
    show KeepsO _ s (execReplaceSet via s)
    apply execReplaceSet_keeps
    all_goals first | rfl | exact Keeps.refl _ _
  | nop f =>
    show KeepsO _ s (execNop f s)
    apply execNop_keeps
    all_goals first | rfl | exact Keeps.refl _ _
  | reservedCommand f =>
    show KeepsO _ s (execReservedCommand f s)
    apply execReservedCommand_keeps
    all_goals first | rfl | exact Keeps.refl _ _
  | commandDoorbell f pi =>
    show KeepsO _ s (execCommandDoorbell f pi s)
    apply execCommandDoorbell_keeps
    all_goals first | rfl | exact Keeps.refl _ _
  | consumerIndexWrite f r ci =>
    show KeepsO _ s (execConsumerIndexWrite f r ci s)
    apply execConsumerIndexWrite_keeps
    all_goals first | rfl | exact Keeps.refl _ _
  | ringEnable f r v =>
    show KeepsO _ s (execRingEnable f r v s)
    apply execRingEnable_keeps
    all_goals first | rfl | exact Keeps.refl _ _
  | ringDisable f r v =>
    show KeepsO _ s (execRingDisable f r v s)
    apply execRingDisable_keeps
    all_goals first | rfl | exact Keeps.refl _ _
  | msiXMessage f c =>
    show KeepsO _ s (execMsiXMessage f c s)
    apply execMsiXMessage_keeps
    all_goals first | rfl | exact Keeps.refl _ _
  | bar2Read f off len tee =>
    show KeepsO _ s (execBar2Read f off len tee s)
    apply execBar2Read_keeps
    all_goals first | rfl | exact Keeps.refl _ _
  | bar2Write f off bs tee =>
    show KeepsO _ s (execBar2Write f off bs tee s)
    apply execBar2Write_keeps
    all_goals first | rfl | exact Keeps.refl _ _
  | galSoRead f so =>
    show KeepsO _ s (execGalSoRead f so s)
    apply execGalSoRead_keeps
    all_goals first | rfl | exact Keeps.refl _ _
  | galSoAdd f so =>
    show KeepsO _ s (execGalSoAdd f so s)
    apply execGalSoAdd_keeps
    all_goals first | rfl | exact Keeps.refl _ _
  | galSoSet f so =>
    show KeepsO _ s (execGalSoSet f so s)
    apply execGalSoSet_keeps
    all_goals first | rfl | exact Keeps.refl _ _
  | galSoMin f so =>
    show KeepsO _ s (execGalSoMin f so s)
    apply execGalSoMin_keeps
    all_goals first | rfl | exact Keeps.refl _ _
  | galSoMax f so =>
    show KeepsO _ s (execGalSoMax f so s)
    apply execGalSoMax_keeps
    all_goals first | rfl | exact Keeps.refl _ _
  | galSoCas f so =>
    show KeepsO _ s (execGalSoCas f so s)
    apply execGalSoCas_keeps
    all_goals first | rfl | exact Keeps.refl _ _
  | soValueWrite so v =>
    show KeepsO _ s (execSoValueWrite so v s)
    apply execSoValueWrite_keeps
    all_goals first | rfl | exact Keeps.refl _ _
  | swcRcCtlWrite v =>
    show KeepsO _ s (execSwcRcCtlWrite v s)
    apply execSwcRcCtlWrite_keeps
    all_goals first | rfl | exact Keeps.refl _ _
  | portSpecWrite p v =>
    show KeepsO _ s (execPortSpecWrite p v s)
    apply execPortSpecWrite_keeps
    all_goals first | rfl | exact Keeps.refl _ _
  | swcVcModeWrite v =>
    show KeepsO _ s (execSwcVcModeWrite v s)
    apply execSwcVcModeWrite_keeps
    all_goals first | rfl | exact Keeps.refl _ _
  | clkCtlWrite v =>
    show KeepsO _ s (execClkCtlWrite v s)
    apply execClkCtlWrite_keeps
    all_goals first | rfl | exact Keeps.refl _ _
  | clkEnWrite ports v =>
    show KeepsO _ s (execClkEnWrite ports v s)
    apply execClkEnWrite_keeps
    all_goals first | rfl | exact Keeps.refl _ _
  | ownCtlWrite v =>
    show KeepsO _ s (execOwnCtlWrite v s)
    apply execOwnCtlWrite_keeps
    all_goals first | rfl | exact Keeps.refl _ _
  | registerWrite f off size v =>
    show KeepsO _ s (execRegisterWrite f off size v s)
    apply execRegisterWrite_keeps
    all_goals first | rfl | exact Keeps.refl _ _
  | watchdogExpiry core =>
    show KeepsO _ s (execWatchdogExpiry core s)
    apply execWatchdogExpiry_keeps
    all_goals first | rfl | exact Keeps.refl _ _
  | curatorMemoryError core cw =>
    show KeepsO _ s (execCuratorMemoryError core cw s)
    apply execCuratorMemoryError_keeps
    all_goals first | rfl | exact Keeps.refl _ _
  | curatorRestartDone readOk =>
    show KeepsO _ s (execCuratorRestartDone readOk s)
    apply execCuratorRestartDone_keeps
    all_goals first | rfl | exact Keeps.refl _ _
  | stageWriteDone readOk =>
    show KeepsO _ s (execStageWriteDone readOk s)
    apply execStageWriteDone_keeps
    all_goals first | rfl | exact Keeps.refl _ _
  | stagedVerifyDone readOk =>
    show KeepsO _ s (execStagedVerifyDone readOk s)
    apply execStagedVerifyDone_keeps
    all_goals first | rfl | exact Keeps.refl _ _
  | overwriteDone readOk =>
    show KeepsO _ s (execOverwriteDone readOk s)
    apply execOverwriteDone_keeps
    all_goals first | rfl | exact Keeps.refl _ _
  | recoveryRequest serial =>
    show KeepsO _ s (execRecoveryRequest serial s)
    apply execRecoveryRequest_keeps
    all_goals first | rfl | exact Keeps.refl _ _
  | tftpWriteImage image writeOk =>
    show KeepsO _ s (execTftpWriteImage image writeOk s)
    apply execTftpWriteImage_keeps
    all_goals first | rfl | exact Keeps.refl _ _
  | dhcp addr =>
    show KeepsO _ s (execDhcp addr s)
    apply execDhcp_keeps
    all_goals first | rfl | exact Keeps.refl _ _
  | arp addr =>
    show KeepsO _ s (execArp addr s)
    apply execArp_keeps
    all_goals first | rfl | exact Keeps.refl _ _
  | icmpEcho addr payload =>
    show KeepsO _ s (execIcmpEcho addr payload s)
    apply execIcmpEcho_keeps
    all_goals first | rfl | exact Keeps.refl _ _
  | mctpControl cmd body =>
    show KeepsO _ s (execMctpControl cmd body s)
    apply execMctpControl_keeps
    all_goals first | rfl | exact Keeps.refl _ _
  | pldmSensor sensor =>
    show KeepsO _ s (execPldmSensor sensor s)
    apply execPldmSensor_keeps
    all_goals first | rfl | exact Keeps.refl _ _
  | bmcPowerCap watts =>
    show KeepsO _ s (execBmcPowerCap watts s)
    apply execBmcPowerCap_keeps
    all_goals first | rfl | exact Keeps.refl _ _
  | powerAverageUpdate x =>
    show KeepsO _ s (execPowerAverageUpdate x s)
    apply execPowerAverageUpdate_keeps
    all_goals first | rfl | exact Keeps.refl _ _
  | emergencyBegin c =>
    show KeepsO _ s (execEmergencyBegin c s)
    apply execEmergencyBegin_keeps
    all_goals first | rfl | exact Keeps.refl _ _
  | emergencyClear c =>
    show KeepsO _ s (execEmergencyClear c s)
    apply execEmergencyClear_keeps
    all_goals first | rfl | exact Keeps.refl _ _
  | shutdown c =>
    show KeepsO _ s (execShutdown c s)
    apply execShutdown_keeps
    all_goals first | rfl | exact Keeps.refl _ _
  | aux3v3Retry stillShort =>
    show KeepsO _ s (execAux3v3Retry stillShort s)
    apply execAux3v3Retry_keeps
    all_goals first | rfl | exact Keeps.refl _ _
  | sensorFail x =>
    show KeepsO _ s (execSensorFail x s)
    apply execSensorFail_keeps
    all_goals first | rfl | exact Keeps.refl _ _
  | referenceFallback c =>
    show KeepsO _ s (execReferenceFallback c s)
    apply execReferenceFallback_keeps
    all_goals first | rfl | exact Keeps.refl _ _
  | lifeHistoryHourly ok =>
    show KeepsO _ s (execLifeHistoryHourly ok s)
    apply execLifeHistoryHourly_keeps
    all_goals first | rfl | exact Keeps.refl _ _
  | cdrLock p k =>
    show KeepsO _ s (execCdrLock p k s)
    apply execCdrLock_keeps
    all_goals first | rfl | exact Keeps.refl _ _
  | step1NoSignal p =>
    show KeepsO _ s (execStep1NoSignal p s)
    apply execStep1NoSignal_keeps
    all_goals first | rfl | exact Keeps.refl _ _
  | retrainBoundExpiry p =>
    show KeepsO _ s (execRetrainBoundExpiry p s)
    apply execRetrainBoundExpiry_keeps
    all_goals first | rfl | exact Keeps.refl _ _
  | configurationWrite f w =>
    show KeepsO _ s (execConfigurationWrite f w s)
    apply execConfigurationWrite_keeps
    all_goals first | rfl | exact Keeps.refl _ _
  | fwStageVerified readOk =>
    show KeepsO _ s (execFwStageVerified readOk s)
    apply execFwStageVerified_keeps
    all_goals first | rfl | exact Keeps.refl _ _
  | reservedQuorumAction via =>
    show KeepsO _ s (execReservedQuorumAction via s)
    apply execReservedQuorumAction_keeps
    all_goals first | rfl | exact Keeps.refl _ _
  | reservedTenantMessage session m =>
    show KeepsO _ s (execReservedTenantMessage session m s)
    apply execReservedTenantMessage_keeps
    all_goals first | rfl | exact Keeps.refl _ _
  | reservedVendorCommand cmd body =>
    show KeepsO _ s (execReservedVendorCommand cmd body s)
    apply execReservedVendorCommand_keeps
    all_goals first | rfl | exact Keeps.refl _ _
  | fwStage =>
    show KeepsO _ s (execFwStage s)
    apply execFwStage_keeps
    all_goals first | rfl | exact Keeps.refl _ _
  | fwActivate =>
    show KeepsO _ s (execFwActivate s)
    apply execFwActivate_keeps
    all_goals first | rfl | exact Keeps.refl _ _
  | activationHoldExpiry =>
    show KeepsO _ s (execActivationHoldExpiry s)
    apply execActivationHoldExpiry_keeps
    all_goals first | rfl | exact Keeps.refl _ _
  | tftpReadStatus =>
    show KeepsO _ s (execTftpReadStatus s)
    apply execTftpReadStatus_keeps
    all_goals first | rfl | exact Keeps.refl _ _
  | tftpReadLifehist =>
    show KeepsO _ s (execTftpReadLifehist s)
    apply execTftpReadLifehist_keeps
    all_goals first | rfl | exact Keeps.refl _ _
  | tftpWriteRequest =>
    show KeepsO _ s (execTftpWriteRequest s)
    apply execTftpWriteRequest_keeps
    all_goals first | rfl | exact Keeps.refl _ _
  | tftpRetransmit =>
    show KeepsO _ s (execTftpRetransmit s)
    apply execTftpRetransmit_keeps
    all_goals first | rfl | exact Keeps.refl _ _
  | dhcpLeaseTimeout =>
    show KeepsO _ s (execDhcpLeaseTimeout s)
    apply execDhcpLeaseTimeout_keeps
    all_goals first | rfl | exact Keeps.refl _ _
  | pldmFru =>
    show KeepsO _ s (execPldmFru s)
    apply execPldmFru_keeps
    all_goals first | rfl | exact Keeps.refl _ _
  | mainEnable =>
    show KeepsO _ s (execMainEnable s)
    apply execMainEnable_keeps
    all_goals first | rfl | exact Keeps.refl _ _
  | status =>
    show KeepsO _ s (execStatus s)
    apply execStatus_keeps
    all_goals first | rfl | exact Keeps.refl _ _
  | powerCap =>
    show KeepsO _ s (execPowerCap s)
    apply execPowerCap_keeps
    all_goals first | rfl | exact Keeps.refl _ _
  | powerCapTimeout =>
    show KeepsO _ s (execPowerCapTimeout s)
    apply execPowerCapTimeout_keeps
    all_goals first | rfl | exact Keeps.refl _ _
  | inputOvercurrent =>
    show KeepsO _ s (execInputOvercurrent s)
    apply execInputOvercurrent_keeps
    all_goals first | rfl | exact Keeps.refl _ _
  | stageFault =>
    show KeepsO _ s (execStageFault s)
    apply execStageFault_keeps
    all_goals first | rfl | exact Keeps.refl _ _
  | aux3v3Short =>
    show KeepsO _ s (execAux3v3Short s)
    apply execAux3v3Short_keeps
    all_goals first | rfl | exact Keeps.refl _ _
  | senseOpen =>
    show KeepsO _ s (execSenseOpen s)
    apply execSenseOpen_keeps
    all_goals first | rfl | exact Keeps.refl _ _
  | fastThrottleAssert =>
    show KeepsO _ s (execFastThrottleAssert s)
    apply execFastThrottleAssert_keeps
    all_goals first | rfl | exact Keeps.refl _ _
  | fastThrottleHoldExpiry =>
    show KeepsO _ s (execFastThrottleHoldExpiry s)
    apply execFastThrottleHoldExpiry_keeps
    all_goals first | rfl | exact Keeps.refl _ _
  | leakAssert =>
    show KeepsO _ s (execLeakAssert s)
    apply execLeakAssert_keeps
    all_goals first | rfl | exact Keeps.refl _ _
  | leakClearExpiry =>
    show KeepsO _ s (execLeakClearExpiry s)
    apply execLeakClearExpiry_keeps
    all_goals first | rfl | exact Keeps.refl _ _
  | referenceRevert =>
    show KeepsO _ s (execReferenceRevert s)
    apply execReferenceRevert_keeps
    all_goals first | rfl | exact Keeps.refl _ _
  | fill =>
    show KeepsO _ s (execFill s)
    apply execFill_keeps
    all_goals first | rfl | exact Keeps.refl _ _
  | switch =>
    show KeepsO _ s (execSwitch s)
    apply execSwitch_keeps
    all_goals first | rfl | exact Keeps.refl _ _
  | fillThenSwitch =>
    show KeepsO _ s (execFillThenSwitch s)
    apply execFillThenSwitch_keeps
    all_goals first | rfl | exact Keeps.refl _ _
  | switchQuiesceTimeout =>
    show KeepsO _ s (execSwitchQuiesceTimeout s)
    apply execSwitchQuiesceTimeout_keeps
    all_goals first | rfl | exact Keeps.refl _ _
  | epochDrained =>
    show KeepsO _ s (execEpochDrained s)
    apply execEpochDrained_keeps
    all_goals first | rfl | exact Keeps.refl _ _
  | healthScoring =>
    show KeepsO _ s (execHealthScoring s)
    apply execHealthScoring_keeps
    all_goals first | rfl | exact Keeps.refl _ _
  | perstDeasserted =>
    show KeepsO _ s (execPerstDeasserted s)
    apply execPerstDeasserted_keeps
    all_goals first | rfl | exact Keeps.refl _ _
  | hostInterfaceReady =>
    show KeepsO _ s (execHostInterfaceReady s)
    apply execHostInterfaceReady_keeps
    all_goals first | rfl | exact Keeps.refl _ _
  | shadowFilled =>
    show KeepsO _ s (execShadowFilled s)
    apply execShadowFilled_keeps
    all_goals first | rfl | exact Keeps.refl _ _
  | servicePortLinkUp =>
    show KeepsO _ s (execServicePortLinkUp s)
    apply execServicePortLinkUp_keeps
    all_goals first | rfl | exact Keeps.refl _ _

end Sys2Proof.Machine
end

