-- ==== Sys2Proof/Laws/KeepsRed.lean ====
section
/-! SUPPORT. Sending packets, and ending a member's part, leave the reduction engine's instances, claims and records of
ends as they are: only result packets may leave the outbox (R330, R341, R523). -/

set_option Elab.async false

namespace Sys2Proof.Machine

/-- From `s` to `t` the reduction engine's tables stay, but for what waits in its outbox. -/
def RedKept (s t : State) : Prop := t.red = { s.red with outbox := t.red.outbox }

theorem RedKept.refl (s : State) : RedKept s s := rfl

variable {s0 s t : State}

theorem RedKept.trans (h : RedKept s0 s) (k : RedKept s t) : RedKept s0 t := by
  unfold RedKept at *
  rw [k, h]

theorem RedKept.insts_eq (h : RedKept s0 s) : s.red.insts = s0.red.insts := by unfold RedKept at h; rw [h]
theorem RedKept.ended_eq (h : RedKept s0 s) : s.red.ended = s0.red.ended := by unfold RedKept at h; rw [h]
theorem RedKept.aborted_eq (h : RedKept s0 s) : s.red.aborted = s0.red.aborted := by unfold RedKept at h; rw [h]
theorem RedKept.waiting_eq (h : RedKept s0 s) : s.red.waiting = s0.red.waiting := by unfold RedKept at h; rw [h]
theorem RedKept.claims_eq (h : RedKept s0 s) : s.red.claims = s0.red.claims := by unfold RedKept at h; rw [h]
theorem RedKept.zeroing_eq (h : RedKept s0 s) : s.red.zeroing = s0.red.zeroing := by unfold RedKept at h; rw [h]

/-- An update that takes the reduction engine's tables from `s`. -/
theorem RedKept.same
    {x_pending : List Instr} {x_ctl : ModCtl} {x_pwr : Power} {x_clk : Clocks} {x_own : OwnCtl} {x_cur : Curator}
    {x_flash : Flash} {x_svc : SvcPort} {x_fns : Tab Fn} {x_docents : Tab Docent} {x_links : Tab Link} {x_lanes :
    Tab Lane} {x_swcPorts : Tab SwcPort} {x_ctxs : Tab Ctx} {x_gals : Tab Gallery} {x_sos : Tab SyncObj}
    {x_waitRefused : Nat} {x_vault : Vault} {x_trn : Trn} {x_red : Red} {x_cat : Cat} {x_sec : Sec} {x_tel : Tel}
    {x_swc : Swc} {x_seqs : Tab Nat} {x_genCount : Tab Nat} {x_replay : List Outst} {x_held : List Outst} {x_lostFor
    : List Nat} {x_windows : Tab DupWin} {x_arv : List ((Nat × Nat × Nat) × ArvCount)} {x_arrived : List (Header ×
    Bytes × Bytes)} {x_epIn : List (Nat × Bytes)} {x_outputs : List Output} {x_freeCtr : Nat} {x_nextPkt : Nat}
    (h : RedKept s0 s) (e : x_red = s.red := by with_reducible rfl) :
    RedKept s0 (State.mk x_pending x_ctl x_pwr x_clk x_own x_cur x_flash x_svc x_fns x_docents x_links x_lanes x_swcPorts
      x_ctxs x_gals x_sos x_waitRefused x_vault x_trn x_red x_cat x_sec x_tel x_swc x_seqs x_genCount
      x_replay x_held x_lostFor x_windows x_arv x_arrived x_epIn x_outputs x_freeCtr x_nextPkt) :=
  h.trans (by unfold RedKept; rw [e])

theorem RedKept.outbox (h : RedKept s0 s) (l : List ResultPkt) :
    RedKept s0 { s with red := { s.red with outbox := l } } := by
  unfold RedKept at *
  rw [h]

theorem RedKept.ite {a b : State} {c : Prop} [Decidable c] (ha : c → RedKept s0 a) (hb : ¬c → RedKept s0 b) :
    RedKept s0 (if c then a else b) := by
  split
  · exact ha ‹_›
  · exact hb ‹_›

theorem RedKept.iteFst {α : Type} {a b : State × α} {c : Prop} [Decidable c] (ha : c → RedKept s0 a.1)
    (hb : ¬c → RedKept s0 b.1) : RedKept s0 (if c then a else b).1 := by
  split
  · exact ha ‹_›
  · exact hb ‹_›

theorem RedKept.ofEq {α : Type} {b : α} {p : State × α} (e : p = (t, b)) (h : RedKept s0 p.1) : RedKept s0 t := by
  rw [e] at h; exact h

theorem RedKept.foldl {α : Type} {f : State → α → State} {l : List α} (hf : ∀ s x, RedKept s0 s → RedKept s0 (f s x))
    (h : RedKept s0 s) : RedKept s0 (l.foldl f s) := by
  induction l generalizing s with
  | nil => exact h
  | cons x l ih => exact ih (hf s x h)

theorem RedKept.elim {α : Type} {o : Option α} {f : α → State} (hf : ∀ x, RedKept s0 (f x)) (h : RedKept s0 s) :
    RedKept s0 (o.elim s f) := by
  cases o
  · exact h
  · exact hf _

theorem State.vmWrite_redKept (a : Nat) (bs : Bytes) (h : RedKept s0 s) : RedKept s0 (s.vmWrite a bs) :=
  by
  show RedKept s0 { s with vault := _ }
  exact h.same

theorem State.modFn_redKept (f : Nat) (g : Fn → Fn) (hk : RedKept s0 s) : RedKept s0 (State.modFn s f g) := by
  unfold State.modFn
  repeat' (first | with_reducible exact RedKept.same ‹_›)

theorem State.modDocent_redKept (p : Nat) (g : Docent → Docent) (hk : RedKept s0 s) : RedKept s0
    (State.modDocent s p g) := by
  unfold State.modDocent
  repeat' (first | with_reducible exact RedKept.same ‹_›)

theorem State.modSwcPort_redKept (p : Nat) (g : SwcPort → SwcPort) (hk : RedKept s0 s) : RedKept s0
    (State.modSwcPort s p g) := by
  unfold State.modSwcPort
  repeat' (first | with_reducible exact RedKept.same ‹_›)

theorem State.modCtx_redKept (g : Nat) (f : Ctx → Ctx) (hk : RedKept s0 s) : RedKept s0 (State.modCtx s g f) := by
  unfold State.modCtx
  repeat' (first | with_reducible exact RedKept.same ‹_›)

theorem State.modGal_redKept (g : Nat) (f : Gallery → Gallery) (hk : RedKept s0 s) : RedKept s0 (State.modGal s
    g f) := by
  unfold State.modGal
  repeat' (first | with_reducible exact RedKept.same ‹_›)

theorem State.out_redKept (o : Output) (hk : RedKept s0 s) : RedKept s0 (State.out s o) := by
  unfold State.out
  repeat' (first | with_reducible exact RedKept.same ‹_›)

theorem State.ringPut_redKept (f r : Nat) (bs : Bytes) (hk : RedKept s0 s) : RedKept s0 (State.ringPut s f r bs)
    := by
  unfold State.ringPut
  repeat' (first | with_reducible assumption | with_reducible apply State.modFn_redKept
                 | with_reducible apply State.vmWrite_redKept)

theorem State.draw_redKept (hk : RedKept s0 s) : RedKept s0 (State.draw s) := by
  unfold State.draw
  repeat' (first | with_reducible exact RedKept.same ‹_›)

theorem State.mcRelease_redKept (id : Nat) (hk : RedKept s0 s) : RedKept s0 (State.mcRelease s id) := by
  unfold State.mcRelease
  repeat' (first | with_reducible exact RedKept.same ‹_›)

theorem State.mcUnsent_redKept (l : List Outst) (hk : RedKept s0 s) : RedKept s0 (State.mcUnsent s l) := by
  unfold State.mcUnsent
  repeat' (first | with_reducible assumption | with_reducible apply RedKept.foldl | intro _
                 | with_reducible apply State.mcRelease_redKept)

theorem State.specimen_redKept (inp out : Nat) (h : FHdr) (hk : RedKept s0 s) : RedKept s0 (State.specimen s inp
    out h) := by
  unfold State.specimen
  repeat' (first | with_reducible assumption | (with_reducible apply RedKept.ite) <;> intro _
                 | with_reducible apply State.modFn_redKept | with_reducible apply State.modSwcPort_redKept
                 | with_reducible apply State.ringPut_redKept | with_reducible refine RedKept.same ?_)

theorem State.sample_redKept (inp : Nat) (h : FHdr) (mc : Option Nat) (hk : RedKept s0 s) : RedKept s0
    (State.sample s inp h mc) := by
  unfold State.sample
  repeat' (first | with_reducible assumption | (with_reducible apply RedKept.ite) <;> intro _
                 | with_reducible apply State.specimen_redKept | with_reducible exact RedKept.same ‹_›)

theorem State.push_redKept (inp : Nat) (h : FHdr) (payload tag : Bytes) (mc : Option Nat) (hk : RedKept s0 s) :
    RedKept s0 (State.push s inp h payload tag mc) := by
  unfold State.push
  repeat' (first | with_reducible exact RedKept.same ‹_›)

theorem State.enter_redKept (inp : Nat) (h : FHdr) (payload tag : Bytes) (mc : Option Nat) (hk : RedKept s0 s) :
    RedKept s0 (State.enter s inp h payload tag mc) := by
  unfold State.enter
  dsimp only
  repeat' (first | with_reducible assumption | (with_reducible apply RedKept.ite) <;> intro _
                 | with_reducible apply State.draw_redKept | with_reducible apply State.modSwcPort_redKept
                 | with_reducible apply State.push_redKept | with_reducible apply State.sample_redKept
                 | with_reducible apply RedKept.elim | intro _ | with_reducible apply State.mcRelease_redKept)

theorem State.enqueue_redKept (inp : Nat) (h : FHdr) (payload tag : Bytes) (mc : Option Nat) (hk : RedKept s0 s) :
    RedKept s0 (State.enqueue s inp h payload tag mc) := by
  unfold State.enqueue
  repeat' (first | with_reducible assumption | (with_reducible apply RedKept.ite) <;> intro _
                 | with_reducible apply State.enter_redKept | with_reducible exact RedKept.same ‹_›)

theorem State.mgmtSend_redKept (kind gal node gen : Nat) (hk : RedKept s0 s) : RedKept s0 (State.mgmtSend s kind
    gal node gen) := by
  unfold State.mgmtSend
  repeat' (first | with_reducible apply State.out_redKept | with_reducible exact RedKept.same ‹_›)

theorem State.startStep_redKept (gal : Nat) (hk : RedKept s0 s) : RedKept s0 (State.startStep s gal) := by
  unfold State.startStep
  repeat' (first | with_reducible assumption | with_reducible apply RedKept.foldl | intro _
                 | with_reducible apply State.modGal_redKept | with_reducible apply State.mgmtSend_redKept)

theorem State.askStep_redKept (gal : Nat) (hk : RedKept s0 s) : RedKept s0 (State.askStep s gal) := by
  unfold State.askStep
  repeat' (first | with_reducible assumption | (with_reducible apply RedKept.ite) <;> intro _
                 | with_reducible apply State.modGal_redKept | with_reducible apply State.startStep_redKept)

theorem State.countGen_redKept (src gal dest : Nat) (hk : RedKept s0 s) : RedKept s0 (State.countGen s src gal
    dest) := by
  unfold State.countGen
  repeat' (first | with_reducible assumption | (with_reducible apply RedKept.ite) <;> intro _
                 | with_reducible apply State.mgmtSend_redKept | with_reducible apply State.askStep_redKept
                 | with_reducible exact RedKept.same ‹_›)

theorem State.trySend_redKept (o : Outst) (hk : RedKept s0 s) : RedKept s0 (State.trySend s o).1 := by
  unfold State.trySend
  dsimp only
  repeat' (first | with_reducible apply State.enqueue_redKept | with_reducible apply State.countGen_redKept
                 | with_reducible exact RedKept.same ‹_› | split)

theorem State.sendOrHold_redKept (o : Outst) (hk : RedKept s0 s) : RedKept s0 (State.sendOrHold s o).1 := by
  unfold State.sendOrHold
  repeat' (first | with_reducible assumption | with_reducible apply State.trySend_redKept
                 | with_reducible refine RedKept.ofEq ‹_› ?_ | split | with_reducible refine RedKept.same ?_)

theorem State.markColour_redKept (p gal size : Nat) (hk : RedKept s0 s) : RedKept s0 (State.markColour s p gal
    size).1 := by
  unfold State.markColour
  repeat' (first | with_reducible assumption | with_reducible apply State.draw_redKept
                 | with_reducible apply State.modDocent_redKept)

theorem State.request_redKept (src : Nat) (org : Origin) (group : Option Nat) (gal ftype vc lines fpa param : Nat)
    (payload : Bytes) (tr : Option (Nat × Nat × Bool)) (hk : RedKept s0 s) : RedKept s0 (State.request s src org
    group gal ftype vc lines fpa param payload tr).1 := by
  unfold State.request
  repeat' (first | with_reducible assumption | (with_reducible apply RedKept.iteFst) <;> intro _
                 | with_reducible apply State.sendOrHold_redKept | with_reducible apply State.markColour_redKept
                 | with_reducible refine RedKept.same ?_)

theorem State.endStream_redKept (p : Nat) (st : Stream) (hk : RedKept s0 s) : RedKept s0 (State.endStream s p
    st) := by
  unfold State.endStream
  repeat' (first | with_reducible assumption | with_reducible apply State.modDocent_redKept
                 | with_reducible refine RedKept.same ?_)

theorem State.redPieces_redKept (src : Nat) (org : Origin) (kind gal node : Nat) (port : Option Nat) (l : List
    Bytes) (hk : RedKept s0 s) : RedKept s0 ((s.redPieces src org kind gal node port l).1) := by
  induction l generalizing s with
  | nil =>
    unfold State.redPieces
    try dsimp only
    repeat' (first | with_reducible assumption)
  | cons b t ih =>
    unfold State.redPieces
    try dsimp only
    repeat' (first | with_reducible assumption | with_reducible apply State.request_redKept | with_reducible apply ih
                   | with_reducible refine RedKept.ofEq ‹_› ?_ | split)

theorem State.redSend_redKept (src : Nat) (org : Origin) (kind gal node : Nat) (port : Option Nat) (sched inst :
    Nat) (nums : List Nat) (bs : Bytes) (hk : RedKept s0 s) : RedKept s0 (State.redSend s src org kind gal node
    port sched inst nums bs).1 := by
  unfold State.redSend
  repeat' (first | with_reducible assumption | with_reducible apply State.out_redKept
                 | with_reducible apply State.redPieces_redKept)

theorem State.sendAbort_redKept (gal node : Nat) (port : Option Nat) (sched inst status : Nat) (pathLost : Bool)
    (begun : Option (Nat × Nat)) (hk : RedKept s0 s) : RedKept s0 (State.sendAbort s gal node port sched inst
    status pathLost begun) := by
  unfold State.sendAbort
  repeat' (first | with_reducible assumption | with_reducible apply State.redSend_redKept)

theorem State.orphan_redKept (sel : Origin → Bool) (hk : RedKept s0 s) : RedKept s0 (State.orphan s sel) := by
  unfold State.orphan
  repeat' (first | with_reducible assumption | with_reducible apply State.mcUnsent_redKept
                 | with_reducible refine RedKept.same ?_)

theorem State.copiesGone_redKept (ops : List Op) (hk : RedKept s0 s) : RedKept s0 (State.copiesGone s ops) := by
  unfold State.copiesGone
  repeat' (first | with_reducible assumption | with_reducible apply RedKept.foldl
                 | with_reducible apply State.mcRelease_redKept)

theorem State.withdrawMember_redKept (g : Nat) (o : Op) (own : Nat) (pathLost : Bool) (hk : RedKept s0 s) : RedKept
    s0 (State.withdrawMember s g o own pathLost) := by
  unfold State.withdrawMember
  repeat' (first | with_reducible assumption | with_reducible apply State.redSend_redKept | split)

theorem State.withdrawWait_redKept (g : Nat) (hk : RedKept s0 s) : RedKept s0 (State.withdrawWait s g) := by
  unfold State.withdrawWait
  dsimp only
  repeat' (first | with_reducible apply State.request_redKept | with_reducible exact RedKept.same ‹_›
                 | split)

theorem State.beginEnding_redKept (g : Nat) (hk : RedKept s0 s) : RedKept s0 (State.beginEnding s g) := by
  unfold State.beginEnding
  dsimp only
  repeat' (first | with_reducible assumption | with_reducible apply State.modCtx_redKept
                 | with_reducible apply State.withdrawWait_redKept | with_reducible apply State.endStream_redKept | split)

theorem State.endLater_redKept (g i : Nat) (hk : RedKept s0 s) : RedKept s0 (State.endLater s g i) := by
  unfold State.endLater
  repeat' (first | with_reducible assumption | with_reducible apply RedKept.foldl | intro _
                 | with_reducible apply State.copiesGone_redKept | with_reducible apply State.modCtx_redKept
                 | with_reducible apply State.withdrawMember_redKept | with_reducible apply State.orphan_redKept)

theorem State.opFailing_redKept (g i : Nat) (hk : RedKept s0 s) : RedKept s0 (State.opFailing s g i) := by
  unfold State.opFailing
  repeat' (first | with_reducible assumption | with_reducible apply State.endLater_redKept
                 | with_reducible apply State.beginEnding_redKept)

theorem State.instrFail_redKept (g status : Nat) (hk : RedKept s0 s) : RedKept s0 (State.instrFail s g status) := by
  unfold State.instrFail
  repeat' (first | with_reducible assumption | with_reducible apply State.modCtx_redKept
                 | with_reducible apply State.beginEnding_redKept)

theorem State.goTo_redKept (g pc : Nat) (hk : RedKept s0 s) : RedKept s0 (State.goTo s g pc) := by
  unfold State.goTo
  repeat' (first | with_reducible assumption | (with_reducible apply RedKept.ite) <;> intro _
                 | with_reducible apply State.modCtx_redKept | with_reducible apply State.instrFail_redKept)

theorem State.queueFreed_redKept (p : Nat) (hk : RedKept s0 s) : RedKept s0 (State.queueFreed s p) := by
  unfold State.queueFreed
  repeat' (first | with_reducible assumption | (with_reducible apply RedKept.ite) <;> intro _
                 | with_reducible apply RedKept.foldl | intro _ | with_reducible apply State.goTo_redKept)

theorem State.modOp_redKept (g i : Nat) (f : Op → Op) (hk : RedKept s0 s) : RedKept s0 (State.modOp s g i f) := by
  unfold State.modOp
  repeat' (first | with_reducible assumption | with_reducible apply State.modCtx_redKept)

theorem State.opFailed_redKept (g i status delivered : Nat) (hk : RedKept s0 s) : RedKept s0 (State.opFailed s g
    i status delivered) := by
  unfold State.opFailed
  repeat' (first | with_reducible assumption | with_reducible apply State.copiesGone_redKept
                 | with_reducible apply State.modCtx_redKept | with_reducible apply State.opFailing_redKept
                 | with_reducible apply State.queueFreed_redKept | with_reducible apply State.beginEnding_redKept | split)

theorem State.mcCopy_redKept (cells refs : Nat) (result : Bool) (hk : RedKept s0 s) : RedKept s0
    (State.mcCopy s cells refs result).1 := by
  unfold State.mcCopy
  repeat' (first | (with_reducible apply RedKept.iteFst) <;> intro _ | with_reducible exact RedKept.same ‹_›)

theorem State.schedSwitch_redKept (p id : Nat) (epoch : Bool) (hk : RedKept s0 s) : RedKept s0
    (State.schedSwitch s p id epoch) := by
  unfold State.schedSwitch
  repeat' (first | with_reducible assumption | with_reducible exact RedKept.same ‹_› | split)

theorem State.collFailed_redKept (g i status : Nat) (withdraw pathLost : Bool) (hk : RedKept s0 s) : RedKept s0
    (State.collFailed s g i status withdraw pathLost) := by
  unfold State.collFailed
  repeat' (first | with_reducible assumption | with_reducible apply State.withdrawMember_redKept
                 | with_reducible apply State.schedSwitch_redKept | with_reducible apply State.opFailed_redKept | split)

theorem State.modCol_redKept (g i : Nat) (f : Coll → Coll) (hk : RedKept s0 s) : RedKept s0 (State.modCol s g i
    f) := by
  unfold State.modCol
  repeat' (first | with_reducible assumption | with_reducible apply State.modOp_redKept)

theorem State.abortSettle_redKept (g i : Nat) (o : Op) (a : AbortNote) (hk : RedKept s0 s) : RedKept s0
    (State.abortSettle s g i o a) := by
  unfold State.abortSettle
  repeat' (first | with_reducible assumption | (with_reducible apply RedKept.ite) <;> intro _
                 | with_reducible apply State.collFailed_redKept)

theorem State.collSettle_redKept (g i : Nat) (hk : RedKept s0 s) : RedKept s0 (State.collSettle s g i) := by
  unfold State.collSettle
  dsimp only
  repeat' (first | with_reducible assumption | with_reducible apply State.modOp_redKept
                 | with_reducible apply State.abortSettle_redKept | with_reducible apply State.collFailed_redKept | split)

theorem State.deliveryLost_redKept (sched inst rank status : Nat) (hk : RedKept s0 s) : RedKept s0
    (State.deliveryLost s sched inst rank status) := by
  unfold State.deliveryLost
  dsimp only
  repeat' (first | with_reducible assumption | with_reducible apply State.modCol_redKept
                 | with_reducible apply State.redSend_redKept | with_reducible apply State.collSettle_redKept | split)

theorem State.resultOut_redKept (id : Nat) (k : ResultPkt) (l : List (Nat × Nat × Nat)) (hk : RedKept s0 s) :
    RedKept s0 (s.resultOut id k l) := by
  induction l generalizing s with
  | nil =>
    unfold State.resultOut
    try dsimp only
    repeat' (first | with_reducible assumption)
  | cons x t ih =>
    unfold State.resultOut
    try dsimp only
    repeat' (first | with_reducible assumption | with_reducible apply State.out_redKept
                   | with_reducible apply State.mcRelease_redKept | with_reducible apply State.request_redKept
                   | with_reducible apply State.deliveryLost_redKept | with_reducible apply ih
                   | with_reducible refine RedKept.ofEq ‹_› ?_ | split)

theorem State.resultsGo_redKept (l : List ResultPkt) (hk : RedKept s0 s) : RedKept s0 (s.resultsGo l) := by
  induction l generalizing s with
  | nil => exact hk.outbox []
  | cons k t ih =>
    unfold State.resultsGo
    split
    · exact ih (RedKept.foldl (fun s _ h => State.sendAbort_redKept _ _ _ _ _ _ _ _ h) hk)
    · have h := State.mcCopy_redKept (packetCells k.bytes) k.dests.length true hk
      split
      · exact (RedKept.ofEq ‹_› h).outbox _
      · exact ih (State.resultOut_redKept _ _ _ (RedKept.ofEq ‹_› h))

theorem State.pumpResults_redKept (hk : RedKept s0 s) : RedKept s0 (State.pumpResults s) :=
  State.resultsGo_redKept _ hk

end Sys2Proof.Machine
end

