-- ==== Sys2Proof/Laws/Narrow.lean ====
section
/-! SUPPORT. What records, completions and messages to hosts do: they change the functions, and the vault's bytes
and check symbols, and no other field. -/

set_option Elab.async false

namespace Sys2Proof.Machine

/-- From `s` to `t` nothing changes but the functions and the vault's bytes and check symbols. -/
def Narrow (s t : State) : Prop :=
  t = { s with fns := t.fns, vault := { s.vault with mem := t.vault.mem, bad := t.vault.bad } }

variable {s t u : State}

theorem Narrow.refl (s : State) : Narrow s s := rfl

theorem Narrow.trans (h : Narrow s t) (k : Narrow t u) : Narrow s u := by
  unfold Narrow at *
  rw [k, h]

theorem Narrow.foldl {α : Type} {f : State → α → State} (hf : ∀ s x, Narrow s (f s x)) (l : List α) (s : State) :
    Narrow s (l.foldl f s) := by
  induction l generalizing s with
  | nil => exact Narrow.refl s
  | cons x l ih => exact (hf s x).trans (ih _)

theorem Narrow.pending_eq (h : Narrow s t) : t.pending = s.pending :=
  (congrArg State.pending (show t = _ from h)).trans rfl
theorem Narrow.ctl_eq (h : Narrow s t) : t.ctl = s.ctl :=
  (congrArg State.ctl (show t = _ from h)).trans rfl
theorem Narrow.pwr_eq (h : Narrow s t) : t.pwr = s.pwr :=
  (congrArg State.pwr (show t = _ from h)).trans rfl
theorem Narrow.clk_eq (h : Narrow s t) : t.clk = s.clk :=
  (congrArg State.clk (show t = _ from h)).trans rfl
theorem Narrow.own_eq (h : Narrow s t) : t.own = s.own :=
  (congrArg State.own (show t = _ from h)).trans rfl
theorem Narrow.cur_eq (h : Narrow s t) : t.cur = s.cur :=
  (congrArg State.cur (show t = _ from h)).trans rfl
theorem Narrow.flash_eq (h : Narrow s t) : t.flash = s.flash :=
  (congrArg State.flash (show t = _ from h)).trans rfl
theorem Narrow.svc_eq (h : Narrow s t) : t.svc = s.svc :=
  (congrArg State.svc (show t = _ from h)).trans rfl
theorem Narrow.docents_eq (h : Narrow s t) : t.docents = s.docents :=
  (congrArg State.docents (show t = _ from h)).trans rfl
theorem Narrow.links_eq (h : Narrow s t) : t.links = s.links :=
  (congrArg State.links (show t = _ from h)).trans rfl
theorem Narrow.lanes_eq (h : Narrow s t) : t.lanes = s.lanes :=
  (congrArg State.lanes (show t = _ from h)).trans rfl
theorem Narrow.swcPorts_eq (h : Narrow s t) : t.swcPorts = s.swcPorts :=
  (congrArg State.swcPorts (show t = _ from h)).trans rfl
theorem Narrow.ctxs_eq (h : Narrow s t) : t.ctxs = s.ctxs :=
  (congrArg State.ctxs (show t = _ from h)).trans rfl
theorem Narrow.gals_eq (h : Narrow s t) : t.gals = s.gals :=
  (congrArg State.gals (show t = _ from h)).trans rfl
theorem Narrow.sos_eq (h : Narrow s t) : t.sos = s.sos :=
  (congrArg State.sos (show t = _ from h)).trans rfl
theorem Narrow.waitRefused_eq (h : Narrow s t) : t.waitRefused = s.waitRefused :=
  (congrArg State.waitRefused (show t = _ from h)).trans rfl
theorem Narrow.trn_eq (h : Narrow s t) : t.trn = s.trn :=
  (congrArg State.trn (show t = _ from h)).trans rfl
theorem Narrow.red_eq (h : Narrow s t) : t.red = s.red :=
  (congrArg State.red (show t = _ from h)).trans rfl
theorem Narrow.cat_eq (h : Narrow s t) : t.cat = s.cat :=
  (congrArg State.cat (show t = _ from h)).trans rfl
theorem Narrow.sec_eq (h : Narrow s t) : t.sec = s.sec :=
  (congrArg State.sec (show t = _ from h)).trans rfl
theorem Narrow.tel_eq (h : Narrow s t) : t.tel = s.tel :=
  (congrArg State.tel (show t = _ from h)).trans rfl
theorem Narrow.swc_eq (h : Narrow s t) : t.swc = s.swc :=
  (congrArg State.swc (show t = _ from h)).trans rfl
theorem Narrow.seqs_eq (h : Narrow s t) : t.seqs = s.seqs :=
  (congrArg State.seqs (show t = _ from h)).trans rfl
theorem Narrow.genCount_eq (h : Narrow s t) : t.genCount = s.genCount :=
  (congrArg State.genCount (show t = _ from h)).trans rfl
theorem Narrow.replay_eq (h : Narrow s t) : t.replay = s.replay :=
  (congrArg State.replay (show t = _ from h)).trans rfl
theorem Narrow.held_eq (h : Narrow s t) : t.held = s.held :=
  (congrArg State.held (show t = _ from h)).trans rfl
theorem Narrow.lostFor_eq (h : Narrow s t) : t.lostFor = s.lostFor :=
  (congrArg State.lostFor (show t = _ from h)).trans rfl
theorem Narrow.windows_eq (h : Narrow s t) : t.windows = s.windows :=
  (congrArg State.windows (show t = _ from h)).trans rfl
theorem Narrow.arv_eq (h : Narrow s t) : t.arv = s.arv :=
  (congrArg State.arv (show t = _ from h)).trans rfl
theorem Narrow.arrived_eq (h : Narrow s t) : t.arrived = s.arrived :=
  (congrArg State.arrived (show t = _ from h)).trans rfl
theorem Narrow.epIn_eq (h : Narrow s t) : t.epIn = s.epIn :=
  (congrArg State.epIn (show t = _ from h)).trans rfl
theorem Narrow.outputs_eq (h : Narrow s t) : t.outputs = s.outputs :=
  (congrArg State.outputs (show t = _ from h)).trans rfl
theorem Narrow.freeCtr_eq (h : Narrow s t) : t.freeCtr = s.freeCtr :=
  (congrArg State.freeCtr (show t = _ from h)).trans rfl
theorem Narrow.dies_eq (h : Narrow s t) : t.vault.dies = s.vault.dies :=
  (congrArg (fun x => x.vault.dies) (show t = _ from h)).trans rfl

theorem State.modFn_narrow (s : State) (f : Nat) (g : Fn → Fn) : Narrow s (s.modFn f g) := rfl
theorem State.vmWrite_narrow (s : State) (a : Nat) (b : Bytes) : Narrow s (s.vmWrite a b) := rfl
theorem State.vmZero_narrow (s : State) (a n : Nat) : Narrow s (s.vmZero a n) := rfl

theorem State.ringPut_narrow (s : State) (f r : Nat) (b : Bytes) : Narrow s (s.ringPut f r b) :=
  (State.vmWrite_narrow s _ b).trans (State.modFn_narrow _ _ _)

theorem State.incPut_narrow (s : State) (f : Nat) (r : Incident) : Narrow s (s.incPut f r) :=
  (State.ringPut_narrow s _ _ _).trans (State.modFn_narrow _ _ _)

theorem State.incLose_narrow (s : State) (f c : Nat) : Narrow s (s.incLose f c) := State.modFn_narrow _ _ _

theorem State.incident_narrow (s : State) (f : Nat) (r : Incident) : Narrow s (s.incident f r) := by
  unfold State.incident
  dsimp only
  split
  · exact State.incPut_narrow _ _ _
  · exact State.incLose_narrow _ _ _

theorem State.curEvent_narrow (s : State) (a b c d : Nat) : Narrow s (s.curEvent a b c d) := State.incident_narrow _ _ _

theorem State.galIncident_narrow (s : State) (g : Nat) (r : Incident) : Narrow s (s.galIncident g r) := by
  unfold State.galIncident
  split
  · exact State.incident_narrow _ _ _
  · exact Narrow.refl _

theorem State.measChanged_narrow (s : State) (i : Nat) : Narrow s (s.measChanged i) := by
  refine (State.incident_narrow s 0 _).trans (Narrow.foldl (fun s x => ?_) _ _)
  split
  · exact State.incident_narrow _ _ _
  · exact Narrow.refl _

theorem State.galStateRecord_narrow (s : State) (g old c f : Nat) : Narrow s (s.galStateRecord g old c f) := by
  unfold State.galStateRecord
  dsimp only
  split
  · exact State.incident_narrow _ _ _
  · exact (State.incident_narrow _ _ _).trans (State.incident_narrow _ _ _)

theorem State.setGalState_narrow (s : State) (g : Nat) (st : GalState) (c : Nat) :
    Narrow (s.modGal g fun x => { x with state := st }) (s.setGalState g st c) := State.galStateRecord_narrow _ _ _ _ _

theorem State.startTaken_narrow (s : State) (t : Taken) : Narrow s (s.startTaken t) := State.modFn_narrow _ _ _

theorem State.complete_narrow (s : State) (t : Taken) (a b : Nat) : Narrow s (s.complete t a b) := by
  unfold State.complete
  dsimp only
  split
  · exact State.modFn_narrow _ _ _
  · exact (State.modFn_narrow s _ _).trans (State.ringPut_narrow _ _ _ _)

theorem State.setModState_narrow (s : State) (st : ModState) :
    Narrow { s with ctl := { s.ctl with state := st, changed := true } } (s.setModState st) := State.measChanged_narrow _ _

end Sys2Proof.Machine
end

