-- ==== Sys2Proof/Laws/Ops.lean ====
section
/-! SUPPORT. What the shared operations do: an accessor after the update of its own entry and of another, folds over
lanes and outputs, vault reads, commands taken from a ring, and what a step can do at all. -/

set_option Elab.async false

namespace Sys2Proof.Machine

/-! ### Steps -/

theorem exec_next_keeps (c : Instr) (s t : State) (h : exec c s = .next t) : Keeps (spares c) s t := by
  have k := exec_keeps c s
  rw [h] at k
  exact k

/-- Everything a step that answers a next state can do: let a flit time pass, which keeps every part, or perform the
front command, which keeps what `spares` names. -/
theorem step_next_cases (s t : State) (h : step s = .next t) :
    (s.pending = [] ∧ t = s.flitTime ∧ Keeps Part.all s t) ∨
    ∃ c rest, s.pending = c :: rest ∧ exec c { s with pending := rest } = .next t
      ∧ Keeps (spares c) { s with pending := rest } t := by
  unfold step at h
  cases hp : s.pending with
  | nil =>
    rw [hp] at h
    have e := Host.Outcome.next.inj h
    exact .inl ⟨rfl, e.symm, e ▸ State.flitTime_keeps (Keeps.refl _ _)⟩
  | cons c rest => rw [hp] at h; exact .inr ⟨c, rest, rfl, h, exec_next_keeps _ _ _ h⟩

/-! ### An accessor after an update -/

section
variable (s : State)

@[simp] theorem State.fn_modFn (n : Nat) (f : Fn → Fn) : (s.modFn n f).fn n = f (s.fn n) := by
  simp [State.fn, State.modFn, Tab.get_modify_same]
theorem State.fn_modFn_ne (n m : Nat) (f : Fn → Fn) (h : m ≠ n) : (s.modFn n f).fn m = s.fn m := by
  simp only [State.fn, State.modFn]; exact Tab.get_modify_ne _ _ _ h
@[simp] theorem State.gal_modGal (n : Nat) (f : Gallery → Gallery) : (s.modGal n f).gal n = f (s.gal n) := by
  simp [State.gal, State.modGal, Tab.get_modify_same]
theorem State.gal_modGal_ne (n m : Nat) (f : Gallery → Gallery) (h : m ≠ n) : (s.modGal n f).gal m = s.gal m := by
  simp only [State.gal, State.modGal]; exact Tab.get_modify_ne _ _ _ h
@[simp] theorem State.docent_modDocent (n : Nat) (f : Docent → Docent) : (s.modDocent n f).docent n = f (s.docent n) := by
  simp [State.docent, State.modDocent, Tab.get_modify_same]
theorem State.docent_modDocent_ne (n m : Nat) (f : Docent → Docent) (h : m ≠ n) :
    (s.modDocent n f).docent m = s.docent m := by
  simp only [State.docent, State.modDocent]; exact Tab.get_modify_ne _ _ _ h
@[simp] theorem State.link_modLink (n : Nat) (f : Link → Link) : (s.modLink n f).link n = f (s.link n) := by
  simp [State.link, State.modLink, Tab.get_modify_same]
theorem State.link_modLink_ne (n m : Nat) (f : Link → Link) (h : m ≠ n) : (s.modLink n f).link m = s.link m := by
  simp only [State.link, State.modLink]; exact Tab.get_modify_ne _ _ _ h
@[simp] theorem State.lane_modLane (n i : Nat) (f : Lane → Lane) : (s.modLane n i f).lane n i = f (s.lane n i) := by
  simp [State.lane, State.modLane, Tab.get_modify_same]
theorem State.lane_modLane_ne (n i j : Nat) (f : Lane → Lane) (h : j ≠ i) : (s.modLane n i f).lane n j = s.lane n j := by
  simp only [State.lane, State.modLane]; exact Tab.get_modify_ne _ _ _ (by omega)
@[simp] theorem State.ctx_modCtx (n : Nat) (f : Ctx → Ctx) : (s.modCtx n f).ctx n = f (s.ctx n) := by
  simp [State.ctx, State.modCtx, Tab.get_modify_same]
theorem State.ctx_modCtx_ne (n m : Nat) (f : Ctx → Ctx) (h : m ≠ n) : (s.modCtx n f).ctx m = s.ctx m := by
  simp only [State.ctx, State.modCtx]; exact Tab.get_modify_ne _ _ _ h
theorem Docent.slot_modSlot (d : Docent) (k : Nat) (f : KeySlot → KeySlot) : (d.modSlot k f).slot k = f (d.slot k) := by
  simp [Docent.slot, Docent.modSlot, Tab.get_modify_same]

end

/-! ### Folds -/

/-- What no step of a fold changes, the fold does not change. -/
theorem foldl_same {α β : Type} (g : State → β) (f : State → α → State) (hf : ∀ s x, g (f s x) = g s) (l : List α)
    (s : State) : g (l.foldl f s) = g s := by
  induction l generalizing s with
  | nil => rfl
  | cons x l ih => simp only [List.foldl]; rw [ih, hf]

@[simp] theorem State.modLanes_link (s : State) (p q : Nat) (f : Nat → Lane → Lane) : (s.modLanes q f).link p = s.link p :=
  foldl_same (fun s => s.link p) (fun s i => s.modLane q i (f i)) (fun _ _ => rfl) _ _
@[simp] theorem State.modLanes_outputs (s : State) (q : Nat) (f : Nat → Lane → Lane) :
    (s.modLanes q f).outputs = s.outputs :=
  foldl_same (fun s => s.outputs) (fun s i => s.modLane q i (f i)) (fun _ _ => rfl) _ _
theorem lane_foldl (p i : Nat) (f : Nat → Lane → Lane) (l : List Nat) (hl : l.Nodup) (s : State) :
    (l.foldl (fun s i => s.modLane p i (f i)) s).lane p i = if i ∈ l then f i (s.lane p i) else s.lane p i := by
  induction l generalizing s with
  | nil => simp
  | cons x l ih =>
    simp only [List.foldl]
    rw [ih (List.nodup_cons.mp hl).2]
    have hx := (List.nodup_cons.mp hl).1
    by_cases h : i = x
    · subst h; rw [if_neg hx, State.lane_modLane]; simp
    · rw [State.lane_modLane_ne _ _ _ _ _ h]; simp [h]
theorem State.lane_modLanes (s : State) (p i : Nat) (f : Nat → Lane → Lane) (h : i < 8) :
    (s.modLanes p f).lane p i = f i (s.lane p i) := by
  unfold State.modLanes
  rw [lane_foldl p i f _ (by decide) s]; simp [h]
theorem outputs_flits (p : Nat) (l : List TxFlit) (s : State) :
    (l.foldl (fun s f => s.out (.flit p f)) s).outputs = (l.map fun x => Output.flit p x).reverse ++ s.outputs := by
  induction l generalizing s with
  | nil => rfl
  | cons x l ih => simp only [List.foldl]; rw [ih]; simp [State.out]

/-! ### The transmitter -/

/-- The state but for what a transmitter changes: the links, their lanes, the outputs and the free-value counter. -/
def State.offWire (s : State) : State := { s with links := [], lanes := [], outputs := [], freeCtr := 0 }

@[simp] theorem State.offWire_modLink (s : State) (p : Nat) (f : Link → Link) : (s.modLink p f).offWire = s.offWire := rfl
@[simp] theorem State.offWire_modLane (s : State) (p i : Nat) (f : Lane → Lane) :
    (s.modLane p i f).offWire = s.offWire := rfl
@[simp] theorem State.offWire_out (s : State) (o : Output) : (s.out o).offWire = s.offWire := rfl
@[simp] theorem State.offWire_draw (s : State) : s.draw.offWire = s.offWire := rfl
@[simp] theorem State.offWire_wire (s : State) (p : Nat) (hdr : Word) (body : Bytes) :
    (s.wire p hdr body).offWire = s.offWire := by
  simp only [State.wire, State.offWire_out]
  apply foldl_same State.offWire
  exact fun _ _ => rfl
@[simp] theorem State.offWire_sendFiller (s : State) (p : Nat) : (s.sendFiller p).offWire = s.offWire := by
  simp only [State.sendFiller, State.offWire_wire, State.offWire_out, State.offWire_modLink]
@[simp] theorem State.offWire_flitOut (s : State) (p : Nat) (o : Output) (hdr : Word) (body : Bytes) :
    (s.flitOut p o hdr body).offWire = s.offWire := by
  simp only [State.flitOut]
  split <;> simp
@[simp] theorem State.offWire_sendData (s : State) (p : Nat) (f : TxFlit) : (s.sendData p f).offWire = s.offWire := by
  simp [State.sendData]
@[simp] theorem State.offWire_ctrlOut (s : State) (p : Nat) (nak : Bool) (credit : Option (Nat × Nat)) (idle : Bool)
    (notices : List Nat) : (s.ctrlOut p nak credit idle notices).offWire = s.offWire := by
  simp [State.ctrlOut]
@[simp] theorem State.offWire_sendCtrl (s : State) (p : Nat) (nak : Bool) (credit : Option (Nat × Nat)) :
    (s.sendCtrl p nak credit).offWire = s.offWire := by
  simp only [State.sendCtrl]
  split <;> simp
theorem State.offWire_linkPump (s : State) (p : Nat) : (s.linkPump p).offWire = s.offWire := by
  simp only [State.linkPump]
  split
  · rfl
  · refine (foldl_same State.offWire _ (fun _ _ => State.offWire_sendData _ _ _) _ _).trans ?_
    rfl
theorem State.offWire_linkSend (s : State) (p vc cls : Nat) (hdr : Header) (payload tag : Bytes) :
    (s.linkSend p vc cls hdr payload tag).offWire = s.offWire :=
  State.offWire_linkPump _ _
@[simp] theorem State.offWire_nakAgain (s : State) (p : Nat) : (s.nakAgain p).offWire = s.offWire := by
  simp only [State.nakAgain]
  split <;> simp
/-- A flit time touches nothing but the transmitters. -/
theorem State.offWire_flitTime (s : State) : s.flitTime.offWire = s.offWire := by
  unfold State.flitTime
  exact foldl_same State.offWire _ (fun s p => by split <;> simp) _ _

/-! ### Values -/

/-- Writing all eight bytes of a register gives the written word (00_scope.md R20). -/
theorem merge_full (a b v : Word) : merge a b v true true = v := by
  have : covered true true = BitVec.allOnes 64 := by decide
  simp only [merge, this, BitVec.not_allOnes, BitVec.and_zero, BitVec.zero_or, BitVec.and_allOnes]

/-- A vault read with no erroneous codeword in its range changes nothing and gives the bytes (08_vault.md R476). -/
theorem State.vmRead_clean (s : State) (a n : Nat) (h : s.badIn a n = []) : s.vmRead a n = (s, some (s.vmBytes a n)) := by
  simp [State.vmRead, h, State.vmTouch]

theorem State.serving_state (s : State) (h : s.serving = true) : servingStates.contains s.ctl.state = true := by
  simp [State.serving] at h; rcases h with (h | h) | h <;> rw [h] <;> decide

/-! ### Commands taken from a ring -/

/-- A command that passes every check of R709 and R710 acts (12_host_interface.md). -/
theorem State.runTaken_acts {s : State} {c : CmdForm} {act : State → Taken → Bytes → State} {t : Taken} {b : Bytes}
    (h1 : t.rsv = false) (h2 : t.blockIn = true) (h3 : s.readBlock t = (s, some b)) (hl : c.lenOk t.paramLen = true)
    (ha : c.argsOk t.args = true) (hb : c.blockOk b = true) (hs : c.states.contains s.ctl.state = true) :
    s.runTaken t c act = act s t b := by
  simp only [State.runTaken, h1, h2, h3, hl, ha, hb, hs]; rfl
theorem State.runPf_acts {s : State} {p : Taken → Bool} {c : CmdForm} {act : State → Taken → Bytes → State} {t : Taken}
    {b : Bytes} (hc : s.cur.up = true) (ht : s.takenBy 0 p = some t) (h1 : t.rsv = false) (h2 : t.blockIn = true)
    (h3 : s.readBlock t = (s, some b)) (hl : c.lenOk t.paramLen = true) (ha : c.argsOk t.args = true)
    (hb : c.blockOk b = true) (hs : c.states.contains s.ctl.state = true) : s.runPf p c act = act s t b := by
  simp only [State.runPf, hc, ht, State.runTaken_acts h1 h2 h3 hl ha hb hs]; rfl

/-! ### A list's first match, updated -/

theorem find_modifyFirst {α : Type} (p : α → Bool) (f : α → α) (hf : ∀ a, p a = true → p (f a) = true) :
    ∀ (l : List α) a, l.find? p = some a → (modifyFirst p f l).find? p = some (f a)
  | [], a, h => by simp at h
  | b :: t, a, h => by
    unfold modifyFirst
    by_cases hb : p b = true
    · rw [List.find?_cons_of_pos hb] at h
      rw [if_pos hb, List.find?_cons_of_pos (hf b hb)]
      rw [Option.some.inj h]
    · rw [List.find?_cons_of_neg hb] at h
      rw [if_neg hb, List.find?_cons_of_neg hb]
      exact find_modifyFirst p f hf t a h

/-! ### Life history -/

theorem drop_after_header (m q k r : Nat) (tail : Bytes) :
    ((natLe 4 m ++ natLe 4 q ++ natLe 1 k ++ natLe 1 r ++ tail).drop 8).take 2 = [BitVec.ofNat 8 k, BitVec.ofNat 8 r] := by
  simp [natLe]
theorem State.recordBody_split (s : State) (a k r : Nat) :
    ∃ tail, s.recordBody a k r = natLe 4 recordMagic ++ natLe 4 a ++ natLe 1 k ++ natLe 1 r ++ tail := by
  refine ⟨(s.recordBody a k r).drop 10, ?_⟩
  unfold State.recordBody
  dsimp only
  repeat rw [List.append_assoc (natLe 4 recordMagic ++ natLe 4 a ++ natLe 1 k ++ natLe 1 r)]
  rw [List.drop_append_of_le_length (by simp [natLe])]
  simp [natLe]
/-- Bytes 8 and 9 of a life-history record are its kind and its reason. -/
theorem State.record_kind (s : State) (a k r : Nat) :
    ((s.record a k r).drop 8).take 2 = [BitVec.ofNat 8 k, BitVec.ofNat 8 r] := by
  obtain ⟨t, ht⟩ := s.recordBody_split a k r
  unfold State.record
  rw [ht]
  simp only [List.append_assoc]
  rw [← List.append_assoc, ← List.append_assoc, ← List.append_assoc]
  exact drop_after_header _ _ _ _ _

end Sys2Proof.Machine
end

