-- ==== Sys2Proof/Laws/Sha.lean ====
section
/-! SUPPORT. SHA-384 always gives 48 bytes. -/

set_option Elab.async false

namespace Sys2Proof.Machine

theorem natLe_length (n v : Nat) : (natLe n v).length = n := by
  induction n generalizing v with
  | zero => rfl
  | succ n ih => simp [natLe, ih]

theorem sha384_length (m : Bytes) : (sha384 m).length = 48 := by simp [sha384, natLe_length]

end Sys2Proof.Machine
end

