-- ==== Sys2Proof/Laws/State.lean ====
section
/-! SUPPORT. What an update of one record does to each field of the state: it changes its own field and no other.
The lemmas are true by definition; with them no proof unfolds an update. -/

namespace Sys2Proof.Machine

variable (s : State)

/-! `modFn` changes `fns` alone. -/

@[simp] theorem State.modFn_pending (f : Nat) (g : Fn → Fn) : (s.modFn f g).pending = s.pending := rfl
@[simp] theorem State.modFn_ctl (f : Nat) (g : Fn → Fn) : (s.modFn f g).ctl = s.ctl := rfl
@[simp] theorem State.modFn_pwr (f : Nat) (g : Fn → Fn) : (s.modFn f g).pwr = s.pwr := rfl
@[simp] theorem State.modFn_clk (f : Nat) (g : Fn → Fn) : (s.modFn f g).clk = s.clk := rfl
@[simp] theorem State.modFn_own (f : Nat) (g : Fn → Fn) : (s.modFn f g).own = s.own := rfl
@[simp] theorem State.modFn_cur (f : Nat) (g : Fn → Fn) : (s.modFn f g).cur = s.cur := rfl
@[simp] theorem State.modFn_flash (f : Nat) (g : Fn → Fn) : (s.modFn f g).flash = s.flash := rfl
@[simp] theorem State.modFn_svc (f : Nat) (g : Fn → Fn) : (s.modFn f g).svc = s.svc := rfl
@[simp] theorem State.modFn_docents (f : Nat) (g : Fn → Fn) : (s.modFn f g).docents = s.docents := rfl
@[simp] theorem State.modFn_links (f : Nat) (g : Fn → Fn) : (s.modFn f g).links = s.links := rfl
@[simp] theorem State.modFn_lanes (f : Nat) (g : Fn → Fn) : (s.modFn f g).lanes = s.lanes := rfl
@[simp] theorem State.modFn_swcPorts (f : Nat) (g : Fn → Fn) : (s.modFn f g).swcPorts = s.swcPorts := rfl
@[simp] theorem State.modFn_ctxs (f : Nat) (g : Fn → Fn) : (s.modFn f g).ctxs = s.ctxs := rfl
@[simp] theorem State.modFn_gals (f : Nat) (g : Fn → Fn) : (s.modFn f g).gals = s.gals := rfl
@[simp] theorem State.modFn_sos (f : Nat) (g : Fn → Fn) : (s.modFn f g).sos = s.sos := rfl
@[simp] theorem State.modFn_waitRefused (f : Nat) (g : Fn → Fn) : (s.modFn f g).waitRefused = s.waitRefused := rfl
@[simp] theorem State.modFn_vault (f : Nat) (g : Fn → Fn) : (s.modFn f g).vault = s.vault := rfl
@[simp] theorem State.modFn_trn (f : Nat) (g : Fn → Fn) : (s.modFn f g).trn = s.trn := rfl
@[simp] theorem State.modFn_red (f : Nat) (g : Fn → Fn) : (s.modFn f g).red = s.red := rfl
@[simp] theorem State.modFn_cat (f : Nat) (g : Fn → Fn) : (s.modFn f g).cat = s.cat := rfl
@[simp] theorem State.modFn_sec (f : Nat) (g : Fn → Fn) : (s.modFn f g).sec = s.sec := rfl
@[simp] theorem State.modFn_tel (f : Nat) (g : Fn → Fn) : (s.modFn f g).tel = s.tel := rfl
@[simp] theorem State.modFn_swc (f : Nat) (g : Fn → Fn) : (s.modFn f g).swc = s.swc := rfl
@[simp] theorem State.modFn_seqs (f : Nat) (g : Fn → Fn) : (s.modFn f g).seqs = s.seqs := rfl
@[simp] theorem State.modFn_genCount (f : Nat) (g : Fn → Fn) : (s.modFn f g).genCount = s.genCount := rfl
@[simp] theorem State.modFn_replay (f : Nat) (g : Fn → Fn) : (s.modFn f g).replay = s.replay := rfl
@[simp] theorem State.modFn_held (f : Nat) (g : Fn → Fn) : (s.modFn f g).held = s.held := rfl
@[simp] theorem State.modFn_lostFor (f : Nat) (g : Fn → Fn) : (s.modFn f g).lostFor = s.lostFor := rfl
@[simp] theorem State.modFn_windows (f : Nat) (g : Fn → Fn) : (s.modFn f g).windows = s.windows := rfl
@[simp] theorem State.modFn_arv (f : Nat) (g : Fn → Fn) : (s.modFn f g).arv = s.arv := rfl
@[simp] theorem State.modFn_arrived (f : Nat) (g : Fn → Fn) : (s.modFn f g).arrived = s.arrived := rfl
@[simp] theorem State.modFn_epIn (f : Nat) (g : Fn → Fn) : (s.modFn f g).epIn = s.epIn := rfl
@[simp] theorem State.modFn_outputs (f : Nat) (g : Fn → Fn) : (s.modFn f g).outputs = s.outputs := rfl
@[simp] theorem State.modFn_freeCtr (f : Nat) (g : Fn → Fn) : (s.modFn f g).freeCtr = s.freeCtr := rfl
@[simp] theorem State.modFn_nextPkt (f : Nat) (g : Fn → Fn) : (s.modFn f g).nextPkt = s.nextPkt := rfl

/-! `modDocent` changes `docents` alone. -/

@[simp] theorem State.modDocent_pending (p : Nat) (g : Docent → Docent) : (s.modDocent p g).pending = s.pending := rfl
@[simp] theorem State.modDocent_ctl (p : Nat) (g : Docent → Docent) : (s.modDocent p g).ctl = s.ctl := rfl
@[simp] theorem State.modDocent_pwr (p : Nat) (g : Docent → Docent) : (s.modDocent p g).pwr = s.pwr := rfl
@[simp] theorem State.modDocent_clk (p : Nat) (g : Docent → Docent) : (s.modDocent p g).clk = s.clk := rfl
@[simp] theorem State.modDocent_own (p : Nat) (g : Docent → Docent) : (s.modDocent p g).own = s.own := rfl
@[simp] theorem State.modDocent_cur (p : Nat) (g : Docent → Docent) : (s.modDocent p g).cur = s.cur := rfl
@[simp] theorem State.modDocent_flash (p : Nat) (g : Docent → Docent) : (s.modDocent p g).flash = s.flash := rfl
@[simp] theorem State.modDocent_svc (p : Nat) (g : Docent → Docent) : (s.modDocent p g).svc = s.svc := rfl
@[simp] theorem State.modDocent_fns (p : Nat) (g : Docent → Docent) : (s.modDocent p g).fns = s.fns := rfl
@[simp] theorem State.modDocent_links (p : Nat) (g : Docent → Docent) : (s.modDocent p g).links = s.links := rfl
@[simp] theorem State.modDocent_lanes (p : Nat) (g : Docent → Docent) : (s.modDocent p g).lanes = s.lanes := rfl
@[simp] theorem State.modDocent_swcPorts (p : Nat) (g : Docent → Docent) : (s.modDocent p g).swcPorts = s.swcPorts := rfl
@[simp] theorem State.modDocent_ctxs (p : Nat) (g : Docent → Docent) : (s.modDocent p g).ctxs = s.ctxs := rfl
@[simp] theorem State.modDocent_gals (p : Nat) (g : Docent → Docent) : (s.modDocent p g).gals = s.gals := rfl
@[simp] theorem State.modDocent_sos (p : Nat) (g : Docent → Docent) : (s.modDocent p g).sos = s.sos := rfl
@[simp] theorem State.modDocent_waitRefused (p : Nat) (g : Docent → Docent) : (s.modDocent p g).waitRefused = s.waitRefused := rfl
@[simp] theorem State.modDocent_vault (p : Nat) (g : Docent → Docent) : (s.modDocent p g).vault = s.vault := rfl
@[simp] theorem State.modDocent_trn (p : Nat) (g : Docent → Docent) : (s.modDocent p g).trn = s.trn := rfl
@[simp] theorem State.modDocent_red (p : Nat) (g : Docent → Docent) : (s.modDocent p g).red = s.red := rfl
@[simp] theorem State.modDocent_cat (p : Nat) (g : Docent → Docent) : (s.modDocent p g).cat = s.cat := rfl
@[simp] theorem State.modDocent_sec (p : Nat) (g : Docent → Docent) : (s.modDocent p g).sec = s.sec := rfl
@[simp] theorem State.modDocent_tel (p : Nat) (g : Docent → Docent) : (s.modDocent p g).tel = s.tel := rfl
@[simp] theorem State.modDocent_swc (p : Nat) (g : Docent → Docent) : (s.modDocent p g).swc = s.swc := rfl
@[simp] theorem State.modDocent_seqs (p : Nat) (g : Docent → Docent) : (s.modDocent p g).seqs = s.seqs := rfl
@[simp] theorem State.modDocent_genCount (p : Nat) (g : Docent → Docent) : (s.modDocent p g).genCount = s.genCount := rfl
@[simp] theorem State.modDocent_replay (p : Nat) (g : Docent → Docent) : (s.modDocent p g).replay = s.replay := rfl
@[simp] theorem State.modDocent_held (p : Nat) (g : Docent → Docent) : (s.modDocent p g).held = s.held := rfl
@[simp] theorem State.modDocent_lostFor (p : Nat) (g : Docent → Docent) : (s.modDocent p g).lostFor = s.lostFor := rfl
@[simp] theorem State.modDocent_windows (p : Nat) (g : Docent → Docent) : (s.modDocent p g).windows = s.windows := rfl
@[simp] theorem State.modDocent_arv (p : Nat) (g : Docent → Docent) : (s.modDocent p g).arv = s.arv := rfl
@[simp] theorem State.modDocent_arrived (p : Nat) (g : Docent → Docent) : (s.modDocent p g).arrived = s.arrived := rfl
@[simp] theorem State.modDocent_epIn (p : Nat) (g : Docent → Docent) : (s.modDocent p g).epIn = s.epIn := rfl
@[simp] theorem State.modDocent_outputs (p : Nat) (g : Docent → Docent) : (s.modDocent p g).outputs = s.outputs := rfl
@[simp] theorem State.modDocent_freeCtr (p : Nat) (g : Docent → Docent) : (s.modDocent p g).freeCtr = s.freeCtr := rfl
@[simp] theorem State.modDocent_nextPkt (p : Nat) (g : Docent → Docent) : (s.modDocent p g).nextPkt = s.nextPkt := rfl

/-! `modLink` changes `links` alone. -/

@[simp] theorem State.modLink_pending (p : Nat) (g : Link → Link) : (s.modLink p g).pending = s.pending := rfl
@[simp] theorem State.modLink_ctl (p : Nat) (g : Link → Link) : (s.modLink p g).ctl = s.ctl := rfl
@[simp] theorem State.modLink_pwr (p : Nat) (g : Link → Link) : (s.modLink p g).pwr = s.pwr := rfl
@[simp] theorem State.modLink_clk (p : Nat) (g : Link → Link) : (s.modLink p g).clk = s.clk := rfl
@[simp] theorem State.modLink_own (p : Nat) (g : Link → Link) : (s.modLink p g).own = s.own := rfl
@[simp] theorem State.modLink_cur (p : Nat) (g : Link → Link) : (s.modLink p g).cur = s.cur := rfl
@[simp] theorem State.modLink_flash (p : Nat) (g : Link → Link) : (s.modLink p g).flash = s.flash := rfl
@[simp] theorem State.modLink_svc (p : Nat) (g : Link → Link) : (s.modLink p g).svc = s.svc := rfl
@[simp] theorem State.modLink_fns (p : Nat) (g : Link → Link) : (s.modLink p g).fns = s.fns := rfl
@[simp] theorem State.modLink_docents (p : Nat) (g : Link → Link) : (s.modLink p g).docents = s.docents := rfl
@[simp] theorem State.modLink_lanes (p : Nat) (g : Link → Link) : (s.modLink p g).lanes = s.lanes := rfl
@[simp] theorem State.modLink_swcPorts (p : Nat) (g : Link → Link) : (s.modLink p g).swcPorts = s.swcPorts := rfl
@[simp] theorem State.modLink_ctxs (p : Nat) (g : Link → Link) : (s.modLink p g).ctxs = s.ctxs := rfl
@[simp] theorem State.modLink_gals (p : Nat) (g : Link → Link) : (s.modLink p g).gals = s.gals := rfl
@[simp] theorem State.modLink_sos (p : Nat) (g : Link → Link) : (s.modLink p g).sos = s.sos := rfl
@[simp] theorem State.modLink_waitRefused (p : Nat) (g : Link → Link) : (s.modLink p g).waitRefused = s.waitRefused := rfl
@[simp] theorem State.modLink_vault (p : Nat) (g : Link → Link) : (s.modLink p g).vault = s.vault := rfl
@[simp] theorem State.modLink_trn (p : Nat) (g : Link → Link) : (s.modLink p g).trn = s.trn := rfl
@[simp] theorem State.modLink_red (p : Nat) (g : Link → Link) : (s.modLink p g).red = s.red := rfl
@[simp] theorem State.modLink_cat (p : Nat) (g : Link → Link) : (s.modLink p g).cat = s.cat := rfl
@[simp] theorem State.modLink_sec (p : Nat) (g : Link → Link) : (s.modLink p g).sec = s.sec := rfl
@[simp] theorem State.modLink_tel (p : Nat) (g : Link → Link) : (s.modLink p g).tel = s.tel := rfl
@[simp] theorem State.modLink_swc (p : Nat) (g : Link → Link) : (s.modLink p g).swc = s.swc := rfl
@[simp] theorem State.modLink_seqs (p : Nat) (g : Link → Link) : (s.modLink p g).seqs = s.seqs := rfl
@[simp] theorem State.modLink_genCount (p : Nat) (g : Link → Link) : (s.modLink p g).genCount = s.genCount := rfl
@[simp] theorem State.modLink_replay (p : Nat) (g : Link → Link) : (s.modLink p g).replay = s.replay := rfl
@[simp] theorem State.modLink_held (p : Nat) (g : Link → Link) : (s.modLink p g).held = s.held := rfl
@[simp] theorem State.modLink_lostFor (p : Nat) (g : Link → Link) : (s.modLink p g).lostFor = s.lostFor := rfl
@[simp] theorem State.modLink_windows (p : Nat) (g : Link → Link) : (s.modLink p g).windows = s.windows := rfl
@[simp] theorem State.modLink_arv (p : Nat) (g : Link → Link) : (s.modLink p g).arv = s.arv := rfl
@[simp] theorem State.modLink_arrived (p : Nat) (g : Link → Link) : (s.modLink p g).arrived = s.arrived := rfl
@[simp] theorem State.modLink_epIn (p : Nat) (g : Link → Link) : (s.modLink p g).epIn = s.epIn := rfl
@[simp] theorem State.modLink_outputs (p : Nat) (g : Link → Link) : (s.modLink p g).outputs = s.outputs := rfl
@[simp] theorem State.modLink_freeCtr (p : Nat) (g : Link → Link) : (s.modLink p g).freeCtr = s.freeCtr := rfl
@[simp] theorem State.modLink_nextPkt (p : Nat) (g : Link → Link) : (s.modLink p g).nextPkt = s.nextPkt := rfl

/-! `modLane` changes `lanes` alone. -/

@[simp] theorem State.modLane_pending (p i : Nat) (g : Lane → Lane) : (s.modLane p i g).pending = s.pending := rfl
@[simp] theorem State.modLane_ctl (p i : Nat) (g : Lane → Lane) : (s.modLane p i g).ctl = s.ctl := rfl
@[simp] theorem State.modLane_pwr (p i : Nat) (g : Lane → Lane) : (s.modLane p i g).pwr = s.pwr := rfl
@[simp] theorem State.modLane_clk (p i : Nat) (g : Lane → Lane) : (s.modLane p i g).clk = s.clk := rfl
@[simp] theorem State.modLane_own (p i : Nat) (g : Lane → Lane) : (s.modLane p i g).own = s.own := rfl
@[simp] theorem State.modLane_cur (p i : Nat) (g : Lane → Lane) : (s.modLane p i g).cur = s.cur := rfl
@[simp] theorem State.modLane_flash (p i : Nat) (g : Lane → Lane) : (s.modLane p i g).flash = s.flash := rfl
@[simp] theorem State.modLane_svc (p i : Nat) (g : Lane → Lane) : (s.modLane p i g).svc = s.svc := rfl
@[simp] theorem State.modLane_fns (p i : Nat) (g : Lane → Lane) : (s.modLane p i g).fns = s.fns := rfl
@[simp] theorem State.modLane_docents (p i : Nat) (g : Lane → Lane) : (s.modLane p i g).docents = s.docents := rfl
@[simp] theorem State.modLane_links (p i : Nat) (g : Lane → Lane) : (s.modLane p i g).links = s.links := rfl
@[simp] theorem State.modLane_swcPorts (p i : Nat) (g : Lane → Lane) : (s.modLane p i g).swcPorts = s.swcPorts := rfl
@[simp] theorem State.modLane_ctxs (p i : Nat) (g : Lane → Lane) : (s.modLane p i g).ctxs = s.ctxs := rfl
@[simp] theorem State.modLane_gals (p i : Nat) (g : Lane → Lane) : (s.modLane p i g).gals = s.gals := rfl
@[simp] theorem State.modLane_sos (p i : Nat) (g : Lane → Lane) : (s.modLane p i g).sos = s.sos := rfl
@[simp] theorem State.modLane_waitRefused (p i : Nat) (g : Lane → Lane) : (s.modLane p i g).waitRefused = s.waitRefused := rfl
@[simp] theorem State.modLane_vault (p i : Nat) (g : Lane → Lane) : (s.modLane p i g).vault = s.vault := rfl
@[simp] theorem State.modLane_trn (p i : Nat) (g : Lane → Lane) : (s.modLane p i g).trn = s.trn := rfl
@[simp] theorem State.modLane_red (p i : Nat) (g : Lane → Lane) : (s.modLane p i g).red = s.red := rfl
@[simp] theorem State.modLane_cat (p i : Nat) (g : Lane → Lane) : (s.modLane p i g).cat = s.cat := rfl
@[simp] theorem State.modLane_sec (p i : Nat) (g : Lane → Lane) : (s.modLane p i g).sec = s.sec := rfl
@[simp] theorem State.modLane_tel (p i : Nat) (g : Lane → Lane) : (s.modLane p i g).tel = s.tel := rfl
@[simp] theorem State.modLane_swc (p i : Nat) (g : Lane → Lane) : (s.modLane p i g).swc = s.swc := rfl
@[simp] theorem State.modLane_seqs (p i : Nat) (g : Lane → Lane) : (s.modLane p i g).seqs = s.seqs := rfl
@[simp] theorem State.modLane_genCount (p i : Nat) (g : Lane → Lane) : (s.modLane p i g).genCount = s.genCount := rfl
@[simp] theorem State.modLane_replay (p i : Nat) (g : Lane → Lane) : (s.modLane p i g).replay = s.replay := rfl
@[simp] theorem State.modLane_held (p i : Nat) (g : Lane → Lane) : (s.modLane p i g).held = s.held := rfl
@[simp] theorem State.modLane_lostFor (p i : Nat) (g : Lane → Lane) : (s.modLane p i g).lostFor = s.lostFor := rfl
@[simp] theorem State.modLane_windows (p i : Nat) (g : Lane → Lane) : (s.modLane p i g).windows = s.windows := rfl
@[simp] theorem State.modLane_arv (p i : Nat) (g : Lane → Lane) : (s.modLane p i g).arv = s.arv := rfl
@[simp] theorem State.modLane_arrived (p i : Nat) (g : Lane → Lane) : (s.modLane p i g).arrived = s.arrived := rfl
@[simp] theorem State.modLane_epIn (p i : Nat) (g : Lane → Lane) : (s.modLane p i g).epIn = s.epIn := rfl
@[simp] theorem State.modLane_outputs (p i : Nat) (g : Lane → Lane) : (s.modLane p i g).outputs = s.outputs := rfl
@[simp] theorem State.modLane_freeCtr (p i : Nat) (g : Lane → Lane) : (s.modLane p i g).freeCtr = s.freeCtr := rfl
@[simp] theorem State.modLane_nextPkt (p i : Nat) (g : Lane → Lane) : (s.modLane p i g).nextPkt = s.nextPkt := rfl

/-! `modSwcPort` changes `swcPorts` alone. -/

@[simp] theorem State.modSwcPort_pending (p : Nat) (g : SwcPort → SwcPort) : (s.modSwcPort p g).pending = s.pending := rfl
@[simp] theorem State.modSwcPort_ctl (p : Nat) (g : SwcPort → SwcPort) : (s.modSwcPort p g).ctl = s.ctl := rfl
@[simp] theorem State.modSwcPort_pwr (p : Nat) (g : SwcPort → SwcPort) : (s.modSwcPort p g).pwr = s.pwr := rfl
@[simp] theorem State.modSwcPort_clk (p : Nat) (g : SwcPort → SwcPort) : (s.modSwcPort p g).clk = s.clk := rfl
@[simp] theorem State.modSwcPort_own (p : Nat) (g : SwcPort → SwcPort) : (s.modSwcPort p g).own = s.own := rfl
@[simp] theorem State.modSwcPort_cur (p : Nat) (g : SwcPort → SwcPort) : (s.modSwcPort p g).cur = s.cur := rfl
@[simp] theorem State.modSwcPort_flash (p : Nat) (g : SwcPort → SwcPort) : (s.modSwcPort p g).flash = s.flash := rfl
@[simp] theorem State.modSwcPort_svc (p : Nat) (g : SwcPort → SwcPort) : (s.modSwcPort p g).svc = s.svc := rfl
@[simp] theorem State.modSwcPort_fns (p : Nat) (g : SwcPort → SwcPort) : (s.modSwcPort p g).fns = s.fns := rfl
@[simp] theorem State.modSwcPort_docents (p : Nat) (g : SwcPort → SwcPort) : (s.modSwcPort p g).docents = s.docents := rfl
@[simp] theorem State.modSwcPort_links (p : Nat) (g : SwcPort → SwcPort) : (s.modSwcPort p g).links = s.links := rfl
@[simp] theorem State.modSwcPort_lanes (p : Nat) (g : SwcPort → SwcPort) : (s.modSwcPort p g).lanes = s.lanes := rfl
@[simp] theorem State.modSwcPort_ctxs (p : Nat) (g : SwcPort → SwcPort) : (s.modSwcPort p g).ctxs = s.ctxs := rfl
@[simp] theorem State.modSwcPort_gals (p : Nat) (g : SwcPort → SwcPort) : (s.modSwcPort p g).gals = s.gals := rfl
@[simp] theorem State.modSwcPort_sos (p : Nat) (g : SwcPort → SwcPort) : (s.modSwcPort p g).sos = s.sos := rfl
@[simp] theorem State.modSwcPort_waitRefused (p : Nat) (g : SwcPort → SwcPort) : (s.modSwcPort p g).waitRefused = s.waitRefused := rfl
@[simp] theorem State.modSwcPort_vault (p : Nat) (g : SwcPort → SwcPort) : (s.modSwcPort p g).vault = s.vault := rfl
@[simp] theorem State.modSwcPort_trn (p : Nat) (g : SwcPort → SwcPort) : (s.modSwcPort p g).trn = s.trn := rfl
@[simp] theorem State.modSwcPort_red (p : Nat) (g : SwcPort → SwcPort) : (s.modSwcPort p g).red = s.red := rfl
@[simp] theorem State.modSwcPort_cat (p : Nat) (g : SwcPort → SwcPort) : (s.modSwcPort p g).cat = s.cat := rfl
@[simp] theorem State.modSwcPort_sec (p : Nat) (g : SwcPort → SwcPort) : (s.modSwcPort p g).sec = s.sec := rfl
@[simp] theorem State.modSwcPort_tel (p : Nat) (g : SwcPort → SwcPort) : (s.modSwcPort p g).tel = s.tel := rfl
@[simp] theorem State.modSwcPort_swc (p : Nat) (g : SwcPort → SwcPort) : (s.modSwcPort p g).swc = s.swc := rfl
@[simp] theorem State.modSwcPort_seqs (p : Nat) (g : SwcPort → SwcPort) : (s.modSwcPort p g).seqs = s.seqs := rfl
@[simp] theorem State.modSwcPort_genCount (p : Nat) (g : SwcPort → SwcPort) : (s.modSwcPort p g).genCount = s.genCount := rfl
@[simp] theorem State.modSwcPort_replay (p : Nat) (g : SwcPort → SwcPort) : (s.modSwcPort p g).replay = s.replay := rfl
@[simp] theorem State.modSwcPort_held (p : Nat) (g : SwcPort → SwcPort) : (s.modSwcPort p g).held = s.held := rfl
@[simp] theorem State.modSwcPort_lostFor (p : Nat) (g : SwcPort → SwcPort) : (s.modSwcPort p g).lostFor = s.lostFor := rfl
@[simp] theorem State.modSwcPort_windows (p : Nat) (g : SwcPort → SwcPort) : (s.modSwcPort p g).windows = s.windows := rfl
@[simp] theorem State.modSwcPort_arv (p : Nat) (g : SwcPort → SwcPort) : (s.modSwcPort p g).arv = s.arv := rfl
@[simp] theorem State.modSwcPort_arrived (p : Nat) (g : SwcPort → SwcPort) : (s.modSwcPort p g).arrived = s.arrived := rfl
@[simp] theorem State.modSwcPort_epIn (p : Nat) (g : SwcPort → SwcPort) : (s.modSwcPort p g).epIn = s.epIn := rfl
@[simp] theorem State.modSwcPort_outputs (p : Nat) (g : SwcPort → SwcPort) : (s.modSwcPort p g).outputs = s.outputs := rfl
@[simp] theorem State.modSwcPort_freeCtr (p : Nat) (g : SwcPort → SwcPort) : (s.modSwcPort p g).freeCtr = s.freeCtr := rfl
@[simp] theorem State.modSwcPort_nextPkt (p : Nat) (g : SwcPort → SwcPort) : (s.modSwcPort p g).nextPkt = s.nextPkt := rfl

/-! `modCtx` changes `ctxs` alone. -/

@[simp] theorem State.modCtx_pending (c : Nat) (g : Ctx → Ctx) : (s.modCtx c g).pending = s.pending := rfl
@[simp] theorem State.modCtx_ctl (c : Nat) (g : Ctx → Ctx) : (s.modCtx c g).ctl = s.ctl := rfl
@[simp] theorem State.modCtx_pwr (c : Nat) (g : Ctx → Ctx) : (s.modCtx c g).pwr = s.pwr := rfl
@[simp] theorem State.modCtx_clk (c : Nat) (g : Ctx → Ctx) : (s.modCtx c g).clk = s.clk := rfl
@[simp] theorem State.modCtx_own (c : Nat) (g : Ctx → Ctx) : (s.modCtx c g).own = s.own := rfl
@[simp] theorem State.modCtx_cur (c : Nat) (g : Ctx → Ctx) : (s.modCtx c g).cur = s.cur := rfl
@[simp] theorem State.modCtx_flash (c : Nat) (g : Ctx → Ctx) : (s.modCtx c g).flash = s.flash := rfl
@[simp] theorem State.modCtx_svc (c : Nat) (g : Ctx → Ctx) : (s.modCtx c g).svc = s.svc := rfl
@[simp] theorem State.modCtx_fns (c : Nat) (g : Ctx → Ctx) : (s.modCtx c g).fns = s.fns := rfl
@[simp] theorem State.modCtx_docents (c : Nat) (g : Ctx → Ctx) : (s.modCtx c g).docents = s.docents := rfl
@[simp] theorem State.modCtx_links (c : Nat) (g : Ctx → Ctx) : (s.modCtx c g).links = s.links := rfl
@[simp] theorem State.modCtx_lanes (c : Nat) (g : Ctx → Ctx) : (s.modCtx c g).lanes = s.lanes := rfl
@[simp] theorem State.modCtx_swcPorts (c : Nat) (g : Ctx → Ctx) : (s.modCtx c g).swcPorts = s.swcPorts := rfl
@[simp] theorem State.modCtx_gals (c : Nat) (g : Ctx → Ctx) : (s.modCtx c g).gals = s.gals := rfl
@[simp] theorem State.modCtx_sos (c : Nat) (g : Ctx → Ctx) : (s.modCtx c g).sos = s.sos := rfl
@[simp] theorem State.modCtx_waitRefused (c : Nat) (g : Ctx → Ctx) : (s.modCtx c g).waitRefused = s.waitRefused := rfl
@[simp] theorem State.modCtx_vault (c : Nat) (g : Ctx → Ctx) : (s.modCtx c g).vault = s.vault := rfl
@[simp] theorem State.modCtx_trn (c : Nat) (g : Ctx → Ctx) : (s.modCtx c g).trn = s.trn := rfl
@[simp] theorem State.modCtx_red (c : Nat) (g : Ctx → Ctx) : (s.modCtx c g).red = s.red := rfl
@[simp] theorem State.modCtx_cat (c : Nat) (g : Ctx → Ctx) : (s.modCtx c g).cat = s.cat := rfl
@[simp] theorem State.modCtx_sec (c : Nat) (g : Ctx → Ctx) : (s.modCtx c g).sec = s.sec := rfl
@[simp] theorem State.modCtx_tel (c : Nat) (g : Ctx → Ctx) : (s.modCtx c g).tel = s.tel := rfl
@[simp] theorem State.modCtx_swc (c : Nat) (g : Ctx → Ctx) : (s.modCtx c g).swc = s.swc := rfl
@[simp] theorem State.modCtx_seqs (c : Nat) (g : Ctx → Ctx) : (s.modCtx c g).seqs = s.seqs := rfl
@[simp] theorem State.modCtx_genCount (c : Nat) (g : Ctx → Ctx) : (s.modCtx c g).genCount = s.genCount := rfl
@[simp] theorem State.modCtx_replay (c : Nat) (g : Ctx → Ctx) : (s.modCtx c g).replay = s.replay := rfl
@[simp] theorem State.modCtx_held (c : Nat) (g : Ctx → Ctx) : (s.modCtx c g).held = s.held := rfl
@[simp] theorem State.modCtx_lostFor (c : Nat) (g : Ctx → Ctx) : (s.modCtx c g).lostFor = s.lostFor := rfl
@[simp] theorem State.modCtx_windows (c : Nat) (g : Ctx → Ctx) : (s.modCtx c g).windows = s.windows := rfl
@[simp] theorem State.modCtx_arv (c : Nat) (g : Ctx → Ctx) : (s.modCtx c g).arv = s.arv := rfl
@[simp] theorem State.modCtx_arrived (c : Nat) (g : Ctx → Ctx) : (s.modCtx c g).arrived = s.arrived := rfl
@[simp] theorem State.modCtx_epIn (c : Nat) (g : Ctx → Ctx) : (s.modCtx c g).epIn = s.epIn := rfl
@[simp] theorem State.modCtx_outputs (c : Nat) (g : Ctx → Ctx) : (s.modCtx c g).outputs = s.outputs := rfl
@[simp] theorem State.modCtx_freeCtr (c : Nat) (g : Ctx → Ctx) : (s.modCtx c g).freeCtr = s.freeCtr := rfl
@[simp] theorem State.modCtx_nextPkt (c : Nat) (g : Ctx → Ctx) : (s.modCtx c g).nextPkt = s.nextPkt := rfl

/-! `modGal` changes `gals` alone. -/

@[simp] theorem State.modGal_pending (x : Nat) (g : Gallery → Gallery) : (s.modGal x g).pending = s.pending := rfl
@[simp] theorem State.modGal_ctl (x : Nat) (g : Gallery → Gallery) : (s.modGal x g).ctl = s.ctl := rfl
@[simp] theorem State.modGal_pwr (x : Nat) (g : Gallery → Gallery) : (s.modGal x g).pwr = s.pwr := rfl
@[simp] theorem State.modGal_clk (x : Nat) (g : Gallery → Gallery) : (s.modGal x g).clk = s.clk := rfl
@[simp] theorem State.modGal_own (x : Nat) (g : Gallery → Gallery) : (s.modGal x g).own = s.own := rfl
@[simp] theorem State.modGal_cur (x : Nat) (g : Gallery → Gallery) : (s.modGal x g).cur = s.cur := rfl
@[simp] theorem State.modGal_flash (x : Nat) (g : Gallery → Gallery) : (s.modGal x g).flash = s.flash := rfl
@[simp] theorem State.modGal_svc (x : Nat) (g : Gallery → Gallery) : (s.modGal x g).svc = s.svc := rfl
@[simp] theorem State.modGal_fns (x : Nat) (g : Gallery → Gallery) : (s.modGal x g).fns = s.fns := rfl
@[simp] theorem State.modGal_docents (x : Nat) (g : Gallery → Gallery) : (s.modGal x g).docents = s.docents := rfl
@[simp] theorem State.modGal_links (x : Nat) (g : Gallery → Gallery) : (s.modGal x g).links = s.links := rfl
@[simp] theorem State.modGal_lanes (x : Nat) (g : Gallery → Gallery) : (s.modGal x g).lanes = s.lanes := rfl
@[simp] theorem State.modGal_swcPorts (x : Nat) (g : Gallery → Gallery) : (s.modGal x g).swcPorts = s.swcPorts := rfl
@[simp] theorem State.modGal_ctxs (x : Nat) (g : Gallery → Gallery) : (s.modGal x g).ctxs = s.ctxs := rfl
@[simp] theorem State.modGal_sos (x : Nat) (g : Gallery → Gallery) : (s.modGal x g).sos = s.sos := rfl
@[simp] theorem State.modGal_waitRefused (x : Nat) (g : Gallery → Gallery) : (s.modGal x g).waitRefused = s.waitRefused := rfl
@[simp] theorem State.modGal_vault (x : Nat) (g : Gallery → Gallery) : (s.modGal x g).vault = s.vault := rfl
@[simp] theorem State.modGal_trn (x : Nat) (g : Gallery → Gallery) : (s.modGal x g).trn = s.trn := rfl
@[simp] theorem State.modGal_red (x : Nat) (g : Gallery → Gallery) : (s.modGal x g).red = s.red := rfl
@[simp] theorem State.modGal_cat (x : Nat) (g : Gallery → Gallery) : (s.modGal x g).cat = s.cat := rfl
@[simp] theorem State.modGal_sec (x : Nat) (g : Gallery → Gallery) : (s.modGal x g).sec = s.sec := rfl
@[simp] theorem State.modGal_tel (x : Nat) (g : Gallery → Gallery) : (s.modGal x g).tel = s.tel := rfl
@[simp] theorem State.modGal_swc (x : Nat) (g : Gallery → Gallery) : (s.modGal x g).swc = s.swc := rfl
@[simp] theorem State.modGal_seqs (x : Nat) (g : Gallery → Gallery) : (s.modGal x g).seqs = s.seqs := rfl
@[simp] theorem State.modGal_genCount (x : Nat) (g : Gallery → Gallery) : (s.modGal x g).genCount = s.genCount := rfl
@[simp] theorem State.modGal_replay (x : Nat) (g : Gallery → Gallery) : (s.modGal x g).replay = s.replay := rfl
@[simp] theorem State.modGal_held (x : Nat) (g : Gallery → Gallery) : (s.modGal x g).held = s.held := rfl
@[simp] theorem State.modGal_lostFor (x : Nat) (g : Gallery → Gallery) : (s.modGal x g).lostFor = s.lostFor := rfl
@[simp] theorem State.modGal_windows (x : Nat) (g : Gallery → Gallery) : (s.modGal x g).windows = s.windows := rfl
@[simp] theorem State.modGal_arv (x : Nat) (g : Gallery → Gallery) : (s.modGal x g).arv = s.arv := rfl
@[simp] theorem State.modGal_arrived (x : Nat) (g : Gallery → Gallery) : (s.modGal x g).arrived = s.arrived := rfl
@[simp] theorem State.modGal_epIn (x : Nat) (g : Gallery → Gallery) : (s.modGal x g).epIn = s.epIn := rfl
@[simp] theorem State.modGal_outputs (x : Nat) (g : Gallery → Gallery) : (s.modGal x g).outputs = s.outputs := rfl
@[simp] theorem State.modGal_freeCtr (x : Nat) (g : Gallery → Gallery) : (s.modGal x g).freeCtr = s.freeCtr := rfl
@[simp] theorem State.modGal_nextPkt (x : Nat) (g : Gallery → Gallery) : (s.modGal x g).nextPkt = s.nextPkt := rfl

/-! `setSo` changes `sos` alone. -/

@[simp] theorem State.setSo_pending (n : Nat) (o : SyncObj) : (s.setSo n o).pending = s.pending := rfl
@[simp] theorem State.setSo_ctl (n : Nat) (o : SyncObj) : (s.setSo n o).ctl = s.ctl := rfl
@[simp] theorem State.setSo_pwr (n : Nat) (o : SyncObj) : (s.setSo n o).pwr = s.pwr := rfl
@[simp] theorem State.setSo_clk (n : Nat) (o : SyncObj) : (s.setSo n o).clk = s.clk := rfl
@[simp] theorem State.setSo_own (n : Nat) (o : SyncObj) : (s.setSo n o).own = s.own := rfl
@[simp] theorem State.setSo_cur (n : Nat) (o : SyncObj) : (s.setSo n o).cur = s.cur := rfl
@[simp] theorem State.setSo_flash (n : Nat) (o : SyncObj) : (s.setSo n o).flash = s.flash := rfl
@[simp] theorem State.setSo_svc (n : Nat) (o : SyncObj) : (s.setSo n o).svc = s.svc := rfl
@[simp] theorem State.setSo_fns (n : Nat) (o : SyncObj) : (s.setSo n o).fns = s.fns := rfl
@[simp] theorem State.setSo_docents (n : Nat) (o : SyncObj) : (s.setSo n o).docents = s.docents := rfl
@[simp] theorem State.setSo_links (n : Nat) (o : SyncObj) : (s.setSo n o).links = s.links := rfl
@[simp] theorem State.setSo_lanes (n : Nat) (o : SyncObj) : (s.setSo n o).lanes = s.lanes := rfl
@[simp] theorem State.setSo_swcPorts (n : Nat) (o : SyncObj) : (s.setSo n o).swcPorts = s.swcPorts := rfl
@[simp] theorem State.setSo_ctxs (n : Nat) (o : SyncObj) : (s.setSo n o).ctxs = s.ctxs := rfl
@[simp] theorem State.setSo_gals (n : Nat) (o : SyncObj) : (s.setSo n o).gals = s.gals := rfl
@[simp] theorem State.setSo_waitRefused (n : Nat) (o : SyncObj) : (s.setSo n o).waitRefused = s.waitRefused := rfl
@[simp] theorem State.setSo_vault (n : Nat) (o : SyncObj) : (s.setSo n o).vault = s.vault := rfl
@[simp] theorem State.setSo_trn (n : Nat) (o : SyncObj) : (s.setSo n o).trn = s.trn := rfl
@[simp] theorem State.setSo_red (n : Nat) (o : SyncObj) : (s.setSo n o).red = s.red := rfl
@[simp] theorem State.setSo_cat (n : Nat) (o : SyncObj) : (s.setSo n o).cat = s.cat := rfl
@[simp] theorem State.setSo_sec (n : Nat) (o : SyncObj) : (s.setSo n o).sec = s.sec := rfl
@[simp] theorem State.setSo_tel (n : Nat) (o : SyncObj) : (s.setSo n o).tel = s.tel := rfl
@[simp] theorem State.setSo_swc (n : Nat) (o : SyncObj) : (s.setSo n o).swc = s.swc := rfl
@[simp] theorem State.setSo_seqs (n : Nat) (o : SyncObj) : (s.setSo n o).seqs = s.seqs := rfl
@[simp] theorem State.setSo_genCount (n : Nat) (o : SyncObj) : (s.setSo n o).genCount = s.genCount := rfl
@[simp] theorem State.setSo_replay (n : Nat) (o : SyncObj) : (s.setSo n o).replay = s.replay := rfl
@[simp] theorem State.setSo_held (n : Nat) (o : SyncObj) : (s.setSo n o).held = s.held := rfl
@[simp] theorem State.setSo_lostFor (n : Nat) (o : SyncObj) : (s.setSo n o).lostFor = s.lostFor := rfl
@[simp] theorem State.setSo_windows (n : Nat) (o : SyncObj) : (s.setSo n o).windows = s.windows := rfl
@[simp] theorem State.setSo_arv (n : Nat) (o : SyncObj) : (s.setSo n o).arv = s.arv := rfl
@[simp] theorem State.setSo_arrived (n : Nat) (o : SyncObj) : (s.setSo n o).arrived = s.arrived := rfl
@[simp] theorem State.setSo_epIn (n : Nat) (o : SyncObj) : (s.setSo n o).epIn = s.epIn := rfl
@[simp] theorem State.setSo_outputs (n : Nat) (o : SyncObj) : (s.setSo n o).outputs = s.outputs := rfl
@[simp] theorem State.setSo_freeCtr (n : Nat) (o : SyncObj) : (s.setSo n o).freeCtr = s.freeCtr := rfl
@[simp] theorem State.setSo_nextPkt (n : Nat) (o : SyncObj) : (s.setSo n o).nextPkt = s.nextPkt := rfl

/-! `modDie` changes `vault` alone. -/

@[simp] theorem State.modDie_pending (d : Nat) (g : DieErr → DieErr) : (s.modDie d g).pending = s.pending := rfl
@[simp] theorem State.modDie_ctl (d : Nat) (g : DieErr → DieErr) : (s.modDie d g).ctl = s.ctl := rfl
@[simp] theorem State.modDie_pwr (d : Nat) (g : DieErr → DieErr) : (s.modDie d g).pwr = s.pwr := rfl
@[simp] theorem State.modDie_clk (d : Nat) (g : DieErr → DieErr) : (s.modDie d g).clk = s.clk := rfl
@[simp] theorem State.modDie_own (d : Nat) (g : DieErr → DieErr) : (s.modDie d g).own = s.own := rfl
@[simp] theorem State.modDie_cur (d : Nat) (g : DieErr → DieErr) : (s.modDie d g).cur = s.cur := rfl
@[simp] theorem State.modDie_flash (d : Nat) (g : DieErr → DieErr) : (s.modDie d g).flash = s.flash := rfl
@[simp] theorem State.modDie_svc (d : Nat) (g : DieErr → DieErr) : (s.modDie d g).svc = s.svc := rfl
@[simp] theorem State.modDie_fns (d : Nat) (g : DieErr → DieErr) : (s.modDie d g).fns = s.fns := rfl
@[simp] theorem State.modDie_docents (d : Nat) (g : DieErr → DieErr) : (s.modDie d g).docents = s.docents := rfl
@[simp] theorem State.modDie_links (d : Nat) (g : DieErr → DieErr) : (s.modDie d g).links = s.links := rfl
@[simp] theorem State.modDie_lanes (d : Nat) (g : DieErr → DieErr) : (s.modDie d g).lanes = s.lanes := rfl
@[simp] theorem State.modDie_swcPorts (d : Nat) (g : DieErr → DieErr) : (s.modDie d g).swcPorts = s.swcPorts := rfl
@[simp] theorem State.modDie_ctxs (d : Nat) (g : DieErr → DieErr) : (s.modDie d g).ctxs = s.ctxs := rfl
@[simp] theorem State.modDie_gals (d : Nat) (g : DieErr → DieErr) : (s.modDie d g).gals = s.gals := rfl
@[simp] theorem State.modDie_sos (d : Nat) (g : DieErr → DieErr) : (s.modDie d g).sos = s.sos := rfl
@[simp] theorem State.modDie_waitRefused (d : Nat) (g : DieErr → DieErr) : (s.modDie d g).waitRefused = s.waitRefused := rfl
@[simp] theorem State.modDie_trn (d : Nat) (g : DieErr → DieErr) : (s.modDie d g).trn = s.trn := rfl
@[simp] theorem State.modDie_red (d : Nat) (g : DieErr → DieErr) : (s.modDie d g).red = s.red := rfl
@[simp] theorem State.modDie_cat (d : Nat) (g : DieErr → DieErr) : (s.modDie d g).cat = s.cat := rfl
@[simp] theorem State.modDie_sec (d : Nat) (g : DieErr → DieErr) : (s.modDie d g).sec = s.sec := rfl
@[simp] theorem State.modDie_tel (d : Nat) (g : DieErr → DieErr) : (s.modDie d g).tel = s.tel := rfl
@[simp] theorem State.modDie_swc (d : Nat) (g : DieErr → DieErr) : (s.modDie d g).swc = s.swc := rfl
@[simp] theorem State.modDie_seqs (d : Nat) (g : DieErr → DieErr) : (s.modDie d g).seqs = s.seqs := rfl
@[simp] theorem State.modDie_genCount (d : Nat) (g : DieErr → DieErr) : (s.modDie d g).genCount = s.genCount := rfl
@[simp] theorem State.modDie_replay (d : Nat) (g : DieErr → DieErr) : (s.modDie d g).replay = s.replay := rfl
@[simp] theorem State.modDie_held (d : Nat) (g : DieErr → DieErr) : (s.modDie d g).held = s.held := rfl
@[simp] theorem State.modDie_lostFor (d : Nat) (g : DieErr → DieErr) : (s.modDie d g).lostFor = s.lostFor := rfl
@[simp] theorem State.modDie_windows (d : Nat) (g : DieErr → DieErr) : (s.modDie d g).windows = s.windows := rfl
@[simp] theorem State.modDie_arv (d : Nat) (g : DieErr → DieErr) : (s.modDie d g).arv = s.arv := rfl
@[simp] theorem State.modDie_arrived (d : Nat) (g : DieErr → DieErr) : (s.modDie d g).arrived = s.arrived := rfl
@[simp] theorem State.modDie_epIn (d : Nat) (g : DieErr → DieErr) : (s.modDie d g).epIn = s.epIn := rfl
@[simp] theorem State.modDie_outputs (d : Nat) (g : DieErr → DieErr) : (s.modDie d g).outputs = s.outputs := rfl
@[simp] theorem State.modDie_freeCtr (d : Nat) (g : DieErr → DieErr) : (s.modDie d g).freeCtr = s.freeCtr := rfl
@[simp] theorem State.modDie_nextPkt (d : Nat) (g : DieErr → DieErr) : (s.modDie d g).nextPkt = s.nextPkt := rfl

/-! `out` changes `outputs` alone. -/

@[simp] theorem State.out_pending (o : Output) : (s.out o).pending = s.pending := rfl
@[simp] theorem State.out_ctl (o : Output) : (s.out o).ctl = s.ctl := rfl
@[simp] theorem State.out_pwr (o : Output) : (s.out o).pwr = s.pwr := rfl
@[simp] theorem State.out_clk (o : Output) : (s.out o).clk = s.clk := rfl
@[simp] theorem State.out_own (o : Output) : (s.out o).own = s.own := rfl
@[simp] theorem State.out_cur (o : Output) : (s.out o).cur = s.cur := rfl
@[simp] theorem State.out_flash (o : Output) : (s.out o).flash = s.flash := rfl
@[simp] theorem State.out_svc (o : Output) : (s.out o).svc = s.svc := rfl
@[simp] theorem State.out_fns (o : Output) : (s.out o).fns = s.fns := rfl
@[simp] theorem State.out_docents (o : Output) : (s.out o).docents = s.docents := rfl
@[simp] theorem State.out_links (o : Output) : (s.out o).links = s.links := rfl
@[simp] theorem State.out_lanes (o : Output) : (s.out o).lanes = s.lanes := rfl
@[simp] theorem State.out_swcPorts (o : Output) : (s.out o).swcPorts = s.swcPorts := rfl
@[simp] theorem State.out_ctxs (o : Output) : (s.out o).ctxs = s.ctxs := rfl
@[simp] theorem State.out_gals (o : Output) : (s.out o).gals = s.gals := rfl
@[simp] theorem State.out_sos (o : Output) : (s.out o).sos = s.sos := rfl
@[simp] theorem State.out_waitRefused (o : Output) : (s.out o).waitRefused = s.waitRefused := rfl
@[simp] theorem State.out_vault (o : Output) : (s.out o).vault = s.vault := rfl
@[simp] theorem State.out_trn (o : Output) : (s.out o).trn = s.trn := rfl
@[simp] theorem State.out_red (o : Output) : (s.out o).red = s.red := rfl
@[simp] theorem State.out_cat (o : Output) : (s.out o).cat = s.cat := rfl
@[simp] theorem State.out_sec (o : Output) : (s.out o).sec = s.sec := rfl
@[simp] theorem State.out_tel (o : Output) : (s.out o).tel = s.tel := rfl
@[simp] theorem State.out_swc (o : Output) : (s.out o).swc = s.swc := rfl
@[simp] theorem State.out_seqs (o : Output) : (s.out o).seqs = s.seqs := rfl
@[simp] theorem State.out_genCount (o : Output) : (s.out o).genCount = s.genCount := rfl
@[simp] theorem State.out_replay (o : Output) : (s.out o).replay = s.replay := rfl
@[simp] theorem State.out_held (o : Output) : (s.out o).held = s.held := rfl
@[simp] theorem State.out_lostFor (o : Output) : (s.out o).lostFor = s.lostFor := rfl
@[simp] theorem State.out_windows (o : Output) : (s.out o).windows = s.windows := rfl
@[simp] theorem State.out_arv (o : Output) : (s.out o).arv = s.arv := rfl
@[simp] theorem State.out_arrived (o : Output) : (s.out o).arrived = s.arrived := rfl
@[simp] theorem State.out_epIn (o : Output) : (s.out o).epIn = s.epIn := rfl
@[simp] theorem State.out_freeCtr (o : Output) : (s.out o).freeCtr = s.freeCtr := rfl
@[simp] theorem State.out_nextPkt (o : Output) : (s.out o).nextPkt = s.nextPkt := rfl

/-! `modPwr` changes `pwr` alone. -/

@[simp] theorem State.modPwr_pending (g : Power → Power) : (s.modPwr g).pending = s.pending := rfl
@[simp] theorem State.modPwr_ctl (g : Power → Power) : (s.modPwr g).ctl = s.ctl := rfl
@[simp] theorem State.modPwr_clk (g : Power → Power) : (s.modPwr g).clk = s.clk := rfl
@[simp] theorem State.modPwr_own (g : Power → Power) : (s.modPwr g).own = s.own := rfl
@[simp] theorem State.modPwr_cur (g : Power → Power) : (s.modPwr g).cur = s.cur := rfl
@[simp] theorem State.modPwr_flash (g : Power → Power) : (s.modPwr g).flash = s.flash := rfl
@[simp] theorem State.modPwr_svc (g : Power → Power) : (s.modPwr g).svc = s.svc := rfl
@[simp] theorem State.modPwr_fns (g : Power → Power) : (s.modPwr g).fns = s.fns := rfl
@[simp] theorem State.modPwr_docents (g : Power → Power) : (s.modPwr g).docents = s.docents := rfl
@[simp] theorem State.modPwr_links (g : Power → Power) : (s.modPwr g).links = s.links := rfl
@[simp] theorem State.modPwr_lanes (g : Power → Power) : (s.modPwr g).lanes = s.lanes := rfl
@[simp] theorem State.modPwr_swcPorts (g : Power → Power) : (s.modPwr g).swcPorts = s.swcPorts := rfl
@[simp] theorem State.modPwr_ctxs (g : Power → Power) : (s.modPwr g).ctxs = s.ctxs := rfl
@[simp] theorem State.modPwr_gals (g : Power → Power) : (s.modPwr g).gals = s.gals := rfl
@[simp] theorem State.modPwr_sos (g : Power → Power) : (s.modPwr g).sos = s.sos := rfl
@[simp] theorem State.modPwr_waitRefused (g : Power → Power) : (s.modPwr g).waitRefused = s.waitRefused := rfl
@[simp] theorem State.modPwr_vault (g : Power → Power) : (s.modPwr g).vault = s.vault := rfl
@[simp] theorem State.modPwr_trn (g : Power → Power) : (s.modPwr g).trn = s.trn := rfl
@[simp] theorem State.modPwr_red (g : Power → Power) : (s.modPwr g).red = s.red := rfl
@[simp] theorem State.modPwr_cat (g : Power → Power) : (s.modPwr g).cat = s.cat := rfl
@[simp] theorem State.modPwr_sec (g : Power → Power) : (s.modPwr g).sec = s.sec := rfl
@[simp] theorem State.modPwr_tel (g : Power → Power) : (s.modPwr g).tel = s.tel := rfl
@[simp] theorem State.modPwr_swc (g : Power → Power) : (s.modPwr g).swc = s.swc := rfl
@[simp] theorem State.modPwr_seqs (g : Power → Power) : (s.modPwr g).seqs = s.seqs := rfl
@[simp] theorem State.modPwr_genCount (g : Power → Power) : (s.modPwr g).genCount = s.genCount := rfl
@[simp] theorem State.modPwr_replay (g : Power → Power) : (s.modPwr g).replay = s.replay := rfl
@[simp] theorem State.modPwr_held (g : Power → Power) : (s.modPwr g).held = s.held := rfl
@[simp] theorem State.modPwr_lostFor (g : Power → Power) : (s.modPwr g).lostFor = s.lostFor := rfl
@[simp] theorem State.modPwr_windows (g : Power → Power) : (s.modPwr g).windows = s.windows := rfl
@[simp] theorem State.modPwr_arv (g : Power → Power) : (s.modPwr g).arv = s.arv := rfl
@[simp] theorem State.modPwr_arrived (g : Power → Power) : (s.modPwr g).arrived = s.arrived := rfl
@[simp] theorem State.modPwr_epIn (g : Power → Power) : (s.modPwr g).epIn = s.epIn := rfl
@[simp] theorem State.modPwr_outputs (g : Power → Power) : (s.modPwr g).outputs = s.outputs := rfl
@[simp] theorem State.modPwr_freeCtr (g : Power → Power) : (s.modPwr g).freeCtr = s.freeCtr := rfl
@[simp] theorem State.modPwr_nextPkt (g : Power → Power) : (s.modPwr g).nextPkt = s.nextPkt := rfl

/-! `modClk` changes `clk` alone. -/

@[simp] theorem State.modClk_pending (g : Clocks → Clocks) : (s.modClk g).pending = s.pending := rfl
@[simp] theorem State.modClk_ctl (g : Clocks → Clocks) : (s.modClk g).ctl = s.ctl := rfl
@[simp] theorem State.modClk_pwr (g : Clocks → Clocks) : (s.modClk g).pwr = s.pwr := rfl
@[simp] theorem State.modClk_own (g : Clocks → Clocks) : (s.modClk g).own = s.own := rfl
@[simp] theorem State.modClk_cur (g : Clocks → Clocks) : (s.modClk g).cur = s.cur := rfl
@[simp] theorem State.modClk_flash (g : Clocks → Clocks) : (s.modClk g).flash = s.flash := rfl
@[simp] theorem State.modClk_svc (g : Clocks → Clocks) : (s.modClk g).svc = s.svc := rfl
@[simp] theorem State.modClk_fns (g : Clocks → Clocks) : (s.modClk g).fns = s.fns := rfl
@[simp] theorem State.modClk_docents (g : Clocks → Clocks) : (s.modClk g).docents = s.docents := rfl
@[simp] theorem State.modClk_links (g : Clocks → Clocks) : (s.modClk g).links = s.links := rfl
@[simp] theorem State.modClk_lanes (g : Clocks → Clocks) : (s.modClk g).lanes = s.lanes := rfl
@[simp] theorem State.modClk_swcPorts (g : Clocks → Clocks) : (s.modClk g).swcPorts = s.swcPorts := rfl
@[simp] theorem State.modClk_ctxs (g : Clocks → Clocks) : (s.modClk g).ctxs = s.ctxs := rfl
@[simp] theorem State.modClk_gals (g : Clocks → Clocks) : (s.modClk g).gals = s.gals := rfl
@[simp] theorem State.modClk_sos (g : Clocks → Clocks) : (s.modClk g).sos = s.sos := rfl
@[simp] theorem State.modClk_waitRefused (g : Clocks → Clocks) : (s.modClk g).waitRefused = s.waitRefused := rfl
@[simp] theorem State.modClk_vault (g : Clocks → Clocks) : (s.modClk g).vault = s.vault := rfl
@[simp] theorem State.modClk_trn (g : Clocks → Clocks) : (s.modClk g).trn = s.trn := rfl
@[simp] theorem State.modClk_red (g : Clocks → Clocks) : (s.modClk g).red = s.red := rfl
@[simp] theorem State.modClk_cat (g : Clocks → Clocks) : (s.modClk g).cat = s.cat := rfl
@[simp] theorem State.modClk_sec (g : Clocks → Clocks) : (s.modClk g).sec = s.sec := rfl
@[simp] theorem State.modClk_tel (g : Clocks → Clocks) : (s.modClk g).tel = s.tel := rfl
@[simp] theorem State.modClk_swc (g : Clocks → Clocks) : (s.modClk g).swc = s.swc := rfl
@[simp] theorem State.modClk_seqs (g : Clocks → Clocks) : (s.modClk g).seqs = s.seqs := rfl
@[simp] theorem State.modClk_genCount (g : Clocks → Clocks) : (s.modClk g).genCount = s.genCount := rfl
@[simp] theorem State.modClk_replay (g : Clocks → Clocks) : (s.modClk g).replay = s.replay := rfl
@[simp] theorem State.modClk_held (g : Clocks → Clocks) : (s.modClk g).held = s.held := rfl
@[simp] theorem State.modClk_lostFor (g : Clocks → Clocks) : (s.modClk g).lostFor = s.lostFor := rfl
@[simp] theorem State.modClk_windows (g : Clocks → Clocks) : (s.modClk g).windows = s.windows := rfl
@[simp] theorem State.modClk_arv (g : Clocks → Clocks) : (s.modClk g).arv = s.arv := rfl
@[simp] theorem State.modClk_arrived (g : Clocks → Clocks) : (s.modClk g).arrived = s.arrived := rfl
@[simp] theorem State.modClk_epIn (g : Clocks → Clocks) : (s.modClk g).epIn = s.epIn := rfl
@[simp] theorem State.modClk_outputs (g : Clocks → Clocks) : (s.modClk g).outputs = s.outputs := rfl
@[simp] theorem State.modClk_freeCtr (g : Clocks → Clocks) : (s.modClk g).freeCtr = s.freeCtr := rfl
@[simp] theorem State.modClk_nextPkt (g : Clocks → Clocks) : (s.modClk g).nextPkt = s.nextPkt := rfl

/-! `modSwc` changes `swc` alone. -/

@[simp] theorem State.modSwc_pending (g : Swc → Swc) : (s.modSwc g).pending = s.pending := rfl
@[simp] theorem State.modSwc_ctl (g : Swc → Swc) : (s.modSwc g).ctl = s.ctl := rfl
@[simp] theorem State.modSwc_pwr (g : Swc → Swc) : (s.modSwc g).pwr = s.pwr := rfl
@[simp] theorem State.modSwc_clk (g : Swc → Swc) : (s.modSwc g).clk = s.clk := rfl
@[simp] theorem State.modSwc_own (g : Swc → Swc) : (s.modSwc g).own = s.own := rfl
@[simp] theorem State.modSwc_cur (g : Swc → Swc) : (s.modSwc g).cur = s.cur := rfl
@[simp] theorem State.modSwc_flash (g : Swc → Swc) : (s.modSwc g).flash = s.flash := rfl
@[simp] theorem State.modSwc_svc (g : Swc → Swc) : (s.modSwc g).svc = s.svc := rfl
@[simp] theorem State.modSwc_fns (g : Swc → Swc) : (s.modSwc g).fns = s.fns := rfl
@[simp] theorem State.modSwc_docents (g : Swc → Swc) : (s.modSwc g).docents = s.docents := rfl
@[simp] theorem State.modSwc_links (g : Swc → Swc) : (s.modSwc g).links = s.links := rfl
@[simp] theorem State.modSwc_lanes (g : Swc → Swc) : (s.modSwc g).lanes = s.lanes := rfl
@[simp] theorem State.modSwc_swcPorts (g : Swc → Swc) : (s.modSwc g).swcPorts = s.swcPorts := rfl
@[simp] theorem State.modSwc_ctxs (g : Swc → Swc) : (s.modSwc g).ctxs = s.ctxs := rfl
@[simp] theorem State.modSwc_gals (g : Swc → Swc) : (s.modSwc g).gals = s.gals := rfl
@[simp] theorem State.modSwc_sos (g : Swc → Swc) : (s.modSwc g).sos = s.sos := rfl
@[simp] theorem State.modSwc_waitRefused (g : Swc → Swc) : (s.modSwc g).waitRefused = s.waitRefused := rfl
@[simp] theorem State.modSwc_vault (g : Swc → Swc) : (s.modSwc g).vault = s.vault := rfl
@[simp] theorem State.modSwc_trn (g : Swc → Swc) : (s.modSwc g).trn = s.trn := rfl
@[simp] theorem State.modSwc_red (g : Swc → Swc) : (s.modSwc g).red = s.red := rfl
@[simp] theorem State.modSwc_cat (g : Swc → Swc) : (s.modSwc g).cat = s.cat := rfl
@[simp] theorem State.modSwc_sec (g : Swc → Swc) : (s.modSwc g).sec = s.sec := rfl
@[simp] theorem State.modSwc_tel (g : Swc → Swc) : (s.modSwc g).tel = s.tel := rfl
@[simp] theorem State.modSwc_seqs (g : Swc → Swc) : (s.modSwc g).seqs = s.seqs := rfl
@[simp] theorem State.modSwc_genCount (g : Swc → Swc) : (s.modSwc g).genCount = s.genCount := rfl
@[simp] theorem State.modSwc_replay (g : Swc → Swc) : (s.modSwc g).replay = s.replay := rfl
@[simp] theorem State.modSwc_held (g : Swc → Swc) : (s.modSwc g).held = s.held := rfl
@[simp] theorem State.modSwc_lostFor (g : Swc → Swc) : (s.modSwc g).lostFor = s.lostFor := rfl
@[simp] theorem State.modSwc_windows (g : Swc → Swc) : (s.modSwc g).windows = s.windows := rfl
@[simp] theorem State.modSwc_arv (g : Swc → Swc) : (s.modSwc g).arv = s.arv := rfl
@[simp] theorem State.modSwc_arrived (g : Swc → Swc) : (s.modSwc g).arrived = s.arrived := rfl
@[simp] theorem State.modSwc_epIn (g : Swc → Swc) : (s.modSwc g).epIn = s.epIn := rfl
@[simp] theorem State.modSwc_outputs (g : Swc → Swc) : (s.modSwc g).outputs = s.outputs := rfl
@[simp] theorem State.modSwc_freeCtr (g : Swc → Swc) : (s.modSwc g).freeCtr = s.freeCtr := rfl
@[simp] theorem State.modSwc_nextPkt (g : Swc → Swc) : (s.modSwc g).nextPkt = s.nextPkt := rfl

/-! `modCat` changes `cat` alone. -/

@[simp] theorem State.modCat_pending (g : Cat → Cat) : (s.modCat g).pending = s.pending := rfl
@[simp] theorem State.modCat_ctl (g : Cat → Cat) : (s.modCat g).ctl = s.ctl := rfl
@[simp] theorem State.modCat_pwr (g : Cat → Cat) : (s.modCat g).pwr = s.pwr := rfl
@[simp] theorem State.modCat_clk (g : Cat → Cat) : (s.modCat g).clk = s.clk := rfl
@[simp] theorem State.modCat_own (g : Cat → Cat) : (s.modCat g).own = s.own := rfl
@[simp] theorem State.modCat_cur (g : Cat → Cat) : (s.modCat g).cur = s.cur := rfl
@[simp] theorem State.modCat_flash (g : Cat → Cat) : (s.modCat g).flash = s.flash := rfl
@[simp] theorem State.modCat_svc (g : Cat → Cat) : (s.modCat g).svc = s.svc := rfl
@[simp] theorem State.modCat_fns (g : Cat → Cat) : (s.modCat g).fns = s.fns := rfl
@[simp] theorem State.modCat_docents (g : Cat → Cat) : (s.modCat g).docents = s.docents := rfl
@[simp] theorem State.modCat_links (g : Cat → Cat) : (s.modCat g).links = s.links := rfl
@[simp] theorem State.modCat_lanes (g : Cat → Cat) : (s.modCat g).lanes = s.lanes := rfl
@[simp] theorem State.modCat_swcPorts (g : Cat → Cat) : (s.modCat g).swcPorts = s.swcPorts := rfl
@[simp] theorem State.modCat_ctxs (g : Cat → Cat) : (s.modCat g).ctxs = s.ctxs := rfl
@[simp] theorem State.modCat_gals (g : Cat → Cat) : (s.modCat g).gals = s.gals := rfl
@[simp] theorem State.modCat_sos (g : Cat → Cat) : (s.modCat g).sos = s.sos := rfl
@[simp] theorem State.modCat_waitRefused (g : Cat → Cat) : (s.modCat g).waitRefused = s.waitRefused := rfl
@[simp] theorem State.modCat_vault (g : Cat → Cat) : (s.modCat g).vault = s.vault := rfl
@[simp] theorem State.modCat_trn (g : Cat → Cat) : (s.modCat g).trn = s.trn := rfl
@[simp] theorem State.modCat_red (g : Cat → Cat) : (s.modCat g).red = s.red := rfl
@[simp] theorem State.modCat_sec (g : Cat → Cat) : (s.modCat g).sec = s.sec := rfl
@[simp] theorem State.modCat_tel (g : Cat → Cat) : (s.modCat g).tel = s.tel := rfl
@[simp] theorem State.modCat_swc (g : Cat → Cat) : (s.modCat g).swc = s.swc := rfl
@[simp] theorem State.modCat_seqs (g : Cat → Cat) : (s.modCat g).seqs = s.seqs := rfl
@[simp] theorem State.modCat_genCount (g : Cat → Cat) : (s.modCat g).genCount = s.genCount := rfl
@[simp] theorem State.modCat_replay (g : Cat → Cat) : (s.modCat g).replay = s.replay := rfl
@[simp] theorem State.modCat_held (g : Cat → Cat) : (s.modCat g).held = s.held := rfl
@[simp] theorem State.modCat_lostFor (g : Cat → Cat) : (s.modCat g).lostFor = s.lostFor := rfl
@[simp] theorem State.modCat_windows (g : Cat → Cat) : (s.modCat g).windows = s.windows := rfl
@[simp] theorem State.modCat_arv (g : Cat → Cat) : (s.modCat g).arv = s.arv := rfl
@[simp] theorem State.modCat_arrived (g : Cat → Cat) : (s.modCat g).arrived = s.arrived := rfl
@[simp] theorem State.modCat_epIn (g : Cat → Cat) : (s.modCat g).epIn = s.epIn := rfl
@[simp] theorem State.modCat_outputs (g : Cat → Cat) : (s.modCat g).outputs = s.outputs := rfl
@[simp] theorem State.modCat_freeCtr (g : Cat → Cat) : (s.modCat g).freeCtr = s.freeCtr := rfl
@[simp] theorem State.modCat_nextPkt (g : Cat → Cat) : (s.modCat g).nextPkt = s.nextPkt := rfl

/-! `modSvc` changes `svc` alone. -/

@[simp] theorem State.modSvc_pending (g : SvcPort → SvcPort) : (s.modSvc g).pending = s.pending := rfl
@[simp] theorem State.modSvc_ctl (g : SvcPort → SvcPort) : (s.modSvc g).ctl = s.ctl := rfl
@[simp] theorem State.modSvc_pwr (g : SvcPort → SvcPort) : (s.modSvc g).pwr = s.pwr := rfl
@[simp] theorem State.modSvc_clk (g : SvcPort → SvcPort) : (s.modSvc g).clk = s.clk := rfl
@[simp] theorem State.modSvc_own (g : SvcPort → SvcPort) : (s.modSvc g).own = s.own := rfl
@[simp] theorem State.modSvc_cur (g : SvcPort → SvcPort) : (s.modSvc g).cur = s.cur := rfl
@[simp] theorem State.modSvc_flash (g : SvcPort → SvcPort) : (s.modSvc g).flash = s.flash := rfl
@[simp] theorem State.modSvc_fns (g : SvcPort → SvcPort) : (s.modSvc g).fns = s.fns := rfl
@[simp] theorem State.modSvc_docents (g : SvcPort → SvcPort) : (s.modSvc g).docents = s.docents := rfl
@[simp] theorem State.modSvc_links (g : SvcPort → SvcPort) : (s.modSvc g).links = s.links := rfl
@[simp] theorem State.modSvc_lanes (g : SvcPort → SvcPort) : (s.modSvc g).lanes = s.lanes := rfl
@[simp] theorem State.modSvc_swcPorts (g : SvcPort → SvcPort) : (s.modSvc g).swcPorts = s.swcPorts := rfl
@[simp] theorem State.modSvc_ctxs (g : SvcPort → SvcPort) : (s.modSvc g).ctxs = s.ctxs := rfl
@[simp] theorem State.modSvc_gals (g : SvcPort → SvcPort) : (s.modSvc g).gals = s.gals := rfl
@[simp] theorem State.modSvc_sos (g : SvcPort → SvcPort) : (s.modSvc g).sos = s.sos := rfl
@[simp] theorem State.modSvc_waitRefused (g : SvcPort → SvcPort) : (s.modSvc g).waitRefused = s.waitRefused := rfl
@[simp] theorem State.modSvc_vault (g : SvcPort → SvcPort) : (s.modSvc g).vault = s.vault := rfl
@[simp] theorem State.modSvc_trn (g : SvcPort → SvcPort) : (s.modSvc g).trn = s.trn := rfl
@[simp] theorem State.modSvc_red (g : SvcPort → SvcPort) : (s.modSvc g).red = s.red := rfl
@[simp] theorem State.modSvc_cat (g : SvcPort → SvcPort) : (s.modSvc g).cat = s.cat := rfl
@[simp] theorem State.modSvc_sec (g : SvcPort → SvcPort) : (s.modSvc g).sec = s.sec := rfl
@[simp] theorem State.modSvc_tel (g : SvcPort → SvcPort) : (s.modSvc g).tel = s.tel := rfl
@[simp] theorem State.modSvc_swc (g : SvcPort → SvcPort) : (s.modSvc g).swc = s.swc := rfl
@[simp] theorem State.modSvc_seqs (g : SvcPort → SvcPort) : (s.modSvc g).seqs = s.seqs := rfl
@[simp] theorem State.modSvc_genCount (g : SvcPort → SvcPort) : (s.modSvc g).genCount = s.genCount := rfl
@[simp] theorem State.modSvc_replay (g : SvcPort → SvcPort) : (s.modSvc g).replay = s.replay := rfl
@[simp] theorem State.modSvc_held (g : SvcPort → SvcPort) : (s.modSvc g).held = s.held := rfl
@[simp] theorem State.modSvc_lostFor (g : SvcPort → SvcPort) : (s.modSvc g).lostFor = s.lostFor := rfl
@[simp] theorem State.modSvc_windows (g : SvcPort → SvcPort) : (s.modSvc g).windows = s.windows := rfl
@[simp] theorem State.modSvc_arv (g : SvcPort → SvcPort) : (s.modSvc g).arv = s.arv := rfl
@[simp] theorem State.modSvc_arrived (g : SvcPort → SvcPort) : (s.modSvc g).arrived = s.arrived := rfl
@[simp] theorem State.modSvc_epIn (g : SvcPort → SvcPort) : (s.modSvc g).epIn = s.epIn := rfl
@[simp] theorem State.modSvc_outputs (g : SvcPort → SvcPort) : (s.modSvc g).outputs = s.outputs := rfl
@[simp] theorem State.modSvc_freeCtr (g : SvcPort → SvcPort) : (s.modSvc g).freeCtr = s.freeCtr := rfl
@[simp] theorem State.modSvc_nextPkt (g : SvcPort → SvcPort) : (s.modSvc g).nextPkt = s.nextPkt := rfl

/-! `modCur` changes `cur` alone. -/

@[simp] theorem State.modCur_pending (g : Curator → Curator) : (s.modCur g).pending = s.pending := rfl
@[simp] theorem State.modCur_ctl (g : Curator → Curator) : (s.modCur g).ctl = s.ctl := rfl
@[simp] theorem State.modCur_pwr (g : Curator → Curator) : (s.modCur g).pwr = s.pwr := rfl
@[simp] theorem State.modCur_clk (g : Curator → Curator) : (s.modCur g).clk = s.clk := rfl
@[simp] theorem State.modCur_own (g : Curator → Curator) : (s.modCur g).own = s.own := rfl
@[simp] theorem State.modCur_flash (g : Curator → Curator) : (s.modCur g).flash = s.flash := rfl
@[simp] theorem State.modCur_svc (g : Curator → Curator) : (s.modCur g).svc = s.svc := rfl
@[simp] theorem State.modCur_fns (g : Curator → Curator) : (s.modCur g).fns = s.fns := rfl
@[simp] theorem State.modCur_docents (g : Curator → Curator) : (s.modCur g).docents = s.docents := rfl
@[simp] theorem State.modCur_links (g : Curator → Curator) : (s.modCur g).links = s.links := rfl
@[simp] theorem State.modCur_lanes (g : Curator → Curator) : (s.modCur g).lanes = s.lanes := rfl
@[simp] theorem State.modCur_swcPorts (g : Curator → Curator) : (s.modCur g).swcPorts = s.swcPorts := rfl
@[simp] theorem State.modCur_ctxs (g : Curator → Curator) : (s.modCur g).ctxs = s.ctxs := rfl
@[simp] theorem State.modCur_gals (g : Curator → Curator) : (s.modCur g).gals = s.gals := rfl
@[simp] theorem State.modCur_sos (g : Curator → Curator) : (s.modCur g).sos = s.sos := rfl
@[simp] theorem State.modCur_waitRefused (g : Curator → Curator) : (s.modCur g).waitRefused = s.waitRefused := rfl
@[simp] theorem State.modCur_vault (g : Curator → Curator) : (s.modCur g).vault = s.vault := rfl
@[simp] theorem State.modCur_trn (g : Curator → Curator) : (s.modCur g).trn = s.trn := rfl
@[simp] theorem State.modCur_red (g : Curator → Curator) : (s.modCur g).red = s.red := rfl
@[simp] theorem State.modCur_cat (g : Curator → Curator) : (s.modCur g).cat = s.cat := rfl
@[simp] theorem State.modCur_sec (g : Curator → Curator) : (s.modCur g).sec = s.sec := rfl
@[simp] theorem State.modCur_tel (g : Curator → Curator) : (s.modCur g).tel = s.tel := rfl
@[simp] theorem State.modCur_swc (g : Curator → Curator) : (s.modCur g).swc = s.swc := rfl
@[simp] theorem State.modCur_seqs (g : Curator → Curator) : (s.modCur g).seqs = s.seqs := rfl
@[simp] theorem State.modCur_genCount (g : Curator → Curator) : (s.modCur g).genCount = s.genCount := rfl
@[simp] theorem State.modCur_replay (g : Curator → Curator) : (s.modCur g).replay = s.replay := rfl
@[simp] theorem State.modCur_held (g : Curator → Curator) : (s.modCur g).held = s.held := rfl
@[simp] theorem State.modCur_lostFor (g : Curator → Curator) : (s.modCur g).lostFor = s.lostFor := rfl
@[simp] theorem State.modCur_windows (g : Curator → Curator) : (s.modCur g).windows = s.windows := rfl
@[simp] theorem State.modCur_arv (g : Curator → Curator) : (s.modCur g).arv = s.arv := rfl
@[simp] theorem State.modCur_arrived (g : Curator → Curator) : (s.modCur g).arrived = s.arrived := rfl
@[simp] theorem State.modCur_epIn (g : Curator → Curator) : (s.modCur g).epIn = s.epIn := rfl
@[simp] theorem State.modCur_outputs (g : Curator → Curator) : (s.modCur g).outputs = s.outputs := rfl
@[simp] theorem State.modCur_freeCtr (g : Curator → Curator) : (s.modCur g).freeCtr = s.freeCtr := rfl
@[simp] theorem State.modCur_nextPkt (g : Curator → Curator) : (s.modCur g).nextPkt = s.nextPkt := rfl

/-! `modTel` changes `tel` alone. -/

@[simp] theorem State.modTel_pending (g : Tel → Tel) : (s.modTel g).pending = s.pending := rfl
@[simp] theorem State.modTel_ctl (g : Tel → Tel) : (s.modTel g).ctl = s.ctl := rfl
@[simp] theorem State.modTel_pwr (g : Tel → Tel) : (s.modTel g).pwr = s.pwr := rfl
@[simp] theorem State.modTel_clk (g : Tel → Tel) : (s.modTel g).clk = s.clk := rfl
@[simp] theorem State.modTel_own (g : Tel → Tel) : (s.modTel g).own = s.own := rfl
@[simp] theorem State.modTel_cur (g : Tel → Tel) : (s.modTel g).cur = s.cur := rfl
@[simp] theorem State.modTel_flash (g : Tel → Tel) : (s.modTel g).flash = s.flash := rfl
@[simp] theorem State.modTel_svc (g : Tel → Tel) : (s.modTel g).svc = s.svc := rfl
@[simp] theorem State.modTel_fns (g : Tel → Tel) : (s.modTel g).fns = s.fns := rfl
@[simp] theorem State.modTel_docents (g : Tel → Tel) : (s.modTel g).docents = s.docents := rfl
@[simp] theorem State.modTel_links (g : Tel → Tel) : (s.modTel g).links = s.links := rfl
@[simp] theorem State.modTel_lanes (g : Tel → Tel) : (s.modTel g).lanes = s.lanes := rfl
@[simp] theorem State.modTel_swcPorts (g : Tel → Tel) : (s.modTel g).swcPorts = s.swcPorts := rfl
@[simp] theorem State.modTel_ctxs (g : Tel → Tel) : (s.modTel g).ctxs = s.ctxs := rfl
@[simp] theorem State.modTel_gals (g : Tel → Tel) : (s.modTel g).gals = s.gals := rfl
@[simp] theorem State.modTel_sos (g : Tel → Tel) : (s.modTel g).sos = s.sos := rfl
@[simp] theorem State.modTel_waitRefused (g : Tel → Tel) : (s.modTel g).waitRefused = s.waitRefused := rfl
@[simp] theorem State.modTel_vault (g : Tel → Tel) : (s.modTel g).vault = s.vault := rfl
@[simp] theorem State.modTel_trn (g : Tel → Tel) : (s.modTel g).trn = s.trn := rfl
@[simp] theorem State.modTel_red (g : Tel → Tel) : (s.modTel g).red = s.red := rfl
@[simp] theorem State.modTel_cat (g : Tel → Tel) : (s.modTel g).cat = s.cat := rfl
@[simp] theorem State.modTel_sec (g : Tel → Tel) : (s.modTel g).sec = s.sec := rfl
@[simp] theorem State.modTel_swc (g : Tel → Tel) : (s.modTel g).swc = s.swc := rfl
@[simp] theorem State.modTel_seqs (g : Tel → Tel) : (s.modTel g).seqs = s.seqs := rfl
@[simp] theorem State.modTel_genCount (g : Tel → Tel) : (s.modTel g).genCount = s.genCount := rfl
@[simp] theorem State.modTel_replay (g : Tel → Tel) : (s.modTel g).replay = s.replay := rfl
@[simp] theorem State.modTel_held (g : Tel → Tel) : (s.modTel g).held = s.held := rfl
@[simp] theorem State.modTel_lostFor (g : Tel → Tel) : (s.modTel g).lostFor = s.lostFor := rfl
@[simp] theorem State.modTel_windows (g : Tel → Tel) : (s.modTel g).windows = s.windows := rfl
@[simp] theorem State.modTel_arv (g : Tel → Tel) : (s.modTel g).arv = s.arv := rfl
@[simp] theorem State.modTel_arrived (g : Tel → Tel) : (s.modTel g).arrived = s.arrived := rfl
@[simp] theorem State.modTel_epIn (g : Tel → Tel) : (s.modTel g).epIn = s.epIn := rfl
@[simp] theorem State.modTel_outputs (g : Tel → Tel) : (s.modTel g).outputs = s.outputs := rfl
@[simp] theorem State.modTel_freeCtr (g : Tel → Tel) : (s.modTel g).freeCtr = s.freeCtr := rfl
@[simp] theorem State.modTel_nextPkt (g : Tel → Tel) : (s.modTel g).nextPkt = s.nextPkt := rfl

/-! An update reads back at its own key, and leaves every other key alone. -/

@[simp] theorem State.modFn_fn_same (f : Nat) (g : Fn → Fn) : (s.modFn f g).fn f = g (s.fn f) :=
  Tab.get_modify_same _ _ _ _

theorem State.modFn_fn_ne (f : Nat) (g : Fn → Fn) (j : Nat) (h : j ≠ f) : (s.modFn f g).fn j = s.fn j :=
  Tab.get_modify_ne _ _ _ h

@[simp] theorem State.modDocent_docent_same (p : Nat) (g : Docent → Docent) : (s.modDocent p g).docent p = g (s.docent p) :=
  Tab.get_modify_same _ _ _ _

theorem State.modDocent_docent_ne (p : Nat) (g : Docent → Docent) (j : Nat) (h : j ≠ p) : (s.modDocent p g).docent j = s.docent j :=
  Tab.get_modify_ne _ _ _ h

@[simp] theorem State.modLink_link_same (p : Nat) (g : Link → Link) : (s.modLink p g).link p = g (s.link p) :=
  Tab.get_modify_same _ _ _ _

theorem State.modLink_link_ne (p : Nat) (g : Link → Link) (j : Nat) (h : j ≠ p) : (s.modLink p g).link j = s.link j :=
  Tab.get_modify_ne _ _ _ h

@[simp] theorem State.modSwcPort_swcPort_same (p : Nat) (g : SwcPort → SwcPort) : (s.modSwcPort p g).swcPort p = g (s.swcPort p) :=
  Tab.get_modify_same _ _ _ _

theorem State.modSwcPort_swcPort_ne (p : Nat) (g : SwcPort → SwcPort) (j : Nat) (h : j ≠ p) : (s.modSwcPort p g).swcPort j = s.swcPort j :=
  Tab.get_modify_ne _ _ _ h

@[simp] theorem State.modCtx_ctx_same (c : Nat) (g : Ctx → Ctx) : (s.modCtx c g).ctx c = g (s.ctx c) :=
  Tab.get_modify_same _ _ _ _

theorem State.modCtx_ctx_ne (c : Nat) (g : Ctx → Ctx) (j : Nat) (h : j ≠ c) : (s.modCtx c g).ctx j = s.ctx j :=
  Tab.get_modify_ne _ _ _ h

@[simp] theorem State.modGal_gal_same (x : Nat) (g : Gallery → Gallery) : (s.modGal x g).gal x = g (s.gal x) :=
  Tab.get_modify_same _ _ _ _

theorem State.modGal_gal_ne (x : Nat) (g : Gallery → Gallery) (j : Nat) (h : j ≠ x) : (s.modGal x g).gal j = s.gal j :=
  Tab.get_modify_ne _ _ _ h

end Sys2Proof.Machine
end

