-- ==== Sys2Proof/Tests/Slice0.lean ====
section
/-! SUPPORT. The author's own tests: an ill-formed term for each check of well-formedness, the figures that the
specification's worked examples give, and for every statement with hypotheses a theorem that shows a state and
operands that meet them together, clause by clause. -/

set_option Elab.async false

open Sys2Proof Sys2Proof.Machine Sys2Proof.Slice0

namespace Sys2Proof.Tests

/-- A module with both powers and its host, in a given module state, that serves commands. -/
def at_ (m : ModState) : State :=
  { State.reset with
    ctl := { ModCtl.reset with state := m, hostReady := true, perst := false }
    pwr := { Power.reset with auxGood := true, mainGood := true, present := true }
    clk := { Clocks.reset with locked := true }
    cur := { Curator.reset with up := true }
    vault := { Vault.reset with initDone := true }
    flash := { Flash.reset with romKeys := [], identity := [] }
    fns := [(0, { Fn.reset with memorySpace := true, busMaster := true, vfEnable := true })] }

/-- In SERVICE, and in OPERATIONAL. -/
def svc : State := at_ .service
def opn : State := at_ .operational

/-- A taken command of the physical function with no parameter block. -/
def cmd (op : Nat) (args : Bytes) : Taken :=
  { fn := 0, uid := 0, seq := 0, cmdId := 1, opcode := op, paramOff := 0, paramLen := 0, args := args ++ zeros (48 - args.length)
    rsv := false, started := false, discard := false }

/-- The state once that command is the oldest that is taken. -/
def taking (s : State) (t : Taken) : State := s.modFn t.fn fun x => { x with taken := [t] }

/-- A firmware image: version 1, security version 0,
    and a body of 4,096 bytes that begins with the public key of its
signature and else is zero. The key is that of the private number 7. -/
def imageKeyBytes : Bytes :=
  natLe 48 0x283c1d7365ce4788f29f8ebf234edffead6fe997fbea5ffa2d58cc9dfa7b1c508b05526f55b9ebb2040f05b48fb6d0e1
    ++ natLe 48 0x9475c99061e41b88ba52efdb8c1690471a61d867ed799729d9c92cd01dbd225630d84ede32a78f9e64664cdac512ef8c
def imageHead : Bytes :=
  natLe 4 0x46585649 ++ natLe 2 1 ++ zeros 6 ++ natLe 4 1 ++ natLe 4 4096 ++ zeros 12
    ++ natLe 48 0x1ad55c4fb47942bec8acebd07bde5d2b83bf95a47d1679ffa7f623cefd7a93eb50285cf37d4a66d792d66cb018a48d53
    ++ zeros 48
    ++ natLe 48 0x121609cb61f030fb444327892a7200889d5f905d1db53282a5f9aba5aecba4981192d827245a068392a6c36caf6381a4
    ++ natLe 48 0x97165d980fac3be0c059921ee662a01aa84b64c7bd9c42de341b0640de70f5002b4fd21dd156a9dcdbaa60cb1eea3530
    ++ zeros 32
def image : Bytes := imageHead ++ (imageKeyBytes ++ zeros 4000)

/-- The digest of that key, as the boot ROM holds it for key index 0. -/
def romKey : Bytes :=
  natLe 48 0xf1f138ec30a4688ce41e168cdd9b69eb692eace6114df7eb1b1d82881af99ed534a62285e5819c96788262f50fa5c541

theorem image_length : image.length = 4352 := by decide +kernel

theorem image_parts : imageForm image = true ∧ imageKey image = 0 ∧ imageRevoke image = 0 ∧ imageSvn image = 0 := by
  decide +kernel

theorem image_key : sha384 (imagePub image) = romKey := by decide +kernel

theorem image_signature : ecdsaOk (imagePub image) (image.take 128) (imageSig image) = true := by decide +kernel

theorem image_body : imageBody image = imageKeyBytes ++ zeros 4000 := by
  have h : imageHead.length = 256 := by decide +kernel
  have n : getLe image 16 4 = 4096 := by decide +kernel
  unfold imageBody
  rw [n, image, List.drop_left' h]
  exact List.take_of_length_le (by decide +kernel)

theorem image_digest : sha384 (imageBody image) = sliceB image 32 48 := by
  rw [image_body]; decide +kernel

theorem image_verifies (f : Flash) (hr : f.revoked = 0) (h0 : f.fusedSvn = 0) (hk : f.romKeys = [romKey]) :
    f.verify image true = stOk := by
  obtain ⟨h1, h2, h3, h4⟩ := image_parts
  simp [Flash.verify, Flash.signed, h1, h2, h3, h4, image_key, image_signature, image_digest, hr, h0, hk, keyIn]

theorem hold_image : (FlashArea.hold image).image = image := by
  simp [FlashArea.hold, FlashArea.image, memBytes_memPut]

/-- Flash with that image in one area or both. -/
def flashWith (staged : Bool) : Flash :=
  { Flash.reset with
    romKeys := [romKey], identity := [], imageArea := FlashArea.hold image
    stagedArea := if staged then FlashArea.hold image else FlashArea.empty }

theorem image_area_verifies (s : State) (h : s.flash.imageArea = FlashArea.hold image) (hr : s.flash.revoked = 0)
    (h0 : s.flash.fusedSvn = 0) (hk : s.flash.romKeys = [romKey]) :
    s.flash.verify s.flash.imageArea.image true = stOk := by
  rw [h, hold_image, image_verifies _ hr h0 hk]

theorem staged_area_verifies (s : State) (h : s.flash.stagedArea = FlashArea.hold image) (hr : s.flash.revoked = 0)
    (h0 : s.flash.fusedSvn = 0) (hk : s.flash.romKeys = [romKey]) :
    s.flash.verify s.flash.stagedArea.image true = stOk := by
  rw [h, hold_image, image_verifies _ hr h0 hk]

theorem staged_area_fails (s : State) : s.flash.verify s.flash.stagedArea.image false ≠ stOk := by
  simp [Flash.verify, stDataError, stOk]

/-- The image in the staging window. -/
@[irreducible] def staging : List Host.Cell := memPut [] vpaStaging image

theorem staging_verifies (s : State) (h : s.vault.mem = staging) (hl : s.cur.stageLen = 4352) (hr : s.flash.revoked = 0)
    (h0 : s.flash.fusedSvn = 0) (hk : s.flash.romKeys = [romKey]) :
    s.flash.verify (s.vmBytes vpaStaging s.cur.stageLen) true = stOk := by
  have e : s.vmBytes vpaStaging s.cur.stageLen = image := by
    unfold State.vmBytes; rw [h, hl, ← image_length]; unfold staging; exact memBytes_memPut _ _ _
  rw [e, image_verifies _ hr h0 hk]

theorem clean_reads (s : State) (a n : Nat) (hb : s.vault.bad = []) : s.badIn a n = [] := by simp [State.badIn, hb]

/-- Bytes 0 to `n - 1` of a block, of which some are not zero. -/
def block (n : Nat) (cells : List Host.Cell) : Bytes := memBytes cells 0 n

/-- A taken command of the physical function with a parameter block at the start of its slice. -/
def cmdB (op n : Nat) : Taken := { cmd op [] with paramLen := n }

/-- The state once that command is taken and its block lies in the slice. -/
def takingB (s : State) (op n : Nat) (cells : List Host.Cell) : State :=
  taking { s with vault := { s.vault with mem := cells.map fun c => (0x20000000 + c.1, c.2) } } (cmdB op n)

/-- An active bank that holds a few bytes. -/
def banked (s : State) (cells : List Host.Cell) : State :=
  { s with cat := { s.cat with installed := true, bank0 := { Bank.reset with bytes := cells } } }

/-- One gallery, and one context of port 47. -/
def withGal (s : State) (g : Nat) (x : Gallery) : State := { s with gals := [(g, x)] }
def withCtx (s : State) (x : Ctx) : State := { s with ctxs := [(767, x)] }

/-- An open session over DOE, and a tenant message. -/
def withSession (s : State) : State :=
  { s with sec := { s.sec with sessions := [{ id := 7, mctp := false, open_ := true, keyPhase := 0 }] } }
def tmsg (code : Nat) : TenantMsg :=
  { code := code, gallery := 63, port := 47, slot := 63, gen := 0, period := 0, lead := 0, count := 0, material := [], reserved := false
    members := [] }

/-- A fabric header whose fields are zero but for those named in its update, and an end-point header. -/
def fh : FHdr :=
  { ftype := 0, epoch := false, vc := 0, resp := false, hopPtr := 0, hopsM1 := 0, lines := 0, colour := 0, dseq := 0
    route := 0, dlMask := 0, gallery := 0, fpa := 0, srcNode := 0, srcPort := 0, srcLocal := 0, keyGen := 0,
        param := 0 }
def eh : EHdr :=
  { opcode := 0, ctx := 15, tag := 1023, linesM1 := 0, slot := 63, keyGen := 0, address := 0, counter := 1, word := 0
    rsv := false }

/-- A quorum set of one signer, whose private number is 7,
    and the request of an action that it signed: EXPEL_PORT of
port 0, DRAIN, and REPLACE_SET with a set of one zero key. -/
def withSigner (s : State) : State := { s with sec := { s.sec with quorum := [imageKeyBytes], k := 1 } }
def request (action : Nat) (sig : Bytes) : Bytes := natLe 1 action ++ natLe 1 1 ++ zeros 66 ++ sig
def expelRequest : Bytes :=
  request 1 (natLe 48 0x121609cb61f030fb444327892a7200889d5f905d1db53282a5f9aba5aecba4981192d827245a068392a6c36caf6381a4
    ++ natLe 48 0x408a2ed52486f0be47a12b759f34b3b27e57f0cbf6926b98bd29677edbd0d55a1f8e43ca9830dcd2489412975cae0025)
def drainRequest : Bytes :=
  request 6 (natLe 48 0x121609cb61f030fb444327892a7200889d5f905d1db53282a5f9aba5aecba4981192d827245a068392a6c36caf6381a4
    ++ natLe 48 0x474349e9efc6bf5e27165845b2385ad2e894e2473e113bf3d40bed9c6e138d3ec785e6367a1cc0cea5515b031ea4198)
def replaceRequest : Bytes :=
  request 7 (natLe 48 0x121609cb61f030fb444327892a7200889d5f905d1db53282a5f9aba5aecba4981192d827245a068392a6c36caf6381a4
    ++ natLe 48 0xc9d3e3f3ff3af34fb3d496893355537085f58ade55fb0e085aa67518dcd171b19c6108def0e8a2833992083c79de2b68)
    ++ natLe 1 1 ++ natLe 1 1 ++ zeros 102

/-- The signature with which that claimant resumes gallery 63, whose challenge is zero. -/
def resumeSig : Bytes :=
  natLe 48 0x121609cb61f030fb444327892a7200889d5f905d1db53282a5f9aba5aecba4981192d827245a068392a6c36caf6381a4
    ++ natLe 48 0x5f83a9a2f2f7b6f43656f2577393b7c2e9d5eee0928d111e16d42df2e6342309754d07cce111df60f3b1fe32078bafce

/-- The state once a command whose block is those bytes is taken. -/
def takingBytes (s : State) (op : Nat) (b : Bytes) : State :=
  taking { s with vault := { s.vault with mem := memPut [] 0x20000000 b } } (cmdB op b.length)

/-- What R639 to R643 and R884 ask of a message, as one conjunction. -/
theorem heeded_iff {s : State} {sid : Nat} {m : TenantMsg} : Heeded s sid m ↔
    (msgForm m = true ∧ m.gallery ≠ 0 ∧ (4 ≤ m.code → (s.gal m.gallery).session = some sid)
      ∧ (m.code = 3 → s.claimantSigned m = true)
      ∧ (4 ≤ m.code → m.code ≤ 6 → ((s.docent m.port).slot m.slot).owner = some m.gallery)
      ∧ msgStates m.code (s.gal m.gallery).state = true ∧ (m.code = 8 → (s.gal m.gallery).lead = s.node)
      ∧ (m.code = 4 → ((s.docent m.port).slot m.slot).installed = false)
      ∧ (m.code = 5 → ((s.docent m.port).slot m.slot).installed = true
        ∧ Tab.get 0 (s.docent m.port).sendSlot m.gallery ≠ m.slot + 1)
      ∧ (m.code = 6 → ((s.docent m.port).slot m.slot).installed = true)) :=
  ⟨fun h => ⟨h.1, h.2, h.3, h.4, h.5, h.6, h.7, h.8, h.9, h.10⟩,
   fun ⟨h1, h2, h3, h4, h5, h6, h7, h8, h9, h10⟩ => ⟨h1, h2, h3, h4, h5, h6, h7, h8, h9, h10⟩⟩

/-- A fabric packet of this module, which carries no tag. -/
def pkt (h : FHdr) (b : Bytes) : FabPkt := { hdr := h.enc, payload := b, tag := [] }

/-- Port 47 as a trunk whose link has a given form. -/
def withLink (s : State) (l : Link) : State := banked { s with links := [(47, l)] } [(0x1BC, 2)]
def active : Link := { Link.reset with state := .active }

/-- The symbols of a flit on eight lanes, as long as no scrambler has been loaded; and lanes whose bytes
are all zero, a codeword whose CRC is wrong. -/
def lanesOf (hdr : Word) : List (List Pam) :=
  (List.range 8).map fun i => (laneShare (flitBytes hdr (zeros 224)) 8 i).flatMap byteSymbols
def badLanes : List (List Pam) := List.replicate 8 (List.replicate 128 .m3)

/-- Port 47 as a trunk of eight lanes that is ACTIVE, with a given link. -/
def wide (l : Link) : State := withLink svc { l with state := .active, width := 3 }

theorem wide_unwire (l : Link) (lanes : List (List Pam)) :
    ((wide l).unwire 47 lanes).2 = ((wide Link.reset).unwire 47 lanes).2 := rfl

theorem wide_reads {hdr : Word} (h : hdr = 0 ∨ hdr = 0x8000000000000000 ∨ hdr = 0x4000000000000000) :
    lanesOk (lanesOf hdr) = true ∧ lanesFit 3 (lanesOf hdr) = true
    ∧ flitRead ((wide Link.reset).unwire 47 (lanesOf hdr)).2 = some (hdr, zeros 224, []) := by
  obtain rfl | rfl | rfl := h <;> decide +kernel

theorem bad_reads : lanesOk badLanes = true ∧ lanesFit 3 badLanes = true
    ∧ flitRead ((wide Link.reset).unwire 47 badLanes).2 = none := by decide +kernel

theorem bad_flit : (wide Link.reset).flitArrives 47 badLanes = (((wide Link.reset).unwire 47 badLanes).1,
    none) := by
  rw [State.flitArrives, bad_reads.2.2]

theorem wide_flit (l : Link) {hdr : Word} (h : hdr = 0 ∨ hdr = 0x8000000000000000 ∨ hdr = 0x4000000000000000) :
    GoodFlit (wide l) 47 (lanesOf hdr) ((wide l).unwire 47 (lanesOf hdr)).1 hdr (zeros 224) [] := by
  obtain ⟨h1, h2, h3⟩ := wide_reads h
  exact ⟨h1, h2, by rw [State.flitArrives, wide_unwire, h3]⟩

/-- A training frame of lane 7 with its marker and check: type and role, then bytes from 16 on. -/
def frame (kind role : Byte) (rest : Bytes) : Header :=
  let body : Bytes := [kind, 7, role] ++ zeros 5 ++ rest ++ zeros (14 - rest.length)
  BitVec.ofNat 256 (leNat ([0x4B, 0x4B, 0xB4, 0xB4, 0x4B, 0x4B, 0xB4, 0xB4] ++ body ++ natLe 2 (crc16 body)))

/-- A packet in the shared buffer, and one in the replay store. -/
def buffered (h : FHdr) : Buffered :=
  { inp := 80, out := 79, vc := 7, hdr := h.enc, payload := [], tag := [], shared := 0, mc := none }
def outst (h : FHdr) : Outst :=
  { src := 63, dest := h.srcNode, dseq := 0, origin := .mgmt, hdr := h.enc, payload := [], route := 0, copies := 1, resends := 0
    listed := false, tr := none, uid := 0, past := [], noFill := false, group := none }

/-- Port 47 with a key in slot 63 that gallery 0 owns, and context 15 bound to gallery 0. -/
def keyed (s : State) : State :=
  { s with
    docents := [(47,
        { Docent.reset with slots := [(63, { KeySlot.reset with owner := some 0, installed := true })] })]
    ctxs := [(767, { Ctx.reset with bound := true, state := .idle })] }

/-- The header of an end-point packet with some fields given. -/
def epReq (op ctx lines word : Nat) : Header := ({ eh with opcode := op, ctx := ctx, linesM1 := lines, word := word }).enc

/-- The header of a LAUNCH at address 0x80. -/
def launchReq : Header := ({ eh with opcode := eoLaunch, address := 0x80 }).enc

/-- The tag of an end-point packet without payload under a slot whose key is empty,
    and the state once it has passed. -/
def tagOf (e : EHdr) : Bytes := gcmTag [] (epNonce e 0) (headerBytes e.enc) []
def authed (s : State) (e : EHdr) : State :=
  s.modDocent 47 fun d => d.modSlot e.slot fun k => { k with rxCtr := e.counter }

theorem auth_ok {s : State} {e : EHdr}
    (h : (((s.docent 47).slot e.slot).installed && ((s.docent 47).slot e.slot).gen == e.keyGen
        && ((s.docent 47).slot e.slot).rxCtr < e.counter) = true ∧ ((s.docent 47).slot e.slot).key = []) :
    s.epAuth 47 e [] (tagOf e) = (authed s e, some []) := by
  simp only [State.epAuth, h.1, h.2, if_true, gcmOpen, tagOf, ctrXor]
  rfl

/-- Context 15 of port 47, ACTIVE at instruction 8, which is `t`. -/
def ti : TInstr := { op := 0, flags := 0, ra := 0, rb := 0, rc := 0, rd := 0, imm := 0, ext := 0 }
def instrBytes (t : TInstr) : Bytes :=
  natLe 1 t.op ++ natLe 1 t.flags ++ natLe 1 (t.rb + 16 * t.ra) ++ natLe 1 (t.rd + 16 * t.rc) ++ natLe 4 t.imm ++ natLe 8 t.ext
def touring (s : State) (t : TInstr) (regs : Tab Word) : State :=
  withCtx s { Ctx.reset with
    bound := true, gal := 1, state := .active, pc := 8, regs := regs, ibuf := [(2, instrBytes t ++ zeros 112)] }

/-- A bank whose schedule 5 is a REDUCE of gallery 1 with port 47 of node 0 as its one rank. -/
def schedule : List Host.Cell :=
  [(0x61028, 84), (0x6102D, 0x90), (0x6102E, 6), (0x69002, 1), (0x69003, 2), (0x69004, 1), (0x69006, 1), (0x6900F,
      0x10),
   (0x69018, 1), (0x69041, 0xC0), (0x69042, 0x0B)]
def sched5 : Sched :=
  { off := 0x69000, len := 84, gallery := 1, depth := 2, n := 1, b := 1, digest := 0x1000000000000000, joinTimeout := 0, instSo := 0
    alt := 0, groups := 1 }

/-- An instance of that schedule with a granted claim, its member, and the member's first chunk. -/
def member : HomeMember :=
  { rank := 0, node := 0, port := 47, chunks := 0, coverage := 0, ended := false, ahead := [], withdrawn := false, counts := [], experts := [] }
def copy0 : ChunkCopy := { rank := 0, chunk := 0, amount := 4, whole := true, lastWindow := none }
def inst : Instance :=
  { sched := 5, inst := 0, gallery := 1, epoch := false, n := 1, b := 1, group := 0, groups := 1, depth := 2
    digest := 0x1000000000000001, footprint := 1, instSo := 0, joinTimeout := 0, members := [member],
        claim := .granted
    drawers := [(0, 1)], copies := [], next := 0, partials := [], finished := [], arriving := [], sentChunks := 0
    emitted := 0, tail := [], sentBytes := 0, candN := 0, candSeen := 0, merged := false, tokens := [],
        tokenNext := []
    offsetsSent := false, aborted := false, begun := [] }
def homing (s : State) (is : List Instance) : State := { s with red := { s.red with insts := is } }
def joining : JoinMsg :=
  { sched := 5, inst := 0, gallery := 1, node := 0, port := 47, shape := 0x1000000000000001, epoch := false, counts := []
    experts := [] }

/-- A member of that instance at context 15 of port 47. -/
def memberOf (k : OpKind) (c : Coll) : Op :=
  { Op.start svc 767 ti k with phase := .running, col := { c with sched := 5, inst := some 0 } }
def serving (o : Op) : State := withCtx svc { Ctx.reset with bound := true, state := .blocked, ops := [o] }

/-! ### Well-formedness: an ill-formed term for each check, which the check refuses -/

theorem test_wf_instruction_line : (Instr.instructionLineArrival 0 0 0 (.data (zeros 127))).wf = false := by decide +kernel
theorem test_wf_instruction_status : (Instr.instructionLineArrival 0 0 0 (.failed 0)).wf = false := by decide
theorem test_wf_descriptor_line : (Instr.descriptorArrival 0 0 0 (.data (zeros 129))).wf = false := by decide +kernel
theorem test_wf_descriptor_status : (Instr.descriptorArrival 0 0 0 (.failed 256)).wf = false := by decide
/-- A fabric packet whose lengths fit. -/
def okPkt : FabPkt := { hdr := 0, payload := [], tag := zeros 16 }

theorem test_wf_packet : okPkt.ok = true ∧ (Instr.withdrawal ⟨5, 0, 0⟩ false okPkt).wf = true := by decide
theorem test_wf_packet_payload : (Instr.mgmt { okPkt with payload := zeros 2049 }).wf = false := by decide +kernel
theorem test_wf_packet_tag : (Instr.read 0 [] (zeros 15)).wf = false
    ∧ (Instr.ack 0 (zeros 17) false).wf = false := by decide
theorem test_wf_join_counts : (Instr.join { joining with counts := List.replicate 4097 0 } okPkt).wf = false := by
  decide +kernel
theorem test_wf_contribution_offset : (Instr.contribution ⟨5, 0, 0⟩ 0 64 0 [] false okPkt).wf = false := by decide
theorem test_wf_contribution_lines : (Instr.contribution ⟨5, 0,
    0⟩ 0 0 0 (zeros 100) false okPkt).wf = false := by decide +kernel
theorem test_wf_contribution_length : (Instr.contribution ⟨5, 0, 0⟩ 0 0 0 (zeros 2176) false okPkt).wf = false := by
  decide +kernel
theorem test_wf_partial_length : (Instr.partialChunk 5 0 0 0 0 (zeros 2049) okPkt).wf = false := by decide +kernel
theorem test_wf_finished_length : (Instr.finishedChunk 5 0 0 0 (zeros 2049) okPkt).wf = false := by decide +kernel
theorem test_wf_output_length : (Instr.expertOutput ⟨5, 0,
    0⟩ 0 0 0 (zeros 2049) okPkt).wf = false := by decide +kernel
theorem test_wf_combine_weights : (Instr.combineWeights ⟨5, 0, 0⟩ 0 [1] [] okPkt).wf = false := by decide
theorem test_wf_flit_lanes : (Instr.dataFlit 0 (badLanes.take 7)).wf = false
    ∧ (Instr.ctrlFlit 0 []).wf = false := by decide +kernel
theorem test_wf_flit_symbols : (Instr.filler 0 (List.replicate 8 (List.replicate 127 .m3))).wf = false := by decide +kernel
theorem test_wf_challenge_nonce : (Instr.challenge true 0 (zeros 31)).wf = false := by decide
theorem test_wf_tenant_material : (Instr.galQuery none (tmsg 1)).wf = false := by decide
theorem test_wf_tenant_members :
    (Instr.galFabricStep none { tmsg 8 with material := zeros 96, count := 1 }).wf = false := by decide
theorem test_wf_key_prog : (Instr.keyProg none 0 true (zeros 16)).wf = false := by decide
theorem test_wf_register_size : (Instr.registerWrite 0 0 2 0).wf = false := by decide
theorem test_wf_register_align : (Instr.registerWrite 0 4 8 0).wf = false := by decide

/-- A command whose operands are not of its event's lengths stops (log entry 70). -/
theorem test_ill_formed_stops :
    exec (.dataFlit 47 []) (wide Link.reset) = .fault .operandLength := rfl

/-! ### The worked examples of the specification -/

/-- 01, worked example: the header of a STORE of four lines. -/
theorem test_store_header :
    EHdr.dec (BitVec.ofNat 256 (0x02 + 0x30 * 2 ^ 8 + 0x015 * 2 ^ 16 + 3 * 2 ^ 32 + 9 * 2 ^ 40 + 7 * 2 ^ 48
      + 0x00007F2000400200 * 2 ^ 64 + 0x13A80 * 2 ^ 128 + 0x8264 * 2 ^ 192))
    = { opcode := eoStore, ctx := 3, tag := 0x15, linesM1 := 3, slot := 9, keyGen := 7, address := 0x00007F2000400200
        counter := 0x13A80, word := 0x8264, rsv := false } := by decide

/-- 01: the four lines lie in one block (R45). -/
theorem test_store_block : inBlock 0x00007F2000400200 4 = true := by decide

/-- 02, worked example: pc 0, a COPY. -/
theorem test_tour_copy :
    TInstr.dec (natLe 8 0x0000080040328010 ++ natLe 8 0x2BD)
    = { op := 0x10, flags := 0x80, ra := 3, rb := 2, rc := 4, rd := 0, imm := 0x800, ext := 701 } := by decide

/-- 02: pc 1, a LOOP, issued with X5 = 8: it branches to 0, counts to 7, and steps X3 and X4. -/
theorem test_tour_loop :
    let s := touring svc (TInstr.dec (natLe 8 0x0000000105340040 ++ natLe 8 0x0004000000040000)) [(5, 8)]
    (match exec (.loop 47 15) s with
      | .next t => ((t.ctx 767).pc, Tab.get 0 (t.ctx 767).regs 3, Tab.get 0 (t.ctx 767).regs 4,
          Tab.get 0 (t.ctx 767).regs 5)
      | _ => (0, 0, 0, 0)) = (7, 0x40000, 0x40000, 7) := by decide +kernel

/-- 02: pc 3, a SIGNAL of SO40 at module 0x2C4. -/
theorem test_tour_signal :
    TInstr.dec (natLe 8 0x000000010000D130 ++ natLe 8 0x2C48000000000280)
    = { op := 0x30, flags := 0xD1, ra := 0, rb := 0, rc := 0, rd := 0, imm := 1, ext := soFpa 0x2C4 40 } := by decide

/-- 03, worked example: the descriptor's box, and the source of line 512. -/
def stridedCopy : TDesc :=
  { src := 0x0000510000000000, dst := 0x00006A00001F0000, idx := 0, mask := 0x0000510000100000, n0 := 8, n1 := 48, n2 := 4
    n3 := 1, n4 := 1, arv := 0x8384, ctl := 0, ss := [0x1000, 0x40000, 0, 0], ds := [0x400, 0xC000, 0, 0] }

theorem test_copy_lines : stridedCopy.lines = 1536 := by decide
theorem test_copy_line_512 :
    stridedCopy.coord 512 = (0, 16, 1, 0, 0)
    ∧ lineAddr stridedCopy.src 16 (stridedCopy.coord 512) stridedCopy.ss = 0x0000510000050000
    ∧ lineAddr stridedCopy.dst 16 (stridedCopy.coord 512) stridedCopy.ds = 0x00006A0000200000 := by decide

/-- 04, worked example: the address of a WAIT on SO1200 of module 0x2C6. -/
theorem test_sync_address : soFpa 0x2C6 1200 = 0x2C68000000004B00 := by decide

/-- 05, worked example: B(count) of 50,331,648 BF16 elements, in chunks. -/
theorem test_chunks : ({ inst with digest := 0x1111000003000000 } : Instance).chunks = 1536 := by decide +kernel

/-- 06, worked example: offsets and kept counts of expert 5, of capacity 6. -/
theorem test_capacity : capacityRule 6 [3, 2, 0, 4] 0 = ([(0, 3), (3, 2), (5, 0), (5, 1)], 6) := by decide

/-- 06: element 0 of the combined tokens 1 and 2 of rank 3. Weights are FP32; the elements are BF16. -/
theorem test_combine_two :
    combineToken 1 2 [(0x3F400000, natLe 2 0x4000), (0x3E800000,
        natLe 2 0xBF80)] = natLe 2 0x3FA0 := by decide +kernel
theorem test_combine_one : combineToken 1 2 [(0x3F200000, natLe 2 0x3FC0)] = natLe 2 0x3F70 := by decide +kernel

/-- 08, worked example: the extent, its register, and the die of the first line of the LOAD. -/
theorem test_extent :
    ({ Extent.reset with en := true, ready := true, size := 0x40, base := 0x4B0 } : Extent).reg = 0xC0000000004004B0 := by decide
theorem test_vault_line : vpaShelf 0x96123480 = 0xC6123480 ∧ vpaDie (vpaShelf 0x96123480) = 9 := by decide

/-- 09, worked example: the route word of 0x3C2. -/
theorem test_route_word :
    let w : Word := 0x83020000004490EC
    routeValid w = true ∧ routeHopsM1 w = 3 ∧ routeDlMask w = 2
    ∧ (List.range 4).map (routeEntry (routeBits w)) = [44, 3, 9, 17] := by decide

/-- 09: the first two header words of the WRITE. -/
def ringWrite : FHdr :=
  FHdr.dec (BitVec.ofNat 256 (0x00005A1000708002 + 0x11020000004490EC * 2 ^ 64 + 0x8264 * 2 ^ 240))
theorem test_fabric_header :
    ringWrite.epoch = true
    ∧ [ringWrite.ftype, ringWrite.vc, ringWrite.hopPtr, ringWrite.hopsM1, ringWrite.lines, ringWrite.colour]
      = [ftWrite, 0, 0, 3, 16, 0]
    ∧ [ringWrite.dseq, ringWrite.route, ringWrite.dlMask, ringWrite.gallery] = [0x5A10, 0x4490EC, 2,
        17] := by decide

/-- 09: the VC on which it leaves 0x2C0, 0x400 and 0x401. -/
theorem test_date_line :
    outVc ringWrite = 0 ∧ outVc { ringWrite with hopPtr := 1 } = 1
        ∧ outVc { ringWrite with hopPtr := 2, vc := 1 } = 1 := by decide

/-- 09: the packet is 2,096 bytes, which is 17 cells. -/
theorem test_cells : packetBytes (zeros 2048) = 2096 ∧ packetCells (zeros 2048) = 17 := by
  rw [packetCells, packetBytes, zeros, List.length_replicate]; decide

/-- 10, worked example: the header of DATA flit 0x3A10 acknowledges, and returns VC2 credit. -/
theorem test_flit_header :
    let h : Word := 0x002968DFC08E8400
    natLe 8 h.toNat = [0x00, 0x84, 0x8E, 0xC0, 0xDF, 0x68, 0x29, 0x00]
    ∧ bitN h 53 = true ∧ fieldN h 50 3 = 2 ∧ fieldN h 38 12 = 0x5A3 := by decide

/-- 10: lanes 0 to 3 of a trunk whose lane 5 is out. -/
theorem test_width : widthOf 0xDF = 1 ∧ widthLanes 1 = [0, 1, 2, 3] := by decide

/-- 10: the four symbols of byte 0xE4, whose pairs are 0, 1, 2 and 3, first the lowest (R561). -/
theorem test_pam : byteSymbols 0xE4 = [.m3, .m1, .p3, .p1] := by decide

/-- 10: the first outputs of the scrambler of the lane in position 0, which is loaded with 0x01010101 (R562): its
bit 24 is at bit 27 after three shifts and at bit 30 after six. -/
theorem test_scrambler : (scrByte 0x01010101).1 = 0x48 := by decide

/-- The FEC of 236 zero bytes is zero (R574: the code is linear),
    and the check values of CRC-32 and SHA-384 over the
usual strings, and of AES-256 over zeros, which the standards' own vectors give. -/
theorem test_fec_zero : fecChecks (zeros 236) = zeros 19 := by decide +kernel
theorem test_crc32 : crc32 (ascii "123456789") = 0xCBF43926 := by decide +kernel
theorem test_sha384 : leNat (sha384 (ascii "abc")).reverse
    = 0xcb00753f45a35e8bb5a03d699ac65007272c32ab0eded1631a8b605a43ff5bed8086072ba1e7cc2358baeca134c825a7 := by
  decide +kernel
theorem test_aes : beNat (aes256 (zeros 32) (zeros 16)) = 0xdc95c078a2408989ad48a21492842087 := by decide +kernel

/-- 12, worked example: registers of VF5's rings, and the slots of an entry and of its completion record. -/
theorem test_ring_registers :
    ({ Ring.reset with en := true, log2 := 8, base := 4 } : Ring).regCfg = 0x8000000800004000
    ∧ ({ IntMap.reset with vector := 2, arm := true } : IntMap).reg = 0x10002 := by decide
theorem test_completion_slot :
    ringSlot 5 1 { Ring.reset with en := true, log2 := 8, base := 4 } 0xA3 = 0x21400000 + 0x5460 := by decide

/-- 14, worked example: the tier that each cap calls for, and PWR_CAP at 1.07 ms. -/
theorem test_tiers : (tierFor 1050, tierFor 800, tierFor 600, tierFor 500) = (0, 2, 3, 3) := by decide
theorem test_power_cap :
    ({ svc with pwr := { svc.pwr with bmcCap := 500, drvCap := 600 } } : State).regPwrCap = 0x01F4025801F4 := by decide
/-- 14: the value of the completion of POWER_CAP. -/
theorem test_cap_value : ({ svc.pwr with bmcCap := 500, drvCap := 600 } : Power).capValue = 0x01C201F4 := by decide
/-- 14: a first average above 800 W in T0 brings T2, and cap_not_met reads 1. -/
theorem test_cap_deepens :
    (match exec (.bmcPowerCap 800) opn with | .next t => (t.pwr.tier, t.pwr.cap) | _ => (9, 0)) = (2,
        800) := by decide +kernel

/-- 16, worked example: PORT_STAT of P44, whose lane 5 has failed. -/
def spared : State :=
  { opn with
    links := [(44, { Link.reset with state := .active, width := 1, peerNode := 0x400, peerPort := 2 })]
    lanes := [(8 * 44 + 5, { Lane.reset with failed := true })]
    clk := { opn.clk with ports := BitVec.allOnes 48 } }

theorem test_port_stat : spared.pfReg 0x012C0008 = 0x0020004000810002 := by decide +kernel
theorem test_lane_stat : (spared.pfReg 0x012C0458).getLsbD 3 = true := by decide +kernel

/-- 16: the refused lane mask, and the write that clears `refused`. -/
theorem test_lane_mask_refused :
    (match exec (.registerWrite 0 0x012C0000 4 0xF08) spared with
      | .next t => (t.pfReg 0x012C0000, t.pfReg 0x012C0008) | _ => (0, 0))
    = (0xFF08, 0x0120004000810002) := by decide +kernel
theorem test_refused_cleared :
    (match exec (.registerWrite 0 0x012C000C 4 0x01000000)
        { spared with links := spared.links.map fun e => (e.1, { e.2 with refused := true }) } with
      | .next t => t.pfReg 0x012C0008 | _ => 0)
    = 0x0020004000810002 := by decide +kernel

/-! ### A catalogue image that passes every check, and a state that is about to fill it (R802, R809) -/

/-- A catalogue image of node 0 with no trunk and no schedule: its header, and a route of the node to itself. -/
def imageCells : List Host.Cell :=
  [(0, 0x49), (1, 0x56), (2, 0x43), (3, 0x47), (4, 1), (9, 0x90), (10, 0x06), (0x1000, 0x3F), (0x1007, 0x80)]

theorem imageCells_high {j : Nat} (h : 0x1008 ≤ j) : Tab.get (0 : Byte) imageCells j = 0 := by
  simp only [imageCells, Tab.get]
  simp only [show ∀ a, a < 0x1008 → (j = a) = False from fun a ha => by simp; omega, Nat.reduceLT, if_false]

theorem ofBytes_bytes {cells : List Host.Cell} {n : Nat} (q : Bool) (hw : Memory.wf cells)
    (h : ∀ j, n ≤ j → Tab.get (0 : Byte) cells j = 0) : (Bank.ofBytes (memBytes cells 0 n) q).bytes = cells := by
  have hl : (memBytes cells 0 n).length = n := by simp [memBytes]
  refine Tab.ext (d := (0 : Byte)) (memPut_wf 0 _ (by decide)) hw fun j => ?_
  show Tab.get 0 (memPut [] 0 (memBytes cells 0 n)) j = _
  by_cases hj : j < n
  · have := memPut_get_in (m := []) (a := 0) (memBytes cells 0 n) j (by rw [hl]; exact hj)
    rw [Nat.zero_add] at this
    rw [this]; simp [memBytes]
  · rw [memPut_get_of_ge _ (by rw [hl]; omega), h j (by omega)]; rfl

theorem leNat_zero {bs : Bytes} (h : ∀ b, b ∈ bs → b = 0) : leNat bs = 0 := by
  induction bs with
  | nil => rfl
  | cons b bs ih =>
    simp only [List.mem_cons, forall_eq_or_imp] at h
    simp [leNat, h.1, ih h.2]

section
variable {k : Bank} (hb : k.bytes = imageCells)
include hb

theorem imageBank_high {off : Nat} (n : Nat) (h : 0x1008 ≤ off) : k.le off n = 0 := by
  unfold Bank.le memBytes
  rw [hb]
  apply leNat_zero
  intro b hb
  obtain ⟨i, -, rfl⟩ := List.mem_map.1 hb
  exact imageCells_high (by omega)

theorem imageBank_sched (id : Nat) : k.sched id = none := by
  simp [Bank.sched, (imageBank_high hb) 4 (show 0x1008 ≤ 0x61000 + 8 * id by omega)]

theorem imageBank_route {n r : Nat} (h : n ≠ 0 ∨ r ≠ 0) : k.routeWord n r = 0 := by
  rw [Bank.routeWord, imageBank_high hb 8 (by omega)]; rfl

theorem imageBank_hop (n r i : Nat) : k.hop n r i = 0 := by
  rw [Bank.hop, (imageBank_high hb) 12 (by omega)]
  simp

theorem imageBank_low {off n : Nat} : k.le off n = leNat (memBytes imageCells off n) := by
  rw [Bank.le, hb]

theorem imageBank_route0 : k.routeWord 0 0 = 0x800000000000003F := by
  rw [Bank.routeWord, (imageBank_low hb)]; decide

theorem imageBank_modules {m : Nat} (h : m ∈ k.modules) : m = 0 := by
  simp only [Bank.modules, List.mem_cons, List.mem_flatMap] at h
  rcases h with h | ⟨n, -, r, -, h⟩
  · rw [h, (imageBank_low hb)]; decide
  · split at h
    · obtain ⟨i, -, rfl⟩ := List.mem_map.1 h
      exact (imageBank_hop hb) _ _ _
    · cases h

theorem imageBank_fault (hl : k.len = 0x69000) : k.fault = none := by
  have hd : k.headerOk = true := by
    simp only [Bank.headerOk, Bank.zeroIn, (imageBank_low hb), hl, hb]; decide +kernel
  have ht : k.tablesOk = true := by
    simp only [Bank.tablesOk, Bank.portWord, Bank.needOk, Bank.zeroIn, (imageBank_low hb), hb]; decide +kernel
  have hi : k.badDir = none := by simp [Bank.badDir, Bank.dirOk, (imageBank_sched hb)]
  have hr : k.badRoute = none := by
    simp only [Bank.badRoute, List.find?_eq_none, List.any_eq_true, not_exists, not_and, Bool.not_eq_true']
    intro n _ r _
    by_cases h : n = 0 ∧ r = 0
    · obtain ⟨rfl, rfl⟩ := h
      simp only [Bank.routeOk, Bank.entryOk, (imageBank_route0 hb), (imageBank_hop hb), (imageBank_low hb),
          Bank.portWord]
      decide +kernel
    · have : k.routeWord n r = 0 := (imageBank_route hb) (by omega)
      simp only [Bank.routeOk, this, show fieldN (0 : Word) 59 4 = 0 by decide,
          show routeValid (0 : Word) = false by decide]
      simp
  have hl : k.badDateLine = none := by
    simp only [Bank.badDateLine, List.find?_eq_none, List.any_eq_true, not_exists, not_and]
    intro n _ r _
    by_cases h : n = 0 ∧ r = 0
    · obtain ⟨rfl, rfl⟩ := h
      rw [(imageBank_route0 hb)]; decide
    · rw [(imageBank_route hb) (by omega)]; decide
  have hv : k.badVc6 = none := by
    simp only [Bank.badVc6, List.find?_eq_none]
    intro n _
    by_cases h : n = 0
    · subst h
      have : k.hasVc6 0 = true := by
        simp only [Bank.hasVc6, routeNos, List.any_eq_true]
        exact ⟨0, by decide, by rw [(imageBank_route0 hb)]; decide⟩
      simp [this]
    · have : n ∉ k.modules := fun hm => h ((imageBank_modules hb) hm)
      simp [this]
  have hs (ok) : k.badSched ok = none := by simp [Bank.badSched, (imageBank_sched hb)]
  simp [Bank.fault, hd, ht, hi, hr, hl, hv, hs]

end

theorem get_shift (a j : Nat) : ∀ cells : List Host.Cell,
    Tab.get (0 : Byte) (cells.map fun c => (a + c.1, c.2)) (a + j) = Tab.get (0 : Byte) cells j
  | [] => rfl
  | (i, b) :: cs => by
    show (if a + j = a + i then b else _) = if j = i then b else _
    rw [get_shift a j cs]
    by_cases h : j = i
    · rw [if_pos h, if_pos (congrArg _ h)]
    · rw [if_neg h, if_neg (by omega)]

theorem memBytes_shift (cells : List Host.Cell) (a n : Nat) :
    memBytes (cells.map fun c => (a + c.1, c.2)) a n = memBytes cells 0 n := by
  simp only [memBytes, Nat.zero_add, get_shift]

/-- The image passes in any state that has no catalogue yet and holds it in the staging window. -/
theorem image_passes {s : State} {n : Nat} (q : Bool) (hn : n = 0x69000) (hi : s.cat.installed = false)
    (hm : s.vault.mem = imageCells.map fun c => (vpaStaging + c.1, c.2)) :
    s.imageCheck (Bank.ofBytes (s.vmBytes vpaStaging n) q) = none := by
  have h : s.vmBytes vpaStaging n = memBytes imageCells 0 n := by
    rw [State.vmBytes, hm]; exact memBytes_shift _ _ _
  have hf := imageBank_fault (k := Bank.ofBytes (memBytes imageCells 0 n) q)
    (ofBytes_bytes q (by decide) fun j h => imageCells_high (by omega))
    (by rw [Bank.ofBytes]; simp only [memBytes, List.length_map, List.length_range]; exact hn)
  simp [State.imageCheck, h, hf, hi]

/-- A FILL of that image, which lies in the staging window. -/
def fillCmd : Taken := cmd 0x20 [1, 0, 0, 0, 0, 0x90, 6, 0]
def filling : State :=
  taking { svc with vault := { svc.vault with mem := imageCells.map fun c => (vpaStaging + c.1, c.2) } } fillCmd

theorem filling_checks (r : RehangArgs) (h : r = { phase := 1, quiesce := false, length := 0x69000, offset := 0 }) :
    filling.fillCheck r = none ∧ filling.badIn (vpaStaging + r.offset) r.length = []
      ∧ filling.imageCheck (Bank.ofBytes (filling.vmBytes (vpaStaging + r.offset) r.length) r.quiesce) = none := by
  have ho : vpaStaging + r.offset = vpaStaging := by rw [h]; rfl
  refine ⟨by rw [h]; decide +kernel, by rw [h]; decide +kernel, ?_⟩
  rw [ho]
  exact image_passes r.quiesce (by rw [h]) (by decide) (by decide)

/-- That FILL while the other bank still drains. -/
def draining : State := { filling with cat := { filling.cat with installed := true, shadow := .draining } }

/-! ### Witnesses: the hypotheses of every statement can be met -/

theorem witness_stepPerformsFrontCommand :
  (∃ (s : State) (c : Instr) (rest : List Instr), s.pending = c :: rest)
  ∧ (∃ (s : State), s.pending = []) :=
  ⟨⟨{ svc with pending := [.presentAsserted] }, .presentAsserted, [], rfl⟩,
   ⟨svc, by decide +kernel⟩⟩

theorem witness_wellFormedCommandsComplete :
  (∃ (c : Instr), c.wf = true)
  ∧ (∃ (c : Instr) (s : State) (r : Fault), exec c s = .fault r) :=
  ⟨⟨.presentAsserted, by decide +kernel⟩,
   ⟨.instructionLineArrival 0 0 0 (.data []), svc, .operandLength, rfl⟩⟩

theorem witness_commandsLeaveQueueAlone :
  (∃ (c : Instr) (s : State) (t : State), exec c s = .next t) := ⟨.presentAsserted, svc, _, rfl⟩

theorem witness_stepsKeepMachineForm :
  (∃ (s : State) (t : State), MachineForm s ∧ step s = .next t) := ⟨svc, _, ⟨by decide,
      by unfold Clocks.legal; decide, by decide, by decide⟩, rfl⟩

theorem witness_fusesAreOnlyBlown :
  (∃ (s : State) (t : State) (k : Nat), step s = .next t
      ∧ s.flash.revoked.getLsbD k = true) := ⟨{ svc with flash := { Flash.reset with revoked := 2 } }, _, 1, rfl,
      by decide⟩

theorem witness_fusesChangeOnlyAtActivation :
  (∃ (c : Instr) (s : State) (t : State), exec c s = .next t ∧ activates c = false) := ⟨.presentAsserted, svc, _,
      rfl, by decide⟩

theorem witness_dataPlaneLeavesControlAlone :
  (∃ (c : Instr) (s : State) (t : State), exec c s = .next t ∧ dataPlane c = true) := ⟨.galSoAdd 1 0, svc, _, rfl,
      by decide⟩

theorem witness_banksChangeOnlyByRehang :
  (∃ (c : Instr) (s : State) (t : State), exec c s = .next t ∧ rehangs c = false) := ⟨.presentAsserted, svc, _, rfl,
      by decide⟩

theorem witness_powerInputs :
  (∃ (s : State), s.pwr.auxGood = false ∧ s.pwr.mainGood = false)
  ∧ (∃ (s : State), s.pwr.auxGood = false ∧ s.pwr.mainGood = true ∧ (s.ctl.state = .off ∨ s.ctl.state = .standby))
  ∧ (∃ (s : State), s.ctl.state = .standby ∧ s.pwr.mainGood = false)
  ∧ (∃ (s : State), s.powered = true)
  ∧ (∃ (s : State), s.pwr.present = true ∧ s.pwr.lockedOut = false ∧ (s.ctl.state = .off ∨ s.ctl.state = .standby))
  ∧ (∃ (s : State), s.pwr.present = true ∧ s.pwr.lockedOut = true
      ∧ (s.ctl.state = .off ∨ s.ctl.state = .standby)) :=
  ⟨⟨State.reset, by decide +kernel⟩,
   ⟨{ at_ .standby with pwr := { Power.reset with mainGood := true } }, by decide +kernel⟩,
   ⟨{ at_ .standby with pwr := { Power.reset with auxGood := true } }, by decide +kernel⟩,
   ⟨svc, by decide +kernel⟩,
   ⟨{ at_ .standby with pwr := { Power.reset with present := true } }, by decide +kernel⟩,
   ⟨{ at_ .standby with pwr := { Power.reset with present := true, lockedOut := true } }, by decide +kernel⟩⟩

theorem witness_mainInputLoss :
  (∃ (s : State) (c : Instr) (reason : Nat), s.powered = true ∧ ((c, reason) ∈ [(Instr.lossOfMainInput .voltage, 1),
      (.presentDeasserted, 2), (.lossOfMainInput .stageFault, 3), (.stageFault, 3), (.inputOvercurrent, 3),
      (.shutdown .dieHotspot, 4), (.shutdown .vaultStack, 4), (.shutdown .powerStage, 4), (.shutdown .overvoltage,
      4)] ∨ s.pwr.emergency = true ∧ c = .shutdown .emergency30s
      ∧ reason = 4)) := ⟨{ svc with pwr := { svc.pwr with emergency := true } }, .shutdown .emergency30s, 4,
      by decide +kernel⟩

theorem witness_moduleReset :
  (∃ (s : State), s.powered = true ∧ (s.serving = true → s.cur.up = true))
  ∧ (∃ (s : State), (s.ctl.state = .off ∨ s.ctl.state = .standby)) :=
  ⟨⟨svc, by decide +kernel⟩,
   ⟨at_ .off, by decide +kernel⟩⟩

theorem witness_powerCaps :
  (∃ (p : Power) (a : Nat) (b : Nat), 450 ≤ min a b ∧ min a b ≠ min p.bmcCap p.drvCap)
  ∧ (∃ (s : State), s.ctl.state ≠ .off ∧ (s.serving = true → s.cur.up = true))
  ∧ (∃ (s : State) (t : Taken) (b : Bytes), s.takenBy 0 (fun t => t.opcode == 0x30) = some t ∧ Ready s t b
      ∧ s.serving = true ∧ t.paramLen = 0 ∧ argZeroFrom t.args 18 = true ∧ s.pwr.capToken = none)
  ∧ (∃ (s : State) (t : Taken) (cap : Nat), s.pwr.capToken = some (t, cap)) :=
  ⟨⟨Power.reset, 450, 450, by decide +kernel⟩,
   ⟨svc, by decide +kernel⟩,
   ⟨taking svc (cmd 0x30 [0xC1, 1]), cmd 0x30 [0xC1, 1], [], by decide +kernel⟩,
   ⟨{ svc with pwr := { svc.pwr with capToken := some (cmd 0x30 [], 450) } }, cmd 0x30 [], 450, by decide +kernel⟩⟩

theorem witness_tierFollowsAverage :
  (∃ (s : State) (x : Sample), s.ctl.state ≠ .off ∧ s.pwr.capToken = none ∧ min s.pwr.bmcCap s.pwr.drvCap < x.power)
  ∧ (∃ (s : State) (x : Sample), s.ctl.state ≠ .off ∧ s.pwr.capToken = none
      ∧ x.power + 200 ≤ min s.pwr.bmcCap s.pwr.drvCap)
  ∧ (∃ (s : State) (x : Sample), s.ctl.state ≠ .off ∧ s.pwr.capToken = none
      ∧ x.power ≤ min s.pwr.bmcCap s.pwr.drvCap ∧ min s.pwr.bmcCap s.pwr.drvCap < x.power + 200) :=
  ⟨⟨svc, { Sample.zero with power := 1051 }, by decide +kernel⟩,
   ⟨svc, { Sample.zero with power := 850 }, by decide +kernel⟩,
   ⟨svc, { Sample.zero with power := 851 }, by decide +kernel⟩⟩

theorem witness_emergencies :
  (∃ (s : State) (c : EmergencyCause), s.ctl.state ≠ .off ∧ s.pwr.ignored c = false)
  ∧ (∃ (s : State), bitN s.own.en 2 = true)
  ∧ (∃ (s : State), s.pwr.leakIn = true)
  ∧ (∃ (s : State), bitN s.own.en 3 = true) :=
  ⟨⟨svc, .mainInput, by decide +kernel⟩,
   ⟨{ svc with own := { svc.own with en := 4 } }, by decide +kernel⟩,
   ⟨{ svc with pwr := { svc.pwr with leakIn := true } }, by decide +kernel⟩,
   ⟨{ svc with own := { svc.own with en := 8 } }, by decide +kernel⟩⟩

theorem witness_senseAndSensors :
  (∃ (s : State), s.pwr.auxOutFault = true)
  ∧ (∃ (s : State), s.ctl.state ≠ .off)
  ∧ (∃ (s : State), s.ctl.state ≠ .off ∧ (s.serving = true → s.cur.up = true)) :=
  ⟨⟨{ svc with pwr := { svc.pwr with auxOutFault := true } }, by decide +kernel⟩,
   ⟨svc, by decide +kernel⟩,
   ⟨{ svc with pwr := { svc.pwr with lockedOut := true } }, by decide +kernel⟩⟩

theorem witness_clockSettings :
  (∃ (s : State), s.barOpen 0 = true ∧ s.ctl.state = .service)
  ∧ (∃ (s : State), s.barOpen 0 = true ∧ s.ctl.state ≠ .service)
  ∧ (∃ (s : State), s.clk.refNow = 1)
  ∧ (∃ (s : State), s.clk.refNow = 0 ∧ s.clk.refSel = 1 ∧ s.clk.revert = true ∧ s.clk.refPort < 48
      ∧ ((s.link s.clk.refPort).state = .active ∨ (s.link s.clk.refPort).state = .idle)) :=
  ⟨⟨svc, by decide +kernel⟩,
   ⟨opn, by decide +kernel⟩,
   ⟨{ svc with clk := { svc.clk with refNow := 1 } }, by decide +kernel⟩,
   ⟨{ svc with clk := { svc.clk with refSel := 1, revert := true, refPort := 47 }, links := [(47, { Link.reset with state := .active })] },
       by decide +kernel⟩⟩

theorem witness_clockEnables :
  (∃ (s : State), s.barOpen 0 = true ∧ s.ctl.state = .service)
  ∧ (∃ (s : State) (v : Word), s.barOpen 0 = true ∧ s.ctl.state ≠ .service
      ∧ s.clk.blocks &&& ~~~ v.setWidth 6 ≠ 0#6)
  ∧ (∃ (s : State), s.barOpen 0 = true ∧ s.ctl.state = .service)
  ∧ (∃ (s : State) (v : Word), s.barOpen 0 = true ∧ s.ctl.state ≠ .service
      ∧ s.clk.ports &&& ~~~ v.setWidth 48 ≠ 0#48) :=
  ⟨⟨svc, by decide +kernel⟩,
   ⟨opn, 0x1F, by decide +kernel⟩,
   ⟨svc, by decide +kernel⟩,
   ⟨opn, 1, by decide +kernel⟩⟩

theorem witness_sharedPins :
  (∃ (s : State) (a : Nat) (b : Nat), s.barOpen 0 = true ∧ (∀ a b, contend a b = true → ¬(bitN s.own.en a = true
      ∧ bitN s.own.en b = true)) ∧ contend a b = true)
  ∧ (∃ (s : State) (v : Word) (b : Nat), s.barOpen 0 = true ∧ bitN s.own.en b = true ∧ bitN v b = true) :=
  ⟨⟨svc, 0, 1, by decide, fun _ _ _ => by simp [svc, at_, State.reset, OwnCtl.reset, bitN], by decide⟩,
   ⟨{ svc with own := { svc.own with en := 1 } }, 1, 0, by decide +kernel⟩⟩

theorem witness_switchRegisterWrites :
  (∃ (s : State) (v : Word), s.blockOpen 4 = true ∧ fieldN v 32 19 + fieldN v 0 19 ≤ 262144)
  ∧ (∃ (s : State) (v : Word), s.blockOpen 4 = true ∧ 262144 < fieldN v 32 19 + fieldN v 0 19)
  ∧ (∃ (s : State) (v : Word), s.blockOpen 4 = true ∧ 262144 < fieldN v 32 19 + fieldN v 0 19
      ∧ fieldN v 32 19 ≤ 262144)
  ∧ (∃ (s : State) (p : Port) (v : Word), s.pageOpen p.val = true ∧ bitN v 7 = true ∧ s.swc.specLimit = 0)
  ∧ (∃ (s : State) (p : Port) (v : Word), s.pageOpen p.val = true ∧ (bitN v 7 = false ∨ s.swc.specLimit ≠ 0)
      ∧ 4 ≤ fieldN v 0 5 ∧ fieldN v 0 5 ≤ 24) :=
  ⟨⟨svc, 0x0001000000030000, by decide +kernel⟩,
   ⟨svc, 0x0007FFFF00000000, by decide +kernel⟩,
   ⟨svc, 0x0001000000030001, by decide +kernel⟩,
   ⟨{ svc with swc := { svc.swc with specLimit := 0 } }, 0, 0x80, by decide +kernel⟩,
   ⟨svc, 47, 24, by decide +kernel⟩⟩

theorem witness_registerWrites :
  (∃ (s : State), s.barOpen 0 = true ∧ s.clockOn 5 = true)
  ∧ (∃ (s : State), s.barOpen 0 = true ∧ s.clockOn 4 = true)
  ∧ (∃ (s : State), s.barOpen 0 = true ∧ s.clockOn 4 = false)
  ∧ (∃ (s : State) (p : Nat), s.barOpen 0 = true ∧ p < 48 ∧ s.portOn p = true)
  ∧ (∃ (s : State) (off : Nat), s.barOpen 0 = true ∧ off % 8 ≠ 0) :=
  ⟨⟨svc, by decide +kernel⟩,
   ⟨svc, by decide +kernel⟩,
   ⟨{ svc with clk := { svc.clk with blocks := 0xF } }, by decide +kernel⟩,
   ⟨svc, 47, by decide +kernel⟩,
   ⟨svc, 0xFFFFFF4, by decide +kernel⟩⟩

theorem witness_ringIndices :
  (∃ (s : State) (f : FnNo), s.barOpen f.val = true ∧ ((s.fn f.val).ring 0).en = true)
  ∧ (∃ (s : State) (f : FnNo) (r : Fin 5), s.barOpen f.val = true ∧ r ≠ 0 ∧ (f = 0 ∨ r.val < 3)
      ∧ ((s.fn f.val).ring r.val).en = true)
  ∧ (∃ (s : State) (f : FnNo) (r : Fin 5) (v : Word), s.barOpen f.val = true ∧ (f = 0 ∨ r.val < 3)
      ∧ bitN v 63 = true ∧ ((s.fn f.val).ring r.val).en = false ∧ 6 ≤ fieldN v 32 4 ∧ fieldN v 32 4 ≤ 14
      ∧ (s.fn f.val).ringFits r.val (fieldN v 32 4) (fieldN v 12 10) = true)
  ∧ (∃ (s : State) (f : FnNo) (r : Fin 5) (v : Word), s.barOpen f.val = true ∧ (f = 0 ∨ r.val < 3)
      ∧ bitN v 63 = false) :=
  ⟨⟨svc.modFn 0 fun x => { x with rings := [(0, { Ring.reset with en := true })] }, 0, by decide +kernel⟩,
   ⟨svc.modFn 0 fun x => { x with rings := [(4, { Ring.reset with en := true })] }, 0, 4, by decide +kernel⟩,
   ⟨svc, 0, 4, 0x8000000E00000000, by decide +kernel⟩,
   ⟨svc, 0, 0, 0, by decide +kernel⟩⟩

theorem witness_commandsAreTaken :
  (∃ (s : State) (f : Nat), s.badIn (ringSlot f 0 ((s.fn f).ring 0) ((s.fn f).ring 0).ci) 64 = []) := ⟨svc, 63,
      by decide +kernel⟩

theorem witness_msixMessage :
  (∃ (s : State) (f : FnNo) (c : Fin 5), ((s.fn f.val).int c.val).arm = true
      ∧ s.causePending f.val c.val = true) := ⟨svc.modFn 0 fun x => { x with rings := [(1, { Ring.reset with pi := 1 })], ints := [(0, { IntMap.reset with arm := true })], msixEn := true },
      0, 0, by decide +kernel⟩

theorem witness_bar2Access :
  (∃ (s : State) (f : FnNo) (off : Nat) (len : Nat) (tee : Bool) (a : Nat), s.barOpen f.val = true
      ∧ s.teeRefused f.val tee = false ∧ s.bar2Vpa f.val off len = some a ∧ s.badIn a len = [])
  ∧ (∃ (s : State) (f : FnNo) (off : Nat) (bs : Bytes) (tee : Bool) (a : Nat), s.barOpen f.val = true
      ∧ s.teeRefused f.val tee = false ∧ s.bar2Vpa f.val off bs.length = some a ∧ s.badIn a bs.length = [])
  ∧ (∃ (s : State) (f : FnNo) (off : Nat) (bs : Bytes) (tee : Bool) (a : Nat) (x : Nat), s.barOpen f.val = true
      ∧ s.teeRefused f.val tee = false ∧ s.bar2Vpa f.val off bs.length = some a ∧ s.badIn a bs.length = []
      ∧ (x < a ∨ a + bs.length ≤ x))
  ∧ (∃ (s : State) (f : FnNo) (off : Nat) (len : Nat) (tee : Bool), s.barOpen f.val = true
      ∧ s.teeRefused f.val tee = false ∧ s.bar2Vpa f.val off len = none)
  ∧ (∃ (off : Nat) (len : Nat), off + len ≤ sliceBytes) :=
  ⟨⟨svc, 0, 0x3FFFFF, 1, false, 0x203FFFFF, by decide +kernel⟩,
   ⟨svc, 0, 0, [1, 2], false, 0x20000000, by decide +kernel⟩,
   ⟨svc, 0, 0, [1, 2], false, 0x20000000, 0x20000002, by decide +kernel⟩,
   ⟨svc, 0, 0x400000, 1, false, by decide +kernel⟩,
   ⟨0, sliceBytes, by decide +kernel⟩⟩

theorem witness_syncPortal :
  (∃ (s : State) (f : FnNo) (so : SoNo), f ≠ 0 ∧ s.barOpen f.val = true ∧ (s.fn f.val).gal ≠ 0
      ∧ s.soOwned so.toNat (s.fn f.val).gal = true)
  ∧ (∃ (s : State) (f : FnNo) (so : SoNo), f ≠ 0 ∧ s.barOpen f.val = true
      ∧ s.soOwned so.toNat (s.fn f.val).gal = false)
  ∧ (∃ (s : State), s.blockOpen 1 = true)
  ∧ (∃ (s : State) (n : Nat), (s.so n).waiters = []) :=
  ⟨⟨{ svc with fns := svc.fns ++ [(1, { Fn.reset with memorySpace := true, gal := 1 })], sos := [(5, { SyncObj.reset with owner := some 1 })] },
      1, 5, by decide +kernel⟩,
   ⟨{ svc with fns := svc.fns ++ [(1, { Fn.reset with memorySpace := true, gal := 1 })], sos := [(5, { SyncObj.reset with owner := some 1 })] },
       1, 6, by decide +kernel⟩,
   ⟨svc, by decide +kernel⟩,
   ⟨svc, 5, by decide +kernel⟩⟩

theorem witness_hostRingCommands :
  (∃ (s : State) (f : FnNo) (t : Taken), s.takenOf f.val 0x01 = some t ∧ Ready s t [] ∧ s.serving = true
      ∧ t.paramLen = 0 ∧ noArgs t.args = true)
  ∧ (∃ (s : State) (f : FnNo) (t : Taken) (b : Bytes), s.cur.up = true ∧ s.readBlock t = (s, some b)
      ∧ cmdKnown t.opcode = false
      ∧ s.takenBy f.val (fun t => !cmdKnown t.opcode || !cmdAllowed t.fn t.opcode || s.g0CodeBad t) = some t)
  ∧ (∃ (s : State) (f : FnNo) (t : Taken) (b : Bytes), s.takenOf f.val 0x03 = some t ∧ Ready s t b ∧ t.paramLen = 0
      ∧ launchArgs t.args = true
      ∧ (let g := ctxIdx (argLe t.args 16 1) (argLe t.args 17 1); (s.ctx g).bound = true ∧ s.fnGal f.val = some (s.ctx g).gal ∧ ((s.ctx g).gal = 0 ∨ (s.gal (s.ctx g).gal).state = .active) ∧ s.launchBusy g = false)) :=
  ⟨⟨taking svc (cmd 1 []), 0, cmd 1 [], by decide +kernel⟩,
   ⟨taking svc (cmd 0x40 []), 0, cmd 0x40 [], [], by decide +kernel⟩,
   ⟨{ taking svc (cmd 3 [47, 15]) with ctxs := [(767, { Ctx.reset with bound := true, state := .idle })] }, 0,
       cmd 3 [47, 15], [], by decide +kernel⟩⟩

theorem witness_stateChanges :
  (∃ (s : State) (t : Taken) (b : Bytes), s.takenBy 0 (fun t => t.opcode == 0x02) = some t ∧ Ready s t b
      ∧ t.paramLen = 0 ∧ argZeroFrom t.args 17 = true ∧ s.ctl.target = none ∧ s.ctl.state = .service
      ∧ argLe t.args 16 1 = 4)
  ∧ (∃ (s : State) (t : Taken) (b : Bytes), s.takenBy 0 (fun t => t.opcode == 0x02) = some t ∧ Ready s t b
      ∧ t.paramLen = 0 ∧ argZeroFrom t.args 17 = true ∧ s.ctl.target = none ∧ s.ctl.state = .operational
      ∧ argLe t.args 16 1 = 5)
  ∧ (∃ (s : State) (t : Taken) (b : Bytes), s.takenBy 0 (fun t => t.opcode == 0x02) = some t ∧ Ready s t b
      ∧ t.paramLen = 0 ∧ argZeroFrom t.args 17 = true ∧ s.ctl.target = none ∧ ¬ (s.ctl.state = .service
      ∧ argLe t.args 16 1 = 4) ∧ ¬ (s.ctl.state = .operational ∧ argLe t.args 16 1 = 5))
  ∧ (∃ (s : State), s.ctl.target = some .operational ∧ s.ctl.state = .service ∧ s.atomicsOut = false)
  ∧ (∃ (s : State), s.ctl.target = some .operational ∧ s.ctl.state = .service ∧ s.atomicsOut = true)
  ∧ (∃ (s : State), s.ctl.state = .drain ∧ s.allFree = true) :=
  ⟨⟨taking svc (cmd 2 [4]), cmd 2 [4], [], by decide +kernel⟩,
   ⟨taking opn (cmd 2 [5]), cmd 2 [5], [], by decide +kernel⟩,
   ⟨taking opn (cmd 2 [4]), cmd 2 [4], [], by decide +kernel⟩,
   ⟨{ svc with ctl := { svc.ctl with target := some .operational } }, by decide +kernel⟩,
   ⟨{ svc with ctl := { svc.ctl with target := some .operational }, ctxs := [(0, { Ctx.reset with block := .atomic 1, want := .atomic })] },
       by decide +kernel⟩,
   ⟨at_ .drain, by decide +kernel⟩⟩

theorem witness_hostResets :
  (∃ (s : State) (f : FnNo), f ≠ 0 ∧ s.serving = true)
  ∧ (∃ (s : State), s.ctl.hostReady = true)
  ∧ (∃ (s : State), s.powered = true)
  ∧ (∃ (s : State), s.ctl.hostReady = true)
  ∧ (∃ (s : State), s.powered = true ∧ s.ctl.perst = false) :=
  ⟨⟨svc, 63, by decide +kernel⟩,
   ⟨svc, by decide +kernel⟩,
   ⟨svc, by decide +kernel⟩,
   ⟨svc, by decide +kernel⟩,
   ⟨svc, by decide +kernel⟩⟩

theorem witness_bootOutcome :
  (∃ (s : State) (ir : Bool), s.ctl.state = .boot ∧ s.cur.listened = false ∧ s.clk.locked = true
      ∧ s.flash.recoverNext = false ∧ s.flash.activation = none ∧ s.flash.stagedArea.len = 0
      ∧ s.flash.verify s.flash.imageArea.image ir = stOk)
  ∧ (∃ (s : State) (ir : Bool), s.ctl.state = .boot ∧ s.cur.listened = false ∧ s.clk.locked = true
      ∧ s.flash.recoverNext = false ∧ s.flash.activation = none ∧ s.flash.stagedArea.len = 0
      ∧ s.flash.verify s.flash.imageArea.image ir ≠ stOk)
  ∧ (∃ (s : State) (sr : Bool) (ir : Bool), s.ctl.state = .boot ∧ s.cur.listened = false ∧ s.clk.locked = true
      ∧ s.flash.recoverNext = false ∧ s.flash.activation.isSome = true
      ∧ s.flash.verify s.flash.stagedArea.image sr = stOk ∧ s.flash.verify s.flash.stagedArea.image ir = stOk)
  ∧ (∃ (s : State), s.ctl.state = .boot ∧ s.cur.listened = false ∧ s.clk.locked = true ∧ s.flash.recoverNext = true)
  ∧ (∃ (s : State), s.ctl.state = .boot ∧ s.vault.initDone = true ∧ s.cur.imageOk = true)
  ∧ (∃ (s : State), s.ctl.state = .boot ∧ s.cur.listened = false ∧ s.clk.locked = true
      ∧ s.vault.initDone = true) :=
  ⟨⟨{ at_ .boot with flash := flashWith false, clk := { svc.clk with locked := true } }, true, rfl, rfl, rfl, rfl,
      rfl, rfl, image_area_verifies _ rfl rfl rfl rfl⟩,
   ⟨at_ .boot, true, by decide +kernel⟩,
   ⟨{ at_ .boot with flash := { flashWith true with activation := some [] }, clk := { svc.clk with locked := true } },
       true, true, rfl, rfl, rfl, rfl, rfl, staged_area_verifies _ rfl rfl rfl rfl,
       staged_area_verifies _ rfl rfl rfl rfl⟩,
   ⟨{ at_ .boot with flash := { Flash.reset with recoverNext := true } }, by decide +kernel⟩,
   ⟨{ at_ .boot with cur := { Curator.reset with imageOk := true } }, by decide +kernel⟩,
   ⟨at_ .boot, by decide +kernel⟩⟩

theorem witness_curatorRestarts :
  (∃ (s : State) (cw : Nat), s.cur.up = true ∧ s.cur.overwrites = false ∧ 0x10000000 ≤ 64 * cw
      ∧ 64 * cw < 0x18000000)
  ∧ (∃ (s : State), s.cur.up = true ∧ s.cur.overwrites = true ∧ s.cur.restartWaits = none)
  ∧ (∃ (s : State) (rd : Bool), s.cur.up = false ∧ s.serving = true ∧ s.cur.actStep = 0 ∧ s.cur.fw ≠ .restarting
      ∧ s.cur.hourlyDue = false ∧ s.flash.verify s.flash.imageArea.image rd = stOk ∧ .moduleReset ∈ s.cur.pldmWaits)
  ∧ (∃ (s : State) (rd : Bool), s.cur.up = false ∧ s.serving = true ∧ s.cur.actStep = 0 ∧ s.cur.fw ≠ .restarting
      ∧ s.cur.hourlyDue = false ∧ s.flash.verify s.flash.imageArea.image rd = stOk
      ∧ .moduleReset ∉ s.cur.pldmWaits) :=
  ⟨⟨svc, 0x400000, by decide +kernel⟩,
   ⟨{ svc with cur := { svc.cur with fw := .overwriting, actStep := 4, actBegun := true } }, by decide +kernel⟩,
   ⟨{ svc with cur := { Curator.reset with pldmWaits := [.cap 500, .moduleReset] }, flash := flashWith false },
       true, rfl, rfl, rfl, by decide, rfl, image_area_verifies _ rfl rfl rfl rfl, by decide⟩,
   ⟨{ svc with cur := { Curator.reset with pldmWaits := [.cap 500] }, flash := flashWith false }, true, rfl, rfl,
       rfl, by decide, rfl, image_area_verifies _ rfl rfl rfl rfl, by decide⟩⟩

theorem witness_firmwareStaging :
  (∃ (s : State) (t : Taken) (b : Bytes), s.takenBy 0 (fun t => t.opcode == 0x28) = some t ∧ Ready s t b
      ∧ s.serving = true ∧ t.paramLen = 0 ∧ argZeroFrom t.args 20 = true ∧ s.cur.actStep = 0
      ∧ (s.cur.fw = .none ∨ s.cur.fw = .staged))
  ∧ (∃ (s : State) (rd : Bool) (t : Taken), s.cur.fw = .verifying ∧ s.cur.up = true ∧ s.cur.stageToken = some t
      ∧ s.cur.stageLen ≤ stagingBytes ∧ s.badIn vpaStaging s.cur.stageLen = []
      ∧ (let b := s.vmBytes vpaStaging s.cur.stageLen; (let st := s.flash.verify b rd; st = stOk)))
  ∧ (∃ (s : State) (rd : Bool) (t : Taken), s.cur.fw = .verifying ∧ s.cur.up = true ∧ s.cur.stageToken = some t
      ∧ s.cur.stageLen ≤ stagingBytes ∧ s.badIn vpaStaging s.cur.stageLen = []
      ∧ (let b := s.vmBytes vpaStaging s.cur.stageLen; (let st := s.flash.verify b rd; st ≠ stOk)))
  ∧ (∃ (s : State) (rd : Bool), s.cur.fw = .writing ∧ s.cur.up = true ∧ s.cur.stageLen ≤ stagingBytes
      ∧ s.badIn vpaStaging s.cur.stageLen = []
      ∧ (let b := s.vmBytes vpaStaging s.cur.stageLen; s.flash.verify b rd = stOk))
  ∧ (∃ (s : State) (rd : Bool), s.cur.fw = .writing ∧ s.cur.up = true ∧ s.cur.stageLen ≤ stagingBytes
      ∧ s.badIn vpaStaging s.cur.stageLen = []
      ∧ (let b := s.vmBytes vpaStaging s.cur.stageLen; s.flash.verify b rd ≠ stOk))
  ∧ (∃ (s : State), s.cur.fw = .writing ∧ s.cur.up = true ∧ s.cur.stageLen ≤ stagingBytes
      ∧ (s.badIn vpaStaging s.cur.stageLen).any (fun e => decide (2 ≤ e.2)) = true) :=
  ⟨⟨taking svc (cmd 0x28 [0, 17]), cmd 0x28 [0, 17], [], by decide +kernel⟩,
   ⟨{ svc with flash := flashWith false, cur := { svc.cur with fw := .verifying, stageLen := 4352, stageToken := some (cmd 0x28 []) }, vault := { svc.vault with mem := staging } },
       true, cmd 0x28 [], rfl, rfl, rfl, by decide, clean_reads _ _ _ rfl, staging_verifies _ rfl rfl rfl rfl rfl⟩,
   ⟨{ svc with cur := { svc.cur with fw := .verifying, stageToken := some (cmd 0x28 []) } }, true, cmd 0x28 [],
       by decide +kernel⟩,
   ⟨{ svc with flash := flashWith false, cur := { svc.cur with fw := .writing, stageLen := 4352, stageToken := some (cmd 0x28 []) }, vault := { svc.vault with mem := staging } },
       true, rfl, rfl, by decide, clean_reads _ _ _ rfl, staging_verifies _ rfl rfl rfl rfl rfl⟩,
   ⟨{ svc with cur := { svc.cur with fw := .writing, stageToken := some (cmd 0x28 []) } }, true, by decide +kernel⟩,
   ⟨{ svc with cur := { svc.cur with fw := .writing, stageLen := 4352 }, vault := { svc.vault with bad := [(vpaStaging / 64, 2)] } },
       by decide +kernel⟩⟩

theorem witness_firmwareActivation :
  (∃ (s : State) (t : Taken) (b : Bytes), s.takenBy 0 (fun t => t.opcode == 0x29) = some t ∧ Ready s t b
      ∧ s.serving = true ∧ t.paramLen = 0 ∧ noArgs t.args = true ∧ s.cur.fw = .staged)
  ∧ (∃ (s : State) (rd : Bool), s.cur.actStep = 3 ∧ s.cur.actBegun = true
      ∧ s.flash.verify s.flash.stagedArea.image rd = stOk ∧ s.cur.hold = false)
  ∧ (∃ (s : State) (rd : Bool), s.cur.actStep = 3 ∧ s.cur.actBegun = true
      ∧ s.flash.verify s.flash.stagedArea.image rd ≠ stOk ∧ s.cur.restartWaits = none)
  ∧ (∃ (s : State) (rd : Bool), s.cur.actStep = 4 ∧ s.cur.actBegun = true ∧ s.cur.overwriteRetried = false
      ∧ s.cur.restartWaits = none ∧ s.cur.hold = false ∧ s.cur.up = true
      ∧ s.flash.verify s.flash.stagedArea.image rd = stOk)
  ∧ (∃ (s : State), s.pwr.emergency = false ∧ s.cur.hold = true ∧ s.cur.actStep = 0)
  ∧ (∃ (s : State), s.pwr.emergency = false ∧ s.cur.hold = true ∧ s.cur.actStep = 3 ∧ s.cur.actBegun = false) :=
  ⟨⟨{ taking svc (cmd 0x29 []) with cur := { svc.cur with fw := .staged } }, cmd 0x29 [], [], by decide +kernel⟩,
   ⟨{ svc with cur := { svc.cur with actStep := 3, actBegun := true }, flash := flashWith true }, true, rfl, rfl,
       staged_area_verifies _ rfl rfl rfl rfl, rfl⟩,
   ⟨{ svc with cur := { svc.cur with actStep := 3, actBegun := true }, flash := flashWith true }, false, rfl, rfl,
       staged_area_fails _, rfl⟩,
   ⟨{ svc with cur := { svc.cur with actStep := 4, actBegun := true }, flash := flashWith true }, true, rfl, rfl,
       rfl, rfl, rfl, rfl, staged_area_verifies _ rfl rfl rfl rfl⟩,
   ⟨{ svc with cur := { svc.cur with hold := true } }, by decide +kernel⟩,
   ⟨{ svc with cur := { svc.cur with hold := true, actStep := 3 } }, by decide +kernel⟩⟩

theorem witness_servicePort :
  (∃ (s : State), s.powered = true ∧ s.svc.linkUp = true)
  ∧ (∃ (s : State), s.powered = true ∧ s.svc.linkUp = true ∧ s.svc.lease = none)
  ∧ (∃ (s : State) (a : BitVec 32), s.powered = true ∧ s.svc.lease = some a)
  ∧ (∃ (s : State), s.svc.tftp.active = false ∧ s.serving = true)
  ∧ (∃ (s : State), s.svc.tftp.active = false ∧ s.ctl.state = .recovery)
  ∧ (∃ (s : State), s.svc.tftp.active = true ∧ s.svc.tftp.retransmits < 5)
  ∧ (∃ (s : State), s.svc.tftp.active = true ∧ 5 ≤ s.svc.tftp.retransmits)
  ∧ (∃ (s : State) (image : Bytes), s.ctl.state = .recovery ∧ s.svc.tftp.active = false
      ∧ image.length ≤ stagingBytes ∧ s.flash.verify image true = stOk)
  ∧ (∃ (s : State) (image : Bytes), s.ctl.state = .recovery ∧ s.svc.tftp.active = false
      ∧ image.length ≤ stagingBytes ∧ s.flash.verify image true ≠ stOk) :=
  ⟨⟨{ svc with svc := { SvcPort.reset with linkUp := true, lease := none } }, by decide +kernel⟩,
   ⟨{ svc with svc := { SvcPort.reset with linkUp := true, lease := none } }, by decide +kernel⟩,
   ⟨{ svc with svc := { SvcPort.reset with linkUp := true, lease := some 7 } }, 7, by decide +kernel⟩,
   ⟨svc, by decide +kernel⟩,
   ⟨at_ .recovery, by decide +kernel⟩,
   ⟨{ svc with svc := { SvcPort.reset with tftp := { active := true, retransmits := 4 } } }, by decide +kernel⟩,
   ⟨{ svc with svc := { SvcPort.reset with tftp := { active := true, retransmits := 5 } } }, by decide +kernel⟩,
   ⟨{ at_ .recovery with flash := flashWith false }, image, rfl, rfl, by rw [image_length]; decide,
       image_verifies _ rfl rfl rfl⟩,
   ⟨at_ .recovery, [], by decide +kernel⟩⟩

theorem witness_sideband :
  (∃ (s : State) (n : Nat), s.ctl.state ≠ .off ∧ (s.serving = true → s.cur.up = true) ∧ 8 ≤ n)
  ∧ (∃ (s : State), s.serving = true ∧ s.cur.up = false)
  ∧ (∃ (s : State) (c : Byte), s.cur.up = true ∧ c ≠ 1 ∧ c ≠ 2) :=
  ⟨⟨svc, 8, by decide +kernel⟩,
   ⟨{ svc with cur := Curator.reset }, by decide +kernel⟩,
   ⟨svc, 3, by decide +kernel⟩⟩

theorem witness_lifeAndHealth :
  (∃ (s : State), s.powered = true ∧ s.cur.up = true)
  ∧ (∃ (s : State), s.powered = true ∧ s.cur.up = false)
  ∧ (∃ (s : State) (d : DieNo), (s.die d.val).failed = false ∧ 64 ≤ (s.die d.val).ueHour) :=
  ⟨⟨svc, by decide +kernel⟩,
   ⟨{ svc with cur := Curator.reset }, by decide +kernel⟩,
   ⟨{ svc with vault := { svc.vault with dies := [(23, { DieErr.reset with ueHour := 64 })] } }, 23,
       by decide +kernel⟩⟩

theorem witness_shadowFills :
  (∃ (s : State) (t : Taken) (b : Bytes) (c : Instr) (both : Bool), (c, both) ∈ [(Instr.fill, false),
      (.fillThenSwitch, true)]
      ∧ s.takenBy 0 (fun t => t.opcode == 0x20 && (if both then argLe t.args 16 1 == 3 else !(argLe t.args 16 1 == 2 || argLe t.args 16 1 == 3))) = some t
      ∧ Ready s t b ∧ t.paramLen = 0 ∧ rehangArgs t.args = true
      ∧ (s.ctl.state = .service ∨ s.ctl.state = .operational)
      ∧ (let r := RehangArgs.dec t.args; s.fillCheck r = none ∧ s.badIn (vpaStaging + r.offset) r.length = [] ∧ s.imageCheck (Bank.ofBytes (s.vmBytes (vpaStaging + r.offset) r.length) r.quiesce) = none))
  ∧ (∃ (s : State) (t : Taken), s.cat.token = some t ∧ s.cat.shadow = .filling ∧ s.cur.up = true
      ∧ s.cat.fillThenSwitch = false ∧ s.badIn (vpaStaging + s.cat.fillOff) s.cat.fillLen = [])
  ∧ (∃ (s : State) (t : Taken), s.cat.token = some t ∧ s.cat.shadow = .filling ∧ s.cur.up = true
      ∧ (s.badIn (vpaStaging + s.cat.fillOff) s.cat.fillLen).any (fun e => decide (2 ≤ e.2)) = true) :=
  ⟨⟨filling, fillCmd, [], .fill, false, by decide, by decide +kernel, by decide +kernel, rfl, by decide +kernel,
      by decide, filling_checks _ (by decide +kernel)⟩,
   ⟨{ svc with cat := { svc.cat with token := some (cmd 0x20 [1]), shadow := .filling } }, cmd 0x20 [1],
       by decide +kernel⟩,
   ⟨{ svc with cat := { svc.cat with token := some (cmd 0x20 [1]), shadow := .filling, fillLen := 1 }, vault := { svc.vault with bad := [(vpaStaging / 64, 2)] } },
       cmd 0x20 [1], by decide +kernel⟩⟩

theorem witness_bankSwitches :
  (∃ (s : State) (t : Taken) (b : Bytes), s.takenBy 0 (fun t => t.opcode == 0x20 && argLe t.args 16 1 == 2) = some t
      ∧ Ready s t b ∧ t.paramLen = 0 ∧ rehangArgs t.args = true
      ∧ (s.ctl.state = .service ∨ s.ctl.state = .operational) ∧ s.cat.token = none ∧ s.cat.shadow = .filled
      ∧ argLe t.args 24 8 = (s.bank s.cat.shadowNo).tag ∧ (s.bank s.cat.shadowNo).quiesce = false)
  ∧ (∃ (s : State) (t : Taken), s.cur.up = true ∧ s.cat.quiescing = true ∧ s.cat.token = some t
      ∧ s.drained false = true ∧ s.drained true = true)
  ∧ (∃ (s : State), s.cat.token = none ∧ s.cat.shadow = .draining ∧ s.drained (!s.cat.epoch) = true)
  ∧ (∃ (s : State) (t : Taken) (b : Bytes) (c : Instr) (both : Bool), (c, both) ∈ [(Instr.fill, false),
      (.fillThenSwitch, true)]
      ∧ s.takenBy 0 (fun t => t.opcode == 0x20 && (if both then argLe t.args 16 1 == 3 else !(argLe t.args 16 1 == 2 || argLe t.args 16 1 == 3))) = some t
      ∧ Ready s t b ∧ t.paramLen = 0 ∧ rehangArgs t.args = true
      ∧ (s.ctl.state = .service ∨ s.ctl.state = .operational)
      ∧ (let r := RehangArgs.dec t.args; 1 ≤ r.phase ∧ r.phase ≤ 3 ∧ r.offset % 128 = 0 ∧ r.offset + r.length ≤ stagingBytes ∧ (r.quiesce = false ∨ s.ctl.state = .service) ∧ s.cat.shadow = .draining))
  ∧ (∃ (s : State) (t : Taken), s.cat.token = some t ∧ s.cat.quiescing = true) :=
  ⟨⟨{ taking svc (cmd 0x20 [2]) with cat := { svc.cat with shadow := .filled } }, cmd 0x20 [2], [],
      by decide +kernel⟩,
   ⟨{ svc with cat := { svc.cat with token := some (cmd 0x20 [2]), quiescing := true } }, cmd 0x20 [2],
       by decide +kernel⟩,
   ⟨{ svc with cat := { svc.cat with installed := true, shadow := .draining } }, by decide +kernel⟩,
   ⟨draining, fillCmd, [], .fill, false, by decide, by decide +kernel, by decide +kernel, rfl, by decide +kernel,
       by decide, by decide +kernel⟩,
   ⟨{ svc with cat := { svc.cat with token := some (cmd 0x20 [2]), quiescing := true } }, cmd 0x20 [2],
       by decide +kernel⟩⟩

theorem witness_galleryResources :
  (∃ (s : State) (t : Taken) (b : Bytes) (e : Nat × Nat × Nat), s.takenBy 0 (fun t => t.opcode == 0x10) = some t
      ∧ Ready s t b ∧ 128 ≤ t.paramLen ∧ noArgs t.args = true ∧ blockLenOk b = true ∧ blockZerosOk b = true
      ∧ s.ctl.state = .operational ∧ s.accessionCheck (AccBlock.dec b) = none
      ∧ (let a := AccBlock.dec b; e ∈ a.ctxs))
  ∧ (∃ (s : State) (t : Taken) (b : Bytes), s.takenBy 0 (fun t => t.opcode == 0x13) = some t ∧ Ready s t b
      ∧ 128 ≤ t.paramLen ∧ noArgs t.args = true ∧ blockLenOk b = true ∧ blockZerosOk b = true
      ∧ s.ctl.state = .service ∧ s.g0Check (AccBlock.dec b) = none)
  ∧ (∃ (s : State) (t : Taken) (b : Bytes) (g : Nat), s.takenBy 0 (fun t => t.opcode == 0x14) = some t ∧ Ready s t b
      ∧ 128 ≤ t.paramLen ∧ noArgs t.args = true ∧ releaseForm b = true ∧ s.serving = true
      ∧ (let es := (blockCtxs b (getLe b 0 2)).map ctxEntry; (let gs := es.map fun e => ctxIdx e.1 e.2.1; es ≠ [] ∧ es.length ≤ 768 ∧ (∀ e, e ∈ es → e.1 < 48) ∧ (∀ g, g ∈ gs → (s.ctx g).bound = true ∧ (s.ctx g).gal = 0 ∧ (s.ctx g).state = .idle) ∧ g ∈ gs))) :=
  ⟨⟨takingB (banked opn [(0x1BC, 1)]) 0x10 132 [(0, 1), (1, 1), (3, 1), (60, 1), (62, 1), (69, 0x80), (128, 5),
      (130, 0xC0), (131, 0xBF)], cmdB 0x10 132, block 132 [(0, 1), (1, 1), (3, 1), (60, 1), (62, 1), (69, 0x80),
      (128, 5), (130, 0xC0), (131, 0xBF)], (47, 15, 5), by decide +kernel⟩,
   ⟨takingB svc 0x13 128 [(3, 1)], cmdB 0x13 128, block 128 [(3, 1)], by decide +kernel⟩,
   ⟨takingB (withCtx svc { Ctx.reset with bound := true, state := .idle }) 0x14 132 [(0, 1), (130, 0xC0), (131,
       0xBF)], cmdB 0x14 132, block 132 [(0, 1), (130, 0xC0), (131, 0xBF)], 767, by decide +kernel⟩⟩

theorem witness_deaccession :
  (∃ (s : State) (t : Taken) (b : Bytes), s.takenBy 0 (fun t => t.opcode == 0x11) = some t ∧ Ready s t b
      ∧ t.paramLen = 0 ∧ argLe t.args 16 1 < 64 ∧ argZeroFrom t.args 17 = true
      ∧ (s.ctl.state = .operational ∨ s.ctl.state = .drain) ∧ argLe t.args 16 1 ≠ 0
      ∧ (s.gal (argLe t.args 16 1)).state ≠ .free)
  ∧ (∃ (s : State) (t : Taken) (b : Bytes), s.takenBy 0 (fun t => t.opcode == 0x11) = some t ∧ Ready s t b
      ∧ t.paramLen = 0 ∧ argLe t.args 16 1 < 64 ∧ argZeroFrom t.args 17 = true
      ∧ (s.ctl.state = .operational ∨ s.ctl.state = .drain) ∧ argLe t.args 16 1 ≠ 0
      ∧ (s.gal (argLe t.args 16 1)).state ≠ .free ∧ (s.gal (argLe t.args 16 1)).state = .deaccessioning)
  ∧ (∃ (s : State) (g : GalNo), (s.gal g).deaccStep = 2 ∧ s.galDrained g = true)
  ∧ (∃ (s : State) (g : GalNo), (s.gal g).deaccStep = 2)
  ∧ (∃ (s : State) (g : GalNo), (s.gal g).deaccStep = 4 ∧ s.cur.up = true) :=
  ⟨⟨taking (withGal opn 63 { Gallery.reset with state := .active }) (cmd 0x11 [63]), cmd 0x11 [63], [],
      by decide +kernel⟩,
   ⟨taking (withGal opn 63 { Gallery.reset with state := .deaccessioning }) (cmd 0x11 [63]), cmd 0x11 [63], [],
       by decide +kernel⟩,
   ⟨withGal opn 63 { Gallery.reset with deaccStep := 2 }, 63, by decide +kernel⟩,
   ⟨withGal opn 63 { Gallery.reset with deaccStep := 2 }, 63, by decide +kernel⟩,
   ⟨withGal opn 63 { Gallery.reset with deaccStep := 4 }, 63, by decide +kernel⟩⟩

theorem witness_extentsAndScrub :
  (∃ (s : State) (g : GalNo), s.blockOpen 5 = true ∧ s.galLocked g = false)
  ∧ (∃ (s : State) (g : GalNo) (i : Fin 4) (z : Nat × Nat), ((s.gal g).extent i).zeroing = [z])
  ∧ (∃ (s : State) (cw : Nat) (n : Nat), s.powered = true ∧ s.vault.initDone = true ∧ s.vault.scrubEn = true
      ∧ 64 * cw < 0xC00000000 ∧ lastOfDie cw = false ∧ (let m := max (Tab.get 0 s.vault.bad cw) n; m = 0))
  ∧ (∃ (s : State) (cw : Nat) (n : Nat), s.powered = true ∧ s.vault.initDone = true ∧ s.vault.scrubEn = true
      ∧ 64 * cw < 0xC00000000 ∧ lastOfDie cw = false ∧ (let m := max (Tab.get 0 s.vault.bad cw) n; m = 1))
  ∧ (∃ (s : State) (cw : Nat) (n : Nat), s.powered = true ∧ s.vault.initDone = true ∧ s.vault.scrubEn = true
      ∧ 64 * cw < 0xC00000000 ∧ lastOfDie cw = false ∧ (let m := max (Tab.get 0 s.vault.bad cw) n; 2 ≤ m)) :=
  ⟨⟨svc, 63, by decide +kernel⟩,
   ⟨withGal svc 63 { Gallery.reset with extents := [(3, { Extent.reset with zeroing := [(0, 1)] })] }, 63, 3, (0,
       1), by decide +kernel⟩,
   ⟨svc, 0, 0, by decide +kernel⟩,
   ⟨svc, 0, 1, by decide +kernel⟩,
   ⟨svc, 0, 2, by decide +kernel⟩⟩

theorem witness_spdmMessages :
  (∃ (s : State), s.cur.up = true)
  ∧ (∃ (s : State) (mctp : Bool) (i : Nat) (v : Bytes), s.cur.up = true ∧ s.negotiated mctp = true ∧ i ≠ 0
      ∧ i ≠ 0xFF ∧ s.measurement i = some v)
  ∧ (∃ (s : State) (mctp : Bool), s.cur.up = true ∧ s.negotiated mctp = true
      ∧ s.sessionsOn mctp < (if mctp then 2 else 64))
  ∧ (∃ (s : State) (id : Nat) (x : Session), s.cur.up = true ∧ s.session id = some x ∧ x.open_ = false)
  ∧ (∃ (s : State) (id : Nat), s.cur.up = true ∧ s.sessionOpen id = true) :=
  ⟨⟨svc, by decide +kernel⟩,
   ⟨{ svc with sec := { svc.sec with negDoe := true } }, false, 6, _, rfl, rfl, by decide, by decide, rfl⟩,
   ⟨{ svc with sec := { svc.sec with negDoe := true } }, false, by decide +kernel⟩,
   ⟨{ svc with sec := { svc.sec with sessions := [{ id := 7, mctp := false, open_ := false, keyPhase := 0 }] } }, 7,
       { id := 7, mctp := false, open_ := false, keyPhase := 0 }, by decide +kernel⟩,
   ⟨withSession svc, 7, by decide +kernel⟩⟩

theorem witness_ideAndTdisp :
  (∃ (s : State) (id : Nat) (x : Session), s.cur.up = true ∧ s.session id = some x ∧ x.open_ = true
      ∧ x.mctp = false)
  ∧ (∃ (s : State) (id : Nat) (x : Session) (key : Bytes), s.cur.up = true ∧ s.session id = some x ∧ x.open_ = true
      ∧ x.mctp = false ∧ key.length = 32)
  ∧ (∃ (s : State) (id : Nat) (x : Session) (f : FnNo), s.cur.up = true ∧ s.session id = some x ∧ x.open_ = true
      ∧ x.mctp = false ∧ (s.fn f.val).ide.key0 ≠ [])
  ∧ (∃ (s : State) (f : FnNo), f ≠ 0 ∧ s.cur.up = true)
  ∧ (∃ (s : State) (f : FnNo), f ≠ 0 ∧ s.cur.up = true ∧ ((s.fn f.val).tdi = 1 ∨ (s.fn f.val).tdi = 2))
  ∧ (∃ (s : State) (f : FnNo), f ≠ 0 ∧ s.cur.up = true ∧ (s.fn f.val).gal ≠ 0
      ∧ ((s.gal (s.fn f.val).gal).state = .accessioned ∨ (s.gal (s.fn f.val).gal).state = .claimed)
      ∧ (s.fn f.val).tdi = 0)
  ∧ (∃ (s : State) (f : FnNo), f ≠ 0 ∧ s.cur.up = true ∧ (s.fn f.val).tdi = 1) :=
  ⟨⟨withSession (svc), 7, { id := 7, mctp := false, open_ := true, keyPhase := 0 }, by decide +kernel⟩,
   ⟨withSession (svc), 7, { id := 7, mctp := false, open_ := true, keyPhase := 0 }, zeros 32, by decide +kernel⟩,
   ⟨withSession ((svc).modFn 63 fun x => { x with ide := { x.ide with key0 := zeros 32 } }), 7,
       { id := 7, mctp := false, open_ := true, keyPhase := 0 }, 63, by decide +kernel⟩,
   ⟨svc, 63, by decide +kernel⟩,
   ⟨(svc).modFn 63 fun x => { x with tdi := 2 }, 63, by decide +kernel⟩,
   ⟨(withGal svc 63 { Gallery.reset with state := .claimed }).modFn 63 fun x => { x with gal := 63 }, 63,
       by decide +kernel⟩,
   ⟨(svc).modFn 63 fun x => { x with tdi := 1 }, 63, by decide +kernel⟩⟩

theorem witness_tenantMessages :
  (∃ (s : State) (sid : Nat) (m : TenantMsg), s.cur.up = true ∧ s.sessionOpen sid = true ∧ Heeded s sid m
      ∧ m.code = 1)
  ∧ (∃ (s : State) (sid : Nat) (m : TenantMsg), s.cur.up = true ∧ s.sessionOpen sid = true ∧ Heeded s sid m
      ∧ m.code = 2)
  ∧ (∃ (s : State) (sid : Nat) (m : TenantMsg), s.cur.up = true ∧ s.sessionOpen sid = true ∧ Heeded s sid m
      ∧ m.code = 3)
  ∧ (∃ (s : State) (sid : Nat) (m : TenantMsg), s.cur.up = true ∧ s.sessionOpen sid = true ∧ Heeded s sid m
      ∧ m.code = 4)
  ∧ (∃ (s : State) (sid : Nat) (m : TenantMsg), s.cur.up = true ∧ s.sessionOpen sid = true ∧ Heeded s sid m
      ∧ m.code = 5)
  ∧ (∃ (s : State) (sid : Nat) (m : TenantMsg), s.cur.up = true ∧ s.sessionOpen sid = true ∧ Heeded s sid m
      ∧ m.code = 6)
  ∧ (∃ (s : State) (sid : Nat) (m : TenantMsg), s.cur.up = true ∧ s.sessionOpen sid = true ∧ Heeded s sid m
      ∧ m.code = 7)
  ∧ (∃ (s : State) (sid : Nat) (m : TenantMsg), s.cur.up = true ∧ s.sessionOpen sid = true ∧ Heeded s sid m
      ∧ m.code = 8)
  ∧ (∃ (s : State) (sid : Nat) (m : TenantMsg), s.cur.up = true ∧ s.sessionOpen sid = true ∧ Heeded s sid m
      ∧ m.code = 9 ∧ s.mayOpen m.gallery = true)
  ∧ (∃ (s : State) (sid : Nat) (m : TenantMsg), s.cur.up = true ∧ s.sessionOpen sid = true ∧ Heeded s sid m
      ∧ m.code = 10)
  ∧ (∃ (s : State) (sid : Nat) (m : TenantMsg), s.cur.up = true ∧ s.sessionOpen sid = true
      ∧ (m.code = 0 ∨ 10 < m.code))
  ∧ (∃ (s : State) (sid : Nat) (m : TenantMsg) (c : Instr) (k : Nat), (c, k) ∈ [(Instr.galKeyInstall (some sid) m,
      4), (.galKeyRetire (some sid) m, 5), (.galKeyActivate (some sid) m, 6), (.galFabricRoot (some sid) m, 7),
      (.galFabricStep (some sid) m, 8), (.galOpen (some sid) m, 9), (.galDeaccess (some sid) m, 10)]
      ∧ s.cur.up = true ∧ s.sessionOpen sid = true ∧ m.code = k ∧ msgForm m = true ∧ m.gallery ≠ 0
      ∧ (s.gal m.gallery).session ≠ some sid)
  ∧ (∃ (s : State) (sid : Option Nat) (m : TenantMsg) (c : Instr) (k : Nat), (c, k) ∈ [(Instr.galQuery sid m, 1),
      (.galClaim sid m, 2), (.galResume sid m, 3), (.galKeyInstall sid m, 4), (.galKeyRetire sid m, 5),
      (.galKeyActivate sid m, 6), (.galFabricRoot sid m, 7), (.galFabricStep sid m, 8), (.galOpen sid m, 9),
      (.galDeaccess sid m, 10), (.reservedTenantMessage sid m, 11)] ∧ s.cur.up = true ∧ m.code = k ∧ (∀ n,
      sid = some n → s.sessionOpen n = false)) :=
  ⟨⟨withSession (withGal opn 63 { Gallery.reset with state := .free, session := some 7 }), 7, tmsg 1,
      by simp only [heeded_iff]; decide +kernel⟩,
   ⟨withSession (withGal opn 63 { Gallery.reset with state := .accessioned, session := some 7 }), 7, tmsg 2,
       by simp only [heeded_iff]; decide +kernel⟩,
   ⟨withSession (withGal opn 63 { Gallery.reset with state := .suspended, session := some 7, claimant := some imageKeyBytes, challenge := zeros 16 }),
       7, { tmsg 3 with material := resumeSig }, by simp only [heeded_iff]; decide +kernel⟩,
   ⟨{ withSession (withGal opn 63 { Gallery.reset with state := .claimed, session := some 7 }) with docents := [(47, { Docent.reset with slots := [(63, { KeySlot.reset with owner := some 63, installed := false })] })] },
       7, tmsg 4, by simp only [heeded_iff]; decide +kernel⟩,
   ⟨{ withSession (withGal opn 63 { Gallery.reset with state := .active, session := some 7 }) with docents := [(47, { Docent.reset with slots := [(63, { KeySlot.reset with owner := some 63, installed := true })] })] },
       7, tmsg 5, by simp only [heeded_iff]; decide +kernel⟩,
   ⟨{ withSession (withGal opn 63 { Gallery.reset with state := .claimed, session := some 7 }) with docents := [(47, { Docent.reset with slots := [(63, { KeySlot.reset with owner := some 63, installed := true })] })] },
       7, tmsg 6, by simp only [heeded_iff]; decide +kernel⟩,
   ⟨withSession (withGal opn 63 { Gallery.reset with state := .claimed, session := some 7 }), 7,
       { tmsg 7 with count := 1, members := [1] }, by simp only [heeded_iff]; decide +kernel⟩,
   ⟨withSession (withGal opn 63 { Gallery.reset with state := .active, session := some 7 }), 7, tmsg 8,
       by simp only [heeded_iff]; decide +kernel⟩,
   ⟨(withSession (withGal opn 63 { Gallery.reset with state := .claimed, session := some 7, root := true, fn := 1 })).modFn 1 fun x => { x with tdi := 2 },
       7, tmsg 9, by simp only [heeded_iff]; decide +kernel⟩,
   ⟨withSession (withGal opn 63 { Gallery.reset with state := .active, session := some 7 }), 7, tmsg 10,
       by simp only [heeded_iff]; decide +kernel⟩,
   ⟨withSession (withGal opn 63 { Gallery.reset with state := .active, session := some 7 }), 7, tmsg 11,
       by decide +kernel⟩,
   ⟨withSession (withGal opn 63 { Gallery.reset with state := .active }), 7, tmsg 10,
       .galDeaccess (some 7) (tmsg 10), 10, by decide +kernel⟩,
   ⟨svc, none, tmsg 1, .galQuery none (tmsg 1), 1, List.mem_cons_self, rfl, rfl, fun _ h => nomatch h⟩⟩

theorem witness_galleryKeys :
  (∃ (s : State) (t : Taken) (b : Bytes) (c : Instr) (code : Nat), (c, code) ∈ [(Instr.g0KeyInstall, 4),
      (.g0KeyRetire, 5), (.g0KeyActivate, 6), (.g0FabricRoot, 7), (.g0FabricStep, 8)]
      ∧ s.takenBy 0 (fun t => t.opcode == 0x12 && leNat (s.vmBytes t.blockVpa 2) == code && t.blockIn && t.paramLen ≥ 128) = some t
      ∧ Ready s t b ∧ 128 ≤ t.paramLen ∧ noArgs t.args = true ∧ s.serving = true ∧ g0KeyLen b = true
      ∧ s.g0KeyCheck (TenantMsg.dec b) = none)
  ∧ (∃ (s : State) (g : Nat) (gen : Nat) (secret : Bytes) (lead : Nat) (period : Nat) (members : List NodeId) (x : Nat × Nat × Nat × Nat × Bool),
      (let u := s.installRoot g gen secret lead period members; x ∈ u.sec.pairs)) :=
  ⟨⟨{ takingB svc 0x12 128 [(0, 4), (3, 47), (4, 63)] with docents := [(47, { Docent.reset with slots := [(63, { KeySlot.reset with owner := some 0 })] })] },
      cmdB 0x12 128, block 128 [(0, 4), (3, 47), (4, 63)], .g0KeyInstall, 4, by decide +kernel⟩,
   ⟨{ svc with sec := { svc.sec with pairs := [(1, 0, 0, 1, true)] } }, 2, 0, [], 0, 0, [], (1, 0, 0, 1, true),
       by decide +kernel⟩⟩

theorem witness_fabricSteps :
  (∃ (s : State) (k : FabPkt) (b : Bytes), Arrives s ftMgmt k b ∧ s.cur.up = true ∧ getLe b 0 1 = mkStep
      ∧ (let h := FHdr.dec k.hdr; (let x := s.gal h.gallery; (let gen := getLe b 2 2; x.state ≠ .deaccessioning ∧ x.root = true ∧ gen ≠ x.gen ∧ gen = (x.gen + 1) % 65536))))
  ∧ (∃ (s : State) (k : FabPkt) (b : Bytes), Arrives s ftMgmt k b ∧ s.cur.up = true ∧ getLe b 0 1 = mkStep
      ∧ (let h := FHdr.dec k.hdr; (let x := s.gal h.gallery; (let gen := getLe b 2 2; (x.state = .deaccessioning ∨ x.root = true ∧ gen = x.gen)))))
  ∧ (∃ (s : State) (g : Nat) (x : Nat × Nat × Nat × Nat × Bool), (let u := s.advance g; x ∈ u.sec.pairs ∧ x.1 = g))
  ∧ (∃ (s : State) (k : FabPkt) (b : Bytes) (r : StepRun), Arrives s ftMgmt k b ∧ s.cur.up = true
      ∧ getLe b 0 1 = mkReply
      ∧ (let h := FHdr.dec k.hdr; (let left := r.waiting.filter fun m => m.toNat != h.srcNode; (s.gal h.gallery).stepRun = some r ∧ r.gen = getLe b 2 2 ∧ left ≠ [])))
  ∧ (∃ (s : State) (k : FabPkt) (b : Bytes) (r : StepRun), Arrives s ftMgmt k b ∧ s.cur.up = true
      ∧ getLe b 0 1 = mkReply
      ∧ (let h := FHdr.dec k.hdr; (let left := r.waiting.filter fun m => m.toNat != h.srcNode; (s.gal h.gallery).stepRun = some r ∧ r.gen = getLe b 2 2 ∧ left = [] ∧ (s.gal h.gallery).stepAsked = false)))
  ∧ (∃ (s : State) (g : GalNo), (s.gal g).period ≠ 0)
  ∧ (∃ (s : State) (g : GalNo) (gen : BitVec 16) (a : NodeId) (b : NodeId), (s.gal g).inWindow gen.toNat = true
      ∧ (a.toNat = s.node ∨ b.toNat = s.node))
  ∧ (∃ (s : State) (k : FabPkt) (b : Bytes), Arrives s ftMgmt k b ∧ s.cur.up = true ∧ getLe b 0 1 ≠ mkStep
      ∧ getLe b 0 1 ≠ mkReply) :=
  ⟨⟨{ withGal svc 63 { Gallery.reset with state := .active, root := true, gen := 65535 } with cat := { svc.cat with installed := true } },
      pkt { fh with ftype := ftMgmt, gallery := 63 } (natLe 2 mkStep ++ natLe 2 0), natLe 2 mkStep ++ natLe 2 0,
      by simp only [Arrives]; decide +kernel⟩,
   ⟨{ withGal svc 63 { Gallery.reset with state := .active, root := true, gen := 65535 } with cat := { svc.cat with installed := true } },
       pkt { fh with ftype := ftMgmt, gallery := 63 } (natLe 2 mkStep ++ natLe 2 65535),
       natLe 2 mkStep ++ natLe 2 65535, by simp only [Arrives]; decide +kernel⟩,
   ⟨{ withGal svc 63 { Gallery.reset with state := .active, root := true } with sec := { svc.sec with pairs := [(63, 0, 0, 1, true)] } },
       63, (63, 0, 0, 1, true), by decide +kernel⟩,
   ⟨{ withGal svc 63 { Gallery.reset with state := .active, stepRun := some { gen := 1, waiting := [0, 1] } } with cat := { svc.cat with installed := true } },
       pkt { fh with ftype := ftMgmt, gallery := 63 } (natLe 2 mkReply ++ natLe 2 1), natLe 2 mkReply ++ natLe 2 1,
       { gen := 1, waiting := [0, 1] }, by simp only [Arrives]; decide +kernel⟩,
   ⟨{ withGal svc 63 { Gallery.reset with state := .active, stepRun := some { gen := 1, waiting := [0] } } with cat := { svc.cat with installed := true } },
       pkt { fh with ftype := ftMgmt, gallery := 63 } (natLe 2 mkReply ++ natLe 2 1), natLe 2 mkReply ++ natLe 2 1,
       { gen := 1, waiting := [0] }, by simp only [Arrives]; decide +kernel⟩,
   ⟨withGal svc 63 { Gallery.reset with state := .active, root := true, period := 1 }, 63, by decide +kernel⟩,
   ⟨withGal svc 63 { Gallery.reset with state := .active, root := true }, 63, 0, 0, 1, by decide +kernel⟩,
   ⟨{ withGal svc 63 { Gallery.reset with state := .active, root := true } with cat := { svc.cat with installed := true } },
       pkt { fh with ftype := ftMgmt, gallery := 63 } (natLe 2 0 ++ natLe 2 0), natLe 2 0 ++ natLe 2 0,
       by simp only [Arrives]; decide +kernel⟩⟩

theorem witness_quorumActions :
  (∃ (s : State) (b : Bytes) (c : QuorumVia → Instr) (a : Nat) (t : Taken), (c, a) ∈ [(Instr.expelPort, 1),
      (.expelPeer, 2), (.isolate, 3), (.liftPort, 4), (.liftAll, 5), (.drain, 6), (.replaceSet, 7)]
      ∧ getLe b 0 1 = a ∧ s.cur.up = true ∧ s.serving = true ∧ Authorised s b
      ∧ s.takenBy 0 (fun t => t.opcode == 0x19 && leNat (s.vmBytes t.blockVpa 1) == a) = some t ∧ Ready s t b
      ∧ 164 ≤ t.paramLen ∧ noArgs t.args = true)
  ∧ (∃ (s : State) (b : Bytes), getLe b 0 1 = 6 ∧ s.cur.up = true ∧ s.serving = true ∧ Authorised s b
      ∧ s.ctl.target = none ∧ s.ctl.state = .operational)
  ∧ (∃ (s : State) (b : Bytes), getLe b 0 1 = 7 ∧ s.cur.up = true ∧ s.serving = true ∧ Authorised s b)
  ∧ (∃ (s : State) (b : Bytes), getLe b 0 1 = 1 ∧ s.cur.up = true ∧ s.serving = true ∧ quorumForm b = true
      ∧ s.sec.quorum ≠ [] ∧ (getLe b 4 2 ≠ s.node ∨ getLe b 8 4 ≠ s.sec.nextSeq ∨ s.signers b < s.sec.k))
  ∧ (∃ (s : State) (b : Bytes), (getLe b 0 1 = 0 ∨ 7 < getLe b 0 1) ∧ s.cur.up = true ∧ s.serving = true)
  ∧ (∃ (s : State) (t : Taken) (b : Bytes), s.takenBy 0 (fun t => t.opcode == 0x18) = some t ∧ Ready s t b
      ∧ 104 ≤ t.paramLen ∧ t.paramLen ≤ 680 ∧ noArgs t.args = true ∧ setBodyOk b = true
      ∧ s.ctl.state = .service) :=
  ⟨⟨withSigner (takingBytes svc 0x19 expelRequest), expelRequest, .expelPort, 1, cmdB 0x19 164, List.mem_cons_self,
      by decide +kernel⟩,
   ⟨withSigner opn, drainRequest, by decide +kernel⟩,
   ⟨withSigner svc, replaceRequest, by decide +kernel⟩,
   ⟨withSigner svc, request 1 (zeros 96), by decide +kernel⟩,
   ⟨svc, [8], by decide +kernel⟩,
   ⟨takingB svc 0x18 104 [(0, 1), (1, 1)], cmdB 0x18 104, block 104 [(0, 1), (1, 1)], by decide +kernel⟩⟩

theorem witness_linkFlits :
  (∃ (s : State) (p : Port) (lanes : List (List Pam)) (a : State) (hdr : Word) (body : Bytes) (places : List Nat),
      (s.link p.val).receives = true ∧ GoodFlit s p.val lanes a hdr body places ∧ fieldN hdr 62 2 = 0
      ∧ (let u := ((a.elastic p.val false).countPlaces p.val places).flitFields p.val hdr; (let d := (fieldN hdr 6 16 + 65536 - (u.link p.val).rxSeq) % 65536; (u.link p.val).receives = true ∧ d = 0)))
  ∧ (∃ (s : State) (p : Port) (lanes : List (List Pam)) (a : State) (hdr : Word) (body : Bytes) (places : List Nat),
      (s.link p.val).receives = true ∧ GoodFlit s p.val lanes a hdr body places ∧ fieldN hdr 62 2 = 0
      ∧ (let u := ((a.elastic p.val false).countPlaces p.val places).flitFields p.val hdr; (let d := (fieldN hdr 6 16 + 65536 - (u.link p.val).rxSeq) % 65536; (u.link p.val).receives = true ∧ 32768 ≤ d)))
  ∧ (∃ (s : State) (p : Port) (lanes : List (List Pam)) (a : State) (hdr : Word) (body : Bytes) (places : List Nat),
      (s.link p.val).receives = true ∧ GoodFlit s p.val lanes a hdr body places ∧ fieldN hdr 62 2 = 0
      ∧ (let u := ((a.elastic p.val false).countPlaces p.val places).flitFields p.val hdr; (let d := (fieldN hdr 6 16 + 65536 - (u.link p.val).rxSeq) % 65536; (u.link p.val).receives = true ∧ 0 < d ∧ d < 32768)))
  ∧ (∃ (s : State) (p : Port) (lanes : List (List Pam)) (a : State), (s.link p.val).receives = true
      ∧ lanesOk lanes = true ∧ lanesFit (s.link p.val).width lanes = true ∧ s.flitArrives p.val lanes = (a, none))
  ∧ (∃ (s : State) (p : Port) (lanes : List (List Pam)) (a : State) (hdr : Word) (body : Bytes) (places : List Nat),
      (s.link p.val).receives = true ∧ GoodFlit s p.val lanes a hdr body places ∧ fieldN hdr 62 2 = 2)
  ∧ (∃ (s : State) (p : Port) (lanes : List (List Pam)) (a : State) (hdr : Word) (body : Bytes) (places : List Nat),
      (s.link p.val).receives = true ∧ GoodFlit s p.val lanes a hdr body places ∧ fieldN hdr 62 2 = 1)
  ∧ (∃ (s : State) (p : Port), (s.link p.val).nakHeld = true)
  ∧ (∃ (s : State) (p : Port) (f : TxFlit) (fs : List TxFlit), (s.link p.val).receives = true
      ∧ (s.link p.val).unacked = f :: fs ∧ (s.link p.val).replayRun = 0)
  ∧ (∃ (s : State) (p : Port), (s.link p.val).sends = true ∧ ((s.link p.val).idleEn = true ∨ 1 ≤ s.pwr.tier)
      ∧ (s.link p.val).waiting = [] ∧ (s.link p.val).unacked = [])
  ∧ (∃ (s : State) (p : Port), (s.link p.val).txIdle = true ∧ (s.link p.val).due = true
      ∧ (s.link p.val).waiting = [] ∧ (s.link p.val).freed = [] ∧ (s.link p.val).rxIdle = false)
  ∧ (∃ (s : State) (p : Port), (s.link p.val).txIdle = true)
  ∧ (∃ (s : State) (p : Port), (s.link p.val).state = .idle ∧ (s.link p.val).rxIdle = true
      ∧ (let u := (s.modLink p.val fun l => { l with rxIdle := false, state := if l.txIdle then .idle else .active }).loadScramblers p.val false true; u.unlocked p.val = []))
  ∧ (∃ (s : State) (p : Port), (s.link p.val).state = .idle ∧ (s.link p.val).rxIdle = true
      ∧ (let u := (s.modLink p.val fun l => { l with rxIdle := false, state := if l.txIdle then .idle else .active }).loadScramblers p.val false true; u.unlocked p.val ≠ [])) :=
  ⟨⟨wide { Link.reset with rxSeq := 0 }, 47, lanesOf 0,
      ((wide { Link.reset with rxSeq := 0 }).unwire 47 (lanesOf 0)).1, 0, zeros 224, [], rfl,
      wide_flit _ (by decide), rfl, by decide +kernel, by decide +kernel⟩,
   ⟨wide { Link.reset with rxSeq := 32768 }, 47, lanesOf 0,
       ((wide { Link.reset with rxSeq := 32768 }).unwire 47 (lanesOf 0)).1, 0, zeros 224, [], rfl,
       wide_flit _ (by decide), rfl, by decide +kernel, by decide +kernel⟩,
   ⟨wide { Link.reset with rxSeq := 32769 }, 47, lanesOf 0,
       ((wide { Link.reset with rxSeq := 32769 }).unwire 47 (lanesOf 0)).1, 0, zeros 224, [], rfl,
       wide_flit _ (by decide), rfl, by decide +kernel, by decide +kernel, by decide +kernel⟩,
   ⟨wide Link.reset, 47, badLanes, ((wide Link.reset).unwire 47 badLanes).1, rfl, bad_reads.1, bad_reads.2.1,
       bad_flit⟩,
   ⟨wide { Link.reset with rxSeq := 0 }, 47, lanesOf 0x8000000000000000,
       ((wide { Link.reset with rxSeq := 0 }).unwire 47 (lanesOf 0x8000000000000000)).1, 0x8000000000000000,
       zeros 224, [], rfl, wide_flit _ (by decide), rfl⟩,
   ⟨wide { Link.reset with rxSeq := 0 }, 47, lanesOf 0x4000000000000000,
       ((wide { Link.reset with rxSeq := 0 }).unwire 47 (lanesOf 0x4000000000000000)).1, 0x4000000000000000,
       zeros 224, [], rfl, wide_flit _ (by decide), rfl⟩,
   ⟨withLink svc { active with nakHeld := true }, 47, by decide +kernel⟩,
   ⟨withLink svc { active with unacked := [{ seq := 0, vc := 0, sop := 0, body := [] }] }, 47,
       { seq := 0, vc := 0, sop := 0, body := [] }, [], by decide +kernel⟩,
   ⟨withLink svc active, 47, by decide +kernel⟩,
   ⟨withLink svc { active with txIdle := true, due := true }, 47, by decide +kernel⟩,
   ⟨withLink svc { active with txIdle := true }, 47, by decide +kernel⟩,
   ⟨{ (withLink svc { active with state := .idle, rxIdle := true, width := 1 }) with lanes := (List.range 4).map fun i => (47 * 8 + i, { Lane.reset with cdrLock := true }) },
       47, by decide +kernel⟩,
   ⟨withLink svc { active with state := .idle, rxIdle := true, width := 1 }, 47, by decide +kernel⟩⟩

theorem witness_linkStates :
  (∃ (s : State) (p : Port) (i : LaneNo), s.laneUsable p.val i.val = true ∧ (s.link p.val).trainStep = 1
      ∧ (s.link p.val).state ≠ .retrain)
  ∧ (∃ (s : State) (p : Port), (s.link p.val).trainStep = 1 ∧ (s.link p.val).state = .disabled)
  ∧ (∃ (s : State) (p : Port), (s.link p.val).trainStep = 1 ∧ (s.link p.val).state ≠ .disabled
      ∧ (s.link p.val).attempts < 7)
  ∧ (∃ (s : State) (p : Port) (i : LaneNo) (f : Header), frameOk f = true ∧ frameByte f 8 = 1
      ∧ frameByte f 9 % 8 = i.val ∧ s.laneUsable p.val i.val = true ∧ (s.link p.val).state = .training
      ∧ ((s.link p.val).trainStep = 2 ∨ (s.link p.val).trainStep = 3 ∨ (s.link p.val).trainStep = 4))
  ∧ (∃ (s : State) (p : Port), (s.link p.val).trainStep = 4 ∧ (s.link p.val).state = .disabled ∧ (∀ i, i < 8
      → s.laneUsable p.val i = true → (s.lane p.val i).badFrames ≤ 4 ∧ (s.lane p.val i).cdrLock = true))
  ∧ (∃ (s : State) (p : Port), (s.link p.val).trainStep = 4 ∧ (s.link p.val).state = .training
      ∧ widthOf (s.laneOk p.val) ≠ 0 ∧ (∀ i, i < 8 → s.laneUsable p.val i = true → (s.lane p.val i).badFrames ≤ 4
      ∧ (s.lane p.val i).cdrLock = true))
  ∧ (∃ (s : State) (p : Port) (i : LaneNo) (f : Header), (s.link p.val).trainStep = 5
      ∧ (s.link p.val).receives = false ∧ frameOk f = true ∧ frameByte f 8 = 2 ∧ frameByte f 9 % 8 = i.val
      ∧ s.laneUsable p.val i.val = true ∧ s.ts2Fits p.val f = true
      ∧ (let ok := (BitVec.ofNat 8 (s.laneOk p.val) &&& BitVec.ofNat 8 (frameByte f 19)).toNat; widthOf ok ≠ 0))
  ∧ (∃ (s : State) (p : Port) (i : LaneNo), s.laneUsable p.val i.val = true ∧ (s.link p.val).receives = true
      ∧ (s.link p.val).rxIdle = false)
  ∧ (∃ (s : State) (p : Port) (i : LaneNo), s.laneUsable p.val i.val = true ∧ (s.link p.val).receives = true
      ∧ (s.link p.val).rxIdle = true)
  ∧ (∃ (s : State) (p : Port), linkCarries (s.link p.val) = true ∧ (s.link p.val).rxIdle = false)
  ∧ (∃ (s : State) (p : Port) (i : LaneNo), (s.link p.val).state = .down ∧ (s.link p.val).trainRefused = false
      ∧ bitN (s.link p.val).laneMask i.val = true)
  ∧ (∃ (s : State) (p : Port), (s.link p.val).state = .retrain ∧ (s.link p.val).retrainFails < 3)
  ∧ (∃ (s : State) (p : Port), s.pageOpen p.val = true
      ∧ ((s.link p.val).state = .active ∨ (s.link p.val).state = .idle))
  ∧ (∃ (s : State) (p : Port), s.pageOpen p.val = true ∧ (s.link p.val).state = .expelled)
  ∧ (∃ (s : State) (p : Port) (i : Nat), s.pageOpen p.val = true ∧ (s.link p.val).state = .training ∧ i < 8)
  ∧ (∃ (s : State) (p : Port), s.pageOpen p.val = true ∧ s.ctl.state = .service
      ∧ (s.link p.val).trainRefused = false)
  ∧ (∃ (s : State) (p : Port), s.pageOpen p.val = true ∧ s.ctl.state = .service)
  ∧ (∃ (s : State) (p : Port), s.pageOpen p.val = true ∧ s.ctl.state ≠ .service) :=
  ⟨⟨withLink svc { Link.reset with trainStep := 1 }, 47, 7, by decide +kernel⟩,
   ⟨withLink svc { Link.reset with trainStep := 1 }, 47, by decide +kernel⟩,
   ⟨withLink svc { Link.reset with state := .training, trainStep := 1, attempts := 6 }, 47, by decide +kernel⟩,
   ⟨withLink svc { Link.reset with state := .training, trainStep := 4 }, 47, 7, frame 1 2 [], by decide +kernel⟩,
   ⟨{ (withLink svc { Link.reset with state := .disabled, trainStep := 4 }) with lanes := (List.range 8).map fun i => (47 * 8 + i, { Lane.reset with cdrLock := true, badFrames := 4 }) },
       47, by decide +kernel⟩,
   ⟨{ (withLink svc { Link.reset with state := .training, trainStep := 4 }) with lanes := (List.range 8).map fun i => (47 * 8 + i, { Lane.reset with cdrLock := true, badFrames := 4 }) },
       47, by decide +kernel⟩,
   ⟨{ svc with cat := { svc.cat with installed := true, bank0 := { Bank.reset with bytes := [(0x1BC, 1)] } }, links := [(47, { Link.reset with state := .training, trainStep := 5 })] },
       47, 7, frame 2 3 [0, 0, 0, 0xFF], by decide +kernel⟩,
   ⟨withLink svc active, 47, 7, by decide +kernel⟩,
   ⟨withLink svc { active with rxIdle := true }, 47, 7, by decide +kernel⟩,
   ⟨withLink svc { active with state := .retrain }, 47, by decide +kernel⟩,
   ⟨withLink svc { Link.reset with state := .down }, 47, 7, by decide +kernel⟩,
   ⟨withLink svc { active with state := .retrain, retrainFails := 2 }, 47, by decide +kernel⟩,
   ⟨withLink svc active, 47, by decide +kernel⟩,
   ⟨withLink svc { Link.reset with state := .expelled }, 47, by decide +kernel⟩,
   ⟨withLink svc { Link.reset with state := .training }, 47, 7, by decide +kernel⟩,
   ⟨withLink svc active, 47, by decide +kernel⟩,
   ⟨withLink svc { Link.reset with state := .down, trainRefused := true }, 47, by decide +kernel⟩,
   ⟨withLink opn active, 47, by decide +kernel⟩⟩

theorem witness_packetsAndAnswers :
  (∃ (s : State) (inp : Nat) (out : Nat) (vc : BitVec 3) (b : Buffered),
      (let m := s.matchSlot; ((m.swc.buf.find? fun b => b.inp == inp && b.out == out && b.vc == vc.toNat) = some b) ∧ (inp, out, vc.toNat) ∉ m.swc.locks))
  ∧ (∃ (s : State) (inp : Nat) (out : Nat) (vc : BitVec 3) (b : Buffered),
      (let m := s.matchSlot; ((m.swc.buf.find? fun b => b.inp == inp && b.out == out && b.vc == vc.toNat) = some b) ∧ (let h := FHdr.dec b.hdr; (inp, out, vc.toNat) ∈ m.swc.locks ∧ m.routeError h = false ∧ h.hopPtr = h.hopsM1)))
  ∧ (∃ (s : State) (inp : Nat) (out : Nat) (vc : BitVec 3) (b : Buffered),
      (let m := s.matchSlot; ((m.swc.buf.find? fun b => b.inp == inp && b.out == out && b.vc == vc.toNat) = some b) ∧ (let h := FHdr.dec b.hdr; (inp, out, vc.toNat) ∈ m.swc.locks ∧ m.routeError h = false ∧ h.hopPtr ≠ h.hopsM1)))
  ∧ (∃ (s : State) (inp : Nat) (out : Nat) (vc : BitVec 3) (b : Buffered),
      (let m := s.matchSlot; ((m.swc.buf.find? fun b => b.inp == inp && b.out == out && b.vc == vc.toNat) = some b) ∧ (let h := FHdr.dec b.hdr; (inp, out, vc.toNat) ∈ m.swc.locks ∧ m.routeError h = true)))
  ∧ (∃ (s : State) (l : Nat × Nat × Nat), l ∈ s.matchSlot.swc.locks)
  ∧ (∃ (s : State) (src : BitVec 6) (dest : NodeId) (dseq : BitVec 32) (o : Outst),
      ((s.replay.find? fun o => o.src == src.toNat && o.dest == dest.toNat && o.dseq == dseq.toNat && fieldN o.hdr 12 3 == 7) = some o)
      ∧ 64 ≤ o.resends)
  ∧ (∃ (s : State) (src : BitVec 6) (dest : NodeId) (dseq : BitVec 32) (o : Outst),
      ((s.replay.find? fun o => o.src == src.toNat && o.dest == dest.toNat && o.dseq == dseq.toNat && fieldN o.hdr 12 3 == 7) = some o)
      ∧ o.resends < 64)
  ∧ (∃ (s : State) (src : BitVec 6) (dest : NodeId), dest.toNat ≠ s.node
      ∧ (let mine (o : Outst) : Bool := o.src == src.toNat && o.dest == dest.toNat && !o.listed; s.replay.filter mine ≠ []))
  ∧ (∃ (s : State) (body : BitVec 128), (bitN body 32 = false ∨ body.toNat ∈ s.cat.notices))
  ∧ (∃ (s : State) (hdr : Header) (tag : Bytes) (u : State) (h : FHdr) (o : Outst) (plain : Option Bytes),
      s.receiveResp ftAck hdr [] tag = (u, some (h, o, plain)) ∧ h.param / 32768 = 1)
  ∧ (∃ (s : State) (hdr : Header) (tag : Bytes) (u : State) (h : FHdr) (o : Outst) (plain : Option Bytes),
      s.receiveResp ftAck hdr [] tag = (u, some (h, o, plain)) ∧ h.param / 32768 ≠ 1 ∧ h.param % 256 = stOk
      ∧ plain = none)
  ∧ (∃ (s : State) (hdr : Header) (tag : Bytes) (u : State) (h : FHdr) (o : Outst) (plain : Option Bytes),
      s.receiveResp ftAck hdr [] tag = (u, some (h, o, plain))
      ∧ (let ft := fieldN o.hdr 0 8; h.param / 32768 ≠ 1 ∧ h.param % 256 = stOk ∧ plain ≠ none ∧ ft = ftSync))
  ∧ (∃ (s : State) (hdr : Header) (tag : Bytes) (u : State) (h : FHdr) (o : Outst) (plain : Option Bytes),
      s.receiveResp ftAck hdr [] tag = (u, some (h, o, plain))
      ∧ (let ft := fieldN o.hdr 0 8; h.param / 32768 ≠ 1 ∧ h.param % 256 = stOk ∧ plain ≠ none ∧ ft ≠ ftSync ∧ ft ≠ ftRead ∧ ft ≠ ftAtomic))
  ∧ (∃ (s : State) (hdr : Header) (tag : Bytes) (u : State) (h : FHdr) (o : Outst) (plain : Option Bytes),
      s.receiveResp ftAck hdr [] tag = (u, some (h, o, plain)) ∧ h.param / 32768 ≠ 1 ∧ h.param % 256 ≠ stOk)
  ∧ (∃ (s : State) (hdr : Header) (payload : Bytes) (tag : Bytes) (u : State) (h : FHdr) (o : Outst) (plain : Option Bytes),
      s.receiveResp ftData hdr payload tag = (u, some (h, o, plain)) ∧ plain = none)
  ∧ (∃ (s : State) (hdr : Header) (payload : Bytes) (tag : Bytes) (u : State) (h : FHdr) (o : Outst) (plain : Option Bytes) (bs : Bytes),
      s.receiveResp ftData hdr payload tag = (u, some (h, o, plain)) ∧ plain = some bs ∧ fieldN o.hdr 0 8 = ftRead)
  ∧ (∃ (s : State) (hdr : Header) (payload : Bytes) (tag : Bytes) (u : State) (h : FHdr) (o : Outst) (plain : Option Bytes),
      s.receiveResp ftValue hdr payload tag = (u, some (h, o, plain)) ∧ plain = none)
  ∧ (∃ (s : State) (hdr : Header) (payload : Bytes) (tag : Bytes) (u : State) (h : FHdr) (o : Outst) (plain : Option Bytes) (bs : Bytes),
      s.receiveResp ftValue hdr payload tag = (u, some (h, o, plain)) ∧ plain = some bs
      ∧ (fieldN o.hdr 0 8 = ftSync ∨ fieldN o.hdr 0 8 = ftAtomic)) :=
  ⟨⟨{ withLink svc { active with state := .retrain } with swc := { svc.swc with buf := [buffered { fh with ftype := ftRead, route := 47, hopsM1 := 1 }] } },
      80, 79, 7, buffered { fh with ftype := ftRead, route := 47, hopsM1 := 1 }, by decide +kernel⟩,
   ⟨{ svc with swc := { svc.swc with buf := [buffered { fh with route := 0x3F, ftype := ftRead }] } }, 80, 79, 7,
       buffered { fh with route := 0x3F, ftype := ftRead }, by decide +kernel⟩,
   ⟨{ withLink svc { active with limit := [(0, 100)] } with swc := { svc.swc with buf := [buffered { fh with ftype := ftRead, route := 47, hopsM1 := 1 }] } },
       80, 79, 7, buffered { fh with ftype := ftRead, route := 47, hopsM1 := 1 }, by decide +kernel⟩,
   ⟨{ svc with swc := { svc.swc with buf := [buffered fh] } }, 80, 79, 7, buffered fh, by decide +kernel⟩,
   ⟨{ svc with swc := { svc.swc with buf := [buffered fh] } }, (80, 79, 7), by decide +kernel⟩,
   ⟨{ svc with replay := [{ outst { fh with vc := 7 } with resends := 64 }] }, 63, 0, 0,
       { outst { fh with vc := 7 } with resends := 64 }, by decide +kernel⟩,
   ⟨{ svc with replay := [{ outst { fh with vc := 7 } with resends := 63 }] }, 63, 0, 0,
       { outst { fh with vc := 7 } with resends := 63 }, by decide +kernel⟩,
   ⟨{ svc with replay := [outst { fh with srcNode := 1 }] }, 63, 1, by decide +kernel⟩,
   ⟨svc, 0, by decide +kernel⟩,
   ⟨{ { svc with cat := { svc.cat with installed := true } } with replay := [outst { fh with ftype := ftWrite }] },
       ({ fh with route := 0x3F, ftype := ftAck, param := 0x8000 }).enc, [],
       ({ { svc with cat := { svc.cat with installed := true } } with replay := [outst { fh with ftype := ftWrite }] } : State).unqueue ({ fh with route := 0x3F, ftype := ftAck, param := 0x8000 }).enc [],
       FHdr.dec ({ fh with route := 0x3F, ftype := ftAck, param := 0x8000 }).enc,
       outst { fh with ftype := ftWrite }, some [], by decide +kernel⟩,
   ⟨{ { svc with cat := { svc.cat with installed := true } } with replay := [outst { fh with ftype := ftWrite, srcNode := 1 }] },
       ({ fh with route := 0x3F, ftype := ftAck, srcNode := 1 }).enc, [],
       ({ { svc with cat := { svc.cat with installed := true } } with replay := [outst { fh with ftype := ftWrite, srcNode := 1 }] } : State).unqueue ({ fh with route := 0x3F, ftype := ftAck, srcNode := 1 }).enc [],
       FHdr.dec ({ fh with route := 0x3F, ftype := ftAck, srcNode := 1 }).enc,
       outst { fh with ftype := ftWrite, srcNode := 1 }, none, by decide +kernel⟩,
   ⟨{ { svc with cat := { svc.cat with installed := true } } with replay := [outst { fh with ftype := ftSync }] },
       ({ fh with route := 0x3F, ftype := ftAck }).enc, [],
       ({ { svc with cat := { svc.cat with installed := true } } with replay := [outst { fh with ftype := ftSync }] } : State).unqueue ({ fh with route := 0x3F, ftype := ftAck }).enc [],
       FHdr.dec ({ fh with route := 0x3F, ftype := ftAck }).enc, outst { fh with ftype := ftSync }, some [],
       by decide +kernel⟩,
   ⟨{ { svc with cat := { svc.cat with installed := true } } with replay := [outst { fh with ftype := ftWrite }] },
       ({ fh with route := 0x3F, ftype := ftAck }).enc, [],
       ({ { svc with cat := { svc.cat with installed := true } } with replay := [outst { fh with ftype := ftWrite }] } : State).unqueue ({ fh with route := 0x3F, ftype := ftAck }).enc [],
       FHdr.dec ({ fh with route := 0x3F, ftype := ftAck }).enc, outst { fh with ftype := ftWrite }, some [],
       by decide +kernel⟩,
   ⟨{ { svc with cat := { svc.cat with installed := true } } with replay := [outst { fh with ftype := ftWrite }] },
       ({ fh with route := 0x3F, ftype := ftAck, param := stDenied }).enc, [],
       ({ { svc with cat := { svc.cat with installed := true } } with replay := [outst { fh with ftype := ftWrite }] } : State).unqueue ({ fh with route := 0x3F, ftype := ftAck, param := stDenied }).enc [],
       FHdr.dec ({ fh with route := 0x3F, ftype := ftAck, param := stDenied }).enc,
       outst { fh with ftype := ftWrite }, some [], by decide +kernel⟩,
   ⟨{ { svc with cat := { svc.cat with installed := true } } with replay := [outst { fh with ftype := ftRead, srcNode := 1 }] },
       ({ fh with route := 0x3F, ftype := ftData, srcNode := 1 }).enc, (zeros 128), [],
       ({ { svc with cat := { svc.cat with installed := true } } with replay := [outst { fh with ftype := ftRead, srcNode := 1 }] } : State).unqueue ({ fh with route := 0x3F, ftype := ftData, srcNode := 1 }).enc (zeros 128),
       FHdr.dec ({ fh with route := 0x3F, ftype := ftData, srcNode := 1 }).enc,
       outst { fh with ftype := ftRead, srcNode := 1 }, none, by decide +kernel⟩,
   ⟨{ { svc with cat := { svc.cat with installed := true } } with replay := [outst { fh with ftype := ftRead }] },
       ({ fh with route := 0x3F, ftype := ftData }).enc, (zeros 128), [],
       ({ { svc with cat := { svc.cat with installed := true } } with replay := [outst { fh with ftype := ftRead }] } : State).unqueue ({ fh with route := 0x3F, ftype := ftData }).enc (zeros 128),
       FHdr.dec ({ fh with route := 0x3F, ftype := ftData }).enc, outst { fh with ftype := ftRead },
       some (zeros 128), zeros 128, by decide +kernel⟩,
   ⟨{ { svc with cat := { svc.cat with installed := true } } with replay := [outst { fh with ftype := ftSync, srcNode := 1 }] },
       ({ fh with route := 0x3F, ftype := ftValue, srcNode := 1 }).enc, (zeros 8), [],
       ({ { svc with cat := { svc.cat with installed := true } } with replay := [outst { fh with ftype := ftSync, srcNode := 1 }] } : State).unqueue ({ fh with route := 0x3F, ftype := ftValue, srcNode := 1 }).enc (zeros 8),
       FHdr.dec ({ fh with route := 0x3F, ftype := ftValue, srcNode := 1 }).enc,
       outst { fh with ftype := ftSync, srcNode := 1 }, none, by decide +kernel⟩,
   ⟨{ { svc with cat := { svc.cat with installed := true } } with replay := [outst { fh with ftype := ftSync }] },
       ({ fh with route := 0x3F, ftype := ftValue }).enc, (zeros 8), [],
       ({ { svc with cat := { svc.cat with installed := true } } with replay := [outst { fh with ftype := ftSync }] } : State).unqueue ({ fh with route := 0x3F, ftype := ftValue }).enc (zeros 8),
       FHdr.dec ({ fh with route := 0x3F, ftype := ftValue }).enc, outst { fh with ftype := ftSync },
       some (zeros 8), zeros 8, by decide +kernel⟩⟩

theorem witness_endpointPackets :
  (∃ (s : State) (p : Nat) (e : EHdr) (payload : Bytes) (tag : Bytes), (s.epAuth p e payload tag).2 ≠ none)
  ∧ (∃ (s : State) (p : Nat) (e : EHdr) (payload : Bytes) (tag : Bytes), (s.epAuth p e payload tag).2 = none)
  ∧ (∃ (s : State) (p : Port) (hdr : Header) (payload : Bytes) (tag : Bytes) (c : Instr) (op : Nat) (u : State) (plain : Bytes),
      (c, op) ∈ [(Instr.load p hdr payload tag, 1), (.store p hdr payload tag, 2), (.storeMasked p hdr payload tag,
      3), (.sync p hdr payload tag, 4), (.atomic p hdr payload tag, 6)] ∧ (EHdr.dec hdr).opcode = op
      ∧ (let e := EHdr.dec hdr; (s.takeEp p.val hdr payload).epAuth p.val e payload tag = (u, some plain) ∧ u.tagBusy p.val e.tag = true))
  ∧ (∃ (s : State) (p : Port) (hdr : Header) (payload : Bytes) (tag : Bytes) (c : Instr) (op : Nat) (u : State) (plain : Bytes),
      (c, op) ∈ [(Instr.load p hdr payload tag, 1), (.store p hdr payload tag, 2), (.storeMasked p hdr payload tag,
      3), (.sync p hdr payload tag, 4), (.atomic p hdr payload tag, 6)] ∧ (EHdr.dec hdr).opcode = op
      ∧ (let e := EHdr.dec hdr; (s.takeEp p.val hdr payload).epAuth p.val e payload tag = (u, some plain) ∧ u.tagBusy p.val e.tag = false ∧ epWellFormed e plain = false))
  ∧ (∃ (s : State) (p : Port) (hdr : Header) (payload : Bytes) (tag : Bytes) (c : Instr) (op : Nat) (u : State) (plain : Bytes) (st : Nat),
      (c, op) ∈ [(Instr.load p hdr payload tag, 1), (.store p hdr payload tag, 2), (.storeMasked p hdr payload tag,
      3), (.sync p hdr payload tag, 4), (.atomic p hdr payload tag, 6)] ∧ (EHdr.dec hdr).opcode = op
      ∧ (let e := EHdr.dec hdr; (s.takeEp p.val hdr payload).epAuth p.val e payload tag = (u, some plain) ∧ u.tagBusy p.val e.tag = false ∧ epWellFormed e plain = true ∧ u.epBinding p.val e = some st))
  ∧ (∃ (s : State) (p : Port) (hdr : Header) (payload : Bytes) (tag : Bytes) (c : Instr) (op : Nat) (u : State) (plain : Bytes),
      (c, op) ∈ [(Instr.load p hdr payload tag, 1), (.store p hdr payload tag, 2), (.storeMasked p hdr payload tag,
      3), (.sync p hdr payload tag, 4), (.atomic p hdr payload tag, 6)] ∧ (EHdr.dec hdr).opcode = op
      ∧ (let e := EHdr.dec hdr; (s.takeEp p.val hdr payload).epAuth p.val e payload tag = (u, some plain) ∧ u.tagBusy p.val e.tag = false ∧ epWellFormed e plain = true ∧ u.epBinding p.val e = none))
  ∧ (∃ (s : State) (p : Port) (hdr : Header) (payload : Bytes) (tag : Bytes) (u : State) (plain : Bytes),
      (let e := EHdr.dec hdr; epOpcodeKnown e.opcode = false ∧ (s.takeEp p.val hdr payload).epAuth p.val e payload tag = (u, some plain) ∧ u.tagBusy p.val e.tag = false ∧ (e.rsv = true ∨ e.linesM1 ≠ 0)))
  ∧ (∃ (s : State) (p : Port) (hdr : Header) (payload : Bytes) (tag : Bytes) (u : State) (plain : Bytes) (st : Nat),
      (let e := EHdr.dec hdr; epOpcodeKnown e.opcode = false ∧ (s.takeEp p.val hdr payload).epAuth p.val e payload tag = (u, some plain) ∧ u.tagBusy p.val e.tag = false ∧ e.rsv = false ∧ e.linesM1 = 0 ∧ u.epBinding p.val e = some st))
  ∧ (∃ (s : State) (p : Port) (hdr : Header) (payload : Bytes) (tag : Bytes) (u : State) (plain : Bytes),
      (let e := EHdr.dec hdr; epOpcodeKnown e.opcode = false ∧ (s.takeEp p.val hdr payload).epAuth p.val e payload tag = (u, some plain) ∧ u.tagBusy p.val e.tag = false ∧ e.rsv = false ∧ e.linesM1 = 0 ∧ u.epBinding p.val e = none))
  ∧ (∃ (s : State) (p : Port) (hdr : Header) (payload : Bytes) (tag : Bytes) (u : State) (plain : Bytes),
      (let e := EHdr.dec hdr; (s.takeEp p.val hdr payload).epAuth p.val e payload tag = (u, some plain) ∧ u.tagBusy p.val e.tag = true ∧ e.opcode = eoLaunch))
  ∧ (∃ (s : State) (p : Port) (hdr : Header) (payload : Bytes) (tag : Bytes) (u : State) (plain : Bytes),
      (let e := EHdr.dec hdr; (s.takeEp p.val hdr payload).epAuth p.val e payload tag = (u, some plain) ∧ u.tagBusy p.val e.tag = true ∧ epOpcodeKnown e.opcode = false))
  ∧ (∃ (s : State) (p : Port) (hdr : Header) (payload : Bytes) (tag : Bytes) (c : Instr) (op : Nat) (u : State) (plain : Bytes) (q : TgtReq),
      (c, op) ∈ [(Instr.tReadData p hdr payload tag, 0xC1), (.tWriteDone p hdr payload tag, 0xC2),
      (.tMaskedDone p hdr payload tag, 0xC3), (.tAtomicDone p hdr payload tag, 0xC6)] ∧ (EHdr.dec hdr).opcode = op
      ∧ (let e := EHdr.dec hdr; (s.takeEp p.val hdr payload).epAuth p.val e payload tag = (u, some plain) ∧ (((u.docent p.val).tgts.find? fun q => q.tag == e.tag) = some q) ∧ q.opcode + 0x80 = op ∧ e.word % 256 = stOk ∧ plain.length = (if q.opcode = eoTRead then 128 * (FHdr.dec q.hdr).lines else if q.opcode = eoTAtomic then 8 else 0)))
  ∧ (∃ (s : State) (p : Port) (hdr : Header) (payload : Bytes) (tag : Bytes) (c : Instr) (op : Nat) (u : State) (plain : Bytes) (q : TgtReq),
      (c, op) ∈ [(Instr.tReadData p hdr payload tag, 0xC1), (.tWriteDone p hdr payload tag, 0xC2),
      (.tMaskedDone p hdr payload tag, 0xC3), (.tAtomicDone p hdr payload tag, 0xC6)] ∧ (EHdr.dec hdr).opcode = op
      ∧ (let e := EHdr.dec hdr; (s.takeEp p.val hdr payload).epAuth p.val e payload tag = (u, some plain) ∧ (((u.docent p.val).tgts.find? fun q => q.tag == e.tag) = some q) ∧ q.opcode + 0x80 = op ∧ e.word % 256 = stAddrError))
  ∧ (∃ (s : State) (p : Port) (hdr : Header) (payload : Bytes) (tag : Bytes) (c : Instr) (op : Nat) (u : State) (plain : Bytes) (q : TgtReq),
      (c, op) ∈ [(Instr.tReadData p hdr payload tag, 0xC1), (.tWriteDone p hdr payload tag, 0xC2),
      (.tMaskedDone p hdr payload tag, 0xC3), (.tAtomicDone p hdr payload tag, 0xC6)] ∧ (EHdr.dec hdr).opcode = op
      ∧ (let e := EHdr.dec hdr; (s.takeEp p.val hdr payload).epAuth p.val e payload tag = (u, some plain) ∧ (((u.docent p.val).tgts.find? fun q => q.tag == e.tag) = some q) ∧ q.opcode + 0x80 = op ∧ e.word % 256 ≠ stOk ∧ e.word % 256 ≠ stAddrError))
  ∧ (∃ (s : State) (p : Port) (tag : BitVec 10) (q : TgtReq),
      (((s.docent p.val).tgts.find? fun q => q.tag == tag.toNat) = some q)) :=
  ⟨⟨keyed svc, 47, eh, [], tagOf eh, by rw [auth_ok (by decide +kernel)]; exact nofun⟩,
   ⟨keyed svc, 47, { eh with counter := 0 }, [], [], by decide +kernel⟩,
   ⟨{ keyed svc with ctxs := [(767, { Ctx.reset with launcher := .ep 1023 })] }, 47, (epReq 1 15 0 0), [],
       tagOf (EHdr.dec (epReq 1 15 0 0)), .load 47 (epReq 1 15 0 0) [] (tagOf (EHdr.dec (epReq 1 15 0 0))), 1,
       authed (({ keyed svc with ctxs := [(767, { Ctx.reset with launcher := .ep 1023 })] }).takeEp 47 (epReq 1 15 0 0) []) (EHdr.dec (epReq 1 15 0 0)),
       [], List.mem_cons_self, by decide +kernel, auth_ok (by decide +kernel), by decide +kernel⟩,
   ⟨keyed svc, 47, (epReq 1 15 0 1), [], tagOf (EHdr.dec (epReq 1 15 0 1)),
       .load 47 (epReq 1 15 0 1) [] (tagOf (EHdr.dec (epReq 1 15 0 1))), 1,
       authed ((keyed svc).takeEp 47 (epReq 1 15 0 1) []) (EHdr.dec (epReq 1 15 0 1)), [], List.mem_cons_self,
       by decide +kernel, auth_ok (by decide +kernel), by decide +kernel⟩,
   ⟨keyed svc, 47, (epReq 1 14 0 0), [], tagOf (EHdr.dec (epReq 1 14 0 0)),
       .load 47 (epReq 1 14 0 0) [] (tagOf (EHdr.dec (epReq 1 14 0 0))), 1,
       authed ((keyed svc).takeEp 47 (epReq 1 14 0 0) []) (EHdr.dec (epReq 1 14 0 0)), [], stDenied,
       List.mem_cons_self, by decide +kernel, auth_ok (by decide +kernel), by decide +kernel⟩,
   ⟨keyed svc, 47, (epReq 1 15 0 0), [], tagOf (EHdr.dec (epReq 1 15 0 0)),
       .load 47 (epReq 1 15 0 0) [] (tagOf (EHdr.dec (epReq 1 15 0 0))), 1,
       authed ((keyed svc).takeEp 47 (epReq 1 15 0 0) []) (EHdr.dec (epReq 1 15 0 0)), [], List.mem_cons_self,
       by decide +kernel, auth_ok (by decide +kernel), by decide +kernel⟩,
   ⟨keyed svc, 47, (epReq 0x7F 15 1 0), [], tagOf (EHdr.dec (epReq 0x7F 15 1 0)),
       authed ((keyed svc).takeEp 47 (epReq 0x7F 15 1 0) []) (EHdr.dec (epReq 0x7F 15 1 0)), [], by decide +kernel,
       auth_ok (by decide +kernel), by decide +kernel⟩,
   ⟨keyed svc, 47, (epReq 0x7F 14 0 0), [], tagOf (EHdr.dec (epReq 0x7F 14 0 0)),
       authed ((keyed svc).takeEp 47 (epReq 0x7F 14 0 0) []) (EHdr.dec (epReq 0x7F 14 0 0)), [], stDenied,
       by decide +kernel, auth_ok (by decide +kernel), by decide +kernel⟩,
   ⟨keyed svc, 47, (epReq 0x7F 15 0 0), [], tagOf (EHdr.dec (epReq 0x7F 15 0 0)),
       authed ((keyed svc).takeEp 47 (epReq 0x7F 15 0 0) []) (EHdr.dec (epReq 0x7F 15 0 0)), [], by decide +kernel,
       auth_ok (by decide +kernel), by decide +kernel⟩,
   ⟨{ keyed svc with ctxs := [(767, { Ctx.reset with launcher := .ep 1023 })] }, 47, (epReq 5 15 0 0), [],
       tagOf (EHdr.dec (epReq 5 15 0 0)),
       authed (({ keyed svc with ctxs := [(767, { Ctx.reset with launcher := .ep 1023 })] }).takeEp 47 (epReq 5 15 0 0) []) (EHdr.dec (epReq 5 15 0 0)),
       [], auth_ok (by decide +kernel), by decide +kernel⟩,
   ⟨{ keyed svc with ctxs := [(767, { Ctx.reset with launcher := .ep 1023 })] }, 47, (epReq 0x7F 15 0 0), [],
       tagOf (EHdr.dec (epReq 0x7F 15 0 0)),
       authed (({ keyed svc with ctxs := [(767, { Ctx.reset with launcher := .ep 1023 })] }).takeEp 47 (epReq 0x7F 15 0 0) []) (EHdr.dec (epReq 0x7F 15 0 0)),
       [], auth_ok (by decide +kernel), by decide +kernel⟩,
   ⟨{ keyed svc with docents := [(47, { Docent.reset with slots := [(63, { KeySlot.reset with owner := some 0, installed := true })], tgts := [{ tag := 1023, opcode := eoTWrite, hdr := ({ fh with lines := 1 }).enc, payload := [], xfer := none }] })] },
       47, (epReq 0xC2 15 0 0), [], tagOf (EHdr.dec (epReq 0xC2 15 0 0)),
       .tWriteDone 47 (epReq 0xC2 15 0 0) [] (tagOf (EHdr.dec (epReq 0xC2 15 0 0))), 0xC2,
       authed (({ keyed svc with docents := [(47, { Docent.reset with slots := [(63, { KeySlot.reset with owner := some 0, installed := true })], tgts := [{ tag := 1023, opcode := eoTWrite, hdr := ({ fh with lines := 1 }).enc, payload := [], xfer := none }] })] }).takeEp 47 (epReq 0xC2 15 0 0) []) (EHdr.dec (epReq 0xC2 15 0 0)),
       [], { tag := 1023, opcode := eoTWrite, hdr := ({ fh with lines := 1 }).enc, payload := [], xfer := none },
       by simp, by decide +kernel, auth_ok (by decide +kernel), by decide +kernel⟩,
   ⟨{ keyed svc with docents := [(47, { Docent.reset with slots := [(63, { KeySlot.reset with owner := some 0, installed := true })], tgts := [{ tag := 1023, opcode := eoTWrite, hdr := ({ fh with lines := 1 }).enc, payload := [], xfer := none }] })] },
       47, (epReq 0xC2 15 0 stAddrError), [], tagOf (EHdr.dec (epReq 0xC2 15 0 stAddrError)),
       .tWriteDone 47 (epReq 0xC2 15 0 stAddrError) [] (tagOf (EHdr.dec (epReq 0xC2 15 0 stAddrError))), 0xC2,
       authed (({ keyed svc with docents := [(47, { Docent.reset with slots := [(63, { KeySlot.reset with owner := some 0, installed := true })], tgts := [{ tag := 1023, opcode := eoTWrite, hdr := ({ fh with lines := 1 }).enc, payload := [], xfer := none }] })] }).takeEp 47 (epReq 0xC2 15 0 stAddrError) []) (EHdr.dec (epReq 0xC2 15 0 stAddrError)),
       [], { tag := 1023, opcode := eoTWrite, hdr := ({ fh with lines := 1 }).enc, payload := [], xfer := none },
       by simp, by decide +kernel, auth_ok (by decide +kernel), by decide +kernel⟩,
   ⟨{ keyed svc with docents := [(47, { Docent.reset with slots := [(63, { KeySlot.reset with owner := some 0, installed := true })], tgts := [{ tag := 1023, opcode := eoTWrite, hdr := ({ fh with lines := 1 }).enc, payload := [], xfer := none }] })] },
       47, (epReq 0xC2 15 0 stDenied), [], tagOf (EHdr.dec (epReq 0xC2 15 0 stDenied)),
       .tWriteDone 47 (epReq 0xC2 15 0 stDenied) [] (tagOf (EHdr.dec (epReq 0xC2 15 0 stDenied))), 0xC2,
       authed (({ keyed svc with docents := [(47, { Docent.reset with slots := [(63, { KeySlot.reset with owner := some 0, installed := true })], tgts := [{ tag := 1023, opcode := eoTWrite, hdr := ({ fh with lines := 1 }).enc, payload := [], xfer := none }] })] }).takeEp 47 (epReq 0xC2 15 0 stDenied) []) (EHdr.dec (epReq 0xC2 15 0 stDenied)),
       [], { tag := 1023, opcode := eoTWrite, hdr := ({ fh with lines := 1 }).enc, payload := [], xfer := none },
       by simp, by decide +kernel, auth_ok (by decide +kernel), by decide +kernel⟩,
   ⟨{ keyed svc with docents := [(47, { Docent.reset with slots := [(63, { KeySlot.reset with owner := some 0, installed := true })], tgts := [{ tag := 1023, opcode := eoTWrite, hdr := ({ fh with lines := 1 }).enc, payload := [], xfer := none }] })] },
       47, 1023,
       { tag := 1023, opcode := eoTWrite, hdr := ({ fh with lines := 1 }).enc, payload := [], xfer := none },
       by decide +kernel⟩⟩

theorem witness_fabricRequests :
  (∃ (s : State) (hdr : Header) (payload : Bytes) (tag : Bytes) (u : State) (h : FHdr) (plain : Bytes),
      s.receive ftRead hdr payload tag = (u, some (h, plain)) ∧ u.isLocal h = true
      ∧ u.destCheck { h with param := 0 } (128 * h.lines) = none
      ∧ u.badIn (vpaShelf (fpaOff h.fpa)) (128 * h.lines) = [])
  ∧ (∃ (s : State) (hdr : Header) (payload : Bytes) (tag : Bytes) (xfer : Option (Nat × Nat)) (u : State) (h : FHdr) (plain : Bytes) (c : Instr) (ft : Nat),
      (c, ft) ∈ [(Instr.write hdr payload tag xfer, ftWrite), (.zeroRun hdr payload tag xfer, ftZeroRun)]
      ∧ s.receive ft hdr payload tag = (u, some (h, plain)) ∧ (u.window h).isDup h.dseq = true)
  ∧ (∃ (s : State) (hdr : Header) (payload : Bytes) (tag : Bytes) (xfer : Option (Nat × Nat)) (u : State) (h : FHdr) (plain : Bytes) (c : Instr) (ft : Nat) (st : Nat),
      (c, ft) ∈ [(Instr.write hdr payload tag xfer, ftWrite), (.zeroRun hdr payload tag xfer, ftZeroRun)]
      ∧ s.receive ft hdr payload tag = (u, some (h, plain)) ∧ (u.window h).isDup h.dseq = false ∧ u.isLocal h = true
      ∧ u.arvWaits h xfer = false ∧ u.destCheck h (128 * h.lines) = some st)
  ∧ (∃ (s : State) (hdr : Header) (payload : Bytes) (tag : Bytes) (xfer : Option (Nat × Nat)) (u : State) (h : FHdr) (plain : Bytes),
      u.isLocal h = true ∧ (u.window h).isDup h.dseq = false ∧ u.arvWaits h xfer = false
      ∧ u.destCheck h (128 * h.lines) = none ∧ s.receive ftWrite hdr payload tag = (u, some (h, plain)))
  ∧ (∃ (s : State) (hdr : Header) (payload : Bytes) (tag : Bytes) (xfer : Option (Nat × Nat)) (u : State) (h : FHdr) (plain : Bytes),
      u.isLocal h = true ∧ (u.window h).isDup h.dseq = false ∧ u.arvWaits h xfer = false
      ∧ u.destCheck h (128 * h.lines) = none ∧ s.receive ftZeroRun hdr payload tag = (u, some (h, plain)))
  ∧ (∃ (s : State) (hdr : Header) (payload : Bytes) (tag : Bytes) (xfer : Option (Nat × Nat)) (u : State) (h : FHdr) (plain : Bytes) (v : State),
      u.isLocal h = true ∧ (u.window h).isDup h.dseq = false ∧ u.arvWaits h xfer = false
      ∧ u.destCheck h (128 * h.lines) = none ∧ h.lines = 1 ∧ s.receive ftWriteMasked hdr payload tag = (u, some (h,
      plain))
      ∧ u.shelfMasked (vpaShelf (fpaOff h.fpa)) (sliceB (sliceB plain 0 144) 0 16) (sliceB (sliceB plain 0 144) 16 128) = (v,
      true))
  ∧ (∃ (h : FHdr), h.param / 32768 % 2 ≠ 1)
  ∧ (∃ (h : FHdr), h.param / 32768 % 2 = 1)
  ∧ (∃ (s : State) (hdr : Header) (payload : Bytes) (tag : Bytes) (u : State) (h : FHdr) (plain : Bytes),
      s.receive ftSync hdr payload tag = (u, some (h, plain)) ∧ (u.window h).isDup h.dseq = false
      ∧ h.dseq ∉ (u.window h).withdrawn ∧ u.isLocal h = true ∧ soOfOffset (fpaOff h.fpa) = none)
  ∧ (∃ (s : State) (hdr : Header) (payload : Bytes) (tag : Bytes) (u : State) (h : FHdr) (plain : Bytes) (n : Nat),
      s.receive ftSync hdr payload tag = (u, some (h, plain)) ∧ (u.window h).isDup h.dseq = false
      ∧ h.dseq ∉ (u.window h).withdrawn ∧ u.isLocal h = true ∧ soOfOffset (fpaOff h.fpa) = some n
      ∧ u.soOwned n h.gallery = false)
  ∧ (∃ (s : State) (hdr : Header) (payload : Bytes) (tag : Bytes) (u : State) (h : FHdr) (plain : Bytes) (n : Nat),
      s.receive ftSync hdr payload tag = (u, some (h, plain)) ∧ (u.window h).isDup h.dseq = false
      ∧ h.dseq ∉ (u.window h).withdrawn ∧ u.isLocal h = true ∧ soOfOffset (fpaOff h.fpa) = some n
      ∧ u.soOwned n h.gallery = true ∧ (let sub := getLe plain 16 8 % 256; sub = soRead))
  ∧ (∃ (s : State) (hdr : Header) (payload : Bytes) (tag : Bytes) (u : State) (h : FHdr) (plain : Bytes) (n : Nat),
      s.receive ftSync hdr payload tag = (u, some (h, plain)) ∧ (u.window h).isDup h.dseq = false
      ∧ h.dseq ∉ (u.window h).withdrawn ∧ u.isLocal h = true ∧ soOfOffset (fpaOff h.fpa) = some n
      ∧ u.soOwned n h.gallery = true ∧ (let sub := getLe plain 16 8 % 256; sub = soWaitGe))
  ∧ (∃ (s : State) (hdr : Header) (payload : Bytes) (tag : Bytes) (u : State) (h : FHdr) (plain : Bytes) (n : Nat),
      s.receive ftSync hdr payload tag = (u, some (h, plain)) ∧ (u.window h).isDup h.dseq = false
      ∧ h.dseq ∉ (u.window h).withdrawn ∧ u.isLocal h = true ∧ soOfOffset (fpaOff h.fpa) = some n
      ∧ u.soOwned n h.gallery = true ∧ (let sub := getLe plain 16 8 % 256; sub = soWaitEq))
  ∧ (∃ (s : State) (hdr : Header) (payload : Bytes) (tag : Bytes) (u : State) (h : FHdr) (plain : Bytes) (n : Nat),
      s.receive ftSync hdr payload tag = (u, some (h, plain)) ∧ (u.window h).isDup h.dseq = false
      ∧ h.dseq ∉ (u.window h).withdrawn ∧ u.isLocal h = true ∧ soOfOffset (fpaOff h.fpa) = some n
      ∧ u.soOwned n h.gallery = true
      ∧ (let sub := getLe plain 16 8 % 256; sub ≠ soRead ∧ sub ≠ soWaitGe ∧ sub ≠ soWaitEq))
  ∧ (∃ (s : State) (hdr : Header) (payload : Bytes) (tag : Bytes) (u : State) (h : FHdr) (plain : Bytes),
      s.receive ftAtomic hdr payload tag = (u, some (h, plain)) ∧ (u.window h).isDup h.dseq = false
      ∧ u.isLocal h = true ∧ u.ctl.state = .service ∧ u.ctl.atomicsStopped = false
      ∧ u.destCheck { h with param := 0 } 8 = none ∧ u.badIn (vpaShelf (fpaOff h.fpa)) 8 = [])
  ∧ (∃ (s : State) (hdr : Header) (payload : Bytes) (tag : Bytes) (u : State) (h : FHdr) (plain : Bytes),
      s.receive ftAtomic hdr payload tag = (u, some (h, plain)) ∧ (u.window h).isDup h.dseq = false
      ∧ u.isLocal h = true ∧ u.ctl.state ≠ .service)
  ∧ (∃ (s : State) (k : FabPkt) (b : Bytes), Arrives s ftWithdraw k b)
  ∧ (∃ (s : State) (node : Nat) (port : Nat) (dseq : Nat),
      (let mine (w : Waiter) : Bool := w.srcNode == node && w.srcPort == port && w.dseq == dseq; (∃ o, o ∈ s.sos ∧ ∃ w, w ∈ o.2.waiters ∧ mine w = true)))
  ∧ (∃ (s : State) (node : Nat) (port : Nat) (dseq : Nat),
      (let mine (w : Waiter) : Bool := w.srcNode == node && w.srcPort == port && w.dseq == dseq; (¬ ∃ o, o ∈ s.sos ∧ ∃ w, w ∈ o.2.waiters ∧ mine w = true) ∧ (Tab.get DupWin.reset s.windows (winKey node port)).isDup dseq = false))
  ∧ (∃ (s : State) (so : SoNo) (idx : Nat) (w : Waiter), (s.so so.toNat).waiters[idx]? = some w ∧ w.timeout ≠ 0) :=
  ⟨⟨{ banked (withGal svc 1 { Gallery.reset with state := .active, extents := [(3, { Extent.reset with en := true, ready := true, size := 1 })] }) [] with sos := [(16383, { SyncObj.reset with owner := some 1 })] },
      ({ fh with ftype := ftRead, lines := 1, gallery := 1 }).enc, [], [],
      ({ banked (withGal svc 1 { Gallery.reset with state := .active, extents := [(3, { Extent.reset with en := true, ready := true, size := 1 })] }) [] with sos := [(16383, { SyncObj.reset with owner := some 1 })] } : State).unqueue (({ fh with ftype := ftRead, lines := 1, gallery := 1 }).enc) [],
      FHdr.dec (({ fh with ftype := ftRead, lines := 1, gallery := 1 }).enc), [], by decide +kernel⟩,
   ⟨{ banked (withGal svc 1 { Gallery.reset with state := .active, extents := [(3, { Extent.reset with en := true, ready := true, size := 1 })] }) [] with windows := [(winKey 0 0, { DupWin.reset with floor := 1 })], sos := [(16383, { SyncObj.reset with owner := some 1 })] },
       ({ fh with ftype := ftZeroRun, lines := 1, gallery := 1 }).enc, [], [], none,
       ({ banked (withGal svc 1 { Gallery.reset with state := .active, extents := [(3, { Extent.reset with en := true, ready := true, size := 1 })] }) [] with windows := [(winKey 0 0, { DupWin.reset with floor := 1 })], sos := [(16383, { SyncObj.reset with owner := some 1 })] } : State).unqueue (({ fh with ftype := ftZeroRun, lines := 1, gallery := 1 }).enc) [],
       FHdr.dec (({ fh with ftype := ftZeroRun, lines := 1, gallery := 1 }).enc), [],
       .zeroRun (({ fh with ftype := ftZeroRun, lines := 1, gallery := 1 }).enc) [] [] none, ftZeroRun,
       by decide +kernel⟩,
   ⟨{ banked (withGal svc 1 { Gallery.reset with state := .active, extents := [(3, { Extent.reset with en := true, ready := true, size := 1 })] }) [] with sos := [(16383, { SyncObj.reset with owner := some 1 })] },
       ({ fh with ftype := ftZeroRun, lines := 1, gallery := 1, fpa := 0x7000000000 }).enc, [], [], none,
       ({ banked (withGal svc 1 { Gallery.reset with state := .active, extents := [(3, { Extent.reset with en := true, ready := true, size := 1 })] }) [] with sos := [(16383, { SyncObj.reset with owner := some 1 })] } : State).unqueue (({ fh with ftype := ftZeroRun, lines := 1, gallery := 1, fpa := 0x7000000000 }).enc) [],
       FHdr.dec (({ fh with ftype := ftZeroRun, lines := 1, gallery := 1, fpa := 0x7000000000 }).enc), [],
       .zeroRun (({ fh with ftype := ftZeroRun, lines := 1, gallery := 1, fpa := 0x7000000000 }).enc) [] [] none,
       ftZeroRun, stAddrError, by decide +kernel⟩,
   ⟨{ banked (withGal svc 1 { Gallery.reset with state := .active, extents := [(3, { Extent.reset with en := true, ready := true, size := 1 })] }) [] with sos := [(16383, { SyncObj.reset with owner := some 1 })] },
       ({ fh with ftype := ftWrite, lines := 1, gallery := 1 }).enc, (zeros 128), [], none,
       ({ banked (withGal svc 1 { Gallery.reset with state := .active, extents := [(3, { Extent.reset with en := true, ready := true, size := 1 })] }) [] with sos := [(16383, { SyncObj.reset with owner := some 1 })] } : State).unqueue (({ fh with ftype := ftWrite, lines := 1, gallery := 1 }).enc) (zeros 128),
       FHdr.dec (({ fh with ftype := ftWrite, lines := 1, gallery := 1 }).enc), (zeros 128), by decide +kernel⟩,
   ⟨{ banked (withGal svc 1 { Gallery.reset with state := .active, extents := [(3, { Extent.reset with en := true, ready := true, size := 1 })] }) [] with sos := [(16383, { SyncObj.reset with owner := some 1 })] },
       ({ fh with ftype := ftZeroRun, lines := 1, gallery := 1 }).enc, [], [], none,
       ({ banked (withGal svc 1 { Gallery.reset with state := .active, extents := [(3, { Extent.reset with en := true, ready := true, size := 1 })] }) [] with sos := [(16383, { SyncObj.reset with owner := some 1 })] } : State).unqueue (({ fh with ftype := ftZeroRun, lines := 1, gallery := 1 }).enc) [],
       FHdr.dec (({ fh with ftype := ftZeroRun, lines := 1, gallery := 1 }).enc), [], by decide +kernel⟩,
   ⟨{ banked (withGal svc 1 { Gallery.reset with state := .active, extents := [(3, { Extent.reset with en := true, ready := true, size := 1 })] }) [] with sos := [(16383, { SyncObj.reset with owner := some 1 })] },
       ({ fh with ftype := ftWriteMasked, lines := 1, gallery := 1 }).enc, (zeros 144), [], none,
       ({ banked (withGal svc 1 { Gallery.reset with state := .active, extents := [(3, { Extent.reset with en := true, ready := true, size := 1 })] }) [] with sos := [(16383, { SyncObj.reset with owner := some 1 })] } : State).unqueue (({ fh with ftype := ftWriteMasked, lines := 1, gallery := 1 }).enc) (zeros 144),
       FHdr.dec (({ fh with ftype := ftWriteMasked, lines := 1, gallery := 1 }).enc), (zeros 144),
       ((({ banked (withGal svc 1 { Gallery.reset with state := .active, extents := [(3, { Extent.reset with en := true, ready := true, size := 1 })] }) [] with sos := [(16383, { SyncObj.reset with owner := some 1 })] } : State).unqueue (({ fh with ftype := ftWriteMasked, lines := 1, gallery := 1 }).enc) (zeros 144)).shelfMasked (vpaShelf 0) (zeros 16) (zeros 128)).1,
       by decide +kernel⟩,
   ⟨fh, by decide +kernel⟩,
   ⟨{ fh with param := 0x8000 }, by decide +kernel⟩,
   ⟨{ banked (withGal svc 1 { Gallery.reset with state := .active, extents := [(3, { Extent.reset with en := true, ready := true, size := 1 })] }) [] with sos := [(16383, { SyncObj.reset with owner := some 1 })] },
       ({ fh with ftype := ftSync, lines := 1, gallery := 1 }).enc, [], [],
       ({ banked (withGal svc 1 { Gallery.reset with state := .active, extents := [(3, { Extent.reset with en := true, ready := true, size := 1 })] }) [] with sos := [(16383, { SyncObj.reset with owner := some 1 })] } : State).unqueue (({ fh with ftype := ftSync, lines := 1, gallery := 1 }).enc) [],
       FHdr.dec (({ fh with ftype := ftSync, lines := 1, gallery := 1 }).enc), [], by decide +kernel⟩,
   ⟨{ banked (withGal svc 1 { Gallery.reset with state := .active, extents := [(3, { Extent.reset with en := true, ready := true, size := 1 })] }) [] with sos := [(16383, { SyncObj.reset with owner := some 1 })] },
       ({ fh with ftype := ftSync, lines := 1, gallery := 1, fpa := 0x80000000003F0 }).enc, [], [],
       ({ banked (withGal svc 1 { Gallery.reset with state := .active, extents := [(3, { Extent.reset with en := true, ready := true, size := 1 })] }) [] with sos := [(16383, { SyncObj.reset with owner := some 1 })] } : State).unqueue (({ fh with ftype := ftSync, lines := 1, gallery := 1, fpa := 0x80000000003F0 }).enc) [],
       FHdr.dec (({ fh with ftype := ftSync, lines := 1, gallery := 1, fpa := 0x80000000003F0 }).enc), [], 63,
       by decide +kernel⟩,
   ⟨{ banked (withGal svc 1 { Gallery.reset with state := .active, extents := [(3, { Extent.reset with en := true, ready := true, size := 1 })] }) [] with sos := [(16383, { SyncObj.reset with owner := some 1 })] },
       ({ fh with ftype := ftSync, lines := 1, gallery := 1, fpa := 0x800000003FFF0 }).enc,
       (zeros 16 ++ natLe 8 soRead), [],
       ({ banked (withGal svc 1 { Gallery.reset with state := .active, extents := [(3, { Extent.reset with en := true, ready := true, size := 1 })] }) [] with sos := [(16383, { SyncObj.reset with owner := some 1 })] } : State).unqueue (({ fh with ftype := ftSync, lines := 1, gallery := 1, fpa := 0x800000003FFF0 }).enc) (zeros 16 ++ natLe 8 soRead),
       FHdr.dec (({ fh with ftype := ftSync, lines := 1, gallery := 1, fpa := 0x800000003FFF0 }).enc),
       (zeros 16 ++ natLe 8 soRead), 16383, by decide +kernel⟩,
   ⟨{ banked (withGal svc 1 { Gallery.reset with state := .active, extents := [(3, { Extent.reset with en := true, ready := true, size := 1 })] }) [] with sos := [(16383, { SyncObj.reset with owner := some 1 })] },
       ({ fh with ftype := ftSync, lines := 1, gallery := 1, fpa := 0x800000003FFF0 }).enc,
       (zeros 16 ++ natLe 8 soWaitGe), [],
       ({ banked (withGal svc 1 { Gallery.reset with state := .active, extents := [(3, { Extent.reset with en := true, ready := true, size := 1 })] }) [] with sos := [(16383, { SyncObj.reset with owner := some 1 })] } : State).unqueue (({ fh with ftype := ftSync, lines := 1, gallery := 1, fpa := 0x800000003FFF0 }).enc) (zeros 16 ++ natLe 8 soWaitGe),
       FHdr.dec (({ fh with ftype := ftSync, lines := 1, gallery := 1, fpa := 0x800000003FFF0 }).enc),
       (zeros 16 ++ natLe 8 soWaitGe), 16383, by decide +kernel⟩,
   ⟨{ banked (withGal svc 1 { Gallery.reset with state := .active, extents := [(3, { Extent.reset with en := true, ready := true, size := 1 })] }) [] with sos := [(16383, { SyncObj.reset with owner := some 1 })] },
       ({ fh with ftype := ftSync, lines := 1, gallery := 1, fpa := 0x800000003FFF0 }).enc,
       (zeros 16 ++ natLe 8 soWaitEq), [],
       ({ banked (withGal svc 1 { Gallery.reset with state := .active, extents := [(3, { Extent.reset with en := true, ready := true, size := 1 })] }) [] with sos := [(16383, { SyncObj.reset with owner := some 1 })] } : State).unqueue (({ fh with ftype := ftSync, lines := 1, gallery := 1, fpa := 0x800000003FFF0 }).enc) (zeros 16 ++ natLe 8 soWaitEq),
       FHdr.dec (({ fh with ftype := ftSync, lines := 1, gallery := 1, fpa := 0x800000003FFF0 }).enc),
       (zeros 16 ++ natLe 8 soWaitEq), 16383, by decide +kernel⟩,
   ⟨{ banked (withGal svc 1 { Gallery.reset with state := .active, extents := [(3, { Extent.reset with en := true, ready := true, size := 1 })] }) [] with sos := [(16383, { SyncObj.reset with owner := some 1 })] },
       ({ fh with ftype := ftSync, lines := 1, gallery := 1, fpa := 0x800000003FFF0 }).enc,
       (zeros 16 ++ natLe 8 soAdd), [],
       ({ banked (withGal svc 1 { Gallery.reset with state := .active, extents := [(3, { Extent.reset with en := true, ready := true, size := 1 })] }) [] with sos := [(16383, { SyncObj.reset with owner := some 1 })] } : State).unqueue (({ fh with ftype := ftSync, lines := 1, gallery := 1, fpa := 0x800000003FFF0 }).enc) (zeros 16 ++ natLe 8 soAdd),
       FHdr.dec (({ fh with ftype := ftSync, lines := 1, gallery := 1, fpa := 0x800000003FFF0 }).enc),
       (zeros 16 ++ natLe 8 soAdd), 16383, by decide +kernel⟩,
   ⟨{ banked (withGal svc 1 { Gallery.reset with state := .active, extents := [(3, { Extent.reset with en := true, ready := true, size := 1 })] }) [] with sos := [(16383, { SyncObj.reset with owner := some 1 })] },
       ({ fh with ftype := ftAtomic, lines := 1, gallery := 1 }).enc, [], [],
       ({ banked (withGal svc 1 { Gallery.reset with state := .active, extents := [(3, { Extent.reset with en := true, ready := true, size := 1 })] }) [] with sos := [(16383, { SyncObj.reset with owner := some 1 })] } : State).unqueue (({ fh with ftype := ftAtomic, lines := 1, gallery := 1 }).enc) [],
       FHdr.dec (({ fh with ftype := ftAtomic, lines := 1, gallery := 1 }).enc), [], by decide +kernel⟩,
   ⟨{ banked (withGal opn 1 { Gallery.reset with state := .active, extents := [(3, { Extent.reset with en := true, ready := true, size := 1 })] }) [] with sos := [(16383, { SyncObj.reset with owner := some 1 })] },
       ({ fh with ftype := ftAtomic, lines := 1, gallery := 1 }).enc, [], [],
       ({ banked (withGal opn 1 { Gallery.reset with state := .active, extents := [(3, { Extent.reset with en := true, ready := true, size := 1 })] }) [] with sos := [(16383, { SyncObj.reset with owner := some 1 })] } : State).unqueue (({ fh with ftype := ftAtomic, lines := 1, gallery := 1 }).enc) [],
       FHdr.dec (({ fh with ftype := ftAtomic, lines := 1, gallery := 1 }).enc), [], by decide +kernel⟩,
   ⟨{ svc with cat := { svc.cat with installed := true } }, pkt { fh with ftype := ftWithdraw } [], [],
       by simp only [Arrives]; decide +kernel⟩,
   ⟨{ svc with sos := [(7, { SyncObj.reset with waiters := [{ gal := 0, eq := false, operand := 1, timeout := 1, hdr := 0, srcNode := 1, srcPort := 2, dseq := 3 }] })] },
       1, 2, 3, by decide +kernel⟩,
   ⟨svc, 1, 2, 3, by decide +kernel⟩,
   ⟨{ svc with sos := [(7, { SyncObj.reset with waiters := [{ gal := 0, eq := false, operand := 1, timeout := 1, hdr := 0, srcNode := 1, srcPort := 2, dseq := 3 }] })] },
       7, 0, { gal := 0, eq := false, operand := 1, timeout := 1, hdr := 0, srcNode := 1, srcPort := 2, dseq := 3 },
       by decide +kernel⟩⟩

theorem witness_tourInstructions :
  (∃ (n : Nat), n ≠ 0)
  ∧ (∃ (n : Nat) (m : Nat), m ≠ n)
  ∧ (∃ (s : State) (p : Port) (c : CtxNo) (t : TInstr) (i : Instr) (op : Nat) (k : OpKind), (i, op,
      k) ∈ [(Instr.copy p c, 0x10, OpKind.copy), (.gather p c, 0x11, .gather), (.scatter p c, 0x12, .scatter),
      (.mcast p c, 0x18, .mcast)] ∧ s.issuing p c op = some t
      ∧ (let g := ctxIdx p.val c.val; s.bulkCheck g t false = none))
  ∧ (∃ (s : State) (p : Port) (c : CtxNo) (t : TInstr) (i : Instr) (op : Nat) (k : OpKind) (st : Nat), (i, op,
      k) ∈ [(Instr.copy p c, 0x10, OpKind.copy), (.gather p c, 0x11, .gather), (.scatter p c, 0x12, .scatter),
      (.mcast p c, 0x18, .mcast)] ∧ s.issuing p c op = some t
      ∧ (let g := ctxIdx p.val c.val; s.bulkCheck g t false = some st))
  ∧ (∃ (s : State) (p : Port) (c : CtxNo) (t : TInstr) (i : Instr) (op : Nat) (k : OpKind) (id : Nat) (x : Sched) (r : Nat),
      (i, op, k) ∈ [(Instr.reduce p c, 0x20, OpKind.reduce), (.dispatch p c, 0x28, .dispatch), (.combine p c, 0x29,
      .combine)] ∧ s.issuing p c op = some t
      ∧ (let g := ctxIdx p.val c.val; s.bulkCheck g t true = none ∧ s.queueRoom g = true ∧ s.memberOf p.val (s.ctx g).gal (Op.start s g t k).sched k = (id, some (x, r))))
  ∧ (∃ (s : State) (p : Port) (c : CtxNo) (t : TInstr),
      (let g := ctxIdx p.val c.val; s.issuing p c 0x30 = some t ∧ t.flags = 1 ∧ t.rb = 0 ∧ t.rc = 0 ∧ t.rd = 0 ∧ t.imm = 0 ∧ t.ext % 16 = 0 ∧ s.queueRoom g = true))
  ∧ (∃ (s : State) (p : Port) (c : CtxNo) (t : TInstr) (u : State) (r : Option Nat),
      (let g := ctxIdx p.val c.val; (let x := s.ctx g; s.issuing p c 0x31 = some t ∧ t.flags / 128 = 0 ∧ t.flags / 2 % 16 = 0 ∧ t.scope ≠ 3 ∧ t.rb = 0 ∧ t.rc = 0 ∧ t.ext % 16 = 0 ∧ (s.blockOn g (.wait t.rd t.scope)).request (g / 16) (.wait g) none x.gal ftSync 0 0 t.ext 0 (syncPayload (x.reg t.ra) 0 ((if t.flags % 2 = 1 then soWaitEq else soWaitGe) + 256 * t.imm)) none = (u, r))))
  ∧ (∃ (s : State) (p : Port) (c : CtxNo) (t : TInstr), s.issuing p c 0x38 = some t ∧ t.flags % 32 = 0
      ∧ t.flags / 128 = 0 ∧ t.scope ≠ 3 ∧ t.ra = 0 ∧ t.rb = 0 ∧ t.rc = 0 ∧ t.rd = 0 ∧ t.imm = 0 ∧ t.ext = 0)
  ∧ (∃ (s : State) (p : Port) (c : CtxNo) (t : TInstr) (i : Instr) (op : Nat) (drop : Bool),
      (let g := ctxIdx p.val c.val; (let x := s.ctx g; (i, op, drop) ∈ [(Instr.flush p c, 0x39, false), (.inval p c, 0x3A, true)] ∧ s.issuing p c op = some t ∧ t.flags = 0 ∧ t.rb = 0 ∧ t.rc = 0 ∧ t.rd = 0 ∧ x.addr t.ra t.imm % 128 = 0 ∧ fvaOk (x.addr t.ra t.imm) = true ∧ t.ext % 128 = 0)))
  ∧ (∃ (s : State) (p : Port) (c : CtxNo) (t : TInstr),
      (let g := ctxIdx p.val c.val; (let x := s.ctx g; s.issuing p c 0x40 = some t ∧ (t.rd ≠ 0 ∧ (t.rd = t.ra ∨ t.rd = t.rb) ∨ t.imm = 0 ∨ x.pc < t.imm))))
  ∧ (∃ (s : State) (p : Port) (c : CtxNo) (t : TInstr),
      (let g := ctxIdx p.val c.val; (let x := s.ctx g; s.issuing p c 0x40 = some t ∧ t.flags = 0 ∧ t.rc = 0 ∧ (t.rd ≠ t.ra ∧ t.rd ≠ t.rb ∨ t.rd = 0) ∧ t.imm ≠ 0 ∧ t.imm ≤ x.pc ∧ x.reg t.rd = 0)))
  ∧ (∃ (s : State) (p : Port) (c : CtxNo) (t : TInstr),
      (let g := ctxIdx p.val c.val; (let x := s.ctx g; s.issuing p c 0x40 = some t ∧ t.flags = 0 ∧ t.rc = 0 ∧ (t.rd ≠ t.ra ∧ t.rd ≠ t.rb ∨ t.rd = 0) ∧ t.imm ≠ 0 ∧ t.imm ≤ x.pc ∧ x.reg t.rd = 1)))
  ∧ (∃ (s : State) (p : Port) (c : CtxNo) (t : TInstr),
      (let g := ctxIdx p.val c.val; (let x := s.ctx g; s.issuing p c 0x40 = some t ∧ t.flags = 0 ∧ t.rc = 0 ∧ (t.rd ≠ t.ra ∧ t.rd ≠ t.rb ∨ t.rd = 0) ∧ t.imm ≠ 0 ∧ t.imm ≤ x.pc ∧ 2 ≤ x.reg t.rd)))
  ∧ (∃ (s : State) (p : Port) (c : CtxNo) (t : TInstr), s.issuing p c 0x41 = some t ∧ t.flags = 0 ∧ t.ra = 0
      ∧ t.rb = 0 ∧ t.rc = 0 ∧ t.rd = 0 ∧ t.ext = 0)
  ∧ (∃ (s : State) (p : Port) (c : CtxNo) (t : TInstr),
      (let g := ctxIdx p.val c.val; (let x := s.ctx g; s.issuing p c 0x50 = some t ∧ t.flags < 8 ∧ atomicSubopOk t.flags = true ∧ (t.flags = soCas ∨ t.rc = 0) ∧ t.ext = 0 ∧ x.addr t.rb t.imm % 8 = 0 ∧ fvaOk (x.addr t.rb t.imm) = true ∧ s.ctl.state = .service ∧ s.ctl.atomicsStopped = false)))
  ∧ (∃ (s : State) (p : Port) (c : CtxNo) (t : TInstr),
      (let g := ctxIdx p.val c.val; (let x := s.ctx g; s.issuing p c 0x50 = some t ∧ t.flags < 8 ∧ atomicSubopOk t.flags = true ∧ (t.flags = soCas ∨ t.rc = 0) ∧ t.ext = 0 ∧ x.addr t.rb t.imm % 8 = 0 ∧ fvaOk (x.addr t.rb t.imm) = true ∧ s.ctl.state ≠ .service)))
  ∧ (∃ (s : State) (p : Port) (c : CtxNo) (t : TInstr),
      (let g := ctxIdx p.val c.val; (let x := s.ctx g; x.state = .active ∧ x.instrAt x.pc = some t ∧ tourOpcodeKnown t.op = false))) :=
  ⟨⟨15, by decide +kernel⟩,
   ⟨15, 14, by decide +kernel⟩,
   ⟨touring svc { ti with op := 0x18 } [], 47, 15, { ti with op := 0x18 }, .mcast 47 15, 0x18, .mcast,
       by decide +kernel⟩,
   ⟨touring svc { ti with op := 0x11, flags := 0x80 } [], 47, 15, { ti with op := 0x11, flags := 0x80 },
       .gather 47 15, 0x11, .gather, stDenied, by decide +kernel⟩,
   ⟨touring (banked svc schedule) { ti with op := 0x20, ext := 0x50000 } [], 47, 15,
       { ti with op := 0x20, ext := 0x50000 }, .reduce 47 15, 0x20, .reduce, 5, sched5, 0, by decide +kernel⟩,
   ⟨touring svc { ti with op := 0x30, flags := 1 } [], 47, 15, { ti with op := 0x30, flags := 1 },
       by decide +kernel⟩,
   ⟨touring svc { ti with op := 0x31 } [], 47, 15, { ti with op := 0x31 }, _, _, by decide +kernel, by decide,
       by decide, by decide, by decide, by decide, by decide, (Prod.eta _).symm⟩,
   ⟨touring svc { ti with op := 0x38 } [], 47, 15, { ti with op := 0x38 }, by decide +kernel⟩,
   ⟨touring svc { ti with op := 0x3A } [], 47, 15, { ti with op := 0x3A }, .inval 47 15, 0x3A, true,
       by decide +kernel⟩,
   ⟨touring svc { ti with op := 0x40, rd := 15, rb := 15, imm := 1 } [], 47, 15,
       { ti with op := 0x40, rd := 15, rb := 15, imm := 1 }, by decide +kernel⟩,
   ⟨touring svc { ti with op := 0x40, imm := 8, rd := 3 } [], 47, 15, { ti with op := 0x40, imm := 8, rd := 3 },
       by decide +kernel⟩,
   ⟨touring svc { ti with op := 0x40, imm := 8, rd := 3 } [(3, 1)], 47, 15,
       { ti with op := 0x40, imm := 8, rd := 3 }, by decide +kernel⟩,
   ⟨touring svc { ti with op := 0x40, imm := 8, rd := 3 } [(3, 2)], 47, 15,
       { ti with op := 0x40, imm := 8, rd := 3 }, by decide +kernel⟩,
   ⟨touring svc { ti with op := 0x41 } [], 47, 15, { ti with op := 0x41 }, by decide +kernel⟩,
   ⟨touring svc { ti with op := 0x50, flags := 1 } [], 47, 15, { ti with op := 0x50, flags := 1 },
       by decide +kernel⟩,
   ⟨touring opn { ti with op := 0x50, flags := 1 } [], 47, 15, { ti with op := 0x50, flags := 1 },
       by decide +kernel⟩,
   ⟨touring svc { ti with op := 0 } [], 47, 15, { ti with op := 0 }, by decide +kernel⟩⟩

theorem witness_tourEvents :
  (∃ (s : State) (p : Port) (hdr : Header) (payload : Bytes) (tag : Bytes) (u : State) (plain : Bytes),
      (let e := EHdr.dec hdr; e.opcode = eoLaunch ∧ (s.takeEp p.val hdr payload).epAuth p.val e payload tag = (u, some plain) ∧ u.tagBusy p.val e.tag = false ∧ epWellFormed e plain = true ∧ u.epBinding p.val e = none ∧ (let g := ctxIdx p.val e.ctx; u.launchBusy g = true)))
  ∧ (∃ (s : State) (p : Port) (hdr : Header) (payload : Bytes) (tag : Bytes) (u : State) (plain : Bytes),
      (let e := EHdr.dec hdr; e.opcode = eoLaunch ∧ (s.takeEp p.val hdr payload).epAuth p.val e payload tag = (u, some plain) ∧ u.tagBusy p.val e.tag = false ∧ epWellFormed e plain = true ∧ u.epBinding p.val e = none ∧ (let g := ctxIdx p.val e.ctx; u.launchBusy g = false)))
  ∧ (∃ (s : State) (p : Port) (a : Nat × Ctx),
      ((s.ctxs.find? fun c => c.1 / 16 == p.val && c.2.state == .active) = some a)
      ∧ ((s.ctxs.any fun c => c.1 / 16 == p.val && c.2.state == .ready) = true))
  ∧ (∃ (s : State) (p : Port) (c : CtxNo) (k : Nat) (what : Fetched) (u : State), isLine what = true
      ∧ s.takeRead (.tourLine (ctxIdx p.val c.val) k) = (u, true))
  ∧ (∃ (s : State) (p : Port) (c : CtxNo) (k : Nat) (what : Fetched) (u : State), isLine what = true
      ∧ s.takeRead (.descRead (ctxIdx p.val c.val) k) = (u, true))
  ∧ (∃ (s : State) (p : Port) (c : CtxNo) (o : Op) (os : List Op),
      (let g := ctxIdx p.val c.val; (s.ctx g).ops = o :: os ∧ o.phase = .done stOk))
  ∧ (∃ (s : State) (p : Port) (c : CtxNo),
      (let g := ctxIdx p.val c.val; (s.ctx g).state = .ending ∧ (s.ctx g).ops = [] ∧ (s.ctx g).endRec = 0 ∧ (s.ctx g).endFva = 0))
  ∧ (∃ (s : State) (p : Port) (c : CtxNo),
      (let g := ctxIdx p.val c.val; (s.ctx g).state = .ending ∧ (s.ctx g).ops = [] ∧ (s.ctx g).endRec = 0 ∧ (s.ctx g).endFva ≠ 0))
  ∧ (∃ (s : State) (p : Port) (c : CtxNo) (scope : Nat),
      (let g := ctxIdx p.val c.val; (s.ctx g).block = .fence scope ∧ (s.ctx g).ops = [] ∧ (∀ o, o ∈ s.replay ++ s.held → o.origin.ofCtx g = false) ∧ g ∉ s.lostFor))
  ∧ (∃ (s : State) (p : Port) (c : CtxNo) (scope : Nat),
      (let g := ctxIdx p.val c.val; (s.ctx g).block = .fence scope ∧ (s.ctx g).ops = [] ∧ (∀ o, o ∈ s.replay ++ s.held → o.origin.ofCtx g = false) ∧ g ∈ s.lostFor))
  ∧ (∃ (s : State) (p : Port) (c : CtxNo) (base : Nat) (len : Nat),
      (let g := ctxIdx p.val c.val; (s.ctx g).block = .flush false base len true stOk ∧ s.replay = [] ∧ s.held = [])) :=
  ⟨⟨{ keyed svc with ctxs := [(767, { Ctx.reset with bound := true, state := .active })] }, 47, launchReq, [],
      tagOf (EHdr.dec launchReq),
      authed (({ keyed svc with ctxs := [(767, { Ctx.reset with bound := true, state := .active })] }).takeEp 47 launchReq []) (EHdr.dec launchReq),
      [], by decide +kernel, auth_ok (by decide +kernel), by decide +kernel⟩,
   ⟨{ keyed svc with ctxs := [(767, { Ctx.reset with bound := true, state := .idle })] }, 47, launchReq, [],
       tagOf (EHdr.dec launchReq),
       authed (({ keyed svc with ctxs := [(767, { Ctx.reset with bound := true, state := .idle })] }).takeEp 47 launchReq []) (EHdr.dec launchReq),
       [], by decide +kernel, auth_ok (by decide +kernel), by decide +kernel⟩,
   ⟨{ svc with ctxs := [(766, { Ctx.reset with state := .active }), (767, { Ctx.reset with state := .ready })] },
       47, (766, { Ctx.reset with state := .active }), by decide +kernel⟩,
   ⟨{ svc with replay := [{ outst fh with origin := .tourLine 767 3 }] }, 47, 15, 3, .data (zeros 128),
       { svc with replay := [] }, by decide +kernel⟩,
   ⟨{ svc with replay := [{ outst fh with origin := .descRead 767 3 }] }, 47, 15, 3, .data (zeros 128),
       { svc with replay := [] }, by decide +kernel⟩,
   ⟨serving { memberOf .copy Coll.start with phase := .done stOk }, 47, 15,
       { memberOf .copy Coll.start with phase := .done stOk }, [], by decide +kernel⟩,
   ⟨withCtx svc { Ctx.reset with state := .ending }, 47, 15, by decide +kernel⟩,
   ⟨withCtx svc { Ctx.reset with state := .ending, endFva := 128 }, 47, 15, by decide +kernel⟩,
   ⟨withCtx svc { Ctx.reset with block := .fence 2 }, 47, 15, 2, by decide +kernel⟩,
   ⟨{ withCtx svc { Ctx.reset with block := .fence 2 } with lostFor := [767] }, 47, 15, 2, by decide +kernel⟩,
   ⟨withCtx svc { Ctx.reset with block := .flush false 0 128 true stOk }, 47, 15, 0, 128, by decide +kernel⟩⟩

theorem witness_translation :
  (∃ (s : State) (p : Port) (req : Nat) (a : AtsReq), (((s.docent p.val).ats.find? fun a => a.id == req) = some a)
      ∧ a.stale = true)
  ∧ (∃ (s : State) (p : Port) (req : Nat) (a : AtsReq) (lg : Nat) (addr : Word) (r : Bool) (w : Bool),
      (((s.docent p.val).ats.find? fun a => a.id == req) = some a) ∧ a.stale = false ∧ 21 ≤ lg
      ∧ addr.toNat % 2 ^ lg = 0 ∧ (r = true ∨ w = true))
  ∧ (∃ (s : State) (p : Port) (req : Nat) (a : AtsReq), (((s.docent p.val).ats.find? fun a => a.id == req) = some a)
      ∧ a.stale = false)
  ∧ (∃ (s : State) (f : FnNo) (q : PageReq) (rest : List PageReq) (idx : Nat), (s.fn f.val).waiting = q :: rest
      ∧ (s.fn f.val).freePrg = some idx ∧ (s.fn f.val).incRoom = true
      ∧ (s.fn f.val).prgs.length < min 512 (s.fn f.val).priAlloc)
  ∧ (∃ (s : State) (f : FnNo) (idx : BitVec 9) (n : Nat) (q : PageReq),
      (((s.fn f.val).prgs.find? fun q => q.1 == idx.toNat) = some (n, q)) ∧ q.abandoned = true)
  ∧ (∃ (s : State) (f : FnNo) (idx : BitVec 9) (n : Nat) (q : PageReq),
      (((s.fn f.val).prgs.find? fun q => q.1 == idx.toNat) = some (n, q)) ∧ q.abandoned = false)
  ∧ (∃ (s : State) (f : FnNo) (idx : BitVec 9) (n : Nat) (q : PageReq),
      (((s.fn f.val).prgs.find? fun q => q.1 == idx.toNat) = some (n, q)) ∧ q.abandoned = false
      ∧ (s.gal q.gal).prTimeout ≠ 0)
  ∧ (∃ (s : State) (f : FnNo) (itag : BitVec 5) (g : Nat), (s.fn f.val).invals.length < 32 ∧ (∀ i,
      i ∈ (s.fn f.val).invals → i.itag ≠ itag.toNat) ∧ s.fnGal f.val = some g)
  ∧ (∃ (s : State) (f : FnNo) (itag : BitVec 5) (i : Inval),
      (((s.fn f.val).invals.find? fun i => i.itag == itag.toNat) = some i) ∧ s.invalDone i = true)
  ∧ (∃ (s : State) (f : FnNo) (itag : BitVec 5) (i : Inval),
      (((s.fn f.val).invals.find? fun i => i.itag == itag.toNat) = some i) ∧ s.invalDone i = false) :=
  ⟨⟨{ svc with docents := [(47, { Docent.reset with ats := [{ id := 3, gal := 1, pasid := 0, page := 0, streams := [{ st := .ctx 767, fva := 0, r := true, w := false }], stale := true, retried := false }] })] },
      47, 3,
      { id := 3, gal := 1, pasid := 0, page := 0, streams := [{ st := .ctx 767, fva := 0, r := true, w := false }], stale := true, retried := false },
      by decide +kernel⟩,
   ⟨{ svc with docents := [(47, { Docent.reset with ats := [{ id := 3, gal := 1, pasid := 0, page := 0, streams := [{ st := .ctx 767, fva := 0, r := true, w := false }], stale := false, retried := false }] })] },
       47, 3,
       { id := 3, gal := 1, pasid := 0, page := 0, streams := [{ st := .ctx 767, fva := 0, r := true, w := false }], stale := false, retried := false },
       21, 0, true, false, by decide +kernel⟩,
   ⟨{ svc with docents := [(47, { Docent.reset with ats := [{ id := 3, gal := 1, pasid := 0, page := 0, streams := [{ st := .ctx 767, fva := 0, r := true, w := false }], stale := false, retried := false }] })] },
       47, 3,
       { id := 3, gal := 1, pasid := 0, page := 0, streams := [{ st := .ctx 767, fva := 0, r := true, w := false }], stale := false, retried := false },
       by decide +kernel⟩,
   ⟨{ svc with fns := [(63, { Fn.reset with busMaster := true, priAlloc := 1, rings := [(2, { Ring.reset with en := true })], waiting := [{ gal := 1, pasid := 0, fva := 0, r := true, w := false, port := 47, ctx := 15, isEp := false, info := 0, streams := [], abandoned := false }] })] },
       63,
       { gal := 1, pasid := 0, fva := 0, r := true, w := false, port := 47, ctx := 15, isEp := false, info := 0, streams := [], abandoned := false },
       [], 0, by decide +kernel⟩,
   ⟨{ svc with fns := [(63, { Fn.reset with prgs := [(511, { gal := 1, pasid := 0, fva := 0, r := true, w := false, port := 47, ctx := 15, isEp := false, info := 0, streams := [], abandoned := true })] })] },
       63, 511, 511,
       { gal := 1, pasid := 0, fva := 0, r := true, w := false, port := 47, ctx := 15, isEp := false, info := 0, streams := [], abandoned := true },
       by decide +kernel⟩,
   ⟨{ svc with fns := [(63, { Fn.reset with prgs := [(511, { gal := 1, pasid := 0, fva := 0, r := true, w := false, port := 47, ctx := 15, isEp := false, info := 0, streams := [], abandoned := false })] })] },
       63, 511, 511,
       { gal := 1, pasid := 0, fva := 0, r := true, w := false, port := 47, ctx := 15, isEp := false, info := 0, streams := [], abandoned := false },
       by decide +kernel⟩,
   ⟨{ withGal svc 1 { Gallery.reset with prTimeout := 1 } with fns := [(63, { Fn.reset with prgs := [(511, { gal := 1, pasid := 0, fva := 0, r := true, w := false, port := 47, ctx := 15, isEp := false, info := 0, streams := [], abandoned := false })] })] },
       63, 511, 511,
       { gal := 1, pasid := 0, fva := 0, r := true, w := false, port := 47, ctx := 15, isEp := false, info := 0, streams := [], abandoned := false },
       by decide +kernel⟩,
   ⟨{ svc with fns := [(63, { Fn.reset with gal := 1 })] }, 63, 31, 1, by decide +kernel⟩,
   ⟨{ svc with fns := [(63, { Fn.reset with invals := [{ itag := 31, gal := 1, pasid := none, base := 0, log2 := 12, waits := [], held := false }] })] },
       63, 31, { itag := 31, gal := 1, pasid := none, base := 0, log2 := 12, waits := [], held := false },
       by decide +kernel⟩,
   ⟨{ svc with replay := [outst fh], fns := [(63, { Fn.reset with invals := [{ itag := 31, gal := 1, pasid := none, base := 0, log2 := 12, waits := [0], held := false }] })] },
       63, 31, { itag := 31, gal := 1, pasid := none, base := 0, log2 := 12, waits := [0], held := false },
       by decide +kernel⟩⟩

theorem witness_homeInstances :
  (∃ (s : State) (k : FabPkt) (b : Bytes), Arrives s (ftRed + rkJoin) k b ∧ Ends k)
  ∧ (∃ (s : State) (m : JoinMsg), s.epochUsable m.epoch = false)
  ∧ (∃ (s : State) (m : JoinMsg), s.epochUsable m.epoch = true ∧ s.joinRecord m = none
      ∧ ((s.instOf m.sched.toNat m.inst fun i => i.live) = none))
  ∧ (∃ (s : State) (m : JoinMsg), s.epochUsable m.epoch = true ∧ s.joinRecord m = none
      ∧ ((s.instOf m.sched.toNat m.inst fun i => i.live) ≠ none))
  ∧ (∃ (s : State) (m : JoinMsg) (sc : Sched) (r : Nat) (e : Nat × Nat × Nat × Bool), s.epochUsable m.epoch = true
      ∧ s.joinRecord m = some (sc, r)
      ∧ (let of (e : Nat × Nat × Nat × Bool) : Bool := e.1 == m.sched.toNat && e.2.1 == m.inst; s.red.ended.find? of = some e))
  ∧ (∃ (s : State) (m : JoinMsg) (sc : Sched) (r : Nat), s.epochUsable m.epoch = true ∧ s.joinRecord m = some (sc,
      r)
      ∧ (let of (e : Nat × Nat × Nat × Bool) : Bool := e.1 == m.sched.toNat && e.2.1 == m.inst; s.red.ended.find? of = none ∧ ((s.instOf m.sched.toNat m.inst fun i => i.group == r / sc.b) = none) ∧ s.limitsAdmit m.sched.toNat = false))
  ∧ (∃ (s : State) (m : JoinMsg) (sc : Sched) (r : Nat) (i : Instance), s.epochUsable m.epoch = true
      ∧ s.joinRecord m = some (sc, r)
      ∧ (let of (e : Nat × Nat × Nat × Bool) : Bool := e.1 == m.sched.toNat && e.2.1 == m.inst; s.red.ended.find? of = none ∧ ((s.instOf m.sched.toNat m.inst fun i => i.group == r / sc.b) = some i) ∧ (m.shape.toNat ≠ i.digest ∨ m.epoch ≠ i.epoch ∧ s.sameRecord i.sched = false)))
  ∧ (∃ (s : State) (m : JoinMsg) (sc : Sched) (r : Nat) (i : Instance), s.epochUsable m.epoch = true
      ∧ s.joinRecord m = some (sc, r)
      ∧ (let of (e : Nat × Nat × Nat × Bool) : Bool := e.1 == m.sched.toNat && e.2.1 == m.inst; s.red.ended.find? of = none ∧ ((s.instOf m.sched.toNat m.inst fun i => i.group == r / sc.b) = some i) ∧ m.shape.toNat = i.digest ∧ (m.epoch = i.epoch ∨ s.sameRecord i.sched = true) ∧ i.kind ≠ 0xA ∧ (∀ x, x ∈ i.members → x.rank ≠ r)))
  ∧ (∃ (s : State) (i : Instance), i.sched ∈ s.red.pathLost)
  ∧ (∃ (s : State) (i : Instance), i.sched ∉ s.red.pathLost ∧ (s.gal i.gallery).maxDrawers < i.footprint)
  ∧ (∃ (s : State) (i : Instance), i.sched ∉ s.red.pathLost ∧ i.footprint ≤ (s.gal i.gallery).maxDrawers
      ∧ i.instSo / 32768 = 1 ∧ s.soOwned (i.instSo % 16384) i.gallery = false)
  ∧ (∃ (s : State) (i : Instance), i.sched ∉ s.red.pathLost ∧ i.footprint ≤ (s.gal i.gallery).maxDrawers
      ∧ (i.instSo / 32768 ≠ 1 ∨ s.soOwned (i.instSo % 16384) i.gallery = true))
  ∧ (∃ (s : State) (m : JoinMsg), ((s.red.waiting.find? fun m => s.admittable m) = some m))
  ∧ (∃ (s : State), (∀ m, m ∈ s.red.waiting → s.admittable m = false))
  ∧ (∃ (s : State) (g : GalNo) (c : Nat × Nat × Nat × Nat) (i : Instance),
      ((s.red.claims.find? fun c => c.1 == g.val) = some c)
      ∧ ((s.instOf c.2.1 c.2.2.1 fun i => i.group == c.2.2.2 && i.claim == .queued) = some i)
      ∧ (let fits := (s.gal g.val).granted + i.footprint ≤ (s.gal g.val).maxDrawers ∧ i.footprint ≤ 655360 - piecesSize s.red.held; ¬ fits))
  ∧ (∃ (s : State) (g : GalNo) (c : Nat × Nat × Nat × Nat) (i : Instance),
      ((s.red.claims.find? fun c => c.1 == g.val) = some c)
      ∧ ((s.instOf c.2.1 c.2.2.1 fun i => i.group == c.2.2.2 && i.claim == .queued) = some i)
      ∧ (let fits := (s.gal g.val).granted + i.footprint ≤ (s.gal g.val).maxDrawers ∧ i.footprint ≤ 655360 - piecesSize s.red.held; fits))
  ∧ (∃ (s : State) (g : Nat) (ps : List (Nat × Nat)) (t : List (Nat × List (Nat × Nat))), s.red.zeroing = (g,
      ps) :: t)
  ∧ (∃ (s : State) (n : BitVec 12) (inst : Nat) (i : Instance),
      ((s.instOf n.toNat inst fun i => i.live && i.joinTimeout != 0 && !i.allJoined) = some i))
  ∧ (∃ (s : State) (k : FabPkt) (b : Bytes), Arrives s (ftRed + rkWithdrawal) k b ∧ Ends k)
  ∧ (∃ (s : State) (m : MemberId),
      (let sent := s.instOf m.sched.toNat m.inst fun i => i.live && i.offsetsSent; sent = none))
  ∧ (∃ (s : State) (m : MemberId) (i : Instance),
      (let sent := s.instOf m.sched.toNat m.inst fun i => i.live && i.offsetsSent; sent = some i))
  ∧ (∃ (s : State) (k : FabPkt) (b : Bytes), Arrives s (ftRed + rkAbort) k b ∧ Ends k)
  ∧ (∃ (s : State) (n : Nat) (inst : Nat) (p : Nat) (g : Nat) (o : Op), s.memberOp p n inst = some (g, o) ∧ (∀ st,
      o.phase ≠ .done st))
  ∧ (∃ (s : State) (e : Bool) (n : Nat) (inst : Nat),
      (let mine (i : Instance) : Prop := i.sched = n ∧ i.inst = inst; (let here := ∃ x, x ∈ s.homesOf e n ∧ x.2 = s.node; (¬ here ∨ (∃ i, i ∈ s.red.insts ∧ mine i ∧ i.offsetsSent = true)))))
  ∧ (∃ (s : State) (e : Bool) (n : Nat) (inst : Nat),
      (let mine (i : Instance) : Prop := i.sched = n ∧ i.inst = inst; (let here := ∃ x, x ∈ s.homesOf e n ∧ x.2 = s.node; here ∧ (∀ i, i ∈ s.red.insts → mine i → i.offsetsSent = false))))
  ∧ (∃ (s : State) (n : BitVec 12) (inst : Nat), (∀ p, p < 48 → s.memberBusy n.toNat inst p = false) ∧ (∀ i,
      i ∈ (s.red.insts.filter fun i => i.sched == n.toNat && i.inst == inst && i.live) → i.allSent = true
      ∧ s.resultWaits i = false))
  ∧ (∃ (s : State) (e : Bool) (n : Nat) (inst : Nat) (st : Nat) (lost : Bool) (i : Instance), (∀ e, e ∈ s.red.ended
      → ¬ (e.1 = n ∧ e.2.1 = inst))
      ∧ (let t := s.abortOne e n inst st lost; i ∈ t.red.insts ∧ i.sched = n ∧ i.inst = inst))
  ∧ (∃ (s : State) (e : Bool) (n : Nat) (inst : Nat) (st : Nat) (lost : Bool) (m : JoinMsg), (∀ e, e ∈ s.red.ended
      → ¬ (e.1 = n ∧ e.2.1 = inst)) ∧ (let t := s.abortOne e n inst st lost; m ∈ t.red.waiting))
  ∧ (∃ (s : State) (e : Bool) (n : Nat) (inst : Nat), (∃ e, e ∈ s.red.ended ∧ e.1 = n ∧ e.2.1 = inst)) :=
  ⟨⟨{ svc with cat := { svc.cat with installed := true } }, pkt { fh with ftype := ftRed + rkJoin } [], [],
      by simp only [Arrives, Ends]; decide +kernel⟩,
   ⟨svc, { joining with epoch := true }, by decide +kernel⟩,
   ⟨banked svc [], joining, by decide +kernel⟩,
   ⟨homing (banked svc []) [inst], joining, by decide +kernel⟩,
   ⟨{ banked svc schedule with red := { Red.reset with ended := [(5, 0, stMismatch, false)] } }, joining, sched5, 0,
       (5, 0, stMismatch, false), by decide +kernel⟩,
   ⟨homing (banked svc schedule) [{ inst with inst := 1 }, { inst with inst := 2 }, { inst with inst := 3 },
       { inst with inst := 4 }], joining, sched5, 0, by decide +kernel⟩,
   ⟨homing (banked svc schedule) [{ inst with digest := 1 }], joining, sched5, 0, { inst with digest := 1 },
       by decide +kernel⟩,
   ⟨homing (banked svc schedule) [{ inst with members := [] }], joining, sched5, 0, { inst with members := [] },
       by decide +kernel⟩,
   ⟨{ svc with red := { Red.reset with pathLost := [5] } }, inst, by decide +kernel⟩,
   ⟨svc, inst, by decide +kernel⟩,
   ⟨withGal svc 1 { Gallery.reset with maxDrawers := 1 }, { inst with instSo := 0x8000 }, by decide +kernel⟩,
   ⟨withGal svc 1 { Gallery.reset with maxDrawers := 1 }, inst, by decide +kernel⟩,
   ⟨{ svc with red := { Red.reset with waiting := [joining] } }, joining, by decide +kernel⟩,
   ⟨svc, by decide +kernel⟩,
   ⟨{ homing (withGal svc 1 { Gallery.reset with maxDrawers := 0 }) [{ inst with claim := .queued }] with red := { Red.reset with insts := [{ inst with claim := .queued }], claims := [(1, 5, 0, 0)] } },
       1, (1, 5, 0, 0), { inst with claim := .queued }, by decide +kernel⟩,
   ⟨{ homing (withGal svc 1 { Gallery.reset with maxDrawers := 1 }) [{ inst with claim := .queued }] with red := { Red.reset with insts := [{ inst with claim := .queued }], claims := [(1, 5, 0, 0)] } },
       1, (1, 5, 0, 0), { inst with claim := .queued }, by decide +kernel⟩,
   ⟨{ svc with red := { Red.reset with zeroing := [(1, [(0, 1)])] } }, 1, [(0, 1)], [], by decide +kernel⟩,
   ⟨homing svc [{ inst with joinTimeout := 1, members := [] }], 5, 0, { inst with joinTimeout := 1, members := [] },
       by decide +kernel⟩,
   ⟨{ svc with cat := { svc.cat with installed := true } }, pkt { fh with ftype := ftRed + rkWithdrawal } [], [],
       by simp only [Arrives, Ends]; decide +kernel⟩,
   ⟨svc, { sched := 5, inst := 0, rank := 0 }, by decide +kernel⟩,
   ⟨homing svc [{ inst with offsetsSent := true }], { sched := 5, inst := 0, rank := 0 },
       { inst with offsetsSent := true }, by decide +kernel⟩,
   ⟨{ svc with cat := { svc.cat with installed := true } }, pkt { fh with ftype := ftRed + rkAbort } [], [],
       by simp only [Arrives, Ends]; decide +kernel⟩,
   ⟨serving (memberOf .reduce Coll.start), 5, 0, 47, 767, memberOf .reduce Coll.start, by decide +kernel,
       fun _ h => nomatch h⟩,
   ⟨svc, false, 5, 0, by decide +kernel⟩,
   ⟨banked svc schedule, false, 5, 0, by decide +kernel⟩,
   ⟨homing svc [], 5, 0, by decide +kernel⟩,
   ⟨homing svc [{ inst with groups := 2 }], false, 5, 0, stMismatch, false,
       { inst with groups := 2, aborted := true }, by decide +kernel⟩,
   ⟨{ svc with red := { Red.reset with waiting := [joining] } }, false, 6, 0, stMismatch, false, joining,
       by decide +kernel⟩,
   ⟨{ svc with red := { Red.reset with ended := [(5, 0, stMismatch, false)] } }, false, 5, 0, by decide +kernel⟩⟩

theorem witness_homeSums :
  (∃ (s : State) (k : FabPkt) (b : Bytes), Ends k ∧ Arrives s (ftRed + rkContribution) k b)
  ∧ (∃ (s : State) (k : FabPkt) (b : Bytes) (n : BitVec 12) (inst : Nat) (group : Nat) (chunk : Nat), Ends k
      ∧ Arrives s (ftRed + rkPartial) k b
      ∧ (let owner := s.instOf n.toNat inst fun i => i.group == chunk % i.groups && 1 < i.groups && group < i.groups && group != i.group && i.claim == .granted && chunk < i.chunks && (i.live || chunk < i.next); owner = none))
  ∧ (∃ (s : State) (k : FabPkt) (b : Bytes) (n : BitVec 12) (inst : Nat) (group : Nat) (chunk : Nat) (i : Instance),
      Ends k ∧ Arrives s (ftRed + rkPartial) k b
      ∧ (let owner := s.instOf n.toNat inst fun i => i.group == chunk % i.groups && 1 < i.groups && group < i.groups && group != i.group && i.claim == .granted && chunk < i.chunks && (i.live || chunk < i.next); owner = some i))
  ∧ (∃ (s : State) (k : FabPkt) (b : Bytes), Ends k ∧ Arrives s (ftRed + rkFinished) k b)
  ∧ (∃ (s : State) (k : FabPkt) (b : Bytes), Ends k ∧ Arrives s (ftRed + rkExpertOutput) k b)
  ∧ (∃ (s : State) (k : FabPkt) (b : Bytes), Ends k ∧ Arrives s (ftRed + rkWeights) k b)
  ∧ (∃ (s : State) (m : MemberId),
      (let home := s.instOf m.sched.toNat m.inst fun i => i.live && i.claim == .granted && i.ranks.contains m.rank; home = none))
  ∧ (∃ (s : State) (m : MemberId) (chunk : Nat) (off : Nat) (lines : Bytes) (i : Instance),
      (let home := s.instOf m.sched.toNat m.inst fun i => i.live && i.claim == .granted && i.ranks.contains m.rank; home = some i ∧ (∃ x, x ∈ i.members ∧ x.rank = m.rank) ∧ i.kind ≠ 0xA ∧ i.kind ≠ 0xB ∧ i.shape.sparse = false ∧ i.givers.contains m.rank = true ∧ i.next ≤ chunk ∧ chunk < min i.chunks (i.next + i.depth) ∧ (let need := fmtBytes i.shape.inF (i.elems chunk); off + lines.length ≤ need)))
  ∧ (∃ (s : State) (ready : Instance → Bool) (i : Instance), s.nextJob ready = some i)
  ∧ (∃ (s : State) (n : BitVec 12) (inst : Nat) (i : Instance) (u : State), s.nextJob Instance.jobReady = some i
      ∧ i.sched = n.toNat ∧ i.inst = inst ∧ i.ready = true
      ∧ (let w := s.served i; w.readCopies i i.next i.givers = (u, none)))
  ∧ (∃ (s : State) (n : BitVec 12) (inst : Nat) (i : Instance) (u : State) (pieces : List Bytes),
      s.nextJob Instance.jobReady = some i ∧ i.sched = n.toNat ∧ i.inst = inst ∧ i.ready = true
      ∧ (let w := s.served i; w.readCopies i i.next i.givers = (u, some pieces)))
  ∧ (∃ (s : State) (n : BitVec 12) (inst : Nat) (i : Instance) (u : State) (pieces : List Bytes),
      s.nextJob Instance.jobReady = some i ∧ i.sched = n.toNat ∧ i.inst = inst ∧ i.ready = true
      ∧ (let w := s.served i; w.readCopies i i.next i.givers = (u, some pieces) ∧ i.groups ≠ 1 ∧ i.next % i.groups = i.group))
  ∧ (∃ (s : State) (n : BitVec 12) (inst : Nat) (i : Instance) (u : State) (pieces : List Bytes),
      s.nextJob Instance.jobReady = some i ∧ i.sched = n.toNat ∧ i.inst = inst ∧ i.ready = true
      ∧ (let w := s.served i; w.readCopies i i.next i.givers = (u, some pieces) ∧ i.groups ≠ 1 ∧ i.next % i.groups ≠ i.group))
  ∧ (∃ (s : State) (i : Instance) (group : Nat) (chunk : Nat) (off : Nat) (bs : Bytes), i.sentChunks ≤ chunk
      ∧ off + bs.length ≤ i.partBytes group chunk ∧ (∀ p, p ∈ i.partials → p.group = group → p.chunk = chunk
      → p.come < i.partBytes group chunk) ∧ (∃ g, g < ((s.putPartial i group chunk off bs).instNow i).groups ∧ ∀ p,
      p ∈ ((s.putPartial i group chunk off bs).instNow i).partials → p.group = g → p.chunk = chunk
      → p.come < i.partBytes g chunk))
  ∧ (∃ (i : Instance) (chunk : Nat), chunk < i.sentChunks)
  ∧ (∃ (s : State) (i : Instance) (chunk : Nat) (off : Nat) (bs : Bytes), i.sentChunks ≤ chunk ∧ (∀ f,
      f ∈ i.finished → f.1 ≠ chunk) ∧ chunk < i.chunks ∧ off + bs.length ≤ i.finBytes chunk
      ∧ (let u := s.modInst i fun i => { i with arriving := i.arriving ++ [(chunk, off, bs)] }; (let got := ((u.instNow i).arriving.filter fun x => x.1 == chunk).map (·.2); ((got.map fun x => x.2.length).sum < i.finBytes chunk))))
  ∧ (∃ (s : State) (i : Instance) (chunk : Nat) (off : Nat) (bs : Bytes), i.sentChunks ≤ chunk ∧ (∀ f,
      f ∈ i.finished → f.1 ≠ chunk) ∧ chunk < i.chunks ∧ off + bs.length ≤ i.finBytes chunk
      ∧ (let u := s.modInst i fun i => { i with arriving := i.arriving ++ [(chunk, off, bs)] }; (let got := ((u.instNow i).arriving.filter fun x => x.1 == chunk).map (·.2); (i.finBytes chunk ≤ (got.map fun x => x.2.length).sum))))
  ∧ (∃ (s : State) (n : BitVec 12) (inst : Nat) (i : Instance) (u : State), s.nextJob Instance.jobReady = some i
      ∧ i.sched = n.toNat ∧ i.inst = inst ∧ i.windowReady = true
      ∧ (let w := s.served i; w.windowRanks i i.next i.ranks = (u, none)))
  ∧ (∃ (s : State) (n : BitVec 12) (inst : Nat) (i : Instance) (u : State) (ranks : List (List (Nat × Nat))),
      s.nextJob Instance.jobReady = some i ∧ i.sched = n.toNat ∧ i.inst = inst ∧ i.windowReady = true
      ∧ (let w := s.served i; w.windowRanks i i.next i.ranks = (u, some ranks) ∧ (∀ c, c ∈ i.copies → c.lastWindow ≠ some i.next) ∧ i.shape.kind ≠ 8))
  ∧ (∃ (s : State) (n : BitVec 12) (inst : Nat) (i : Instance) (u : State) (ranks : List (List (Nat × Nat))),
      s.nextJob Instance.jobReady = some i ∧ i.sched = n.toNat ∧ i.inst = inst ∧ i.windowReady = true
      ∧ (let w := s.served i; w.windowRanks i i.next i.ranks = (u, some ranks) ∧ (∀ c, c ∈ i.copies → c.lastWindow ≠ some i.next) ∧ i.shape.kind = 8))
  ∧ (∃ (s : State) (m : MemberId), s.combineHome m = none)
  ∧ (∃ (s : State) (m : MemberId) (token : Nat) (i : Instance) (choice : Nat) (off : Nat) (bs : Bytes),
      s.combineHome m = some i ∧ token < shapeTmax i.digest ∧ Tab.get 0 i.tokenNext m.rank ≤ token
      ∧ choice < shapeK i.digest ∧ off + bs.length ≤ shapeTb i.digest ∧ (∀ t, i.token? m.rank token = some t
      → choice ∉ t.present))
  ∧ (∃ (s : State) (m : MemberId) (token : Nat) (i : Instance), s.combineHome m = some i
      ∧ token < shapeTmax i.digest ∧ Tab.get 0 i.tokenNext m.rank ≤ token) :=
  ⟨⟨{ svc with cat := { svc.cat with installed := true } }, pkt { fh with ftype := ftRed + rkContribution } [], [],
      by simp only [Arrives, Ends]; decide +kernel⟩,
   ⟨{ svc with cat := { svc.cat with installed := true } }, pkt { fh with ftype := ftRed + rkPartial } [], [], 5, 0,
       0, 0, by simp only [Arrives, Ends]; decide +kernel⟩,
   ⟨{ homing svc [{ inst with groups := 2 }] with cat := { svc.cat with installed := true } },
       pkt { fh with ftype := ftRed + rkPartial } [], [], 5, 0, 1, 0, { inst with groups := 2 },
       by simp only [Arrives, Ends]; decide +kernel⟩,
   ⟨{ svc with cat := { svc.cat with installed := true } }, pkt { fh with ftype := ftRed + rkFinished } [], [],
       by simp only [Arrives, Ends]; decide +kernel⟩,
   ⟨{ svc with cat := { svc.cat with installed := true } }, pkt { fh with ftype := ftRed + rkExpertOutput } [], [],
       by simp only [Arrives, Ends]; decide +kernel⟩,
   ⟨{ svc with cat := { svc.cat with installed := true } }, pkt { fh with ftype := ftRed + rkWeights } [], [],
       by simp only [Arrives, Ends]; decide +kernel⟩,
   ⟨svc, { sched := 5, inst := 0, rank := 0 }, by decide +kernel⟩,
   ⟨homing svc [inst], { sched := 5, inst := 0, rank := 0 }, 0, 0, zeros 4, inst, by decide +kernel⟩,
   ⟨homing svc [{ inst with copies := [copy0] }], Instance.jobReady, { inst with copies := [copy0] },
       by decide +kernel⟩,
   ⟨homing { svc with vault := { svc.vault with bad := [(vpaDrawer 0 / 64, 2)] } } [{ inst with copies := [copy0] }],
       5, 0, { inst with copies := [copy0] },
       (((homing { svc with vault := { svc.vault with bad := [(vpaDrawer 0 / 64, 2)] } } [{ inst with copies := [copy0] }]).served { inst with copies := [copy0] }).readCopies { inst with copies := [copy0] } 0 (Instance.givers { inst with copies := [copy0] })).1,
       by decide +kernel⟩,
   ⟨homing svc [{ inst with copies := [copy0] }], 5, 0, { inst with copies := [copy0] },
       (((homing svc [{ inst with copies := [copy0] }]).served { inst with copies := [copy0] }).readCopies { inst with copies := [copy0] } 0 (Instance.givers { inst with copies := [copy0] })).1,
       [zeros 4], by decide +kernel⟩,
   ⟨homing svc [{ inst with copies := [copy0], groups := 2 }], 5, 0, { inst with copies := [copy0], groups := 2 },
       (((homing svc [{ inst with copies := [copy0], groups := 2 }]).served { inst with copies := [copy0], groups := 2 }).readCopies { inst with copies := [copy0], groups := 2 } 0 (Instance.givers { inst with copies := [copy0], groups := 2 })).1,
       [zeros 4], by decide +kernel⟩,
   ⟨homing svc [{ inst with copies := [copy0], groups := 2, group := 1, b := 0, n := 0, members := [] }], 5, 0,
       { inst with copies := [copy0], groups := 2, group := 1, b := 0, n := 0, members := [] },
       (((homing svc [{ inst with copies := [copy0], groups := 2, group := 1, b := 0, n := 0, members := [] }]).served { inst with copies := [copy0], groups := 2, group := 1, b := 0, n := 0, members := [] }).readCopies { inst with copies := [copy0], groups := 2, group := 1, b := 0, n := 0, members := [] } 0 (Instance.givers { inst with copies := [copy0], groups := 2, group := 1, b := 0, n := 0, members := [] })).1,
       [], by decide +kernel⟩,
   ⟨homing svc [{ inst with groups := 3 }], { inst with groups := 3 }, 2, 0, 0, [], by decide +kernel⟩,
   ⟨{ inst with sentChunks := 1 }, 0, by decide +kernel⟩,
   ⟨homing svc [{ inst with groups := 2 }], { inst with groups := 2 }, 0, 0, [], by decide +kernel⟩,
   ⟨homing svc [{ inst with groups := 2 }], { inst with groups := 2 }, 0, 0,
       zeros (Instance.finBytes { inst with groups := 2 } 0), by decide +kernel⟩,
   ⟨homing { svc with vault := { svc.vault with bad := [(vpaDrawer 0 / 64, 2)] } } [{ inst with digest := 0x6000000000000001, members := [{ member with ended := true }], copies := [copy0] }],
       5, 0,
       { inst with digest := 0x6000000000000001, members := [{ member with ended := true }], copies := [copy0] },
       (((homing { svc with vault := { svc.vault with bad := [(vpaDrawer 0 / 64, 2)] } } [{ inst with digest := 0x6000000000000001, members := [{ member with ended := true }], copies := [copy0] }]).served { inst with digest := 0x6000000000000001, members := [{ member with ended := true }], copies := [copy0] }).windowRanks { inst with digest := 0x6000000000000001, members := [{ member with ended := true }], copies := [copy0] } 0 (Instance.ranks { inst with digest := 0x6000000000000001, members := [{ member with ended := true }], copies := [copy0] })).1,
       by decide +kernel⟩,
   ⟨homing svc [{ inst with digest := 0x6000000000000001, members := [{ member with ended := true }] }], 5, 0,
       { inst with digest := 0x6000000000000001, members := [{ member with ended := true }] },
       (((homing svc [{ inst with digest := 0x6000000000000001, members := [{ member with ended := true }] }]).served { inst with digest := 0x6000000000000001, members := [{ member with ended := true }] }).windowRanks { inst with digest := 0x6000000000000001, members := [{ member with ended := true }] } 0 (Instance.ranks { inst with digest := 0x6000000000000001, members := [{ member with ended := true }] })).1,
       [[]], by decide +kernel⟩,
   ⟨homing svc [{ inst with digest := 0x8000000000000001, members := [{ member with ended := true }] }], 5, 0,
       { inst with digest := 0x8000000000000001, members := [{ member with ended := true }] },
       (((homing svc [{ inst with digest := 0x8000000000000001, members := [{ member with ended := true }] }]).served { inst with digest := 0x8000000000000001, members := [{ member with ended := true }] }).windowRanks { inst with digest := 0x8000000000000001, members := [{ member with ended := true }] } 0 (Instance.ranks { inst with digest := 0x8000000000000001, members := [{ member with ended := true }] })).1,
       [[]], by decide +kernel⟩,
   ⟨svc, { sched := 5, inst := 0, rank := 0 }, by decide +kernel⟩,
   ⟨homing svc [{ inst with digest := 0xB100000000000001 }], { sched := 5, inst := 0, rank := 0 }, 0,
       { inst with digest := 0xB100000000000001 }, 0, 0, [], by decide +kernel⟩,
   ⟨homing svc [{ inst with digest := 0xB100000000000001 }], { sched := 5, inst := 0, rank := 0 }, 0,
       { inst with digest := 0xB100000000000001 }, by decide +kernel⟩⟩

theorem witness_memberEvents :
  (∃ (s : State) (p : Port) (m : MemberId) (k : FabPkt) (b : Bytes), Ends k ∧ Arrives s (ftRed + rkCredit) k b
      ∧ s.memberFor p m = none)
  ∧ (∃ (s : State) (p : Port) (m : MemberId) (k : FabPkt) (b : Bytes) (g : Nat) (o : Op), Ends k
      ∧ Arrives s (ftRed + rkCredit) k b ∧ s.memberFor p m = some (g, o))
  ∧ (∃ (s : State) (p : Port) (m : MemberId) (k : FabPkt) (b : Bytes), Ends k ∧ Arrives s (ftRed + rkOffsets) k b
      ∧ s.memberFor p m = none)
  ∧ (∃ (s : State) (p : Port) (m : MemberId) (k : FabPkt) (b : Bytes) (g : Nat) (o : Op), Ends k
      ∧ Arrives s (ftRed + rkOffsets) k b ∧ s.memberFor p m = some (g, o) ∧ o.kind = .dispatch
      ∧ o.col.final = false)
  ∧ (∃ (s : State) (p : Port) (m : MemberId) (k : FabPkt) (b : Bytes) (g : Nat) (o : Op), Ends k
      ∧ Arrives s (ftRed + rkOffsets) k b ∧ s.memberFor p m = some (g, o) ∧ o.kind = .dispatch ∧ o.col.final = true)
  ∧ (∃ (s : State) (k : FabPkt) (b : Bytes), Ends k ∧ Arrives s (ftRed + rkGrant) k b)
  ∧ (∃ (s : State) (k : FabPkt) (b : Bytes), Ends k ∧ Arrives s (ftRed + rkResult) k b)
  ∧ (∃ (s : State) (p : Port) (m : MemberId) (g : Nat) (o : Op), s.memberFor p m = some (g, o))
  ∧ (∃ (s : State) (p : Port) (m : MemberId) (group : Nat), s.memberFor p m = none
      ∧ Tab.get 0 s.cat.instNo (p.val * 4096 + m.sched.toNat) ≤ m.inst ∧ (p.val, m.sched.toNat, m.inst,
      group) ∉ s.red.early)
  ∧ (∃ (s : State) (p : Port) (m : MemberId), s.memberFor p m = none)
  ∧ (∃ (s : State) (p : Port) (m : MemberId) (g : Nat) (o : Op), s.memberFor p m = some (g, o)
      ∧ o.col.delivery ≠ stOk)
  ∧ (∃ (s : State) (p : Port) (m : MemberId) (g : Nat) (o : Op), s.memberFor p m = some (g, o)
      ∧ o.col.delivery = stOk ∧ o.kind = .reduce ∧ (Shape.dec o.shapeWord).sparse = false)
  ∧ (∃ (s : State) (p : Port) (m : MemberId) (g : Nat) (o : Op), s.memberFor p m = some (g, o))
  ∧ (∃ (s : State) (k : FabPkt) (b : Bytes),
      (let h := FHdr.dec k.hdr; h.ftype = ftRed + rkResult ∧ s.epochUsable h.epoch = true ∧ s.keysGone h.gallery = false ∧ (s.window h).isDup h.dseq = true ∧ (if h.srcNode = s.node then some k.payload else s.openFab h 0 k.payload k.tag) = some b)) :=
  ⟨⟨{ svc with cat := { svc.cat with installed := true } }, 47, { sched := 5, inst := 0, rank := 0 },
      pkt { fh with ftype := ftRed + rkCredit } [], [], by simp only [Arrives, Ends]; decide +kernel⟩,
   ⟨{ serving (memberOf .reduce Coll.start) with cat := { svc.cat with installed := true } }, 47,
       { sched := 5, inst := 0, rank := 0 }, pkt { fh with ftype := ftRed + rkCredit } [], [], 767,
       memberOf .reduce Coll.start, by simp only [Arrives, Ends]; decide +kernel⟩,
   ⟨{ svc with cat := { svc.cat with installed := true } }, 47, { sched := 5, inst := 0, rank := 0 },
       pkt { fh with ftype := ftRed + rkOffsets } [], [], by simp only [Arrives, Ends]; decide +kernel⟩,
   ⟨{ serving (memberOf .dispatch Coll.start) with cat := { svc.cat with installed := true } }, 47,
       { sched := 5, inst := 0, rank := 0 }, pkt { fh with ftype := ftRed + rkOffsets } [], [], 767,
       memberOf .dispatch Coll.start, by simp only [Arrives, Ends]; decide +kernel⟩,
   ⟨{ serving (memberOf .dispatch { Coll.start with final := true }) with cat := { svc.cat with installed := true } },
       47, { sched := 5, inst := 0, rank := 0 }, pkt { fh with ftype := ftRed + rkOffsets } [], [], 767,
       memberOf .dispatch { Coll.start with final := true }, by simp only [Arrives, Ends]; decide +kernel⟩,
   ⟨{ svc with cat := { svc.cat with installed := true } }, pkt { fh with ftype := ftRed + rkGrant } [], [],
       by simp only [Arrives, Ends]; decide +kernel⟩,
   ⟨{ svc with cat := { svc.cat with installed := true } }, pkt { fh with ftype := ftRed + rkResult } [], [],
       by simp only [Arrives, Ends]; decide +kernel⟩,
   ⟨serving (memberOf .combine Coll.start), 47, { sched := 5, inst := 0, rank := 0 }, 767,
       memberOf .combine Coll.start, by decide +kernel⟩,
   ⟨{ svc with cat := { svc.cat with installed := true } }, 47, { sched := 5, inst := 0, rank := 0 }, 0,
       by decide +kernel⟩,
   ⟨{ svc with cat := { svc.cat with installed := true } }, 47, { sched := 5, inst := 0, rank := 0 },
       by decide +kernel⟩,
   ⟨serving (memberOf .reduce { Coll.start with delivery := stDenied }), 47, { sched := 5, inst := 0, rank := 0 },
       767, memberOf .reduce { Coll.start with delivery := stDenied }, by decide +kernel⟩,
   ⟨serving (memberOf .reduce Coll.start), 47, { sched := 5, inst := 0, rank := 0 }, 767,
       memberOf .reduce Coll.start, by decide +kernel⟩,
   ⟨serving (memberOf .reduce Coll.start), 47, { sched := 5, inst := 0, rank := 0 }, 767,
       memberOf .reduce Coll.start, by decide +kernel⟩,
   ⟨{ { svc with cat := { svc.cat with installed := true } } with windows := [(winKey 0 0, { DupWin.reset with floor := 1 })] },
       pkt { fh with ftype := ftRed + rkResult } [], [], by decide +kernel⟩⟩

theorem witness_emergencyHoldsTierThree :
  (∃ (s : State) (t : State), EmergencyForm s ∧ step s = .next t) := ⟨svc, _, by unfold EmergencyForm; decide, rfl⟩

theorem witness_resetRegisterValues :
  (∃ (o : Nat) (v : Word), (o, v) ∈ [(0x0, 0x10000#64), (0x8, 2), (0x10, 0x0001000000000480), (0x20,
      Config.serial.extractLsb' 0 64), (0x28, Config.serial.extractLsb' 64 64), (0x100, 0), (0x108, 0), (0x110, 2),
      (0x118, 0), (0x100000, 0x0000041A041A041A), (0x100008, 0), (0x100010, 0), (0x100018, 0), (0x100100,
      0x0028283800000000), (0x100108, 0), (0x100110, 0x3F), (0x100118, 0x0000FFFFFFFFFFFF), (0x100200,
      0x0000000100000000), (0x200200, 0), (0x201000, 0), (0x308000, 0), (0x04000000, 0x0000400000140902),
      (0x04000008, 0x80), (0x04000010, 0x0003F00000001000), (0x04000018, 0x00000AA700000000), (0x04000020, 0),
      (0x04000028, 0), (0x04000100, 0x1000200008000000), (0x04000108, 0x4000100004000000), (0x04000110,
      0xFF00040001000000), (0x05000000, 0), (0x05000008, 0), (0x05000010, 0), (0x06000400, 0xA0000), (0x06000408,
      0), (0x06000410, 0), (0x07040200, 0), (0x08000400, 0), (0x09000200, 0), (0x09000208, 0), (0x0A000000, 0),
      (0x0A000040, 0), (0x0A000048, 0), (0x0A000100, 0x64), (0x0A000500, 0), (0x0B000000, 0x108), (0x0B000008, 0),
      (0x0B000200, 0)])
  ∧ (∃ (p : Nat) (o : Nat) (v : Word), p < 48 ∧ (o, v) ∈ [(0x0, 0xFF08#64), (0x8, 0), (0x10, 0x07D0106414041900),
      (0x18, 0), (0x20, 0), (0x28, 0), (0x30, 0), (0x180, 0), (0x200, 0xA), (0x210, 0), (0x218, 0), (0x300, 0x10),
      (0x308, 0), (0x310, 0)])
  ∧ (∃ (p : Nat) (i : Nat), p < 48 ∧ i < 8)
  ∧ (∃ (r : Nat), r < 5)
  ∧ (∃ (g : Nat) (o : Nat), g < 64 ∧ o ∈ [0x04000200, 0x06000000, 0x06000200, 0x07040000, 0x07040400, 0x08000000,
      0x08000200, 0x09000000])
  ∧ (∃ (d : Nat), d < 24)
  ∧ (∃ (p : Nat), p < 48)
  ∧ (∃ (f : Nat) (o : Nat) (v : Word), 1 ≤ f ∧ f ≤ 63 ∧ (o, v) ∈ [(0xF0, 0#64), (0xF8, 0), (0x0,
      0x0000000600000000), (0x10, 0x0000000600000000), (0x20, 0x0000000600000000), (0x8000, 0), (0x9000, 0),
      (0xA000, 0), (0xC000, 0), (0xD200, 0), (0xF000, 0)]) :=
  ⟨⟨0x0B000200, 0, by decide +kernel⟩,
   ⟨47, 0x310, 0, by decide +kernel⟩,
   ⟨47, 7, by decide +kernel⟩,
   ⟨4, by decide +kernel⟩,
   ⟨63, 0x09000000, by decide +kernel⟩,
   ⟨23, by decide +kernel⟩,
   ⟨47, by decide +kernel⟩,
   ⟨63, 0xF000, 0, by decide +kernel⟩⟩

end Sys2Proof.Tests
end

section
/-! SUPPORT. Shared rules for the statements of the scope and power-state family: what training leaves alone, what
bring-up and loss of main input leave behind, and how a command taken from the physical function's ring acts. -/

namespace Sys2Proof.Machine

open Sys2Proof.Slice0

/-! ### Training and bring-up -/

@[simp] theorem State.offWire_modLanes (s : State) (p : Nat) (f : Nat → Lane → Lane) :
    (s.modLanes p f).offWire = s.offWire :=
  foldl_same State.offWire (fun s i => s.modLane p i (f i)) (fun _ _ => rfl) _ _

/-- The start of a training touches nothing but the port's link, its lanes and the outputs. -/
@[simp] theorem State.offWire_startTraining (s : State) (p : Nat) : (s.startTraining p).offWire = s.offWire := by
  unfold State.startTraining
  dsimp only
  split
  · exact State.offWire_modLink _ _ _
  · rw [State.offWire_out, State.offWire_modLanes, State.offWire_modLink]

/-- Bring-up locks the PLLs and zeroes the vault; otherwise only ports begin to train (R467, R773). -/
theorem State.offWire_bringUp (s : State) :
    s.bringUp.offWire = ({ s with clk := { s.clk with locked := true }
                                  vault := { s.vault with mem := [], bad := [], initDone := true } } : State).offWire :=
  foldl_same State.offWire _ (fun _ _ => State.offWire_startTraining _ _) _ _

/-- Two states that differ in what transmitters change alone agree elsewhere. -/
theorem State.eq_of_offWire {t u : State} (h : t.offWire = u.offWire) :
    t.ctl = u.ctl ∧ t.pwr = u.pwr ∧ t.clk = u.clk ∧ t.vault = u.vault ∧ t.cat = u.cat ∧ t.sec = u.sec
      ∧ t.flash = u.flash ∧ t.tel = u.tel :=
  ⟨(congrArg State.ctl h :), (congrArg State.pwr h :), (congrArg State.clk h :), (congrArg State.vault h :),
    (congrArg State.cat h :), (congrArg State.sec h :), (congrArg State.flash h :), (congrArg State.tel h :)⟩

/-- BOOT entered from `u` and brought up is bring-up from `s`, where `u` has main power and the flash and the time in
STANDBY of `s`. -/
theorem State.enterBoot_bringUp_broughtUp {s u : State} (hmain : u.pwr.mainGood = true) (hflash : u.flash = s.flash)
    (hfor : u.pwr.standbyFor = s.pwr.standbyFor) : BroughtUp s u.enterBoot.bringUp := by
  obtain ⟨hctl, hpwr, hclk, hvault, hcat, hsec, hfl, htel⟩ := State.eq_of_offWire u.enterBoot.offWire_bringUp
  generalize u.enterBoot.bringUp = t at *
  refine ⟨congrArg ModCtl.state hctl, (congrArg Power.mainGood hpwr).trans hmain, congrArg Clocks.locked hclk,
    congrArg Vault.initDone hvault, congrArg Vault.mem hvault, hcat, hsec, hfl.trans hflash, ?_⟩
  rw [htel, ← hflash, ← hfor]
  rfl

/-- The standby rail lifts OFF to STANDBY and leaves every other state (R5). -/
theorem State.railUp_eq (s : State) :
    s.railUp = { s with ctl := { s.ctl with state := if s.ctl.state = .off then .standby else s.ctl.state } } := by
  unfold State.railUp
  by_cases h : s.ctl.state = .off <;> simp [h]

theorem State.railUp_unpowered {s : State} (h : s.ctl.state = .off ∨ s.ctl.state = .standby) :
    s.railUp = { s with ctl := { s.ctl with state := .standby } } := by
  rw [State.railUp_eq]
  rcases h with h | h <;> simp [h]

/-- Main conversion starts from STANDBY with main power good and no lockout (R786). -/
theorem State.mainUp_starts {s : State} (hstate : s.ctl.state = .standby) (hmain : s.pwr.mainGood = true)
    (hlock : s.pwr.lockedOut = false) : s.mainUp = s.enterBoot.bringUp := by
  simp [State.mainUp, hstate, hmain, hlock]

/-- Without main power, or locked out, main conversion does not start (R5, R786). -/
theorem State.railUp_mainUp_waits {s : State} (h : s.pwr.mainGood = false ∨ s.pwr.lockedOut = true) :
    s.railUp.mainUp = s.railUp := by
  rw [State.railUp_eq]
  rcases h with h | h <;> simp [State.mainUp, h]

/-- Where main conversion may run, a module that is OFF or in STANDBY is brought up (R5, R773, R786). -/
theorem State.railUp_mainUp_broughtUp {s u : State} (hstate : u.ctl.state = .off ∨ u.ctl.state = .standby)
    (hmain : u.pwr.mainGood = true) (hlock : u.pwr.lockedOut = false) (hflash : u.flash = s.flash)
    (hfor : u.pwr.standbyFor = s.pwr.standbyFor) : BroughtUp s u.railUp.mainUp := by
  rw [State.railUp_unpowered hstate, State.mainUp_starts]
  · exact State.enterBoot_bringUp_broughtUp hmain hflash hfor
  · rfl
  · exact hmain
  · exact hlock

theorem State.powered_false {s : State} (h : s.ctl.state = .off ∨ s.ctl.state = .standby) : s.powered = false := by
  rcases h with h | h <;> simp [State.powered, h]

theorem State.powered_not_standby {s : State} (h : s.powered = true) : s.ctl.state ≠ .standby := by
  simp only [State.powered, Bool.and_eq_true, bne_iff_ne] at h
  exact h.2

/-! ### Loss of main input -/

/-- The hold-up record is the newest of the life-history store, of kind 2 with its reason (R775, R828). -/
theorem State.mainLost_flash (s : State) (reason : Nat) :
    ∃ r, (s.mainLost reason).flash = { s.flash with lifeHistory := (r :: s.flash.lifeHistory).take 16384 }
      ∧ (r.drop 8).take 2 = [2, BitVec.ofNat 8 reason] :=
  ⟨_, rfl, State.record_kind _ _ _ _⟩

/-- A shutdown locks main conversion out and loses main input with reason 4, one after 30 s only in an emergency
(R786, R828). -/
theorem exec_shutdown {s : State} (x : ShutdownCause) (hpow : s.powered = true)
    (hem : x = .emergency30s → s.pwr.emergency = true) :
    exec (.shutdown x) s = .next
      (((s.countShutdown (s.pwr.shutdownBits x)).modPwr fun p =>
        { p with lockedOut := true, enableSet := false }).mainLost 4) := by
  refine if_neg ?_
  simp only [hpow, Bool.not_true, Bool.false_or, Bool.and_eq_true, decide_eq_true_eq, Bool.not_eq_true', not_and]
  intro hx
  simp [hem hx]

/-- What a command does that loses main input: the loss happens from a state `u` with the flash and the auxiliary
power of `s`, in which main conversion is locked out if it was, or if a shutdown switched it off. -/
def LosesMain (s : State) (c : Instr) (reason : Nat) : Prop :=
  ∃ u : State, exec c s = .next (u.mainLost reason) ∧ u.flash = s.flash ∧ u.pwr.auxGood = s.pwr.auxGood
    ∧ (u.pwr.lockedOut = true ↔ s.pwr.lockedOut = true ∨ ∃ x, c = .shutdown x)

theorem shutdown_losesMain {s : State} (x : ShutdownCause) (hpow : s.powered = true)
    (hem : x = .emergency30s → s.pwr.emergency = true) : LosesMain s (.shutdown x) 4 :=
  ⟨_, exec_shutdown x hpow hem, rfl, rfl, iff_of_true rfl (.inr ⟨x, rfl⟩)⟩

/-- A command other than a shutdown whose loss happens from a state with the power inputs of `s`. -/
theorem losesMain_of_exec {s u : State} {c : Instr} {reason : Nat} (h : exec c s = .next (u.mainLost reason))
    (hc : ∀ x, c ≠ .shutdown x) (hflash : u.flash = s.flash) (haux : u.pwr.auxGood = s.pwr.auxGood)
    (hlock : u.pwr.lockedOut = s.pwr.lockedOut) : LosesMain s c reason :=
  ⟨u, h, hflash, haux, by rw [hlock]; exact ⟨.inl, fun h => h.resolve_right fun ⟨x, e⟩ => hc x e⟩⟩

theorem undervoltage_losesMain {s : State} (hpow : s.powered = true) : LosesMain s (.lossOfMainInput .voltage) 1 :=
  losesMain_of_exec (if_pos hpow) (fun _ e => nomatch e) rfl rfl rfl

theorem stageShutdown_losesMain {s : State} (hpow : s.powered = true) :
    LosesMain s (.lossOfMainInput .stageFault) 3 :=
  losesMain_of_exec (if_pos hpow) (fun _ e => nomatch e) rfl rfl rfl

theorem presentDeasserted_losesMain {s : State} (hpow : s.powered = true) : LosesMain s .presentDeasserted 2 :=
  losesMain_of_exec (u := s.modPwr fun p => { p with present := false }) (congrArg Host.Outcome.next (if_pos hpow))
    (fun _ e => nomatch e) rfl rfl rfl

theorem stageFault_losesMain {s : State} (hpow : s.powered = true) : LosesMain s .stageFault 3 :=
  losesMain_of_exec (if_pos hpow) (fun _ e => nomatch e) rfl rfl rfl

theorem inputOvercurrent_losesMain {s : State} (hpow : s.powered = true) : LosesMain s .inputOvercurrent 3 :=
  losesMain_of_exec
    (u := (s.modPwr fun p => { p with causes := causeSet p.causes 7 true }).countShutdown [7])
    (if_neg (by simp [hpow])) (fun _ e => nomatch e) rfl rfl rfl

/-! ### Commands of the physical function's ring -/

/-- A command that is ready, in a form and a module state that its opcode permits, acts (R709, R710). -/
theorem State.runPf_ready {s : State} {p : Taken → Bool} {c : CmdForm} {act : State → Taken → Bytes → State} {t : Taken}
    {b : Bytes} (ht : s.takenBy 0 p = some t) (hr : Ready s t b) (hl : c.lenOk t.paramLen = true)
    (ha : c.argsOk t.args = true) (hb : c.blockOk b = true) (hs : c.states.contains s.ctl.state = true) :
    s.runPf p c act = act s t b := by
  obtain ⟨hup, hrsv, hin, hread⟩ := hr
  exact State.runPf_acts hup ht hrsv hin hread hl ha hb hs

/-! ### What the ports' turns leave alone -/

theorem State.driveAll_ctl (s : State) : s.driveAll.ctl = s.ctl :=
  (State.driveAll_keeps (Keeps.refl Part.all s)).ctl rfl

theorem State.driveAll_quorum (s : State) : s.driveAll.sec.quorum = s.sec.quorum := by
  obtain ⟨hquorum, -, -⟩ := (State.driveAll_keeps (Keeps.refl Part.all s)).quorum rfl
  exact hquorum

theorem State.driveAll_k (s : State) : s.driveAll.sec.k = s.sec.k := by
  obtain ⟨-, hk, -⟩ := (State.driveAll_keeps (Keeps.refl Part.all s)).quorum rfl
  exact hk

theorem State.driveAll_nextSeq (s : State) : s.driveAll.sec.nextSeq = s.sec.nextSeq := by
  obtain ⟨-, -, hseq⟩ := (State.driveAll_keeps (Keeps.refl Part.all s)).quorum rfl
  exact hseq

end Sys2Proof.Machine
end

section
/-! PROOFS. The whole-machine statements of the scope family: the data plane, the form after reset. -/

namespace Sys2Proof.Machine

open Sys2Proof.Slice0

/-- The commands that spare less than every part are none of the data plane. -/
theorem spares_of_dataPlane {c : Instr} (h : dataPlane c = true) : spares c = Part.all := by
  cases c with
  | auxPowerGood | auxPowerLost | mainPowerGood | emergencyClear | mainEnable | leakClearExpiry
    | presentAsserted | powerAverageUpdate | aux3v3Retry | sensorFail | powerCap | powerCapTimeout | aux3v3Short
    | senseOpen | fastThrottleAssert | fastThrottleHoldExpiry | presentDeasserted | lossOfMainInput | moduleReset
    | tftpWriteImage | shutdown | inputOvercurrent | stageFault | recoveryListenExpiry | enterService
    | recoveryRequest | conventionalReset | flrPf | stateSet | enterOperational | drainExit | perstDeasserted
    | hostInterfaceReady | quorumSet | expelPort | expelPeer | isolate | liftPort | liftAll | drain | replaceSet
    | reservedQuorumAction | clkCtlWrite | clkEnWrite | referenceFallback | referenceRevert | ownCtlWrite
    | registerWrite | watchdogExpiry | curatorMemoryError | pldmSensor | fwStage | pldmFru | curatorRestartDone
    | stageWriteDone | lifeHistoryHourly | fwStageVerified | stagedVerifyDone | overwriteDone | fwActivate
    | activationHoldExpiry | dhcp | tftpReadStatus | tftpReadLifehist | tftpRetransmit | dhcpLeaseTimeout
    | servicePortLinkUp | bmcPowerCap | emergencyBegin | leakAssert | fill | switch | fillThenSwitch
    | switchQuiesceTimeout | epochDrained | shadowFilled =>
    exact absurd h Bool.false_ne_true
  | _ => rfl

/-- Settles O8: a data-plane command spares every part of the state, and `exec` keeps what a command spares. -/
theorem dataPlaneLeavesControlAlone : Obligations.DataPlaneLeavesControlAlone := by
  intro c s t hexec hplane
  have k := exec_next_keeps c s t hexec
  rw [spares_of_dataPlane hplane] at k
  obtain ⟨hbank0, hbank1, hepoch, hinst⟩ := k.banks rfl
  obtain ⟨hquorum, hk, hseq⟩ := k.quorum rfl
  exact ⟨k.ctl rfl, k.pwr rfl, k.clk rfl, k.own rfl, k.cur rfl, k.flash rfl, k.svc rfl, hbank0, hbank1, hepoch, hinst,
    hquorum, hk, hseq⟩

theorem clocks_reset_legal : Clocks.reset.legal := by
  unfold Clocks.legal
  decide

/-- Settles O5: nothing is written yet, and the clocks and the tick divider have the values of their reset. -/
theorem resetHasMachineForm : Obligations.ResetHasMachineForm where
  memory := rfl
  clocks := clocks_reset_legal
  tick := by decide
  history := by decide

end Sys2Proof.Machine
end

section
/-! PROOFS. Power inputs and loss of main input. -/

namespace Sys2Proof.Machine

open Sys2Proof.Slice0

/-- Auxiliary power unlocks main conversion and raises the standby rail (R5, R786). -/
theorem exec_auxPowerGood {s : State} (h : s.pwr.auxGood = false) :
    exec .auxPowerGood s = .next
      (s.modPwr fun p => { p with auxGood := true, lockedOut := false, enableSet := false }).railUp.mainUp :=
  if_neg (by simp [h])

/-- Main power good reaches a module that is OFF or in STANDBY through the standby rail (R5, R771). -/
theorem exec_mainPowerGood {s : State} (hpres : s.pwr.present = true)
    (hstate : s.ctl.state = .off ∨ s.ctl.state = .standby) :
    exec .mainPowerGood s = .next (s.modPwr fun p => { p with mainGood := true }).railUp.mainUp := by
  have hboot : (s.ctl.state == .boot) = false := by rcases hstate with h | h <;> rw [h] <;> rfl
  show execMainPowerGood s = _
  simp [execMainPowerGood, hpres, hboot, State.powered_false hstate]

/-- Settles O10: each input with its conditions selects one branch of its command. -/
theorem powerInputs : Obligations.PowerInputs := by
  refine ⟨fun s haux hmain => ?_, fun s haux hmain hstate => ?_, fun s hstate hmain => ?_, fun s hpow => ?_,
    fun s => rfl, fun s hpres hlock hstate => ?_, fun s hpres hlock hstate => ?_⟩
  · rw [exec_auxPowerGood haux, State.railUp_mainUp_waits, State.railUp_eq]
    · rfl
    · exact .inl hmain
  · exact ⟨_, exec_auxPowerGood haux, State.railUp_mainUp_broughtUp hstate hmain rfl rfl rfl⟩
  · have hoff : (s.ctl.state == .standby && !s.pwr.mainGood) = true := by simp [hstate, hmain]
    exact ⟨_, congrArg Host.Outcome.next (if_pos hoff), rfl, rfl, rfl, rfl⟩
  · have hon : ¬(s.ctl.state == .standby && !s.pwr.mainGood) = true := by simp [State.powered_not_standby hpow]
    exact congrArg Host.Outcome.next (if_neg hon)
  · exact ⟨_, exec_mainPowerGood hpres hstate, State.railUp_mainUp_broughtUp hstate rfl hlock rfl rfl⟩
  · rw [exec_mainPowerGood hpres hstate, State.railUp_mainUp_waits, State.railUp_unpowered]
    · rfl
    · exact hstate
    · exact .inr hlock

/-- Every source of main input loss, with its reason, loses main input (R771, R772, R786, R828). -/
theorem losesMain_of_source {s : State} (hpow : s.powered = true) {c : Instr} {reason : Nat}
    (h : (c, reason) ∈ [(Instr.lossOfMainInput .voltage, 1), (.presentDeasserted, 2),
        (.lossOfMainInput .stageFault, 3), (.stageFault, 3), (.inputOvercurrent, 3), (.shutdown .dieHotspot, 4),
        (.shutdown .vaultStack, 4), (.shutdown .powerStage, 4), (.shutdown .overvoltage, 4)]
      ∨ s.pwr.emergency = true ∧ c = .shutdown .emergency30s ∧ reason = 4) : LosesMain s c reason := by
  rcases h with h | ⟨hem, rfl, rfl⟩
  · simp only [List.mem_cons, Prod.mk.injEq, List.not_mem_nil, or_false] at h
    rcases h with ⟨rfl, rfl⟩ | ⟨rfl, rfl⟩ | ⟨rfl, rfl⟩ | ⟨rfl, rfl⟩ | ⟨rfl, rfl⟩ | ⟨rfl, rfl⟩ | ⟨rfl, rfl⟩ | ⟨rfl, rfl⟩
      | ⟨rfl, rfl⟩
    · exact undervoltage_losesMain hpow
    · exact presentDeasserted_losesMain hpow
    · exact stageShutdown_losesMain hpow
    · exact stageFault_losesMain hpow
    · exact inputOvercurrent_losesMain hpow
    all_goals exact shutdown_losesMain _ hpow (fun e => nomatch e)
  · exact shutdown_losesMain _ hpow fun _ => hem

/-- Settles O11: every source of the loss ends in `State.mainLost`, from a state with the flash, the auxiliary power
and the lockout that the statement speaks of. -/
theorem mainInputLoss : Obligations.MainInputLoss := by
  intro s hpow c reason hc
  obtain ⟨u, hexec, hflash, haux, hlock⟩ := losesMain_of_source hpow hc
  refine ⟨_, hexec, ?_, rfl, ?_, rfl, rfl, rfl, rfl, rfl, hlock⟩
  · rw [← haux]
    rfl
  · rw [← hflash]
    exact u.mainLost_flash reason

end Sys2Proof.Machine
end

section
/-! PROOFS. Module states on command. -/

namespace Sys2Proof.Machine

open Sys2Proof.Slice0

theorem State.contains_allStates (s : State) :
    ([ModState.off, .standby, .boot, .service, .operational, .drain, .recovery]).contains s.ctl.state = true := by
  cases s.ctl.state <;> rfl

/-- A change of module state sets the state and `changed`, and nothing else of the control record (R721). -/
theorem State.setModState_ctl (s : State) (st : ModState) :
    (s.setModState st).ctl = { s.ctl with state := st, changed := true } :=
  (s.setModState_narrow st).ctl_eq

theorem State.enterDrain_ctl (s : State) :
    s.enterDrain.ctl = { s.ctl with state := .drain, changed := true, lastStatus := stOk } :=
  State.setModState_ctl _ _

theorem State.enterDrain_sec (s : State) : s.enterDrain.sec = s.sec :=
  (State.setModState_narrow _ _).sec_eq

/-- What a STATE_SET that passes the checks of R709 does (R6, R713, R721). -/
theorem exec_stateSet {s : State} {t : Taken} {b : Bytes} (ht : s.takenBy 0 (fun t => t.opcode == 0x02) = some t)
    (hr : Ready s t b) (hlen : t.paramLen = 0) (hargs : argZeroFrom t.args 17 = true) :
    exec .stateSet s = .next (
      if s.ctl.target.isSome then (s.stateStatus stBusy).complete t stBusy 0
      else if argLe t.args 16 1 = 4 && s.ctl.state == .service then
        { s.startTaken t with
          ctl := { s.ctl with target := some .operational, atomicsStopped := true, token := some t } }
      else if argLe t.args 16 1 = 5 && s.ctl.state == .operational then s.enterDrain.complete t stOk 5
      else (s.stateStatus stWrongState).complete t stWrongState 0) :=
  congrArg Host.Outcome.next (State.runPf_ready ht hr (by simp [hlen]) hargs rfl s.contains_allStates)

/-- With no atomic outstanding the module enters OPERATIONAL, and the STATE_SET that waited, if any, completes (R8). -/
theorem exec_enterOperational {s : State} (htarget : s.ctl.target = some .operational)
    (hstate : s.ctl.state = .service) (hout : s.atomicsOut = false) :
    ∃ u, exec .enterOperational s = .next u
      ∧ Narrow (({ s with ctl := { s.ctl with target := none, token := none, atomicsStopped := false,
                                              lastStatus := stOk } } : State).setModState .operational) u := by
  have hgo : ¬(s.ctl.target != some .operational || s.ctl.state != .service || s.atomicsOut) = true := by
    simp [htarget, hstate, hout]
  refine ⟨_, if_neg hgo, ?_⟩
  cases s.ctl.token with
  | none => exact Narrow.refl _
  | some t => exact State.complete_narrow _ _ _ _

/-- Settles O28: the branches of STATE_SET exclude each other, and what completes a command leaves the control record
alone. -/
theorem stateChanges : Obligations.StateChanges := by
  refine ⟨fun s t b ht hr hlen hargs htarget => ⟨fun hstate harg => ?_, fun hstate harg => ?_, fun h4 h5 => ?_⟩,
    fun s htarget hstate hout => ?_, fun s _ _ hout => ?_, fun s hstate hfree => ?_⟩
  · exact ⟨_, (exec_stateSet ht hr hlen hargs).trans (congrArg Host.Outcome.next
      ((if_neg (by simp [htarget])).trans (if_pos (by simp [hstate, harg])))), rfl, rfl⟩
  · have hctl : (s.enterDrain.complete t stOk 5).ctl = _ :=
      (State.complete_narrow _ _ _ _).ctl_eq.trans s.enterDrain_ctl
    refine ⟨s.enterDrain.complete t stOk 5, ?_, ?_⟩
    · rw [exec_stateSet ht hr hlen hargs, if_neg (by simp [htarget]), if_neg (by simp [harg]),
        if_pos (by simp [hstate, harg])]
    · rw [hctl]
      exact ⟨rfl, rfl, rfl⟩
  · rw [exec_stateSet ht hr hlen hargs, if_neg (by simp [htarget]), if_neg (by simpa [and_comm] using h4),
      if_neg (by simpa [and_comm] using h5)]
    rfl
  · obtain ⟨u, hexec, hu⟩ := exec_enterOperational htarget hstate hout
    refine ⟨u, hexec, ?_⟩
    rw [hu.ctl_eq, State.setModState_ctl]
    exact ⟨rfl, rfl, rfl, rfl, rfl⟩
  · exact if_pos (by simp [hout])
  · refine ⟨_, if_pos (by simp [hstate, hfree]), ?_⟩
    rw [State.setModState_ctl]
    exact ⟨rfl, rfl⟩

end Sys2Proof.Machine
end

section
/-! PROOFS. The quorum set and quorum actions. -/

namespace Sys2Proof.Machine

open Sys2Proof.Slice0

/-! ### The set -/

theorem State.installSet_narrow (s : State) (b : Bytes) :
    Narrow { s with sec := { s.sec with quorum := (List.range (getLe b 0 1)).map fun i => sliceB b (8 + 96 * i) 96
                                        k := getLe b 1 1 } } (s.installSet b) :=
  State.measChanged_narrow _ _

/-! ### Requests -/

/-- What a request is answered, and the state that it leaves (R668, R670). -/
def State.quorumAnswer (s : State) (b : Bytes) : State × Nat :=
  if quorumForm b then s.quorumRequest b else (s, stMalformed)

/-- The commands of the quorum actions, with their action codes (R670). -/
abbrev quorumCommands : List ((QuorumVia → Instr) × Nat) :=
  [(Instr.expelPort, 1), (.expelPeer, 2), (.isolate, 3), (.liftPort, 4), (.liftAll, 5), (.drain, 6), (.replaceSet, 7)]

theorem exec_quorumAction {c : QuorumVia → Instr} {a : Nat} (h : (c, a) ∈ quorumCommands) (via : QuorumVia)
    (s : State) : exec (c via) s = .next (s.quorumRow (· == a) via) := by
  simp only [quorumCommands, List.mem_cons, Prod.mk.injEq, List.not_mem_nil, or_false] at h
  rcases h with ⟨rfl, rfl⟩ | ⟨rfl, rfl⟩ | ⟨rfl, rfl⟩ | ⟨rfl, rfl⟩ | ⟨rfl, rfl⟩ | ⟨rfl, rfl⟩ | ⟨rfl, rfl⟩ <;> rfl

/-- A request of the sideband is answered there (R758). -/
theorem State.quorumRow_i3c {s : State} {mine : Nat → Bool} {b : Bytes} (hup : s.cur.up = true)
    (hs : s.serving = true) (hmine : mine (getLe b 0 1) = true) :
    s.quorumRow mine (.i3c b) =
      ((s.quorumAnswer b).1.out (.i3c "QUORUM_REQUEST" (natLe 1 (s.quorumAnswer b).2))).driveAll :=
  if_neg (by simp [hup, hs, hmine])

/-- A request of the command ring is completed there (R668). -/
theorem State.quorumRow_ring {s : State} {mine : Nat → Bool} {t : Taken} {b : Bytes}
    (ht : s.takenBy 0 (fun t => t.opcode == 0x19 && mine (leNat (s.vmBytes t.blockVpa 1))) = some t)
    (hr : Ready s t b) (hlen : 164 ≤ t.paramLen) (hargs : noArgs t.args = true) (hs : s.serving = true) :
    s.quorumRow mine .ring = ((s.quorumAnswer b).1.complete t (s.quorumAnswer b).2 0).driveAll :=
  State.runPf_ready ht hr (decide_eq_true hlen) hargs rfl (State.serving_state s hs)

theorem State.quorumAnswer_authorised {s : State} {b : Bytes} (h : Authorised s b) : s.quorumAnswer b = acted s b := by
  obtain ⟨hform, hset, hnode, hseq, hk⟩ := h
  exact (if_pos hform).trans ((if_neg (by simp [hset])).trans (if_pos (by simp [hnode, hseq, hk])))

/-- A request for another module, out of sequence or short of signatures is recorded, and nothing more (R667, R669). -/
theorem State.quorumAnswer_unauthorised {s : State} {b : Bytes} (hform : quorumForm b = true) (hset : s.sec.quorum ≠ [])
    (h : getLe b 4 2 ≠ s.node ∨ getLe b 8 4 ≠ s.sec.nextSeq ∨ s.signers b < s.sec.k) :
    s.quorumAnswer b = (s.quorumRecord b stUnauthorised (s.signers b), stUnauthorised) := by
  have hno : ¬(getLe b 4 2 = s.node && getLe b 8 4 = s.sec.nextSeq && s.sec.k ≤ s.signers b) = true := by
    simp only [Bool.and_eq_true, decide_eq_true_eq]
    omega
  exact (if_pos hform).trans ((if_neg (by simp [hset])).trans (if_neg hno))

theorem quorumForm_action {b : Bytes} (h : quorumForm b = true) : 1 ≤ getLe b 0 1 ∧ getLe b 0 1 ≤ 7 := by
  simp only [quorumForm, Bool.and_eq_true, decide_eq_true_eq, and_assoc] at h
  obtain ⟨hlo, hhi, -⟩ := h
  exact ⟨hlo, hhi⟩

theorem State.quorumAnswer_reserved {s : State} {b : Bytes} (h : getLe b 0 1 = 0 ∨ 7 < getLe b 0 1) :
    s.quorumAnswer b = (s, stMalformed) :=
  if_neg fun hform => by
    have := quorumForm_action hform
    omega

/-! ### Effects -/

/-- The state in which an authorised action takes effect: the sequence has advanced and the request is recorded. -/
def recorded (s : State) (b : Bytes) : State :=
  ({ s with sec := { s.sec with nextSeq := (s.sec.nextSeq + 1) % 2 ^ 32 } } : State).quorumRecord b stOk (s.signers b)

theorem recorded_narrow (s : State) (b : Bytes) :
    Narrow { s with sec := { s.sec with nextSeq := (s.sec.nextSeq + 1) % 2 ^ 32 } } (recorded s b) :=
  State.incident_narrow _ _ _

theorem acted_drain {s : State} {b : Bytes} (ha : getLe b 0 1 = 6) (htarget : s.ctl.target = none)
    (hstate : s.ctl.state = .operational) : acted s b = ((recorded s b).enterDrain, stOk) := by
  have hctl : (recorded s b).ctl = s.ctl := (recorded_narrow s b).ctl_eq
  show (recorded s b).quorumAct (getLe b 0 1) b = _
  rw [ha]
  show (recorded s b).quorumDrain = _
  simp [State.quorumDrain, hctl, htarget, hstate]

theorem acted_replaceSet {s : State} {b : Bytes} (ha : getLe b 0 1 = 7) :
    acted s b = ((recorded s b).installSet (b.drop (quorumLen b)), stOk) := by
  show (recorded s b).quorumAct (getLe b 0 1) b = _
  rw [ha]
  rfl

/-- An authorised action over the sideband. -/
theorem exec_authorised_i3c {c : QuorumVia → Instr} {a : Nat} (h : (c, a) ∈ quorumCommands) {s : State} {b : Bytes}
    (ha : getLe b 0 1 = a) (hup : s.cur.up = true) (hs : s.serving = true) (hauth : Authorised s b) :
    exec (c (.i3c b)) s = .next (((acted s b).1.out (.i3c "QUORUM_REQUEST" (natLe 1 (acted s b).2))).driveAll) := by
  rw [exec_quorumAction h, State.quorumRow_i3c hup hs (by simp [ha]), State.quorumAnswer_authorised hauth]

/-- Settles O47: both paths give the same answer of `State.quorumRequest`, and the turns of the ports that follow it
leave the control record and the quorum set alone. -/
theorem quorumActions : Obligations.QuorumActions := by
  refine ⟨fun s b c a hc ha hup hs hauth => ⟨exec_authorised_i3c hc ha hup hs hauth, fun t ht hr hlen hargs => ?_⟩,
    fun s b ha hup hs hauth htarget hstate => ?_, fun s b ha hup hs hauth => ?_,
    fun s b ha hup hs hform hset hbad => ?_, fun s b ha hup hs => ?_, fun s t b ht hr hlo hhi hargs hbody hstate => ?_⟩
  · rw [exec_quorumAction hc, State.quorumRow_ring ht hr hlen hargs hs, State.quorumAnswer_authorised hauth]
  · refine ⟨_, exec_authorised_i3c (c := .drain) (a := 6) (by simp) ha hup hs hauth, ?_, ?_⟩
    · rw [State.driveAll_ctl, acted_drain ha htarget hstate]
      show (recorded s b).enterDrain.ctl = _
      rw [State.enterDrain_ctl, (recorded_narrow s b).ctl_eq]
    · rw [State.driveAll_nextSeq, acted_drain ha htarget hstate]
      show (recorded s b).enterDrain.sec.nextSeq = _
      rw [State.enterDrain_sec, (recorded_narrow s b).sec_eq]
  · have hin := State.installSet_narrow (recorded s b) (b.drop (quorumLen b))
    refine ⟨_, exec_authorised_i3c (c := .replaceSet) (a := 7) (by simp) ha hup hs hauth, ?_, ?_, ?_⟩
    · rw [State.driveAll_ctl, acted_replaceSet ha]
      exact hin.ctl_eq.trans (recorded_narrow s b).ctl_eq
    · rw [State.driveAll_k, acted_replaceSet ha]
      exact congrArg Sec.k hin.sec_eq
    · rw [State.driveAll_quorum, acted_replaceSet ha]
      show ((recorded s b).installSet (b.drop (quorumLen b))).sec.quorum.length = _
      rw [hin.sec_eq, List.length_map, List.length_range]
  · rw [exec_quorumAction (c := .expelPort) (a := 1) (by simp), State.quorumRow_i3c hup hs (by simp [ha]),
      State.quorumAnswer_unauthorised hform hset hbad]
  · have hmine : (getLe b 0 1 == 0 || decide (7 < getLe b 0 1)) = true := by simpa using ha
    show Host.Outcome.next (s.quorumRow (fun a => a == 0 || 7 < a) (.i3c b)) = _
    rw [State.quorumRow_i3c hup hs hmine, State.quorumAnswer_reserved ha]
  · have hin := (State.installSet_narrow s b).trans (State.complete_narrow _ t stOk 0)
    have hlen : (decide (104 ≤ t.paramLen) && decide (t.paramLen ≤ 680)) = true := by simp [hlo, hhi]
    exact ⟨_, congrArg Host.Outcome.next (State.runPf_ready ht hr hlen hargs hbody (by rw [hstate]; rfl)), hin.sec_eq,
      hin.ctl_eq⟩

end Sys2Proof.Machine
end

section
/-! PROOFS. Register writes through the physical function. -/

namespace Sys2Proof.Machine

open Sys2Proof.Slice0

theorem State.serving_of_barOpen {s : State} {f : Nat} (h : s.barOpen f = true) : s.serving = true := by
  simp only [State.barOpen, Bool.and_eq_true, and_assoc] at h
  obtain ⟨hserving, -⟩ := h
  exact hserving

/-- The passage that BOOT and RECOVERY leave to MOD_STATE is no case of a module that serves (R722). -/
theorem State.modStateOpen_serving {s : State} (h : s.serving = true) (f off : Nat) : s.modStateOpen f off = false := by
  simp only [State.serving, Bool.or_eq_true, beq_iff_eq] at h
  rcases h with (h | h) | h <;> simp [State.modStateOpen, h]

/-- Where the physical function's BARs answer, a write takes its effect and the waiting packets move on. -/
theorem exec_registerWrite_pf {s : State} (h : s.barOpen 0 = true) (off size : Nat) (v : Word) :
    exec (.registerWrite 0 off size v) s = .next (s.regWrite 0 off size v).driveAll := by
  show (if s.modStateOpen 0 off then _ else if s.barOpen 0 then _ else _) = _
  rw [State.modStateOpen_serving (State.serving_of_barOpen h), h]
  rfl

/-- An aligned write of eight bytes puts the whole value (R20). -/
theorem State.regWrite_pf_aligned (s : State) {off : Nat} (h : off % 8 = 0) (v : Word) :
    s.regWrite 0 off 8 v = s.pfPut off (fun _ => v) true true := by
  have hat : off / 8 * 8 = off := Nat.div_mul_cancel (Nat.dvd_of_mod_eq_zero h)
  simp [State.regWrite, h, hat, merge_full]

/-- A misaligned write of eight bytes changes nothing (R21). -/
theorem State.regWrite_misaligned (s : State) (f : Nat) {off : Nat} (h : off % 8 ≠ 0) (v : Word) :
    s.regWrite f off 8 v = s := by
  simp [State.regWrite, h]

/-- An offset in the page of a port whose clock is on reaches that port (R22, R850). -/
theorem State.pfPut_port {s : State} {p o : Nat} (hp : p < 48) (ho : o < 0x10000) (hon : s.portOn p = true)
    (w : Nat → Word) (lo hi : Bool) :
    s.pfPut (0x01000000 + 0x10000 * p + o) w lo hi = s.portPut p o w lo hi := by
  have hpage : ¬0x01000000 + 0x10000 * p + o < 0x01000000 := by omega
  have hports : 0x01000000 + 0x10000 * p + o < 0x01300000 := by omega
  have hport : (0x01000000 + 0x10000 * p + o - 0x01000000) / 0x10000 = p := by omega
  have hoff : (0x01000000 + 0x10000 * p + o) % 0x10000 = o := by omega
  simp only [State.pfPut, State.clocked, if_neg hpage, if_pos hports, hport, hoff, hon]
  rfl

/-- Settles O21: the write reaches its register's block, and all eight bytes are covered. -/
theorem registerWrites : Obligations.RegisterWrites := by
  intro s v hbar
  refine ⟨?_, fun hclk => ?_, fun hclk => ?_, fun hclk => ?_, fun p hp hon => ?_, fun off hoff => ?_⟩
  all_goals rw [exec_registerWrite_pf hbar]
  · rw [State.regWrite_pf_aligned s rfl]
    rfl
  · rw [State.regWrite_pf_aligned s rfl]
    simp [State.pfPut, State.clocked, hclk, State.vaultPut, nonzero]
  · rw [State.regWrite_pf_aligned s rfl]
    simp [State.pfPut, State.clocked, hclk, State.corePut, State.modSwc, Swc.putCtl, nonzero, within]
  · rw [State.regWrite_pf_aligned s rfl]
    simp [State.pfPut, State.clocked, hclk]
  · have hoff : 0x01000010 + 0x10000 * p = 0x01000000 + 0x10000 * p + 0x10 := by omega
    rw [State.regWrite_pf_aligned s (by omega), hoff, State.pfPut_port hp (by decide) hon]
    simp [State.portPut, Link.putCfg, nonzero, within]
  · rw [State.regWrite_misaligned s 0 hoff]

end Sys2Proof.Machine
end

section
/-! SUPPORT. Shared rules for packets of the attached end-point: authentication, and what a request or a completion does
once it is authenticated. -/

namespace Sys2Proof.Machine

open Sys2Proof.Slice0

/-! ### Authentication -/

/-- What R48 and R51 ask of a packet: an installed slot, its current generation and a counter above the last accepted
one; then the payload in plaintext, if the tag verifies. -/
def State.epPlain (s : State) (p : Nat) (e : EHdr) (payload tag : Bytes) : Option Bytes :=
  let k := (s.docent p).slot e.slot
  if k.installed = true ∧ k.gen = e.keyGen ∧ k.rxCtr < e.counter then
    gcmOpen k.key (epNonce e 0) (headerBytes e.enc) payload tag
  else none

/-- A packet that authenticates moves its slot's counter (R51). -/
theorem State.epAuth_some {s : State} {p : Nat} {e : EHdr} {payload tag plain : Bytes}
    (h : s.epPlain p e payload tag = some plain) :
    s.epAuth p e payload tag =
      (s.modDocent p fun d => d.modSlot e.slot fun k => { k with rxCtr := e.counter }, some plain) := by
  simp only [State.epPlain] at h
  simp [State.epAuth, and_assoc, h]

/-- A packet that does not authenticate is counted (R51). -/
theorem State.epAuth_none {s : State} {p : Nat} {e : EHdr} {payload tag : Bytes}
    (h : s.epPlain p e payload tag = none) :
    s.epAuth p e payload tag = (s.modDocent p fun d => { d with authFail := (d.authFail + 1) % 2 ^ 32 }, none) := by
  simp only [State.epPlain] at h
  simp only [State.epAuth, Bool.and_eq_true, beq_iff_eq, decide_eq_true_eq, and_assoc, h]
  rfl

/-! ### Requests -/

section
variable {s u : State} {p op : Nat} {hdr : Header} {payload tag plain : Bytes}
  (hop : (EHdr.dec hdr).opcode = op)
  (hauth : (s.takeEp p hdr payload).epAuth p (EHdr.dec hdr) payload tag = (u, some plain))
include hop hauth

theorem State.epRequest_busy (hbusy : u.tagBusy p (EHdr.dec hdr).tag = true) :
    s.epRequest op p hdr payload tag = u.protoErr p := by
  simp [State.epRequest, hop, hauth, hbusy]

theorem State.epRequest_malformed (hfree : u.tagBusy p (EHdr.dec hdr).tag = false)
    (hform : epWellFormed (EHdr.dec hdr) plain = false) :
    s.epRequest op p hdr payload tag =
      u.epComplete p ((u.slotOwner p (EHdr.dec hdr).slot).getD 0) (EHdr.dec hdr) stMalformed [] := by
  simp [State.epRequest, hop, hauth, hfree, hform]

theorem State.epRequest_refused (hfree : u.tagBusy p (EHdr.dec hdr).tag = false)
    (hform : epWellFormed (EHdr.dec hdr) plain = true) {st : Nat}
    (hbind : u.epBinding p (EHdr.dec hdr) = some st) :
    s.epRequest op p hdr payload tag =
      u.epComplete p ((u.slotOwner p (EHdr.dec hdr).slot).getD 0) (EHdr.dec hdr) st [] := by
  simp [State.epRequest, hop, hauth, hfree, hform, hbind]

/-- A request that passes items 1 to 3 of R66 enters the list of its port, and moves on. -/
theorem State.epRequest_accepted (hfree : u.tagBusy p (EHdr.dec hdr).tag = false)
    (hform : epWellFormed (EHdr.dec hdr) plain = true)
    (hbind : u.epBinding p (EHdr.dec hdr) = none) :
    s.epRequest op p hdr payload tag =
      (u.modDocent p fun d => { d with reqs := d.reqs ++
        [{ tag := (EHdr.dec hdr).tag, hdr := hdr, payload := plain
           gal := (u.ctx (ctxIdx p (EHdr.dec hdr).ctx)).gal, pasid := (u.ctx (ctxIdx p (EHdr.dec hdr).ctx)).pasid
           sent := false, successes := 0 }] }).epAdvance p (EHdr.dec hdr).tag := by
  simp [State.epRequest, hop, hauth, hfree, hform, hbind]

end

/-- The line requests, SYNC and ATOMIC are one operation, each for its opcode (R53, R66). -/
theorem exec_epRequest {c : Instr} {op : Nat} {p : Port} {hdr : Header} {payload tag : Bytes}
    (h : (c, op) ∈ [(Instr.load p hdr payload tag, 1), (.store p hdr payload tag, 2),
      (.storeMasked p hdr payload tag, 3), (.sync p hdr payload tag, 4), (.atomic p hdr payload tag, 6)]) (s : State) :
    exec c s = .next (s.epRequest op p.val hdr payload tag) := by
  simp only [List.mem_cons, Prod.mk.injEq, List.not_mem_nil, or_false] at h
  rcases h with ⟨rfl, rfl⟩ | ⟨rfl, rfl⟩ | ⟨rfl, rfl⟩ | ⟨rfl, rfl⟩ | ⟨rfl, rfl⟩ <;> rfl

/-! ### LAUNCH and reserved opcodes -/

section
variable {s u : State} {p : Port} {hdr : Header} {payload tag plain : Bytes}
  (hauth : (s.takeEp p.val hdr payload).epAuth p.val (EHdr.dec hdr) payload tag = (u, some plain))
include hauth

theorem exec_launch_busy (hop : (EHdr.dec hdr).opcode = eoLaunch)
    (hbusy : u.tagBusy p.val (EHdr.dec hdr).tag = true) :
    exec (.launch p hdr payload tag) s = .next (u.protoErr p.val) := by
  show execLaunch p hdr payload tag s = _
  simp [execLaunch, hop, hauth, hbusy]

theorem exec_reservedOpcode_busy (hop : epOpcodeKnown (EHdr.dec hdr).opcode = false)
    (hbusy : u.tagBusy p.val (EHdr.dec hdr).tag = true) :
    exec (.reservedOpcode p hdr payload tag) s = .next (u.protoErr p.val) := by
  show execReservedOpcode p hdr payload tag s = _
  simp [execReservedOpcode, hop, hauth, hbusy]

/-- A request of an unknown opcode is answered by the first check of R66 that it fails, else with UNSUPPORTED (R53). -/
theorem exec_reservedOpcode_answered (hop : epOpcodeKnown (EHdr.dec hdr).opcode = false)
    (hfree : u.tagBusy p.val (EHdr.dec hdr).tag = false) :
    exec (.reservedOpcode p hdr payload tag) s = .next
      (u.epComplete p.val ((u.slotOwner p.val (EHdr.dec hdr).slot).getD 0) (EHdr.dec hdr)
        (if (EHdr.dec hdr).rsv = true ∨ (EHdr.dec hdr).linesM1 ≠ 0 then stMalformed
         else (u.epBinding p.val (EHdr.dec hdr)).getD stUnsupported) []) := by
  show execReservedOpcode p hdr payload tag s = _
  simp [execReservedOpcode, hop, hauth, hfree]

end

/-! ### Completions -/

/-- The bytes that an OK completion of a target request carries (R62). -/
def TgtReq.answerLen (q : TgtReq) : Nat :=
  if q.opcode = eoTRead then 128 * (FHdr.dec q.hdr).lines else if q.opcode = eoTAtomic then 8 else 0

/-- The status of a completion as R64 reduces it: OK of the length asked for, ADDR_ERROR, or DATA_ERROR. -/
def TgtReq.reduced (q : TgtReq) (word len : Nat) : Nat :=
  if word % 256 = stOk then (if len = q.answerLen then stOk else stDataError)
  else if word % 256 = stAddrError then stAddrError else stDataError

/-- A completion that matches a target request by tag and opcode answers it and frees its tag (R62, R64). -/
theorem State.targetDone_matched {s u : State} {p op : Nat} {hdr : Header} {payload tag plain : Bytes} {q : TgtReq}
    (hop : (EHdr.dec hdr).opcode = op)
    (hauth : (s.takeEp p hdr payload).epAuth p (EHdr.dec hdr) payload tag = (u, some plain))
    (hfind : ((u.docent p).tgts.find? fun q => q.tag == (EHdr.dec hdr).tag) = some q) (hq : q.opcode + 0x80 = op) :
    s.targetDone op p hdr payload tag =
      (u.modDocent p fun d => { d with tgts := removeFirst (fun x => x.tag == (EHdr.dec hdr).tag) d.tgts }).targetAnswer
        p q (q.reduced (EHdr.dec hdr).word plain.length) plain := by
  simp [State.targetDone, hop, hauth, hfind, hq]
  rfl

theorem exec_targetDone {c : Instr} {op : Nat} {p : Port} {hdr : Header} {payload tag : Bytes}
    (h : (c, op) ∈ [(Instr.tReadData p hdr payload tag, 0xC1), (.tWriteDone p hdr payload tag, 0xC2),
      (.tMaskedDone p hdr payload tag, 0xC3), (.tAtomicDone p hdr payload tag, 0xC6)]) (s : State) :
    exec c s = .next (s.targetDone op p.val hdr payload tag) := by
  simp only [List.mem_cons, Prod.mk.injEq, List.not_mem_nil, or_false] at h
  rcases h with ⟨rfl, rfl⟩ | ⟨rfl, rfl⟩ | ⟨rfl, rfl⟩ | ⟨rfl, rfl⟩ <;> rfl

/-- A target request that fails is answered as a write that fails, whatever it asked for (R64). -/
theorem State.targetAnswer_failed (s : State) (p : Nat) (q : TgtReq) {status : Nat} (h : status ≠ stOk)
    (payload : Bytes) : s.targetAnswer p q status payload = s.writeFailed p (FHdr.dec q.hdr) q.xfer status :=
  if_pos h

theorem exec_targetTimeout {s : State} {p : Port} {tag : BitVec 10} {q : TgtReq}
    (hfind : ((s.docent p.val).tgts.find? fun q => q.tag == tag.toNat) = some q) :
    exec (.targetTimeout p tag) s = .next
      ((s.modDocent p.val fun d =>
        { d with tgts := removeFirst (fun x => x.tag == tag.toNat) d.tgts }).targetAnswer p.val q stLost []) := by
  show execTargetTimeout p tag s = _
  simp [execTargetTimeout, hfind]

end Sys2Proof.Machine
end

section
/-! PROOFS. Packets of the attached end-point. -/

namespace Sys2Proof.Machine

open Sys2Proof.Slice0

/-- Settles O51: authentication selects one of two updates of the port's docent, and each check of R66 that follows
selects one branch of the command. -/
theorem endpointPackets : Obligations.EndpointPackets := by
  refine ⟨fun s p e payload tag => ?_, fun s p hdr payload tag c op hc hop u plain hauth => ?_,
    fun s p hdr payload tag u plain hop hauth hfree => ?_, fun s p hdr payload tag u plain hauth hbusy => ?_,
    fun s p hdr payload tag c op hc hop u plain q hauth hfind hq => ?_, fun s p tag q hfind => ?_⟩
  · cases hplain : s.epPlain p e payload tag with
    | some plain =>
      rw [State.epAuth_some hplain]
      refine ⟨hplain.symm, fun _ => ?_, fun h => nomatch h⟩
      simp only [State.docent_modDocent, Docent.slot_modSlot]
    | none =>
      rw [State.epAuth_none hplain]
      exact ⟨hplain.symm, fun h => absurd rfl h, fun _ => State.docent_modDocent _ _ _⟩
  · rw [exec_epRequest hc]
    refine ⟨fun hbusy => ?_, fun hfree hform => ?_, fun hfree hform => ⟨fun st hbind => ?_, fun hbind => ?_⟩⟩
    · rw [State.epRequest_busy hop hauth hbusy]
    · rw [State.epRequest_malformed hop hauth hfree hform]
    · rw [State.epRequest_refused hop hauth hfree hform hbind]
    · rw [State.epRequest_accepted hop hauth hfree hform hbind]
      rfl
  · dsimp only
    rw [exec_reservedOpcode_answered hauth hop hfree]
    refine ⟨fun hbad => ?_, fun hrsv hlines => ?_⟩
    · rw [if_pos hbad]
    · rw [if_neg (by simp [hrsv, hlines])]
      exact ⟨fun st hbind => by rw [hbind]; rfl, fun hbind => by rw [hbind]; rfl⟩
  · exact ⟨fun hop => exec_launch_busy hauth hop hbusy, fun hop => exec_reservedOpcode_busy hauth hop hbusy, rfl⟩
  · dsimp only
    rw [exec_targetDone hc, State.targetDone_matched hop hauth hfind hq]
    refine ⟨fun hst hlen => ?_, fun hst => ?_, fun hok haddr => ?_⟩
    · have hlen : plain.length = q.answerLen := hlen
      rw [TgtReq.reduced, if_pos hst, if_pos hlen]
    · have hok : ¬stAddrError = stOk := by decide
      rw [TgtReq.reduced, hst, if_neg hok, if_pos rfl]
    · rw [TgtReq.reduced, if_neg hok, if_neg haddr]
  · rw [exec_targetTimeout hfind, State.targetAnswer_failed _ _ _ (by decide)]

end Sys2Proof.Machine
end

section
/-! SUPPORT. Shared rules for fabric requests: a packet that arrives, a request at the module's own node id, and a WAIT
that is withdrawn or expires. -/

namespace Sys2Proof.Machine

open Sys2Proof.Slice0

/-- What holds of the unlisted value and of every value that `f` gives holds of whatever a mapped table reads as. -/
theorem Tab.get_mapVals_of {α : Type} [DecidableEq α] {d : α} {f : Nat → α → α} {P : α → Prop} (hd : P d)
    (hf : ∀ k v, P (f k v)) (t : Tab α) (k : Nat) : P (Tab.get d (Tab.mapVals d f t) k) := by
  induction t with
  | nil => exact hd
  | cons e t ih =>
    obtain ⟨k', v⟩ := e
    by_cases hv : f k' v = d
    · have hskip : Tab.mapVals d f ((k', v) :: t) = Tab.mapVals d f t := by simp [Tab.mapVals, hv]
      rwa [hskip]
    · have hkeep : Tab.mapVals d f ((k', v) :: t) = (k', f k' v) :: Tab.mapVals d f t := by simp [Tab.mapVals, hv]
      rw [hkeep, Tab.get]
      split
      · exact hf k' v
      · exact ih

/-! ### Arrival -/

/-- A packet that arrives is accepted, and its check changes nothing (R651, R674, R807). -/
theorem State.acceptPacket_arrives {s : State} {ft : Nat} {k : FabPkt} {b : Bytes} (h : Arrives s ft k b) :
    (s.unqueue k.hdr k.payload).acceptPacket (FHdr.dec k.hdr) k.payload k.tag
      = (s.unqueue k.hdr k.payload, some b) := by
  obtain ⟨-, hepoch, hkeys, -, hplain⟩ := h
  have hepoch : (s.unqueue k.hdr k.payload).epochUsable (FHdr.dec k.hdr).epoch = true := hepoch
  have hkeys : (s.unqueue k.hdr k.payload).keysGone (FHdr.dec k.hdr).gallery = false := hkeys
  have hplain : (if (FHdr.dec k.hdr).srcNode = (s.unqueue k.hdr k.payload).node then some k.payload
      else (s.unqueue k.hdr k.payload).openFab (FHdr.dec k.hdr) 0 k.payload k.tag) = some b := hplain
  simp [State.acceptPacket, hepoch, hkeys, hplain]

/-- A packet that is only acknowledged, and that arrives, has its effect once it is off the list of arrivals (R277). -/
theorem State.takeOnce_arrives {s : State} {ft : Nat} {k : FabPkt} {b : Bytes} (h : Arrives s ft k b)
    {mine : Bytes → Bool} (hmine : mine b = true) (inp : FHdr → Nat) (act : State → FHdr → Bytes → State) :
    s.takeOnce ft inp mine k act = (act (s.unqueue k.hdr k.payload) (FHdr.dec k.hdr) b).ackWrite
      (inp (FHdr.dec k.hdr)) (FHdr.dec k.hdr) := by
  have haccept := State.acceptPacket_arrives h
  obtain ⟨hft, -, -, hnew, -⟩ := h
  have hnew : ((s.unqueue k.hdr k.payload).window (FHdr.dec k.hdr)).isDup (FHdr.dec k.hdr).dseq = false := hnew
  simp [State.takeOnce, hft, haccept, hmine, hnew]

/-! ### Requests at the module's own node id -/

section
variable {s u : State} {h : FHdr} {hdr : Header} {payload tag plain : Bytes} {xfer : Option (Nat × Nat)}

theorem State.answerIn_local (hlocal : s.isLocal h = true) : s.answerIn h = localIn h.fpa := if_pos hlocal

/-- Nothing waits for an end-point at the module's own node id. -/
theorem State.inFlight_local (hlocal : s.isLocal h = true) : s.inFlight h = false := by
  simp [State.inFlight, hlocal]

/-- A read of a shelf whose range is free of errors (R476, R496). -/
theorem exec_read_local (hrecv : s.receive ftRead hdr payload tag = (u, some (h, plain)))
    (hlocal : u.isLocal h = true) (hdest : u.destCheck { h with param := 0 } (128 * h.lines) = none)
    (hclean : u.badIn (vpaShelf (fpaOff h.fpa)) (128 * h.lines) = []) :
    exec (.read hdr payload tag) s = .next ((u.handled h).respond (localIn h.fpa) h ftData stOk
      (u.vmBytes (vpaShelf (fpaOff h.fpa)) (128 * h.lines))) := by
  show execRead hdr payload tag s = _
  simp [execRead, hrecv, hdest, hlocal, State.vmRead_clean _ _ _ hclean, State.answerIn_local hlocal]

/-! ### Writes -/

theorem State.writeRequest_dup (hdup : (s.window h).isDup h.dseq = true) (shelf target : State → State × Bool)
    (keep : State) : s.writeRequest h xfer shelf target keep = s.ackAgain (s.answerIn h) h :=
  if_pos hdup

theorem State.writeRequest_refused (hnew : (s.window h).isDup h.dseq = false) (hlocal : s.isLocal h = true)
    (harv : s.arvWaits h xfer = false) {st : Nat} (hdest : s.destCheck h (128 * h.lines) = some st)
    (shelf target : State → State × Bool) (keep : State) :
    s.writeRequest h xfer shelf target keep = s.writeFailed (localIn h.fpa) h xfer st := by
  simp [State.writeRequest, hnew, State.inFlight_local hlocal, harv, hdest, State.answerIn_local hlocal]

theorem State.writeRequest_stored (hnew : (s.window h).isDup h.dseq = false) (hlocal : s.isLocal h = true)
    (harv : s.arvWaits h xfer = false) (hdest : s.destCheck h (128 * h.lines) = none)
    {shelf : State → State × Bool} {v : State} (hshelf : shelf s = (v, true)) (target : State → State × Bool)
    (keep : State) : s.writeRequest h xfer shelf target keep = v.committed (localIn h.fpa) h xfer := by
  simp [State.writeRequest, hnew, State.inFlight_local hlocal, harv, hdest, hlocal, hshelf,
    State.answerIn_local hlocal]

theorem exec_write_received (hrecv : s.receive ftWrite hdr payload tag = (u, some (h, plain))) :
    ∃ target keep, exec (.write hdr payload tag xfer) s = .next (u.writeRequest h xfer
      (fun s => (s.vmWrite (vpaShelf (fpaOff h.fpa)) (sliceB plain 0 (128 * h.lines)), true)) target keep) := by
  show ∃ target keep, execWrite hdr payload tag xfer s = _
  simp only [execWrite, hrecv]
  exact ⟨_, _, rfl⟩

theorem exec_zeroRun_received (hrecv : s.receive ftZeroRun hdr payload tag = (u, some (h, plain))) :
    ∃ target keep, exec (.zeroRun hdr payload tag xfer) s = .next (u.writeRequest h xfer
      (fun s => (s.vmZero (vpaShelf (fpaOff h.fpa)) (128 * h.lines), true)) target keep) := by
  show ∃ target keep, execZeroRun hdr payload tag xfer s = _
  simp only [execZeroRun, hrecv]
  exact ⟨_, _, rfl⟩

/-- A masked write is of one line, whatever its header counts (R496). -/
theorem exec_writeMasked_received (hrecv : s.receive ftWriteMasked hdr payload tag = (u, some (h, plain))) :
    ∃ target keep, exec (.writeMasked hdr payload tag xfer) s = .next (u.writeRequest { h with lines := 1 } xfer
      (fun s => s.shelfMasked (vpaShelf (fpaOff h.fpa)) (sliceB (sliceB plain 0 144) 0 16)
        (sliceB (sliceB plain 0 144) 16 128)) target keep) := by
  show ∃ target keep, execWriteMasked hdr payload tag xfer s = _
  simp only [execWriteMasked, hrecv]
  exact ⟨_, _, rfl⟩

/-- WRITE and ZERO_RUN are writes that differ in what they put at the shelf. -/
theorem exec_lineWrite_received {c : Instr} {ft : Nat}
    (hc : (c, ft) ∈ [(Instr.write hdr payload tag xfer, ftWrite), (.zeroRun hdr payload tag xfer, ftZeroRun)])
    (hrecv : s.receive ft hdr payload tag = (u, some (h, plain))) :
    ∃ shelf target keep, exec c s = .next (u.writeRequest h xfer shelf target keep) := by
  simp only [List.mem_cons, Prod.mk.injEq, List.not_mem_nil, or_false] at hc
  rcases hc with ⟨rfl, rfl⟩ | ⟨rfl, rfl⟩
  · exact ⟨_, exec_write_received hrecv⟩
  · exact ⟨_, exec_zeroRun_received hrecv⟩

theorem State.committed_uncounted (s : State) (inp : Nat) (hcount : h.param / 32768 % 2 ≠ 1) :
    s.committed inp h xfer = s.ackWrite inp h := by
  simp [State.committed, FHdr.counts, hcount]

/-- A packet that belongs to no transfer is counted at once (R56). -/
theorem State.committed_alone (s : State) (inp : Nat) (hcount : h.param / 32768 % 2 = 1) :
    s.committed inp h none = (s.soAddOf (h.param % 16384) h.gallery (128 * h.lines)).ackWrite inp h := by
  simp [State.committed, FHdr.counts, hcount]

end

/-! ### Sync objects -/

section
variable {s u : State} {h : FHdr} {hdr : Header} {payload tag plain : Bytes}
  (hrecv : s.receive ftSync hdr payload tag = (u, some (h, plain))) (hnew : (u.window h).isDup h.dseq = false)
  (hstays : h.dseq ∉ (u.window h).withdrawn) (hlocal : u.isLocal h = true)
include hrecv hnew hstays hlocal

theorem exec_fabricSync_noObject (hso : soOfOffset (fpaOff h.fpa) = none) :
    exec (.fabricSync hdr payload tag) s = .next (u.answerFail (localIn h.fpa) h stAddrError) := by
  show execFabricSync hdr payload tag s = _
  simp [execFabricSync, hrecv, hnew, hstays, hlocal, hso, State.answerIn_local hlocal]

theorem exec_fabricSync_denied {n : Nat} (hso : soOfOffset (fpaOff h.fpa) = some n)
    (howned : u.soOwned n h.gallery = false) :
    exec (.fabricSync hdr payload tag) s = .next (u.answerFail (localIn h.fpa) h stDenied) := by
  show execFabricSync hdr payload tag s = _
  simp [execFabricSync, hrecv, hnew, hstays, hlocal, hso, howned, State.answerIn_local hlocal]

/-- An operation on an object of its gallery: a WAIT enters, READ answers the value, and any other commits (R244). -/
theorem exec_fabricSync_owned {n : Nat} (hso : soOfOffset (fpaOff h.fpa) = some n)
    (howned : u.soOwned n h.gallery = true) :
    exec (.fabricSync hdr payload tag) s = .next (
      if getLe plain 16 8 % 256 = soWaitGe ∨ getLe plain 16 8 % 256 = soWaitEq then
        u.enterWait n h (getLe plain 16 8 % 256 == soWaitEq) (BitVec.ofNat 64 (getLe plain 0 8))
          (getLe plain 16 8 / 256)
      else if getLe plain 16 8 % 256 = soRead then u.syncDone h stOk (u.so n).value
      else (u.soCommit n (syncApply (getLe plain 16 8 % 256) (u.so n).value (BitVec.ofNat 64 (getLe plain 0 8))
        (BitVec.ofNat 64 (getLe plain 8 8)))).syncDone h stOk (u.so n).value) := by
  show execFabricSync hdr payload tag s = _
  simp [execFabricSync, hrecv, hnew, hstays, hlocal, hso, howned, apply_ite Host.Outcome.next]

end

/-! ### Atomics -/

section
variable {s u : State} {h : FHdr} {hdr : Header} {payload tag plain : Bytes}
  (hrecv : s.receive ftAtomic hdr payload tag = (u, some (h, plain))) (hnew : (u.window h).isDup h.dseq = false)
  (hlocal : u.isLocal h = true)
include hrecv hnew hlocal

/-- Outside SERVICE an atomic is refused (R152). -/
theorem exec_fabricAtomic_unsupported (hstate : u.ctl.state ≠ .service) :
    exec (.fabricAtomic hdr payload tag) s = .next (u.answerFail (localIn h.fpa) h stUnsupported) := by
  show execFabricAtomic hdr payload tag s = _
  simp [execFabricAtomic, hrecv, hnew, State.inFlight_local hlocal, hstate, State.answerIn_local hlocal]

/-- In SERVICE an atomic at a shelf whose range is free of errors writes its result and answers the old value (R152). -/
theorem exec_fabricAtomic_performed (hstate : u.ctl.state = .service) (hgo : u.ctl.atomicsStopped = false)
    (hdest : u.destCheck { h with param := 0 } 8 = none) (hclean : u.badIn (vpaShelf (fpaOff h.fpa)) 8 = [])
    {old : Word} (hold : old = BitVec.ofNat 64 (leNat (u.vmBytes (vpaShelf (fpaOff h.fpa)) 8))) :
    exec (.fabricAtomic hdr payload tag) s = .next ((u.vmWrite (vpaShelf (fpaOff h.fpa))
      (natLe 8 (syncApply (getLe plain 16 8 % 256) old (BitVec.ofNat 64 (getLe plain 0 8))
        (BitVec.ofNat 64 (getLe plain 8 8))).toNat)).syncDone h stOk old) := by
  show execFabricAtomic hdr payload tag s = _
  simp [execFabricAtomic, hrecv, hnew, State.inFlight_local hlocal, hstate, hgo, hdest, hlocal,
    State.vmRead_clean _ _ _ hclean, hold]

end

/-! ### WAITs that end otherwise -/

theorem exec_waitWithdrawal {s : State} {k : FabPkt} {b : Bytes} (h : Arrives s ftWithdraw k b) :
    exec (.waitWithdrawal k) s = .next (((s.unqueue k.hdr k.payload).dropWait (FHdr.dec k.hdr).srcNode
      (FHdr.dec k.hdr).srcPort (getLe b 0 4)).ackWrite (localIn (FHdr.dec k.hdr).fpa) (FHdr.dec k.hdr)) :=
  congrArg Host.Outcome.next (State.takeOnce_arrives h rfl _ _)

/-- The WAIT that a withdrawal names (R272). -/
def Waiter.isFrom (w : Waiter) (node port dseq : Nat) : Bool :=
  w.srcNode == node && w.srcPort == port && w.dseq == dseq

/-- A listed WAIT that is withdrawn leaves its sync object, and no other record changes (R272). -/
theorem State.dropWait_listed {s : State} {node port dseq : Nat}
    (h : ∃ o, o ∈ s.sos ∧ ∃ w, w ∈ o.2.waiters ∧ w.isFrom node port dseq = true) :
    s.dropWait node port dseq = { s with
      sos := Tab.mapVals SyncObj.reset
        (fun _ o => { o with waiters := o.waiters.filter fun w => !w.isFrom node port dseq }) s.sos } :=
  if_pos (by simpa [Waiter.isFrom] using h)

theorem State.dropWait_listed_waiters {s : State} {node port dseq : Nat}
    (h : ∃ o, o ∈ s.sos ∧ ∃ w, w ∈ o.2.waiters ∧ w.isFrom node port dseq = true) (n : Nat) :
    ∀ w ∈ ((s.dropWait node port dseq).so n).waiters, w.isFrom node port dseq = false := by
  rw [State.dropWait_listed h]
  simp only [State.so]
  refine Tab.get_mapVals_of (P := fun o : SyncObj => ∀ w ∈ o.waiters, w.isFrom node port dseq = false) ?_ ?_ s.sos n
  · exact fun w hw => absurd hw List.not_mem_nil
  · exact fun _ o w hw => by simpa using (List.mem_filter.mp hw).2

/-- A withdrawal that comes before its WAIT marks the sequence in the window of its source (R272). -/
theorem State.dropWait_early {s : State} {node port dseq : Nat}
    (h : ¬ ∃ o, o ∈ s.sos ∧ ∃ w, w ∈ o.2.waiters ∧ w.isFrom node port dseq = true)
    (hnew : (Tab.get DupWin.reset s.windows (winKey node port)).isDup dseq = false) :
    s.dropWait node port dseq = { s with
      windows := Tab.modify DupWin.reset s.windows (winKey node port) fun w =>
        { w with withdrawn := dseq :: w.withdrawn.filter fun d => d != dseq } } :=
  (if_neg (by simpa [Waiter.isFrom] using h)).trans (if_neg (by simp [hnew]))

theorem exec_waitExpiry {s : State} {so : SoNo} {idx : Nat} {w : Waiter}
    (hw : (s.so so.toNat).waiters[idx]? = some w) (ht : w.timeout ≠ 0) :
    exec (.waitExpiry so idx) s = .next ((s.setSo so.toNat { s.so so.toNat with
      waiters := removeAt (s.so so.toNat).waiters idx }).waitDone w stTimeout (s.so so.toNat).value) := by
  show execWaitExpiry so idx s = _
  simp [execWaitExpiry, hw, ht]

end Sys2Proof.Machine
end

section
/-! PROOFS. Fabric requests at the module's own shelves and sync objects. -/

namespace Sys2Proof.Machine

open Sys2Proof.Slice0

/-- Settles O52: at the module's own node id each check selects one branch of the command, and a withdrawal either takes
the WAIT off its list or marks its sequence. -/
theorem fabricRequests : Obligations.FabricRequests := by
  refine ⟨fun s hdr payload tag u h plain hrecv hlocal hdest hclean => exec_read_local hrecv hlocal hdest hclean,
    fun s hdr payload tag xfer u h plain c ft hc hrecv => ?_,
    fun s hdr payload tag xfer u h plain hlocal hnew harv hdest => ⟨fun hrecv => ?_, fun hrecv => ?_,
      fun v hone hrecv hmask => ?_⟩,
    fun u inp h =>
      ⟨rfl, fun hcount xfer => u.committed_uncounted inp hcount, fun hcount => u.committed_alone inp hcount⟩,
    fun s hdr payload tag u h plain hrecv hnew hstays hlocal =>
      ⟨fun hso => exec_fabricSync_noObject hrecv hnew hstays hlocal hso,
       fun n hso howned => exec_fabricSync_denied hrecv hnew hstays hlocal hso howned, fun n hso howned => ?_⟩,
    fun s hdr payload tag u h plain hrecv hnew hlocal =>
      ⟨fun hstate hgo hdest hclean => exec_fabricAtomic_performed hrecv hnew hlocal hstate hgo hdest hclean rfl,
       fun hstate => exec_fabricAtomic_unsupported hrecv hnew hlocal hstate⟩,
    fun s k b h => exec_waitWithdrawal h, fun s node port dseq => ⟨fun hlisted => ?_, fun hunlisted hnew => ?_⟩,
    fun s so idx w hw ht => exec_waitExpiry hw ht⟩
  · obtain ⟨shelf, target, keep, hexec⟩ := exec_lineWrite_received hc hrecv
    rw [hexec]
    refine ⟨fun hdup => ?_, fun hnew hlocal harv st hdest => ?_⟩
    · rw [State.writeRequest_dup hdup]
    · rw [State.writeRequest_refused hnew hlocal harv hdest]
  · obtain ⟨target, keep, hexec⟩ := exec_write_received hrecv
    rw [hexec, State.writeRequest_stored hnew hlocal harv hdest rfl]
  · obtain ⟨target, keep, hexec⟩ := exec_zeroRun_received hrecv
    rw [hexec, State.writeRequest_stored hnew hlocal harv hdest rfl]
  · obtain ⟨target, keep, hexec⟩ := exec_writeMasked_received hrecv
    have hline : { h with lines := 1 } = h := by rw [← hone]
    rw [hexec, hline, State.writeRequest_stored hnew hlocal harv hdest hmask]
  · dsimp only
    rw [exec_fabricSync_owned hrecv hnew hstays hlocal hso howned]
    refine ⟨fun hsub => ?_, fun hsub => ?_, fun hsub => ?_, fun hread hge heq => ?_⟩
    · rw [hsub]
      rfl
    · rw [hsub]
      rfl
    · rw [hsub]
      rfl
    · rw [if_neg (not_or.mpr ⟨hge, heq⟩), if_neg hread]
  · exact ⟨State.dropWait_listed_waiters hlisted, by rw [State.dropWait_listed hlisted]⟩
  · rw [State.dropWait_early hunlisted hnew, Tab.get_modify_same]
    exact ⟨List.mem_cons_self, rfl⟩

end Sys2Proof.Machine
end

section
/-! SUPPORT. Shared rules for tour instructions: what a context's registers read, and what an instruction does once the
checks of its issue pass or fail. -/

namespace Sys2Proof.Machine

open Sys2Proof.Slice0

/-! ### Registers -/

/-- X0 reads zero (R75). -/
@[simp] theorem Ctx.reg_zero (c : Ctx) : c.reg 0 = 0 := rfl

/-- A write to X0 is ignored (R75). -/
@[simp] theorem Ctx.setReg_zero (c : Ctx) (v : Nat) : c.setReg 0 v = c := rfl

theorem Ctx.reg_setReg_same (c : Ctx) {n : Nat} (hn : n ≠ 0) (v : Nat) : (c.setReg n v).reg n = v % 2 ^ 64 := by
  simp [Ctx.reg, Ctx.setReg, hn]

theorem Ctx.reg_setReg_ne (c : Ctx) {n m : Nat} (h : m ≠ n) (v : Nat) : (c.setReg n v).reg m = c.reg m := by
  by_cases hn : n = 0
  · rw [hn, Ctx.setReg_zero]
  · simp [Ctx.reg, Ctx.setReg, hn, Tab.get_set_ne _ _ _ h]

/-! ### Issue -/

/-- An instruction that passes its checks has its effect (R91, R109). -/
theorem State.orFail_passes (s : State) (p : Port) (g : Nat) (go : State → State) :
    (s.orFail g none go).drive p.val = issued (go s) p g := rfl

/-- An instruction that fails a check of its issue fails the tour (R109). -/
theorem State.orFail_fails (s : State) (p : Port) (g st : Nat) (go : State → State) :
    (s.orFail g (some st) go).drive p.val = issued (s.instrFail g st) p g := rfl

section
variable {s : State} {p : Port} {c : CtxNo} {t : TInstr}

/-- COPY, GATHER, SCATTER and MCAST are one operation, each for its opcode (R100, R123). -/
theorem exec_issueBulk {i : Instr} {op : Nat} {k : OpKind}
    (h : (i, op, k) ∈ [(Instr.copy p c, 0x10, OpKind.copy), (.gather p c, 0x11, .gather),
      (.scatter p c, 0x12, .scatter), (.mcast p c, 0x18, .mcast)]) (s : State) :
    exec i s = .next (s.issueBulk p c op k) := by
  simp only [List.mem_cons, Prod.mk.injEq, List.not_mem_nil, or_false] at h
  rcases h with ⟨rfl, rfl, rfl⟩ | ⟨rfl, rfl, rfl⟩ | ⟨rfl, rfl, rfl⟩ | ⟨rfl, rfl, rfl⟩ <;> rfl

theorem State.issueBulk_passes {op : Nat} {k : OpKind} (hi : s.issuing p c op = some t)
    (hcheck : s.bulkCheck (ctxIdx p.val c.val) t false = none) :
    s.issueBulk p c op k = issued (s.enterOp (ctxIdx p.val c.val) (Op.start s (ctxIdx p.val c.val) t k)) p
      (ctxIdx p.val c.val) := by
  simp only [State.issueBulk, hi, hcheck, State.orFail_passes]

theorem State.issueBulk_fails {op st : Nat} {k : OpKind} (hi : s.issuing p c op = some t)
    (hcheck : s.bulkCheck (ctxIdx p.val c.val) t false = some st) :
    s.issueBulk p c op k = issued (s.instrFail (ctxIdx p.val c.val) st) p (ctxIdx p.val c.val) := by
  simp only [State.issueBulk, hi, hcheck, State.orFail_fails]

/-- REDUCE, DISPATCH and COMBINE are one operation, each for its opcode (R297). -/
theorem exec_issueColl {i : Instr} {op : Nat} {k : OpKind}
    (h : (i, op, k) ∈ [(Instr.reduce p c, 0x20, OpKind.reduce), (.dispatch p c, 0x28, .dispatch),
      (.combine p c, 0x29, .combine)]) (s : State) :
    exec i s = .next ((s.issueColl p c op k).drive p.val) := by
  simp only [List.mem_cons, Prod.mk.injEq, List.not_mem_nil, or_false] at h
  rcases h with ⟨rfl, rfl, rfl⟩ | ⟨rfl, rfl, rfl⟩ | ⟨rfl, rfl, rfl⟩ <;> rfl

/-- A member of a schedule takes the schedule's next number as it enters the queue (R297). -/
theorem State.issueColl_member {op : Nat} {k : OpKind} (hi : s.issuing p c op = some t)
    (hcheck : s.bulkCheck (ctxIdx p.val c.val) t true = none) (hroom : s.queueRoom (ctxIdx p.val c.val) = true)
    {id r : Nat} {x : Sched} (hm : s.memberOf p.val (s.ctx (ctxIdx p.val c.val)).gal
      (Op.start s (ctxIdx p.val c.val) t k).sched k = (id, some (x, r))) :
    (s.issueColl p c op k).drive p.val =
      issued (State.enterOp { s with cat := { s.cat with
          instNo := Tab.set 0 s.cat.instNo (p.val * 4096 + id) (Tab.get 0 s.cat.instNo (p.val * 4096 + id) + 1) } }
        (ctxIdx p.val c.val)
        { Op.start s (ctxIdx p.val c.val) t k with
          col := { Coll.start with sched := id, inst := some (Tab.get 0 s.cat.instNo (p.val * 4096 + id)), rank := r } })
        p (ctxIdx p.val c.val) := by
  simp only [State.issueColl, hi, hcheck, State.orFail_passes, hroom, hm, Bool.not_true, Bool.false_eq_true, if_false]

/-- A SIGNAL of an ADD of a register's value, without release, is performed as it enters the queue (R108). -/
theorem exec_signal_atOnce (hi : s.issuing p c 0x30 = some t) (hflags : t.flags = 1)
    (hregs : t.rb = 0 ∧ t.rc = 0 ∧ t.rd = 0) (himm : t.imm = 0) (hext : t.ext % 16 = 0)
    (hroom : s.queueRoom (ctxIdx p.val c.val) = true) {o : Op}
    (ho : o = { Op.start s (ctxIdx p.val c.val) t .signal with
      addSrc := 0, addDst := 0, descFva := 0, sched := 0, doneEn := false, doneSo := 0, release := false, subop := 1
      fpa := t.ext, phase := .running, operand := BitVec.ofNat 64 ((s.ctx (ctxIdx p.val c.val)).reg t.ra) }) :
    exec (.signal p c) s = .next (issued ((s.enterOp (ctxIdx p.val c.val) o).performSignal (ctxIdx p.val c.val) o) p
      (ctxIdx p.val c.val)) := by
  obtain ⟨hrb, hrc, hrd⟩ := hregs
  show Host.Outcome.next ((s.doSignal p c).drive p.val) = _
  simp [State.doSignal, hi, hflags, hrb, hrc, hrd, himm, hext, TInstr.zeroRegs, TInstr.scope, State.orFail_passes,
    hroom, ho]

/-- A WAIT blocks its context until its request is answered; a request that cannot be sent fails it (R138). -/
theorem exec_wait_blocks (hi : s.issuing p c 0x31 = some t) (htop : t.flags / 128 = 0) (hrsv : t.flags / 2 % 16 = 0)
    (hscope : t.scope ≠ 3) (hregs : t.rb = 0 ∧ t.rc = 0) (hext : t.ext % 16 = 0) {u : State} {r : Option Nat}
    (hreq : (s.blockOn (ctxIdx p.val c.val) (.wait t.rd t.scope)).request (ctxIdx p.val c.val / 16)
      (.wait (ctxIdx p.val c.val)) none (s.ctx (ctxIdx p.val c.val)).gal ftSync 0 0 t.ext 0
      (syncPayload ((s.ctx (ctxIdx p.val c.val)).reg t.ra) 0
        ((if t.flags % 2 = 1 then soWaitEq else soWaitGe) + 256 * t.imm)) none = (u, r)) :
    exec (.wait p c) s = .next (issued (r.elim u fun st => u.instrFail (ctxIdx p.val c.val) st) p
      (ctxIdx p.val c.val)) := by
  obtain ⟨hrb, hrc⟩ := hregs
  show Host.Outcome.next ((s.doWait p c).drive p.val) = _
  cases r <;>
    simp [State.doWait, hi, htop, hrsv, hscope, hrb, hrc, hext, TInstr.zeroRegs, State.orFail_passes, hreq]

theorem exec_fence_blocks (hi : s.issuing p c 0x38 = some t) (hlow : t.flags % 32 = 0) (htop : t.flags / 128 = 0)
    (hscope : t.scope ≠ 3) (hregs : t.ra = 0 ∧ t.rb = 0 ∧ t.rc = 0 ∧ t.rd = 0) (himm : t.imm = 0) (hext : t.ext = 0) :
    exec (.fence p c) s = .next (issued (s.blockOn (ctxIdx p.val c.val) (.fence t.scope)) p (ctxIdx p.val c.val)) := by
  obtain ⟨hra, hrb, hrc, hrd⟩ := hregs
  show Host.Outcome.next ((s.doFence p c).drive p.val) = _
  simp [State.doFence, hi, hlow, htop, hscope, hra, hrb, hrc, hrd, himm, hext, TInstr.zeroRegs, State.orFail_passes]

/-- FLUSH and INVAL are one operation, INVAL with a drop of the range (R143, R145). -/
theorem exec_flushes {i : Instr} {op : Nat} {drop : Bool}
    (h : (i, op, drop) ∈ [(Instr.flush p c, 0x39, false), (.inval p c, 0x3A, true)])
    (hi : s.issuing p c op = some t) :
    exec i s = .next ((s.issueFlush (ctxIdx p.val c.val) t drop).drive p.val) := by
  simp only [List.mem_cons, Prod.mk.injEq, List.not_mem_nil, or_false] at h
  rcases h with ⟨rfl, rfl, rfl⟩ | ⟨rfl, rfl, rfl⟩
  · show Host.Outcome.next ((s.doFlush p c).drive p.val) = _
    rw [State.doFlush, hi]
  · show Host.Outcome.next ((s.doInval p c).drive p.val) = _
    rw [State.doInval, hi]

theorem State.issueFlush_blocks {g : Nat} (drop : Bool) (hflags : t.flags = 0)
    (hregs : t.rb = 0 ∧ t.rc = 0 ∧ t.rd = 0) (hline : (s.ctx g).addr t.ra t.imm % 128 = 0)
    (hfva : fvaOk ((s.ctx g).addr t.ra t.imm) = true) (hext : t.ext % 128 = 0) :
    (s.issueFlush g t drop).drive p.val =
      issued ((s.blockOn g (.flush drop ((s.ctx g).addr t.ra t.imm) t.ext false stOk)).beginFlush g) p g := by
  obtain ⟨hrb, hrc, hrd⟩ := hregs
  simp [State.issueFlush, hflags, hrb, hrc, hrd, hline, hfva, hext, TInstr.zeroRegs, State.orFail_passes]

/-! ### LOOP, HALT and TOUR_ATOMIC -/

/-- What R148 and R149 call MALFORMED in a LOOP: the counter is one of the registers that advance, or the target is the
LOOP itself or lies before the tour. -/
def TInstr.loopFails (t : TInstr) (pc : Nat) : Prop :=
  t.rd ≠ 0 ∧ (t.rd = t.ra ∨ t.rd = t.rb) ∨ t.imm = 0 ∨ pc < t.imm

/-- The check of LOOP at issue is of its unused fields and of the forms that R148 and R149 call MALFORMED. -/
theorem TInstr.loopCheck_iff (t : TInstr) (pc : Nat) :
    (t.flags != 0 || t.rc != 0 || (t.rd != 0 && (t.rd == t.ra || t.rd == t.rb)) || t.imm = 0 || t.imm > pc) = true
      ↔ t.flags ≠ 0 ∨ t.rc ≠ 0 ∨ t.loopFails pc := by
  simp [TInstr.loopFails, or_assoc]

theorem exec_loop_malformed (hi : s.issuing p c 0x40 = some t)
    (hbad : t.loopFails (s.ctx (ctxIdx p.val c.val)).pc) :
    exec (.loop p c) s = .next (issued (s.instrFail (ctxIdx p.val c.val) stMalformed) p (ctxIdx p.val c.val)) := by
  have hcheck := (t.loopCheck_iff _).mpr (.inr (.inr hbad))
  show Host.Outcome.next ((s.doLoop p c).drive p.val) = _
  simp only [State.doLoop, hi, if_pos hcheck, State.orFail_fails]

/-- A LOOP that passes its checks leaves at a counter of 0 or 1, and otherwise counts down, advances two registers and
goes back (R149). -/
theorem exec_loop_passes (hi : s.issuing p c 0x40 = some t) (hflags : t.flags = 0) (hrc : t.rc = 0)
    (hgood : ¬t.loopFails (s.ctx (ctxIdx p.val c.val)).pc) :
    exec (.loop p c) s = .next (issued (
      let g := ctxIdx p.val c.val
      let x := s.ctx g
      let u := s.modCtx g fun c => c.setReg t.rd (x.reg t.rd - 1)
      if x.reg t.rd = 0 then s.goTo g (x.pc + 1)
      else if x.reg t.rd = 1 then u.goTo g (x.pc + 1)
      else ((u.modCtx g fun c => c.setReg t.ra (addW (c.reg t.ra) (sext 32 t.ext))).modCtx g fun c =>
        c.setReg t.rb (addW (c.reg t.rb) (sext 32 (t.ext / 2 ^ 32)))).goTo g (x.pc - t.imm)) p
      (ctxIdx p.val c.val)) := by
  have hpasses : ¬(t.flags ≠ 0 ∨ t.rc ≠ 0 ∨ t.loopFails (s.ctx (ctxIdx p.val c.val)).pc) :=
    not_or.mpr ⟨not_not_intro hflags, not_or.mpr ⟨not_not_intro hrc, hgood⟩⟩
  have hcheck := mt (t.loopCheck_iff _).mp hpasses
  show Host.Outcome.next ((s.doLoop p c).drive p.val) = _
  simp only [State.doLoop, hi, if_neg hcheck, State.orFail_passes]

/-- HALT stops issue; the tour keeps where it stopped and its code (R150). -/
theorem exec_halt_stops (hi : s.issuing p c 0x41 = some t) (hflags : t.flags = 0)
    (hregs : t.ra = 0 ∧ t.rb = 0 ∧ t.rc = 0 ∧ t.rd = 0) (hext : t.ext = 0) :
    exec (.halt p c) s = .next (issued (s.modCtx (ctxIdx p.val c.val) fun c =>
      { c with haltPc := some c.pc, haltCode := t.imm, state := .ending }) p (ctxIdx p.val c.val)) := by
  obtain ⟨hra, hrb, hrc, hrd⟩ := hregs
  show Host.Outcome.next ((s.doHalt p c).drive p.val) = _
  simp [State.doHalt, hi, hflags, hra, hrb, hrc, hrd, hext, TInstr.zeroRegs, State.orFail_passes]

/-- A TOUR_ATOMIC of a form that R151 permits is sent in SERVICE, and refused elsewhere (R152). -/
theorem exec_tourAtomic_wellFormed (hi : s.issuing p c 0x50 = some t) (hflags : t.flags < 8)
    (hsub : atomicSubopOk t.flags = true) (hrc : t.flags = soCas ∨ t.rc = 0) (hext : t.ext = 0)
    (hword : (s.ctx (ctxIdx p.val c.val)).addr t.rb t.imm % 8 = 0)
    (hfva : fvaOk ((s.ctx (ctxIdx p.val c.val)).addr t.rb t.imm) = true) :
    exec (.tourAtomic p c) s = .next (issued (
      if s.ctl.state ≠ .service ∨ s.ctl.atomicsStopped = true then s.instrFail (ctxIdx p.val c.val) stUnsupported
      else (s.blockOn (ctxIdx p.val c.val) (.atomic t.rd)).sendAtomic (ctxIdx p.val c.val)) p
      (ctxIdx p.val c.val)) := by
  have hlow : t.flags % 8 = t.flags := Nat.mod_eq_of_lt hflags
  have htop : t.flags / 8 = 0 := Nat.div_eq_of_lt hflags
  have hcmp : (t.flags != soCas && t.rc != 0) = false := by
    rcases hrc with hcas | hzero
    · simp only [hcas, bne_self_eq_false, Bool.false_and]
    · simp only [hzero, bne_self_eq_false, Bool.and_false]
  show Host.Outcome.next ((s.doTourAtomic p c).drive p.val) = _
  by_cases hgo : s.ctl.state ≠ .service ∨ s.ctl.atomicsStopped = true
  · have hrefused : (s.ctl.state != .service || s.ctl.atomicsStopped) = true := by simpa using hgo
    simp [State.doTourAtomic, hi, hlow, htop, hsub, hcmp, hext, hword, hfva, hrefused, State.orFail_fails, if_pos hgo]
  · have hopen : (s.ctl.state != .service || s.ctl.atomicsStopped) = false := by simpa using hgo
    simp [State.doTourAtomic, hi, hlow, htop, hsub, hcmp, hext, hword, hfva, hopen, State.orFail_passes, if_neg hgo]

/-- An opcode that R120 does not list fails at issue. -/
theorem exec_reservedTourOpcode_fails (hact : (s.ctx (ctxIdx p.val c.val)).state = .active)
    (hat : (s.ctx (ctxIdx p.val c.val)).instrAt (s.ctx (ctxIdx p.val c.val)).pc = some t)
    (hop : tourOpcodeKnown t.op = false) :
    exec (.reservedTourOpcode p c) s = .next
      (((s.instrFail (ctxIdx p.val c.val) stUnsupported).grantSlot p.val).drive p.val) := by
  show Host.Outcome.next ((s.doReservedTourOpcode p c).drive p.val) = _
  simp [State.doReservedTourOpcode, hact, hat, hop]

end

end Sys2Proof.Machine
end

section
/-! PROOFS. Instructions of a tour at issue. -/

namespace Sys2Proof.Machine

open Sys2Proof.Slice0

/-- Settles O53: the checks of an instruction select whether it fails or has its effect, and the opcode selects the
effect. -/
theorem tourInstructions : Obligations.TourInstructions := by
  refine ⟨fun c n v => ⟨rfl, rfl, fun hn => c.reg_setReg_same hn v, fun m hm => c.reg_setReg_ne hm v⟩,
    fun s p c t i op k hk hi => ⟨fun hcheck => ?_, fun st hcheck => ?_⟩,
    fun s p c t i op k hk hi hcheck hroom id x r hm => ?_, fun s p c t => ⟨fun hi hflags hregs himm hext hroom => ?_,
      fun hi htop hrsv hscope hregs hext u r hreq => ?_, exec_fence_blocks,
      fun i op drop hk hi hflags hregs hline hfva hext => ?_, exec_loop_malformed,
      fun hi hflags hrc hregs himm hpc => ?_, exec_halt_stops,
      fun hi hflags hsub hrc hext hword hfva => ?_, exec_reservedTourOpcode_fails⟩⟩
  · rw [exec_issueBulk hk, State.issueBulk_passes hi hcheck]
  · rw [exec_issueBulk hk, State.issueBulk_fails hi hcheck]
  · rw [exec_issueColl hk, State.issueColl_member hi hcheck hroom hm]
  · exact exec_signal_atOnce hi hflags hregs himm hext hroom rfl
  · rw [exec_wait_blocks hi htop hrsv hscope hregs hext hreq]
    cases r <;> rfl
  · rw [exec_flushes hk hi, State.issueFlush_blocks drop hflags hregs hline hfva hext]
  · have hgood : ¬t.loopFails (s.ctx (ctxIdx p.val c.val)).pc := by
      unfold TInstr.loopFails
      omega
    rw [exec_loop_passes hi hflags hrc hgood]
    refine ⟨fun h0 => ?_, fun h1 => ?_, fun h2 => ?_⟩
    · simp only [h0, if_true]
    · simp only [h1, Nat.one_ne_zero, if_true, if_false, Nat.sub_self]
    · have h0 : (s.ctx (ctxIdx p.val c.val)).reg t.rd ≠ 0 := by omega
      have h1 : (s.ctx (ctxIdx p.val c.val)).reg t.rd ≠ 1 := by omega
      simp only [h0, h1, if_false]
  · rw [exec_tourAtomic_wellFormed hi hflags hsub hrc hext hword hfva]
    refine ⟨fun hstate hgo => ?_, fun hstate => ?_⟩
    · rw [if_neg (by simp [hstate, hgo])]
    · rw [if_pos (.inl hstate)]

end Sys2Proof.Machine
end

section
/-! SUPPORT. Shared rules for the events of a tour: what each does in a state in which it can occur. -/

namespace Sys2Proof.Machine

open Sys2Proof.Slice0

/-- An update of a context is determined by what it makes of that context. -/
theorem State.modCtx_congr {s : State} {g : Nat} {f f' : Ctx → Ctx} (h : f (s.ctx g) = f' (s.ctx g)) :
    s.modCtx g f = s.modCtx g f' :=
  congrArg (fun x => { s with ctxs := Tab.set Ctx.reset s.ctxs g x }) h

/-! ### Launches -/

section
variable {s u : State} {p : Port} {hdr : Header} {payload tag plain : Bytes}
  (hop : (EHdr.dec hdr).opcode = eoLaunch)
  (hauth : (s.takeEp p.val hdr payload).epAuth p.val (EHdr.dec hdr) payload tag = (u, some plain))
  (hfree : u.tagBusy p.val (EHdr.dec hdr).tag = false) (hform : epWellFormed (EHdr.dec hdr) plain = true)
  (hbind : u.epBinding p.val (EHdr.dec hdr) = none)
include hop hauth hfree hform hbind

/-- A LAUNCH that passes the request checks is answered BUSY, or starts the tour (R85). -/
theorem exec_launch_accepted :
    exec (.launch p hdr payload tag) s = .next (
      if u.launchBusy (ctxIdx p.val (EHdr.dec hdr).ctx) = true then
        u.epComplete p.val ((u.slotOwner p.val (EHdr.dec hdr).slot).getD 0) (EHdr.dec hdr) stBusy []
      else (u.launch (ctxIdx p.val (EHdr.dec hdr).ctx) (EHdr.dec hdr).address (EHdr.dec hdr).word
        (.ep (EHdr.dec hdr).tag)).drive p.val) := by
  show execLaunch p hdr payload tag s = _
  simp [execLaunch, hop, hauth, hfree, hform, hbind, apply_ite Host.Outcome.next]

end

/-! ### While a tour runs -/

section
variable {s : State} {p : Port}

/-- With another context READY, the ACTIVE one returns to READY and the slot passes on (R93). -/
theorem exec_quantumExpiry_passes {a : Nat × Ctx}
    (hact : (s.ctxs.find? fun c => c.1 / 16 == p.val && c.2.state == .active) = some a)
    (hready : (s.ctxs.any fun c => c.1 / 16 == p.val && c.2.state == .ready) = true) :
    exec (.quantumExpiry p) s = .next ((s.modCtx a.1 fun c => { c with state := .ready }).grantSlot p.val) := by
  show Host.Outcome.next (s.doQuantumExpiry p) = _
  simp only [State.doQuantumExpiry, hact, hready, if_true]

variable {c : CtxNo}

/-- A tour line that was asked for reaches its context (R95). -/
theorem exec_instructionLineArrival_taken {k : Nat} {what : Fetched} {u : State} (hline : isLine what = true)
    (htake : s.takeRead (.tourLine (ctxIdx p.val c.val) k) = (u, true)) :
    exec (.instructionLineArrival p c k what) s =
      .next ((u.tourLineArrives (ctxIdx p.val c.val) k what).drive p.val) := by
  show execInstructionLineArrival p c k what s = _
  simp [execInstructionLineArrival, hline, htake]

/-- A descriptor that was asked for reaches its docent (R102). -/
theorem exec_descriptorArrival_taken {k : Nat} {what : Fetched} {u : State} (hline : isLine what = true)
    (htake : s.takeRead (.descRead (ctxIdx p.val c.val) k) = (u, true)) :
    exec (.descriptorArrival p c k what) s = .next ((u.descArrives (ctxIdx p.val c.val) k what).drive p.val) := by
  show execDescriptorArrival p c k what s = _
  simp [execDescriptorArrival, hline, htake]

/-- The oldest operation, done with OK, leaves its queue and moves done_so; what waited for it goes on (R106). -/
theorem exec_operationRetire_done {o : Op} {os : List Op} (hops : (s.ctx (ctxIdx p.val c.val)).ops = o :: os)
    (hdone : o.phase = .done stOk) {u : State}
    (hu : u = s.modCtx (ctxIdx p.val c.val) fun c => { c with ops := os, opsOk := c.opsOk + 1 }) :
    exec (.operationRetire p c) s = .next ((((((if o.doneEn then
        u.soAddOf o.doneSo (s.ctx (ctxIdx p.val c.val)).gal 1 else u).signalHead (ctxIdx p.val c.val)).beginFlush
        (ctxIdx p.val c.val)).queueFreed p.val).grantSlot p.val).drive p.val) := by
  have htail : (s.modCtx (ctxIdx p.val c.val) fun c => { c with ops := c.ops.tail, opsOk := c.opsOk + 1 }) = u := by
    rw [hu]
    exact State.modCtx_congr (by rw [hops, List.tail_cons])
  have hhead : (s.ctx (ctxIdx p.val c.val)).ops.head? = some o := by rw [hops, List.head?_cons]
  have hok : ¬(o.phase != .done stOk) = true := by simp [hdone]
  show Host.Outcome.next ((s.doOperationRetire p c).drive p.val) = _
  simp only [State.doOperationRetire, hhead, if_neg hok, htail]

/-- A FENCE with no operation and no packet of its context left acquires and goes on, or fails with LOST (R141, R283). -/
theorem exec_fenceComplete_drained {scope : Nat} (hblock : (s.ctx (ctxIdx p.val c.val)).block = .fence scope)
    (hops : (s.ctx (ctxIdx p.val c.val)).ops = [])
    (hpkts : ∀ o, o ∈ s.replay ++ s.held → o.origin.ofCtx (ctxIdx p.val c.val) = false) :
    exec (.fenceComplete p c) s = .next (((
      let g := ctxIdx p.val c.val
      if g ∈ s.lostFor then (s.modCtx g fun c => { c with block := .none }).instrFail g stLost
      else (s.acquire p.val (s.ctx g).gal (s.ctx g).pasid scope).goTo g ((s.ctx g).pc + 1)).grantSlot
        p.val).drive p.val) := by
  have hnone : ((s.replay ++ s.held).any fun o => o.origin.ofCtx (ctxIdx p.val c.val)) = false := by
    simpa only [List.any_eq_false, Bool.not_eq_true] using hpkts
  have hidle : ¬(!(s.ctx (ctxIdx p.val c.val)).ops.isEmpty
      || (s.replay ++ s.held).any fun o => o.origin.ofCtx (ctxIdx p.val c.val)) = true := by
    simp only [hops, hnone, List.isEmpty_nil, Bool.not_true, Bool.or_self, Bool.false_eq_true, not_false_eq_true]
  show Host.Outcome.next ((s.doFenceComplete p c).drive p.val) = _
  by_cases hlost : ctxIdx p.val c.val ∈ s.lostFor
  · simp only [State.doFenceComplete, hblock, if_neg hidle, List.contains_iff_mem, if_pos hlost]
  · simp only [State.doFenceComplete, hblock, if_neg hidle, List.contains_iff_mem, if_neg hlost]

/-- A FLUSH without an error goes on once no packet is in flight (R146). -/
theorem exec_flushComplete_drained {base len : Nat}
    (hblock : (s.ctx (ctxIdx p.val c.val)).block = .flush false base len true stOk) (hreplay : s.replay = [])
    (hheld : s.held = []) :
    exec (.flushComplete p c) s = .next (((s.goTo (ctxIdx p.val c.val)
      ((s.ctx (ctxIdx p.val c.val)).pc + 1)).grantSlot p.val).drive p.val) := by
  show Host.Outcome.next ((s.doFlushComplete p c).drive p.val) = _
  simp [State.doFlushComplete, hblock, hreplay, hheld]

/-! ### The end of a tour -/

/-- An ENDING context with no operation left writes its end record if it has one, and else finishes its tour (R115). -/
theorem exec_tourEnd_drained (hstate : (s.ctx (ctxIdx p.val c.val)).state = .ending)
    (hops : (s.ctx (ctxIdx p.val c.val)).ops = []) (hrec : (s.ctx (ctxIdx p.val c.val)).endRec = 0) :
    exec (.tourEnd p c) s = .next (State.drive (
      let g := ctxIdx p.val c.val
      if (s.ctx g).endFva = 0 then s.finishTour g true
      else (s.modCtx g fun c => { c with endRec := 1 }).sendEndRecord g) p.val) := by
  show Host.Outcome.next ((s.doTourEnd p c).drive p.val) = _
  simp [State.doTourEnd, hstate, hops, hrec]

end

/-- A context that becomes IDLE has no operation and keeps the status of its tour (R115). -/
theorem State.ctx_toIdle (s : State) (g st : Nat) :
    ((s.toIdle g st).ctx g).state = .idle ∧ ((s.toIdle g st).ctx g).ops = []
      ∧ ((s.toIdle g st).ctx g).lastStatus = st := by
  simp only [State.toIdle, State.modCtx_ctx_same, and_self]

end Sys2Proof.Machine
end

section
/-! PROOFS. Events of a tour. -/

namespace Sys2Proof.Machine

open Sys2Proof.Slice0

/-- Settles O54: each event's conditions select one branch of its command. -/
theorem tourEvents : Obligations.TourEvents := by
  refine ⟨fun s p hdr payload tag u plain hop hauth hfree hform hbind => ?_,
    fun s p a hact hready => exec_quantumExpiry_passes hact hready,
    fun s p c k what u hline => ⟨exec_instructionLineArrival_taken hline, exec_descriptorArrival_taken hline⟩,
    fun s p c o os hops hdone => exec_operationRetire_done hops hdone rfl,
    fun s p c hstate hops hrec => ?_, fun s p c scope hblock hops hpkts => ?_,
    fun s p c base len hblock hreplay hheld => exec_flushComplete_drained hblock hreplay hheld,
    fun s g st => s.ctx_toIdle g st⟩
  · dsimp only
    rw [exec_launch_accepted hop hauth hfree hform hbind]
    exact ⟨fun hbusy => by rw [if_pos hbusy], fun hidle => by rw [if_neg (by simp [hidle])]⟩
  · rw [exec_tourEnd_drained hstate hops hrec]
    exact ⟨fun hnone => by simp only [if_pos hnone], fun hsome => by simp only [if_neg hsome]⟩
  · rw [exec_fenceComplete_drained hblock hops hpkts]
    exact ⟨fun hkept => by simp only [if_neg hkept], fun hlost => by simp only [if_pos hlost]⟩

end Sys2Proof.Machine
end

section
/-! PROOFS. Commands of a host ring with no unit of their own. -/

namespace Sys2Proof.Machine

open Sys2Proof.Slice0

section
variable {s : State} {f : FnNo} {t : Taken} {b : Bytes}

/-- A NOP that passes the checks of R709 answers IF_VERSION (R710, R719). -/
theorem exec_nop_ready (ht : s.takenOf f.val 0x01 = some t) (hr : Ready s t []) (hserving : s.serving = true)
    (hlen : t.paramLen = 0) (hargs : noArgs t.args = true) :
    exec (.nop f) s = .next (s.complete t stOk ifVersion) := by
  obtain ⟨hup, hrsv, hin, hread⟩ := hr
  show execNop f s = _
  simp only [execNop, hup, ht]
  exact congrArg Host.Outcome.next
    (State.runTaken_acts hrsv hin hread (by simp [hlen]) hargs rfl (State.serving_state s hserving))

/-- A command of an opcode that R710 does not list is UNSUPPORTED. -/
theorem exec_reservedCommand_unknown (hup : s.cur.up = true) (hread : s.readBlock t = (s, some b))
    (hop : cmdKnown t.opcode = false)
    (ht : s.takenBy f.val (fun t => !cmdKnown t.opcode || !cmdAllowed t.fn t.opcode || s.g0CodeBad t) = some t) :
    exec (.reservedCommand f) s = .next (s.complete t stUnsupported 0) := by
  show execReservedCommand f s = _
  simp [execReservedCommand, hup, ht, hread, hop]

/-- A TOUR_LAUNCH that passes the checks of R709 and R712, at a context that its function controls, starts the tour
(R84, R85, R628). -/
theorem exec_tourLaunch_starts (ht : s.takenOf f.val 0x03 = some t) (hr : Ready s t b) (hlen : t.paramLen = 0)
    (hargs : launchArgs t.args = true) {g : Nat} (hg : g = ctxIdx (argLe t.args 16 1) (argLe t.args 17 1))
    (hbound : (s.ctx g).bound = true) (hgal : s.fnGal f.val = some (s.ctx g).gal)
    (hactive : (s.ctx g).gal = 0 ∨ (s.gal (s.ctx g).gal).state = .active) (hidle : s.launchBusy g = false) :
    exec (.tourLaunch f) s = .next (((s.startTaken t).launch g (argLe t.args 24 8) (argLe t.args 32 8) (.ring
      t)).drive (argLe t.args 16 1)) := by
  obtain ⟨hup, hrsv, hin, hread⟩ := hr
  subst hg
  show execTourLaunch f s = _
  simp only [execTourLaunch, hup, ht]
  refine congrArg Host.Outcome.next
    ((State.runTaken_acts hrsv hin hread (by simp [hlen]) hargs rfl s.contains_allStates).trans ?_)
  have hstate : ¬((s.ctx (ctxIdx (argLe t.args 16 1) (argLe t.args 17 1))).gal ≠ 0
      && (s.gal (s.ctx (ctxIdx (argLe t.args 16 1) (argLe t.args 17 1))).gal).state != .active) = true := by
    rcases hactive with hzero | hactive
    · simp only [hzero, ne_eq, not_true_eq_false, decide_false, Bool.false_and, Bool.false_eq_true, not_false_eq_true]
    · simp only [hactive, bne_self_eq_false, Bool.and_false, Bool.false_eq_true, not_false_eq_true]
  rw [if_neg (by simp [hbound, hgal]), if_neg hstate, if_neg (by simp [hidle])]

end

/-- Settles O27: each command is ready, and its conditions select the branch that acts. -/
theorem hostRingCommands : Obligations.HostRingCommands :=
  ⟨fun _ _ _ ht hr hserving hlen hargs => exec_nop_ready ht hr hserving hlen hargs,
    fun _ _ _ _ hup hread hop ht => exec_reservedCommand_unknown hup hread hop ht,
    fun _ _ _ _ ht hr hlen hargs hbound hgal hactive hidle =>
      exec_tourLaunch_starts ht hr hlen hargs rfl hbound hgal hactive hidle⟩

end Sys2Proof.Machine
end

section
/-! SUPPORT. Shared rules for sync objects: a commit with no WAIT listed, and what an operation of the portal does. -/

namespace Sys2Proof.Machine

open Sys2Proof.Slice0

/-- With no WAIT listed, a commit changes the object's value alone (R248). -/
theorem State.soCommit_noWaiters {s : State} {n : Nat} (h : (s.so n).waiters = []) (v : Word) :
    s.soCommit n v = s.setSo n { s.so n with value := v } := by
  simp only [State.soCommit, h, List.filter_nil, List.foldl_nil]

/-! ### The portal -/

section
variable {s : State} {f so sub : Nat} (hf : f ≠ 0) (hopen : s.barOpen f = true)
include hf hopen

/-- On an object of the function's gallery, an operation answers the old value and, unless it only reads, commits what
it computes from that value and the operands (R244, R290). -/
theorem State.portal_owned (hsub : sub ≤ soCas) (hgal : (s.fn f).gal ≠ 0) (howned : s.soOwned so (s.fn f).gal = true) :
    s.portal f so sub =
      (if sub = soRead then s
       else s.soCommit so (syncApply sub (s.so so).value (s.fn f).opA (s.fn f).opB)).modFn f
        fun x => { x with soResult := (s.so so).value, soStatus := stOk } := by
  have hvalid : ¬sub > soCas := Nat.not_lt.mpr hsub
  simp [State.portal, hf, hopen, hvalid, hgal, howned, State.portalDone]

/-- An object of another gallery, or of none, is refused (R243, R289). -/
theorem State.portal_denied (hsub : sub ≤ soCas) (howned : s.soOwned so (s.fn f).gal = false) :
    s.portal f so sub = s.portalDone f stDenied none := by
  have hvalid : ¬sub > soCas := Nat.not_lt.mpr hsub
  simp [State.portal, hf, hopen, hvalid, howned]

end

/-- A portal operation that fails answers its status and leaves every sync object as it was (R289). -/
theorem State.portalDone_none (s : State) (f status : Nat) :
    ((s.portalDone f status none).fn f).soStatus = status ∧ (s.portalDone f status none).sos = s.sos :=
  ⟨congrArg Fn.soStatus (s.draw.modFn_fn_same f _), rfl⟩

/-! ### SO_VALUE -/

theorem exec_soValueWrite {s : State} (so : SoNo) (v : Word) (hopen : s.blockOpen 1 = true) :
    exec (.soValueWrite so v) s = .next (if s.soOwned so.toNat 0 = true then s.soCommit so.toNat v else s) := by
  show execSoValueWrite so v s = _
  simp [execSoValueWrite, State.soWrite, hopen]

end Sys2Proof.Machine
end

section
/-! PROOFS. The sync portal and SO_VALUE. -/

namespace Sys2Proof.Machine

open Sys2Proof.Slice0

/-- Settles O26: each operation of the portal is one shared operation, of which its subop selects the value that is
committed. -/
theorem syncPortal : Obligations.SyncPortal := by
  refine ⟨fun s f so hf hopen hgal howned => ?_, fun s f so hf hopen howned => ?_,
    fun s so v hopen => exec_soValueWrite so v hopen, fun s n v hnone => State.soCommit_noWaiters hnone v⟩
  · have portal (sub : Nat) (hsub : sub ≤ soCas) := congrArg (Host.Outcome.next (φ := Fault) (ρ := Refusal))
      (State.portal_owned (Fin.val_ne_zero_iff.mpr hf) hopen hsub hgal howned)
    exact ⟨portal soRead (by decide), portal soAdd (by decide), portal soSet (by decide), portal soMin (by decide),
      portal soMax (by decide), portal soCas (by decide)⟩
  · have hdenied := State.portal_denied (sub := soAdd) (Fin.val_ne_zero_iff.mpr hf) hopen (by decide) howned
    exact ⟨_, congrArg Host.Outcome.next hdenied, s.portalDone_none f.val stDenied⟩

end Sys2Proof.Machine
end

section
/-! SUPPORT. Shared rules for the switch core: the matching of inputs and outputs, and how a packet crosses. -/

namespace Sys2Proof.Machine

open Sys2Proof.Slice0

/-! ### Matching -/

/-- The queue that a packet waits in: its input, output and VC (R512). -/
def Buffered.queue (b : Buffered) : Nat × Nat × Nat := (b.inp, b.out, b.vc)

theorem Swc.foldl_lock_buf (pairs : List (Buffered × Arb)) (w : Swc) : (pairs.foldl Swc.lock w).buf = w.buf := by
  induction pairs generalizing w with
  | nil => rfl
  | cons x pairs ih => exact ih (w.lock x)

/-- Each pair locks its packet's queue, and drops no lock. -/
theorem Swc.foldl_lock_locks (pairs : List (Buffered × Arb)) (w : Swc) :
    (pairs.foldl Swc.lock w).locks = w.locks ++ pairs.map (·.1.queue) := by
  induction pairs generalizing w with
  | nil => simp
  | cons x pairs ih =>
    rw [List.foldl_cons, ih (w.lock x), List.map_cons, List.append_cons]
    rfl

/-- The pointers of R513 move neither packets nor locks. -/
theorem Swc.advance_buf_locks (w : Swc) (pairs : List (Nat × Nat)) :
    (w.advance pairs).buf = w.buf ∧ (w.advance pairs).locks = w.locks := by
  unfold Swc.advance
  induction pairs generalizing w with
  | nil => exact ⟨rfl, rfl⟩
  | cons p pairs ih => exact ih _

theorem Swc.mem_locks_of_mem_dropLocks {w : Swc} {l : Nat × Nat × Nat} (h : l ∈ w.dropLocks.locks) : l ∈ w.locks :=
  (List.mem_filter.mp h).1

/-- What an output serves next is among the packets that it may serve (R514). -/
theorem Arb.mem_of_mem_pick {a : Arb} {bs : List Buffered} {b : Buffered} (h : b ∈ a.pick bs) : b ∈ bs := by
  unfold Arb.pick at h
  dsimp only at h
  split at h
  · exact (List.mem_filter.mp h).1
  split at h
  · exact (List.mem_filter.mp h).1
  split at h
  · exact (List.mem_filter.mp (List.mem_filter.mp h).1).1
  split at h
  · cases hturn : a.order.find? fun v => !(bs.filter fun b => b.vc == v).isEmpty with
    | none =>
      rw [hturn] at h
      exact absurd h List.not_mem_nil
    | some v =>
      rw [hturn] at h
      exact (List.mem_filter.mp h).1
  · exact (List.mem_filter.mp h).1

/-- A fold that adds an element at most is a selection from the list and what it began with. -/
theorem mem_or_mem_of_mem_foldl {α : Type} {f : List α → α → List α} (hf : ∀ l x y, y ∈ f l x → y ∈ l ∨ y = x)
    {xs l : List α} {y : α} (h : y ∈ xs.foldl f l) : y ∈ l ∨ y ∈ xs := by
  induction xs generalizing l with
  | nil => exact .inl h
  | cons x xs ih =>
    rcases ih h with hl | hxs
    · rcases hf l x y hl with hl | rfl
      · exact .inl hl
      · exact .inr List.mem_cons_self
    · exact .inr (List.mem_cons_of_mem x hxs)

/-- A packet that may cross waits in the buffer, and need not wait for its link (R513). -/
theorem State.mem_eligible {s : State} {out : Nat} {b : Buffered} (h : b ∈ s.eligible out) :
    b ∈ s.swc.buf ∧ s.mustWait b = false := by
  obtain ⟨hhead, hfree⟩ := List.mem_filter.mp h
  simp only [Bool.and_eq_true, Bool.not_eq_true'] at hfree
  have hwaits := (mem_or_mem_of_mem_foldl (fun l x y hy => ?_) hhead).resolve_left List.not_mem_nil
  · exact ⟨(List.mem_filter.mp hwaits).1, hfree.2⟩
  · split at hy
    · exact .inl hy
    · simpa using hy

/-- What an output asks for may cross. -/
theorem State.eligible_of_mem_requests {s : State} {r : Nat × List Buffered} (hr : r ∈ s.requests) {b : Buffered}
    (hb : b ∈ r.2) : b ∈ s.eligible r.1 := by
  obtain ⟨o, -, rfl⟩ := List.mem_map.mp (List.mem_filter.mp hr).1
  exact Arb.mem_of_mem_pick hb

/-- The head of a matched pair is one of the packets that the pair's output asks for. -/
theorem mem_of_pairHead {reqs : List (Nat × List Buffered)} {p : Nat × Nat} {b : Buffered}
    (h : pairHead reqs p = some b) : ∃ r, r ∈ reqs ∧ b ∈ r.2 := by
  obtain ⟨r, hr, hb⟩ := Option.bind_eq_some_iff.mp h
  exact ⟨r, List.mem_of_find?_eq_some hr, List.mem_of_find?_eq_some hb⟩

theorem State.matchSlot_buf (s : State) : s.matchSlot.swc.buf = s.swc.buf :=
  (Swc.foldl_lock_buf _ _).trans (Swc.advance_buf_locks _ _).1

/-- A pair that is locked after a match was locked before it, or is locked for a packet that need not wait (R513). -/
theorem State.mem_matchSlot_locks {s : State} {l : Nat × Nat × Nat} (h : l ∈ s.matchSlot.swc.locks) :
    l ∈ s.swc.locks ∨ ∃ b, b ∈ s.swc.buf ∧ b.queue = l ∧ s.mustWait b = false := by
  rw [State.matchSlot, Swc.foldl_lock_locks, (Swc.advance_buf_locks _ _).2, List.map_map, List.mem_append] at h
  rcases h with hold | hnew
  · exact .inl (Swc.mem_locks_of_mem_dropLocks hold)
  · obtain ⟨b, hb, rfl⟩ := List.mem_map.mp hnew
    obtain ⟨p, -, hp⟩ := List.mem_filterMap.mp hb
    obtain ⟨r, hr, hbr⟩ := mem_of_pairHead hp
    obtain ⟨hbuf, hgo⟩ := State.mem_eligible (State.eligible_of_mem_requests hr hbr)
    exact .inr ⟨b, hbuf, rfl, hgo⟩

/-! ### Crossing -/

/-- The pair of a packet that crosses is free again, and the corrections on its way are counted (R513, R518). -/
def State.beginCross (s : State) (inp out corrected : Nat) : State :=
  { s.unlock inp out with
    swc := { (s.unlock inp out).swc with bufCe := (s.swc.bufCe + corrected) % 2 ^ 32 } }

/-- After a packet that a multicast references, every port's contexts may act. -/
def State.endCross (s : State) (b : Buffered) : State := if b.mc.isSome then s.driveAll else s

section
variable {s m : State} {inp out : Nat} {vc : BitVec 3} {b : Buffered} (hm : s.matchSlot = m)
  (hfind : (m.swc.buf.find? fun b => b.inp == inp && b.out == out && b.vc == vc.toNat) = some b)
include hm hfind

/-- A packet whose pair is not locked does not cross (R513). -/
theorem exec_packetForward_unlocked (hlock : (inp, out, vc.toNat) ∉ m.swc.locks) (corrected : Nat)
    (failed : Bool) : exec (.packetForward inp out vc corrected failed) s = .next m := by
  show execPacketForward inp out vc corrected failed s = _
  simp [execPacketForward, hm, hfind, hlock]

/-- The packet of a locked pair crosses, or fails correction (R513, R518). -/
theorem exec_packetForward_locked (hlock : (inp, out, vc.toNat) ∈ m.swc.locks) (corrected : Nat)
    (failed : Bool) :
    exec (.packetForward inp out vc corrected failed) s = .next (State.endCross
      (if failed then (m.beginCross inp out corrected).bufferError b
       else (m.beginCross inp out corrected).forward b) b) := by
  have hlocked : ¬(!m.swc.locks.contains (inp, out, vc.toNat)) = true := by simp [hlock]
  show execPacketForward inp out vc corrected failed s = _
  simp only [execPacketForward, hm, hfind]
  exact if_neg hlocked

end

/-- Whether a packet's route can be followed depends on the links and the catalogue alone (R504). -/
theorem State.routeError_beginCross (s : State) (inp out corrected : Nat) (h : FHdr) :
    (s.beginCross inp out corrected).routeError h = s.routeError h := rfl

section
variable {s : State} {b : Buffered}

/-- A packet whose route cannot be followed is counted, and a known type is answered with LOST (R496, R504). -/
theorem State.forward_routeError (herr : s.routeError (FHdr.dec b.hdr) = true) :
    s.forward b =
      let v : State := { s.unbuffer b with
        swc := { (s.unbuffer b).swc with routeErr := min ((s.unbuffer b).swc.routeErr + 1) 65535 } }
      if ftypeKnown (FHdr.dec b.hdr).ftype then v.bareAck 48 (FHdr.dec b.hdr) stLost true else v :=
  if_pos herr

/-- A packet at the last hop of its route arrives (R503). -/
theorem State.forward_lastHop (hok : s.routeError (FHdr.dec b.hdr) = false)
    (hlast : (FHdr.dec b.hdr).hopPtr = (FHdr.dec b.hdr).hopsM1) :
    s.forward b = { s.unbuffer b with arrived := (s.unbuffer b).arrived ++ [(b.hdr, b.payload, b.tag)] } :=
  (if_neg (by simp [hok])).trans (if_pos hlast)

/-- Any other packet leaves by the link that its route names, one hop further (R503, R507). -/
theorem State.forward_nextHop (hok : s.routeError (FHdr.dec b.hdr) = false)
    (hmore : (FHdr.dec b.hdr).hopPtr ≠ (FHdr.dec b.hdr).hopsM1) :
    s.forward b =
      let h := FHdr.dec b.hdr
      let e := routeEntry h.route h.hopPtr
      let next : FHdr := { h with hopPtr := h.hopPtr + 1, vc := outVc h }
      ((s.unbuffer b).out (.trunk e next.enc b.payload)).linkSend e (outVc h) 1 next.enc b.payload b.tag :=
  (if_neg (by simp [hok])).trans (if_neg hmore)

end

end Sys2Proof.Machine
end

section
/-! SUPPORT. Shared rules for outstanding packets: resends, timeouts and notices, and the answers that free them. -/

namespace Sys2Proof.Machine

open Sys2Proof.Slice0

/-! ### Resends, timeouts and notices -/

theorem length_modifyFirst {α : Type} (p : α → Bool) (f : α → α) (l : List α) :
    (modifyFirst p f l).length = l.length := by
  induction l with
  | nil => rfl
  | cons a l ih =>
    unfold modifyFirst
    split
    · rfl
    · rw [List.length_cons, ih, List.length_cons]

section
variable {s : State} {src : BitVec 6} {dest : NodeId} {dseq : BitVec 32} {o : Outst}
  (hfind : (s.replay.find? fun o => o.src == src.toNat && o.dest == dest.toNat && o.dseq == dseq.toNat
    && fieldN o.hdr 12 3 == 7) = some o)
include hfind

/-- A best-effort packet ends after 64 resends (R529). -/
theorem exec_beRetxExpiry_limit (hlimit : 64 ≤ o.resends) :
    exec (.beRetxExpiry src dest dseq) s = .next (((s.release o).resolve o stResendLimit []).afterAnswer o.src) := by
  show execBeRetxExpiry src dest dseq s = _
  simp [execBeRetxExpiry, hfind, hlimit]

/-- Until then it goes again by the same route, and only its own counts in the replay store change (R529). -/
theorem exec_beRetxExpiry_again (hmore : o.resends < 64) :
    ∃ u : State, exec (.beRetxExpiry src dest dseq) s = .next (u.resend o o.route) ∧ u = { s with replay := u.replay }
      ∧ u.replay.length = s.replay.length := by
  have hmore : ¬o.resends ≥ 64 := Nat.not_le.mpr hmore
  show ∃ u : State, execBeRetxExpiry src dest dseq s = _ ∧ _
  simp only [execBeRetxExpiry, hfind]
  exact ⟨_, if_neg hmore, rfl, length_modifyFirst _ _ _⟩

end

/-- Packets to another module that are not acknowledged in time are replayed over other routes (R609). -/
theorem exec_pathTimeout {s : State} {src : BitVec 6} {dest : NodeId} {mine : Outst → Bool}
    (hmine : mine = fun o => o.src == src.toNat && o.dest == dest.toNat && !o.listed) (hother : dest.toNat ≠ s.node)
    (hhits : s.replay.filter mine ≠ []) :
    exec (.pathTimeout src dest) s = .next
      (let r := ((s.replay.filter mine).foldl (fun s o => s.markRoute o) s).replayOver mine
       ((r.1.loseAll r.2).pathCheck).driveAll) := by
  subst hmine
  refine if_neg ?_
  simp only [Bool.or_eq_true, List.isEmpty_iff, decide_eq_true_eq]
  exact not_or.mpr ⟨hhits, hother⟩

/-- A notice that names no link, or was seen before, changes nothing (R606). -/
theorem State.noticeArrives_known {s : State} {body : BitVec 128}
    (h : bitN body 32 = false ∨ body.toNat ∈ s.cat.notices) (p : Nat) : s.noticeArrives p body = s :=
  if_pos (by simpa using h)

/-! ### Acknowledgements -/

section
variable {s u : State} {hdr : Header} {tag : Bytes} {h : FHdr} {o : Outst} {plain : Option Bytes}
  (hrecv : s.receiveResp ftAck hdr [] tag = (u, some (h, o, plain)))
include hrecv

/-- An ACK that says that a route has failed (R504). -/
theorem exec_ack_pathFailed (hpath : h.param / 32768 = 1) :
    exec (.ack hdr tag false) s = .next (((u.copyFailed o h.srcNode).pathCheck).driveAll) := by
  show execAck hdr tag false s = _
  simp [execAck, hrecv, hpath]

/-- An OK that is not authenticated is dropped (R652). -/
theorem exec_ack_unauthenticated (hpath : h.param / 32768 ≠ 1) (hok : h.param % 256 = stOk) (hplain : plain = none) :
    exec (.ack hdr tag false) s = .next u := by
  show execAck hdr tag false s = _
  simp [execAck, hrecv, hpath, hok, hplain]

/-- An OK to a SYNC says that its WAIT is listed (R270). -/
theorem exec_ack_listsWait (hpath : h.param / 32768 ≠ 1) (hok : h.param % 256 = stOk) (hplain : plain ≠ none)
    (hsync : fieldN o.hdr 0 8 = ftSync) :
    exec (.ack hdr tag false) s = .next ((u.listWait o).afterAnswer o.src) := by
  show execAck hdr tag false s = _
  simp [execAck, hrecv, hpath, hok, hplain, hsync]

/-- A failure ends its packet, and so does an authenticated OK to a packet that awaits nothing else (R277, R652). -/
theorem exec_ack_completes (hpath : h.param / 32768 ≠ 1)
    (hends : h.param % 256 = stOk → plain ≠ none ∧ fieldN o.hdr 0 8 ∉ [ftSync, ftRead, ftAtomic]) :
    exec (.ack hdr tag false) s = .next (((u.release o).resolve o (h.param % 256) []).afterAnswer o.src) := by
  show execAck hdr tag false s = _
  by_cases hok : h.param % 256 = stOk
  · obtain ⟨hplain, htype⟩ := hends hok
    simp only [List.mem_cons, List.not_mem_nil, or_false, not_or] at htype
    obtain ⟨hsync, hread, hatomic⟩ := htype
    simp [execAck, hrecv, hpath, hok, hplain, hsync, hread, hatomic]
  · simp [execAck, hrecv, hpath, hok]

end

/-! ### Responses with data -/

section
variable {s u : State} {hdr : Header} {payload tag : Bytes} {h : FHdr} {o : Outst}

theorem exec_data_unauthenticated (hrecv : s.receiveResp ftData hdr payload tag = (u, some (h, o, none))) :
    exec (.data hdr payload tag) s = .next u := by
  show execData hdr payload tag s = _
  simp [execData, hrecv]

theorem exec_value_unauthenticated (hrecv : s.receiveResp ftValue hdr payload tag = (u, some (h, o, none))) :
    exec (.value hdr payload tag) s = .next u := by
  show execValue hdr payload tag s = _
  simp [execValue, hrecv]

/-- An authenticated DATA brings its READ the lines that it asked for (R496). -/
theorem exec_data_completes {bs : Bytes} (hrecv : s.receiveResp ftData hdr payload tag = (u, some (h, o, some bs)))
    (hread : fieldN o.hdr 0 8 = ftRead) :
    exec (.data hdr payload tag) s = .next
      (((u.release o).resolve o stOk (sliceB bs 0 (128 * fieldN o.hdr 16 5))).afterAnswer o.src) := by
  show execData hdr payload tag s = _
  simp [execData, hrecv, hread]

/-- An authenticated VALUE brings its SYNC or ATOMIC a status and a value (R496). -/
theorem exec_value_completes {bs : Bytes} (hrecv : s.receiveResp ftValue hdr payload tag = (u, some (h, o, some bs)))
    (htype : fieldN o.hdr 0 8 = ftSync ∨ fieldN o.hdr 0 8 = ftAtomic) :
    exec (.value hdr payload tag) s = .next
      (((u.release o).resolve o (h.param % 256) (sliceB bs 0 8)).afterAnswer o.src) := by
  have htype : ¬(fieldN o.hdr 0 8 ≠ ftSync && fieldN o.hdr 0 8 ≠ ftAtomic) = true := by
    simpa [Decidable.or_iff_not_imp_left] using htype
  show execValue hdr payload tag s = _
  simp only [execValue, hrecv]
  exact if_neg htype

end

end Sys2Proof.Machine
end

section
/-! PROOFS. Forwarding in the switch core, loss, notices, and answers to outstanding packets. -/

namespace Sys2Proof.Machine

open Sys2Proof.Slice0

/-- Settles O50: a locked pair's packet crosses as its route says, a new lock is for a packet that an output asked for,
and each timeout, notice and answer selects one branch of its command. -/
theorem packetsAndAnswers : Obligations.PacketsAndAnswers := by
  refine ⟨fun s inp out vc corrected b => ?_, fun s => ⟨rfl, s.matchSlot_buf, fun l => State.mem_matchSlot_locks⟩,
    fun s src dest dseq o hfind => ⟨exec_beRetxExpiry_limit hfind, exec_beRetxExpiry_again hfind⟩,
    fun s src dest hother => ?_,
    fun s p body => ⟨rfl, fun hknown => congrArg Host.Outcome.next (State.noticeArrives_known hknown p.val)⟩,
    fun s hdr tag u h o plain hrecv => ?_, fun s hdr payload tag u h o plain hrecv => ⟨?_, ?_⟩,
    fun s hdr payload tag u h o plain hrecv => ⟨?_, ?_⟩⟩
  · intro m hfind h e u fin
    have hm : s.matchSlot = m := rfl
    clear_value m
    have crosses (hlock : (inp, out, vc.toNat) ∈ m.swc.locks) (failed : Bool) :
        exec (.packetForward inp out vc corrected failed) s
          = .next (fin (if failed then u.bufferError b else u.forward b)) :=
      exec_packetForward_locked hm hfind hlock corrected failed
    refine ⟨fun hlock => exec_packetForward_unlocked hm hfind hlock corrected false,
      fun hlock => ⟨fun hok hlast => ?_, fun hok hmore => ?_, fun herr => ?_, crosses hlock true⟩⟩
    all_goals have hroute : u.routeError h = m.routeError h := m.routeError_beginCross inp out corrected h
    all_goals refine (crosses hlock false).trans (congrArg (fun t => Host.Outcome.next (fin t)) ?_)
    · exact State.forward_lastHop (hroute.trans hok) hlast
    · exact State.forward_nextHop (hroute.trans hok) hmore
    · exact State.forward_routeError (hroute.trans herr)
  · intro mine hhits
    exact exec_pathTimeout rfl hother hhits
  · refine ⟨exec_ack_pathFailed hrecv, exec_ack_unauthenticated hrecv, fun hpath hok hplain =>
      ⟨exec_ack_listsWait hrecv hpath hok hplain, fun hsync hread hatomic => ?_⟩, fun hpath hfail =>
      exec_ack_completes hrecv hpath fun hok => absurd hok hfail⟩
    rw [← hok]
    exact exec_ack_completes hrecv hpath fun _ => ⟨hplain, by simp [hsync, hread, hatomic]⟩
  · rintro rfl
    exact exec_data_unauthenticated hrecv
  · rintro bs rfl hread
    exact exec_data_completes hrecv hread
  · rintro rfl
    exact exec_value_unauthenticated hrecv
  · rintro bs rfl htype
    exact exec_value_completes hrecv htype

end Sys2Proof.Machine
end

section
/-! SUPPORT. Shared rules for packets of the reduction engine: one that arrives has its effect and is acknowledged, and
a duplicate is only acknowledged again. -/

namespace Sys2Proof.Machine

open Sys2Proof.Slice0

section
variable {s : State} {kind : Nat} {k : FabPkt} {b : Bytes}

/-- The last packet of a message, when it arrives, has the effect of the message (R277, R498). -/
theorem State.redTake_heard (h : Arrives s (ftRed + kind) k b) (hend : Ends k) {act : State → Bytes → State}
    {effect : State → State}
    (heffect : act (s.unqueue k.hdr k.payload) b = effect (s.unqueue k.hdr k.payload)) :
    s.redTake kind k act = heard s k effect := by
  have hlast : (FHdr.dec k.hdr).param / 256 = 0 := hend
  rw [State.redTake, State.redArrive, State.takeOnce_arrives h rfl, if_pos hlast, heffect, heard]

/-- A duplicate has no effect, but is acknowledged again, and members that waited go on (R278). -/
theorem State.redTake_duplicate (hft : (FHdr.dec k.hdr).ftype = ftRed + kind)
    (hepoch : s.epochUsable (FHdr.dec k.hdr).epoch = true) (hkeys : s.keysGone (FHdr.dec k.hdr).gallery = false)
    (hdup : (s.window (FHdr.dec k.hdr)).isDup (FHdr.dec k.hdr).dseq = true)
    (hplain : (if (FHdr.dec k.hdr).srcNode = s.node then some k.payload
      else s.openFab (FHdr.dec k.hdr) 0 k.payload k.tag) = some b) (act : State → Bytes → State) :
    s.redTake kind k act =
      ((s.unqueue k.hdr k.payload).ackAgain (redIn (FHdr.dec k.hdr)) (FHdr.dec k.hdr)).settleMembers := by
  have hepoch : (s.unqueue k.hdr k.payload).epochUsable (FHdr.dec k.hdr).epoch = true := hepoch
  have hkeys : (s.unqueue k.hdr k.payload).keysGone (FHdr.dec k.hdr).gallery = false := hkeys
  have hdup : ((s.unqueue k.hdr k.payload).window (FHdr.dec k.hdr)).isDup (FHdr.dec k.hdr).dseq = true := hdup
  have hplain : (if (FHdr.dec k.hdr).srcNode = (s.unqueue k.hdr k.payload).node then some k.payload
      else (s.unqueue k.hdr k.payload).openFab (FHdr.dec k.hdr) 0 k.payload k.tag) = some b := hplain
  simp [State.redTake, State.redArrive, State.takeOnce, State.acceptPacket, hft, hepoch, hkeys, hdup, hplain]

end

end Sys2Proof.Machine
end

section
/-! PROOFS. What reaches a member of a collective. -/

namespace Sys2Proof.Machine

open Sys2Proof.Slice0

/-- Taking a packet off the list of arrivals changes no member's operation. -/
@[simp] theorem State.memberFor_unqueue (s : State) (hdr : Header) (payload : Bytes) (p : Port) (m : MemberId) :
    (s.unqueue hdr payload).memberFor p m = s.memberFor p m := rfl

section
variable {s : State} {p : Port} {m : MemberId} {k : FabPkt} {b : Bytes} {g : Nat} {o : Op}

theorem exec_credit_noMember (h : Arrives s (ftRed + rkCredit) k b) (hend : Ends k) (hm : s.memberFor p m = none)
    (chunk : Nat) : exec (.credit p m chunk k) s = .next (heard s k id) :=
  congrArg Host.Outcome.next (State.redTake_heard h hend (by simp [hm]))

/-- A credit is held once (R326). -/
theorem exec_credit_member (h : Arrives s (ftRed + rkCredit) k b) (hend : Ends k) (hm : s.memberFor p m = some (g, o))
    (chunk : Nat) : exec (.credit p m chunk k) s = .next (heard s k fun u => (u.modCol g o.idx fun c =>
      { c with credits := if c.credits.contains chunk then c.credits else c.credits ++ [chunk] }).drive p.val) :=
  congrArg Host.Outcome.next (State.redTake_heard h hend (by simp only [State.memberFor_unqueue, hm]))

theorem exec_offsets_noMember (h : Arrives s (ftRed + rkOffsets) k b) (hend : Ends k) (hm : s.memberFor p m = none)
    (off kept recv : List Nat) (bases : List (Nat × Nat)) :
    exec (.offsets p m off kept recv bases k) s = .next (heard s k id) :=
  congrArg Host.Outcome.next (State.redTake_heard h hend (by simp [hm]))

/-- The offsets of a DISPATCH are taken once (R389). -/
theorem exec_offsets_dispatch (h : Arrives s (ftRed + rkOffsets) k b) (hend : Ends k)
    (hm : s.memberFor p m = some (g, o)) (hkind : o.kind = .dispatch) (off kept recv : List Nat)
    (bases : List (Nat × Nat)) :
    exec (.offsets p m off kept recv bases k) s = .next (heard s k fun u =>
      if o.col.final then u else (u.modCol g o.idx fun c =>
        { c with off := off, keptCnt := kept, recv := recv, bases := bases, final := true }).drive p.val) :=
  congrArg Host.Outcome.next (State.redTake_heard h hend (by simp [hm, hkind]))

/-- A grant is held once (R400). -/
theorem State.grantIn_member (hm : s.memberFor p m = some (g, o)) (group : Nat) :
    s.grantIn p m group = (s.modCol g o.idx fun c =>
      { c with grants := if c.grants.contains group then c.grants else c.grants ++ [group] }).drive p.val := by
  simp only [State.grantIn, hm]

/-- A grant that comes before its COMBINE has issued is kept for it (R400). -/
theorem State.grantIn_early (hm : s.memberFor p m = none)
    (hinst : Tab.get 0 s.cat.instNo (p.val * 4096 + m.sched.toNat) ≤ m.inst) {group : Nat}
    (hnew : (p.val, m.sched.toNat, m.inst, group) ∉ s.red.early) :
    s.grantIn p m group =
      { s with red := { s.red with early := s.red.early ++ [(p.val, m.sched.toNat, m.inst, group)] } } := by
  simp [State.grantIn, hm, hinst, hnew]

/-! ### Results (R331, R347) -/

theorem State.resultArrives_noMember (hm : s.memberFor p m = none) (dseq off : Nat) (lines : Bytes) :
    s.resultArrives p m dseq off lines = s := by
  simp [State.resultArrives, hm]

theorem State.resultLost_noMember (hm : s.memberFor p m = none) (status : Nat) : s.resultLost p m status = s := by
  simp [State.resultLost, hm]

/-- After a failed delivery the lines of a result are released (R347). -/
theorem State.resultArrives_failed (hm : s.memberFor p m = some (g, o)) (hfail : o.col.delivery ≠ stOk)
    (dseq off : Nat) (lines : Bytes) : s.resultArrives p m dseq off lines = s := by
  simp [State.resultArrives, hm, hfail]

/-- The lines of a dense result are written at their offset in the member's range (R331). -/
theorem State.resultArrives_dense (hm : s.memberFor p m = some (g, o)) (hok : o.col.delivery = stOk)
    (hkind : o.kind = .reduce) (hdense : (Shape.dec o.shapeWord).sparse = false) (dseq off : Nat) (lines : Bytes) :
    s.resultArrives p m dseq off lines =
      ((s.writeResult g o.idx dseq ((s.resultRange o).1 + off) (lines.length / 128 + 2) lines).collSettle g
        o.idx).drive p.val := by
  simp [State.resultArrives, hm, hok, hkind, hdense]

/-- Word of lost lines fails the member's delivery, whose first failure stands (R347). -/
theorem State.resultLost_member (hm : s.memberFor p m = some (g, o)) (status : Nat) :
    s.resultLost p m status = ((s.modCol g o.idx fun c =>
      { c with delivery := if c.delivery = stOk then status else c.delivery }).collSettle g o.idx).drive p.val := by
  simp only [State.resultLost, hm]

theorem exec_result_lines (h : Arrives s (ftRed + rkResult) k b) (hend : Ends k) (off : Nat) :
    exec (.result p m off none k) s =
      .next (heard s k fun s => s.resultArrives p m (FHdr.dec k.hdr).dseq off b) :=
  congrArg Host.Outcome.next (State.redTake_heard h hend rfl)

theorem exec_result_lost (h : Arrives s (ftRed + rkResult) k b) (hend : Ends k) (off status : Nat) :
    exec (.result p m off (some status) k) s = .next (heard s k fun s => s.resultLost p m status) :=
  congrArg Host.Outcome.next (State.redTake_heard h hend rfl)

end

/-- Settles O58: each packet is heard once, and what it does depends on the member that it names. -/
theorem memberEvents : Obligations.MemberEvents := by
  refine ⟨fun s p m k b hend => ⟨fun chunk h => ?_, fun off kept recv bases h => ?_, fun group h => ?_,
      fun off h => ?_⟩, fun s p m group => ?_, fun s p m => ⟨fun hm => ?_, fun g o hm => ?_⟩,
    fun s p m off lost k b => ?_⟩
  · exact ⟨fun hm => exec_credit_noMember h hend hm chunk, fun g o hm => exec_credit_member h hend hm chunk⟩
  · refine ⟨fun hm => exec_offsets_noMember h hend hm off kept recv bases, fun g o hm hkind => ?_⟩
    rw [exec_offsets_dispatch h hend hm hkind]
    exact ⟨fun hfirst => by simp [hfirst], fun hagain => by simp only [hagain]; rfl⟩
  · exact congrArg Host.Outcome.next (State.redTake_heard h hend rfl)
  · exact ⟨exec_result_lines h hend off, exec_result_lost h hend off⟩
  · exact ⟨fun g o hm => State.grantIn_member hm group, fun hm hinst hnew => State.grantIn_early hm hinst hnew⟩
  · exact ⟨State.resultArrives_noMember hm, State.resultLost_noMember hm⟩
  · refine ⟨fun dseq off lines => ⟨fun hfail => ?_, fun hok hkind hdense => ?_⟩, State.resultLost_member hm⟩
    · exact State.resultArrives_failed hm hfail dseq off lines
    · exact State.resultArrives_dense hm hok hkind hdense dseq off lines
  · intro h hft hepoch hkeys hdup hplain
    exact congrArg Host.Outcome.next (State.redTake_duplicate hft hepoch hkeys hdup hplain _)

end Sys2Proof.Machine
end

section
/-! SUPPORT. Shared rules for the instances of a home: how one is found and changed, and what an abort leaves. -/

namespace Sys2Proof.Machine

open Sys2Proof.Slice0

/-! ### Finding and changing an `Instance` -/

theorem find?_modifyFirst {α : Type} {p : α → Bool} {f : α → α} {l : List α} {a : α} (h : l.find? p = some a)
    (hf : p (f a) = true) : (modifyFirst p f l).find? p = some (f a) := by
  induction l with
  | nil => exact nomatch h
  | cons b l ih =>
    unfold modifyFirst
    by_cases hb : p b = true
    · obtain rfl : b = a := by simpa [hb] using h
      simp [hb, hf]
    · have h : l.find? p = some a := by simpa [hb] using h
      simpa [hb] using ih h

theorem modifyFirst_congr {α : Type} {p : α → Bool} {f f' : α → α} {l : List α} {a : α} (h : l.find? p = some a)
    (hf : f a = f' a) : modifyFirst p f l = modifyFirst p f' l := by
  induction l with
  | nil => rfl
  | cons b l ih =>
    unfold modifyFirst
    by_cases hb : p b = true
    · obtain rfl : b = a := by simpa [hb] using h
      simp [hb, hf]
    · have h : l.find? p = some a := by simpa [hb] using h
      simp [hb, ih h]

theorem Instance.same_iff {i j : Instance} :
    i.same j = true ↔ i.sched = j.sched ∧ i.inst = j.inst ∧ i.group = j.group := by
  simp [Instance.same, and_assoc]

@[simp] theorem Instance.same_self (i : Instance) : i.same i = true := Instance.same_iff.mpr ⟨rfl, rfl, rfl⟩

theorem State.mem_of_instOf {s : State} {n inst : Nat} {ok : Instance → Bool} {i : Instance}
    (h : s.instOf n inst ok = some i) :
    i ∈ s.red.insts ∧ i.sched = n ∧ i.inst = inst ∧ ok i = true := by
  have hi := List.find?_some h
  simp only [Bool.and_eq_true, beq_iff_eq, and_assoc] at hi
  exact ⟨List.mem_of_find?_eq_some h, hi⟩

/-- The `Instance` of a group is the first record that stands for it. -/
theorem State.find_same_of_instOf {s : State} {n inst g : Nat} {i : Instance}
    (h : s.instOf n inst (fun i => i.group == g) = some i) : (s.red.insts.find? fun j => j.same i) = some i := by
  obtain ⟨-, rfl, rfl, hg⟩ := State.mem_of_instOf h
  obtain rfl : i.group = g := by simpa using hg
  exact h

section
variable {s : State} {i : Instance} {f : Instance → Instance}

theorem State.instNow_of_find (h : (s.red.insts.find? fun j => j.same i) = some i) : s.instNow i = i := by
  simp [State.instNow, h]

/-- A change that keeps what an `Instance` stands for is read back. -/
theorem State.instNow_modInst (hi : i ∈ s.red.insts) (hf : ∀ j, j.same i = true → (f j).same i = true) :
    (s.modInst i f).instNow i = f (s.instNow i) := by
  have hsome : (s.red.insts.find? fun j => j.same i).isSome := List.find?_isSome.mpr ⟨i, hi, i.same_self⟩
  obtain ⟨j, hj⟩ := Option.isSome_iff_exists.mp hsome
  have hnew := find?_modifyFirst hj (hf j (List.find?_some (p := fun j : Instance => j.same i) hj))
  rw [State.instNow, State.instNow, hj, State.modInst]
  exact congrArg (Option.getD · i) hnew

theorem State.modInst_congr {f' : Instance → Instance} (h : (s.red.insts.find? fun j => j.same i) = some i)
    (hf : f i = f' i) : s.modInst i f = s.modInst i f' := by
  unfold State.modInst
  rw [modifyFirst_congr h hf]

end

/-! ### What an abort leaves (R341, R344, R352) -/

/-- From `s` to `t` instances only end: the records of ends, their count and the joins that wait stay. -/
structure EndsOnly (s t : State) : Prop where
  ended : t.red.ended = s.red.ended
  aborted : t.red.aborted = s.red.aborted
  waiting : t.red.waiting = s.red.waiting
  insts : ∀ i ∈ t.red.insts, i ∈ s.red.insts

theorem EndsOnly.trans {s t u : State} (h : EndsOnly s t) (k : EndsOnly t u) : EndsOnly s u where
  ended := k.ended.trans h.ended
  aborted := k.aborted.trans h.aborted
  waiting := k.waiting.trans h.waiting
  insts := fun i hi => h.insts i (k.insts i hi)

theorem EndsOnly.of_redKept {s t : State} (h : RedKept s t) : EndsOnly s t where
  ended := h.ended_eq
  aborted := h.aborted_eq
  waiting := h.waiting_eq
  insts := fun _ hi => h.insts_eq ▸ hi

theorem EndsOnly.refl (s : State) : EndsOnly s s := .of_redKept (RedKept.refl s)

theorem EndsOnly.foldl {α : Type} {f : State → α → State} (hf : ∀ s x, EndsOnly s (f s x)) (l : List α) (s : State) :
    EndsOnly s (l.foldl f s) := by
  induction l generalizing s with
  | nil => exact EndsOnly.refl s
  | cons x l ih => exact (hf s x).trans (ih (f s x))

theorem State.overInst_insts (s : State) (i : Instance) (status : Nat) (pathLost : Bool) :
    (s.overInst i status pathLost).red.insts = s.red.insts.filter fun j => !j.same i :=
  (State.pumpResults_redKept (RedKept.refl _)).insts_eq

theorem State.overInst_endsOnly (s : State) (i : Instance) (status : Nat) (pathLost : Bool) :
    EndsOnly s (s.overInst i status pathLost) where
  ended := (State.pumpResults_redKept (RedKept.refl _)).ended_eq
  aborted := (State.pumpResults_redKept (RedKept.refl _)).aborted_eq
  waiting := (State.pumpResults_redKept (RedKept.refl _)).waiting_eq
  insts := fun j hj => by
    rw [State.overInst_insts] at hj
    exact (List.mem_filter.mp hj).1

/-- Instances that are over have left the home. -/
theorem State.foldl_overInst_gone (status : Nat) (pathLost : Bool) {l : List Instance} {s : State} {i : Instance}
    (hi : i ∈ l) : ∀ j ∈ (l.foldl (fun s i => s.overInst i status pathLost) s).red.insts, j.same i = false := by
  induction l generalizing s with
  | nil => exact absurd hi List.not_mem_nil
  | cons x l ih =>
    intro j hj
    rcases List.mem_cons.mp hi with rfl | hi
    · have hrest := (EndsOnly.foldl (fun s i => s.overInst_endsOnly i status pathLost) l _).insts j hj
      rw [State.overInst_insts] at hrest
      simpa using (List.mem_filter.mp hrest).2
    · exact ih hi j hj

theorem State.settleAborts_endsOnly (s : State) : EndsOnly s s.settleAborts :=
  EndsOnly.foldl (fun s i => s.overInst_endsOnly i _ _) _ s

theorem State.sendAbort_endsOnly (s : State) (gal node : Nat) (port : Option Nat) (n inst status : Nat)
    (pathLost : Bool) (begun : Option (Nat × Nat)) :
    EndsOnly s (s.sendAbort gal node port n inst status pathLost begun) :=
  .of_redKept (State.sendAbort_redKept _ _ _ _ _ _ _ _ (RedKept.refl s))

/-- The record of an `Instance` that aborts: one that lingers keeps the chunks that it has begun, and nothing else
(R344, R352). -/
def Instance.markAborted (n inst : Nat) (begun : List (Nat × Nat)) (i : Instance) : Instance :=
  if i.sched == n && i.inst == inst && i.lingers then { i with aborted := true, copies := [], begun := begun } else i

theorem Instance.markAborted_same (n inst : Nat) (begun : List (Nat × Nat)) (i j : Instance) :
    (i.markAborted n inst begun).same j = i.same j := by
  unfold Instance.markAborted
  split <;> rfl

/-- An `Instance` that lingers is marked by its abort (R344). -/
theorem Instance.markAborted_lingering {i : Instance} (h : i.lingers = true) (begun : List (Nat × Nat)) :
    i.markAborted i.sched i.inst begun = { i with aborted := true, copies := [], begun := begun } := by
  simp [Instance.markAborted, h]

/-- The tables of a home once the abort of an `Instance` is recorded (R346). -/
def State.markAborted (s : State) (n inst status : Nat) (pathLost : Bool) (begun : List (Nat × Nat)) : State :=
  { s with red :=
    { s.red with
      insts := s.red.insts.map (Instance.markAborted n inst begun)
      waiting := s.red.waiting.filter fun m => !(m.sched.toNat == n && m.inst == inst)
      ended := (n, inst, status, pathLost) :: s.red.ended
      aborted := wrapAdd 32 s.red.aborted 1 } }

/-- The instances of a number that end with its abort, for nothing of them is left to deliver. -/
def State.endsAtOnce (s : State) (n inst : Nat) : List Instance :=
  (s.red.insts.filter fun i => i.sched == n && i.inst == inst).filter fun i => !i.lingers

section
variable {s : State} {n inst : Nat}

/-- The first cause of an abort stands (R341). -/
theorem State.abortOne_ended (h : ∃ x, x ∈ s.red.ended ∧ x.1 = n ∧ x.2.1 = inst) (e : Bool) (status : Nat)
    (pathLost : Bool) : s.abortOne e n inst status pathLost = s := by
  have hany : (s.red.ended.any fun x => x.1 == n && x.2.1 == inst) = true := by simpa using h
  exact if_pos hany

/-- A first abort is recorded, ends what need not linger, and then only tells others and ends instances. -/
theorem State.abortOne_endsOnly (h : ∀ x ∈ s.red.ended, ¬(x.1 = n ∧ x.2.1 = inst)) (e : Bool) (status : Nat)
    (pathLost : Bool) : ∃ begun, EndsOnly
      ((s.endsAtOnce n inst).foldl (fun s i => s.overInst i status pathLost)
        (s.markAborted n inst status pathLost begun))
      (s.abortOne e n inst status pathLost) := by
  have hany : ¬(s.red.ended.any fun x => x.1 == n && x.2.1 == inst) = true := fun hany => by
    obtain ⟨x, hx, hof⟩ := List.any_eq_true.mp hany
    exact h x hx (by simpa using hof)
  rw [State.abortOne, if_neg hany]
  have hjoins (joins : List JoinMsg) (u : State) := EndsOnly.foldl (fun s (m : JoinMsg) =>
    s.sendAbort_endsOnly m.gallery.val m.node.toNat (some m.port) n inst status pathLost none) joins u
  have hhomes (gal : Nat) (begun : List (Nat × Nat)) (homes : List Nat) (u : State) := EndsOnly.foldl (fun s node =>
    EndsOnly.foldl (fun s b => s.sendAbort_endsOnly gal node none n inst status pathLost (some b)) begun s) homes u
  exact ⟨_, (hjoins _ _).trans ((hhomes _ _ _ _).trans (State.settleAborts_endsOnly _))⟩

/-- The tables after a first abort: its record, its count, and of the `Instance` only what lingers (R341, R344). -/
theorem State.abortOne_tables (h : ∀ x ∈ s.red.ended, ¬(x.1 = n ∧ x.2.1 = inst)) (e : Bool) (status : Nat)
    (pathLost : Bool) : let t := s.abortOne e n inst status pathLost
    t.red.ended = (n, inst, status, pathLost) :: s.red.ended ∧ t.red.aborted = (s.red.aborted + 1) % 2 ^ 32
      ∧ (∀ i ∈ t.red.insts, i.sched = n → i.inst = inst → i.aborted = true ∧ i.copies = [] ∧ 1 < i.groups)
      ∧ ∀ m ∈ t.red.waiting, ¬(m.sched.toNat = n ∧ m.inst = inst) := by
  intro t
  obtain ⟨begun, hrest⟩ := State.abortOne_endsOnly h e status pathLost
  have hover := EndsOnly.foldl (fun s i => s.overInst_endsOnly i status pathLost) (s.endsAtOnce n inst)
    (s.markAborted n inst status pathLost begun)
  have hall := hover.trans hrest
  refine ⟨hall.ended, hall.aborted, fun j hj hn hinst => ?_, fun m hm => ?_⟩
  · obtain ⟨i, hi, rfl⟩ := List.mem_map.mp (hall.insts j hj)
    have hsame : (i.markAborted n inst begun).same i = true := by rw [Instance.markAborted_same, Instance.same_self]
    obtain ⟨hs, hk, -⟩ := Instance.same_iff.mp hsame
    obtain rfl : i.sched = n := hs.symm.trans hn
    obtain rfl : i.inst = inst := hk.symm.trans hinst
    cases hl : i.lingers with
    | true =>
      rw [Instance.markAborted_lingering hl]
      simp only [Instance.lingers, Bool.and_eq_true, decide_eq_true_eq, and_assoc] at hl
      exact ⟨rfl, rfl, hl.1⟩
    | false =>
      have hmem : i ∈ s.endsAtOnce i.sched i.inst := by simp [State.endsAtOnce, hi, hl]
      have hgone := State.foldl_overInst_gone status pathLost hmem _ (hrest.insts _ hj)
      exact absurd hsame (by simp [hgone])
  · rw [hall.waiting] at hm
    rintro ⟨hn, hinst⟩
    exact absurd (List.mem_filter.mp hm).2 (by simp [hn, hinst])

end

end Sys2Proof.Machine
end

section
/-! PROOFS. Joins, claims and the end of an `Instance` at its home. -/

namespace Sys2Proof.Machine

open Sys2Proof.Slice0

/-! ### Joins (R299, R308, R309, R346, R888) -/

theorem exec_join_heard {s : State} {k : FabPkt} {b : Bytes} (h : Arrives s (ftRed + rkJoin) k b) (hend : Ends k)
    (m : JoinMsg) : exec (.join m k) s = .next (heard s k fun s => s.doJoin m) :=
  congrArg Host.Outcome.next (State.redTake_heard h hend rfl)

section
variable {s : State} {m : JoinMsg}

/-- A join of an epoch that is over is counted (R807). -/
theorem State.doJoin_late (h : s.epochUsable m.epoch = false) :
    s.doJoin m = { s with cat := { s.cat with late := min (s.cat.late + 1) 65535 } } :=
  if_pos (by simp [h])

section
variable (hepoch : s.epochUsable m.epoch = true)
include hepoch

/-- A join that no record names is refused, and ends an `Instance` of its number in progress (R888). -/
theorem State.doJoin_noRecord (hrec : s.joinRecord m = none) :
    s.doJoin m = State.refuseJoin
      (if (s.instOf m.sched.toNat m.inst fun i => i.live) = none then s
       else s.abortInst m.epoch m.sched.toNat m.inst stWithdrawn false) m stNoSchedule false := by
  cases hlive : s.instOf m.sched.toNat m.inst fun i => i.live <;> simp [State.doJoin, hepoch, hrec, hlive]

theorem State.doJoin_recorded {sc : Sched} {r : Nat} (hrec : s.joinRecord m = some (sc, r)) :
    s.doJoin m = s.takeJoin m sc r := by
  simp [State.doJoin, hepoch, hrec]

end

section
variable {sc : Sched} {r : Nat}

/-- A join is answered with the status of its `Instance`'s abort (R346). -/
theorem State.takeJoin_ended {e : Nat × Nat × Nat × Bool}
    (hend : (s.red.ended.find? fun e => e.1 == m.sched.toNat && e.2.1 == m.inst) = some e) :
    s.takeJoin m sc r = s.refuseJoin m e.2.2.1 e.2.2.2 := by
  simp only [State.takeJoin, hend]

variable (hnew : (s.red.ended.find? fun e => e.1 == m.sched.toNat && e.2.1 == m.inst) = none)
include hnew

/-- A join that would begin an `Instance` beyond the limits waits (R299). -/
theorem State.takeJoin_waits (hnone : (s.instOf m.sched.toNat m.inst fun i => i.group == r / sc.b) = none)
    (hfull : s.limitsAdmit m.sched.toNat = false) :
    s.takeJoin m sc r = { s with red := { s.red with waiting := s.red.waiting ++ [m] } } := by
  simp [State.takeJoin, hnew, hnone, hfull]

theorem State.takeJoin_running {i : Instance}
    (hi : (s.instOf m.sched.toNat m.inst fun i => i.group == r / sc.b) = some i) :
    s.takeJoin m sc r = s.joinMember i m r := by
  simp only [State.takeJoin, hnew, hi]

end

/-- The record of a rank that joins. -/
def joinedMember (m : JoinMsg) (rank : Nat) : HomeMember :=
  { rank := rank, node := m.node.toNat, port := m.port, chunks := 0, coverage := 0, ended := false, ahead := []
    withdrawn := false, counts := m.counts, experts := m.experts }

/-- An `Instance` with one more member. -/
def Instance.withMember (i : Instance) (x : HomeMember) : Instance := { i with members := i.members ++ [x] }

section
variable {i : Instance} {r : Nat}

/-- A join of another digest, or of another epoch with another record, ends the `Instance` (R308, R309). -/
theorem State.joinMember_mismatch
    (h : m.shape.toNat ≠ i.digest ∨ m.epoch ≠ i.epoch ∧ s.sameRecord i.sched = false) :
    s.joinMember i m r =
      (s.abortInst i.epoch i.sched i.inst stMismatch false).refuseJoin m stMismatch false :=
  if_pos (by simpa using h)

/-- Only a DISPATCH home sends offsets (R389). -/
theorem State.sendOffsets_otherKind (s : State) {i : Instance} (hkind : i.kind ≠ 0xA) : s.sendOffsets i = s :=
  if_pos (by simp [hkind])

/-- A rank that joins its `Instance` enters its members, and has its first credits where the claim is granted (R325). -/
theorem State.joinMember_joins (hfind : (s.red.insts.find? fun j => j.same i) = some i)
    (hdigest : m.shape.toNat = i.digest) (hrecord : m.epoch = i.epoch ∨ s.sameRecord i.sched = true)
    (hkind : i.kind ≠ 0xA) (hrank : ∀ x ∈ i.members, x.rank ≠ r) :
    s.joinMember i m r = let j := i.withMember (joinedMember m r)
      let u := s.modInst i fun _ => j
      if i.claim = .granted then u.firstCredits j (joinedMember m r) else u := by
  have hmatch : ¬(m.shape.toNat != i.digest || (m.epoch != i.epoch && !s.sameRecord i.sched)) = true := by
    rcases hrecord with h | h <;> simp [hdigest, h]
  have hfirst : ¬(i.members.any fun x => x.rank == r) = true := by simpa using hrank
  have hmod : s.modInst i (Instance.withMember · (joinedMember m r))
      = s.modInst i fun _ => i.withMember (joinedMember m r) :=
    State.modInst_congr hfind rfl
  have hnow : (s.modInst i fun _ => i.withMember (joinedMember m r)).instNow i = i.withMember (joinedMember m r) :=
    State.instNow_modInst (List.mem_of_find?_eq_some hfind) fun _ _ => i.same_self
  calc s.joinMember i m r
      = let u := s.modInst i (Instance.withMember · (joinedMember m r))
        let j := u.instNow i
        (if j.claim == .granted then u.firstCredits j (joinedMember m r) else u).sendOffsets j :=
        (if_neg hmatch).trans (if_neg hfirst)
    _ = _ := by
      dsimp only
      rw [hmod, hnow, State.sendOffsets_otherKind _ (i := i.withMember _) hkind]
      simp only [beq_iff_eq]
      rfl

end

end

/-! ### Claims (R332, R335, R336, R338, R339, R823) -/

section
variable {s : State} {i : Instance}

/-- After a lost path every `Instance` of the schedule ends at once (R823). -/
theorem State.placeClaim_pathLost (h : i.sched ∈ s.red.pathLost) :
    s.placeClaim i = s.abortInst i.epoch i.sched i.inst stWithdrawn true :=
  if_pos (by simpa using h)

variable (hpath : i.sched ∉ s.red.pathLost)
include hpath

/-- A footprint beyond the gallery's quota ends the `Instance` (R335). -/
theorem State.placeClaim_quota (hquota : (s.gal i.gallery).maxDrawers < i.footprint) :
    s.placeClaim i = s.abortInst i.epoch i.sched i.inst stQuota false :=
  (if_neg (by simpa using hpath)).trans (if_pos hquota)

variable (hquota : i.footprint ≤ (s.gal i.gallery).maxDrawers)
include hquota

/-- An inst_so that the gallery does not own ends the `Instance` (R332). -/
theorem State.placeClaim_denied (hso : i.instSo / 32768 = 1) (howned : s.soOwned (i.instSo % 16384) i.gallery = false) :
    s.placeClaim i = s.abortInst i.epoch i.sched i.inst stDenied false :=
  (if_neg (by simpa using hpath)).trans ((if_neg (Nat.not_lt.mpr hquota)).trans (if_pos (by simp [hso, howned])))

/-- Otherwise the claim enters the gallery's FIFO (R336). -/
theorem State.placeClaim_queued (hso : i.instSo / 32768 ≠ 1 ∨ s.soOwned (i.instSo % 16384) i.gallery = true) :
    s.placeClaim i =
      let u := s.modInst i fun i => { i with claim := .queued }
      { u with red := { u.red with claims := s.red.claims ++ [(i.gallery, i.sched, i.inst, i.group)] } } :=
  (if_neg (by simpa using hpath)).trans ((if_neg (Nat.not_lt.mpr hquota)).trans
    (if_neg (by rcases hso with h | h <;> simp [h])))

end

theorem exec_joinAdmitted_oldest {s : State} {m : JoinMsg}
    (h : (s.red.waiting.find? fun m => s.admittable m) = some m) :
    exec .joinAdmitted s = .next
      (State.doJoin { s with red := { s.red with waiting := s.red.waiting.erase m } } m) := by
  show execJoinAdmitted s = _
  simp only [execJoinAdmitted, h]

theorem exec_joinAdmitted_none {s : State} (h : ∀ m ∈ s.red.waiting, s.admittable m = false) :
    exec .joinAdmitted s = .next s := by
  have hnone : (s.red.waiting.find? fun m => s.admittable m) = none := by simpa using h
  show execJoinAdmitted s = _
  simp only [execJoinAdmitted, hnone]

section
variable {s : State} {g : GalNo} {c : Nat × Nat × Nat × Nat} {i : Instance}
  (hclaim : (s.red.claims.find? fun c => c.1 == g.val) = some c)
  (hi : (s.instOf c.2.1 c.2.2.1 fun i => i.group == c.2.2.2 && i.claim == .queued) = some i)
include hclaim hi

/-- A claim that does not fit the quota or the pool waits at the head of its FIFO (R336). -/
theorem exec_claimGrant_waits (hfits : ¬((s.gal g.val).granted + i.footprint ≤ (s.gal g.val).maxDrawers
      ∧ i.footprint ≤ 655360 - piecesSize s.red.held)) : exec (.claimGrant g) s = .next s := by
  have hover : ((s.gal g.val).granted + i.footprint > (s.gal g.val).maxDrawers
      || i.footprint > 655360 - piecesSize s.red.held) = true := by
    rw [Bool.or_eq_true, decide_eq_true_eq, decide_eq_true_eq]
    omega
  show execClaimGrant g s = _
  simp only [execClaimGrant, hclaim, hi]
  exact if_pos hover

/-- A claim that fits is granted whole, and credits, offsets or the announcement follow (R336). -/
theorem exec_claimGrant_fits (hquota : (s.gal g.val).granted + i.footprint ≤ (s.gal g.val).maxDrawers)
    (hfree : i.footprint ≤ 655360 - piecesSize s.red.held) :
    exec (.claimGrant g) s = .next (let u := granted s g i c
      let j := u.instNow i
      ((j.members.foldl (fun s m => s.firstCredits j m) u).sendOffsets j).announce j) := by
  have hfits : ¬((s.gal g.val).granted + i.footprint > (s.gal g.val).maxDrawers
      || i.footprint > 655360 - piecesSize s.red.held) = true := by simp [hquota, hfree]
  show execClaimGrant g s = _
  simp only [execClaimGrant, hclaim, hi]
  exact if_neg hfits

end

/-- The granted drawers count against the quota (R335). -/
theorem granted_gal (s : State) (g : GalNo) (i : Instance) (c : Nat × Nat × Nat × Nat) :
    ((granted s g i c).gal g.val).granted = (s.gal g.val).granted + i.footprint :=
  congrArg Gallery.granted (State.gal_modGal s g.val fun x => { x with granted := x.granted + i.footprint })

theorem granted_claim {s : State} {i : Instance} (hi : i ∈ s.red.insts) (g : GalNo) (c : Nat × Nat × Nat × Nat) :
    ((granted s g i c).instNow i).claim = .granted := by
  rw [granted, State.instNow_modInst]
  · exact hi
  · exact fun _ hsame => hsame

/-- Drawers that hold zeros return to the pool and to their gallery's quota (R339). -/
theorem exec_drawerZeroingDone_oldest {s : State} {g : Nat} {ps : List (Nat × Nat)} {t : List (Nat × List (Nat × Nat))}
    (h : s.red.zeroing = (g, ps) :: t) : ∃ u, exec .drawerZeroingDone s = .next u ∧ u.red.zeroing = t
      ∧ u.red.held = s.red.held.filter (fun h => !ps.contains h)
      ∧ (u.gal g).granted = (s.gal g).granted - piecesSize ps ∧ u.red.insts = s.red.insts ∧ u.ctl = s.ctl := by
  have hz := Narrow.foldl (fun s (x : Nat × Nat) => s.vmZero_narrow (vpaDrawer x.1) (65536 * x.2)) ps s
  show ∃ u, execDrawerZeroingDone s = _ ∧ _
  simp only [execDrawerZeroingDone, h]
  refine ⟨_, rfl, rfl, ?_, ?_, ?_, hz.ctl_eq⟩
  · exact congrArg (fun r : Red => r.held.filter fun h => !ps.contains h) hz.red_eq
  · rw [State.gal_modGal]
    exact congrArg (fun t => (Tab.get Gallery.reset t g).granted - piecesSize ps) hz.gals_eq
  · exact (congrArg Red.insts hz.red_eq :)

/-! ### Withdrawals and aborts (R341 to R346, R352, R396) -/

theorem exec_joinTimeout_late {s : State} {n : BitVec 12} {inst : Nat} {i : Instance}
    (h : (s.instOf n.toNat inst fun i => i.live && i.joinTimeout != 0 && !i.allJoined) = some i) :
    exec (.joinTimeout n inst) s = .next (s.abortInst i.epoch i.sched i.inst stJoinTimeout false) := by
  show execJoinTimeout n inst s = _
  simp only [execJoinTimeout, h]

theorem exec_withdrawal_heard {s : State} {k : FabPkt} {b : Bytes} (h : Arrives s (ftRed + rkWithdrawal) k b)
    (hend : Ends k) (m : MemberId) (lost : Bool) : exec (.withdrawal m lost k) s =
      .next (heard s k fun s => s.doWithdrawal (FHdr.dec k.hdr).epoch m lost) :=
  congrArg Host.Outcome.next (State.redTake_heard h hend rfl)

section
variable {s : State} {m : MemberId}

theorem State.doWithdrawal_aborts
    (h : (s.instOf m.sched.toNat m.inst fun i => i.live && i.offsetsSent) = none) (e lost : Bool) :
    s.doWithdrawal e m lost = s.abortInst e m.sched.toNat m.inst stWithdrawn lost := by
  simp only [State.doWithdrawal, h]

/-- A member that leaves after the offsets is alone affected (R396). -/
theorem State.doWithdrawal_leaves {i : Instance}
    (h : (s.instOf m.sched.toNat m.inst fun i => i.live && i.offsetsSent) = some i) (e lost : Bool) :
    s.doWithdrawal e m lost = s.memberLeft i m.rank := by
  simp only [State.doWithdrawal, h]

end

/-- A member that still runs notes the abort of its `Instance`, and keeps the first note (R341, R344). -/
theorem State.memberAborted_running {s : State} {n inst p g : Nat} {o : Op} (hm : s.memberOp p n inst = some (g, o))
    (hrun : ∀ st, o.phase ≠ .done st) (a : AbortNote) :
    s.memberAborted n inst a p =
      s.modCol g o.idx fun c => { c with abortAt := c.abortAt.orElse fun _ => some a } := by
  rw [State.memberAborted, hm]
  dsimp only
  cases hp : o.phase with
  | done st => exact absurd hp (hrun st)
  | _ => rfl

section
variable {s : State} {e : Bool} {n inst : Nat}

/-- An abort changes nothing at a module that is no home of the schedule, or whose offsets have been sent (R346,
R396). -/
theorem State.homeAborted_ignored (h : (¬∃ x, x ∈ s.homesOf e n ∧ x.2 = s.node)
      ∨ ∃ i, i ∈ s.red.insts ∧ (i.sched = n ∧ i.inst = inst) ∧ i.offsetsSent = true) (status : Nat) (lost : Bool)
    (begun : Option (Nat × Nat)) : s.homeAborted e n inst status lost begun = s := by
  by_cases hhere : ∃ x, x ∈ s.homesOf e n ∧ x.2 = s.node
  · have hsent : (s.red.insts.any fun i => i.sched == n && i.inst == inst && i.offsetsSent) = true := by
      simpa [and_assoc] using h.resolve_left (not_not_intro hhere)
    have hhome : ¬(!(s.homesOf e n).any fun x => x.2 == s.node) = true := by simpa using hhere
    exact (if_neg hhome).trans (if_pos hsent)
  · have haway : ((s.homesOf e n).any fun x => x.2 == s.node) = false :=
      List.any_eq_false.mpr fun x hx hnode => hhere ⟨x, hx, by simpa using hnode⟩
    exact if_pos (by rw [haway]; rfl)

/-- At a home of the schedule the `Instance` aborts too (R346). -/
theorem State.homeAborted_aborts (hhere : ∃ x, x ∈ s.homesOf e n ∧ x.2 = s.node)
    (hsent : ∀ i ∈ s.red.insts, i.sched = n ∧ i.inst = inst → i.offsetsSent = false) (status : Nat) (lost : Bool) :
    s.homeAborted e n inst status lost none = s.abortInst e n inst status lost := by
  have hhome : ¬(!(s.homesOf e n).any fun x => x.2 == s.node) = true := by simpa using hhere
  have hnone : ¬(s.red.insts.any fun i => i.sched == n && i.inst == inst && i.offsetsSent) = true := by
    simpa using hsent
  exact (if_neg hhome).trans (if_neg hnone)

end

/-- An `Instance` whose members have ended here, and whose results have all been sent, ends (R332, R340). -/
theorem exec_instanceComplete_ends {s : State} {n : BitVec 12} {inst : Nat}
    (hidle : ∀ p < 48, s.memberBusy n.toNat inst p = false)
    (hsent : ∀ i ∈ s.red.insts.filter fun i => i.sched == n.toNat && i.inst == inst && i.live,
      i.allSent = true ∧ s.resultWaits i = false) (failed : List Nat) :
    exec (.instanceComplete n inst failed) s = .next
      ((s.red.insts.filter fun i => i.sched == n.toNat && i.inst == inst && i.live).foldl (closed failed)
        ((List.range 48).foldl (fun s p => s.completeIdle n.toNat inst p) s)) := by
  have hbusy : (List.range 48).any (s.memberBusy n.toNat inst) = false := by simpa using hidle
  have hwait : ((s.red.insts.filter fun i => i.sched == n.toNat && i.inst == inst && i.live).any
      fun i => !i.allSent || s.resultWaits i) = false := by
    rw [List.any_eq_false]
    intro i hi
    obtain ⟨hall, hout⟩ := hsent i hi
    simp [hall, hout]
  exact if_neg (by rw [hbusy, hwait]; decide)

/-- Settles O56: a join, a claim, a withdrawal and an abort each select one branch of their command, and what an abort
leaves follows from what each of its parts leaves. -/
theorem homeInstances : Obligations.HomeInstances := by
  refine ⟨fun s m k b h hend => exec_join_heard h hend m, fun s m hlate => State.doJoin_late hlate,
    fun s m hepoch hrec => ?_, fun s m sc r hepoch hrec => ?_, fun s i => ?_, fun s m hm => exec_joinAdmitted_oldest hm,
    fun s hnone => exec_joinAdmitted_none hnone, fun s g c i hclaim hi => ?_,
    fun s g ps t hz => exec_drawerZeroingDone_oldest hz, fun s n inst i hi => exec_joinTimeout_late hi,
    fun s m lost k b h hend => exec_withdrawal_heard h hend m lost, fun s e m lost => ?_,
    fun s n inst st lost k b h hend => ?_, fun s n inst a p g o hm hrun => State.memberAborted_running hm hrun a,
    fun s e n inst st lost => ?_, fun s n inst failed => ?_, fun s e n inst st lost hnew => ?_,
    fun s e n inst st lost hended => State.abortOne_ended hended e st lost⟩
  · rw [State.doJoin_noRecord hepoch hrec]
    exact ⟨fun hnone => by rw [if_pos hnone], fun hlive => by rw [if_neg hlive]⟩
  · rw [State.doJoin_recorded hepoch hrec]
    refine ⟨fun e hend => State.takeJoin_ended hend, State.takeJoin_waits, fun i hnew hi => ?_⟩
    rw [State.takeJoin_running hnew hi]
    exact ⟨State.joinMember_mismatch, State.joinMember_joins (State.find_same_of_instOf hi)⟩
  · exact ⟨State.placeClaim_pathLost, State.placeClaim_quota, fun hpath hquota =>
      ⟨State.placeClaim_denied hpath hquota, State.placeClaim_queued hpath hquota⟩⟩
  · obtain ⟨hmem, -⟩ := State.mem_of_instOf hi
    exact ⟨exec_claimGrant_waits hclaim hi, fun ⟨hquota, hfree⟩ =>
      ⟨exec_claimGrant_fits hclaim hi hquota hfree, granted_gal s g i c, granted_claim hmem g c⟩⟩
  · exact ⟨fun hnone => State.doWithdrawal_aborts hnone e lost, fun i hi => State.doWithdrawal_leaves hi e lost⟩
  · refine ⟨fun p => ?_, fun g => ?_, ?_⟩
    all_goals exact congrArg (fun t => Host.Outcome.next (State.driveAll t)) (State.redTake_heard h hend rfl)
  · exact ⟨fun h begun => State.homeAborted_ignored h st lost begun,
      fun hhere hsent => State.homeAborted_aborts hhere hsent st lost⟩
  · exact fun hidle hsent => exec_instanceComplete_ends hidle hsent failed
  · exact State.abortOne_tables hnew e st lost

end Sys2Proof.Machine
end

section
/-! SUPPORT. Merging records in ascending order, the capacity rule, and the turn of an `Instance`. -/

namespace Sys2Proof.Machine

open Sys2Proof.Slice0

/-! ### Merged windows (R375) -/

/-- Merging one record adds its index and no other. -/
theorem mem_mergeOne_keys (step : Nat → Nat → Nat) (acc : List (Nat × Nat)) (x : Nat × Nat) (k : Nat) :
    k ∈ (mergeOne step acc x).map Prod.fst ↔ k ∈ acc.map Prod.fst ∨ k = x.1 := by
  induction acc with
  | nil => simp [mergeOne]
  | cons a acc ih =>
    unfold mergeOne
    split
    · rw [List.map_cons, List.mem_cons, or_comm]
    · split
      next heq =>
        refine (or_iff_left_of_imp fun hk => ?_).symm
        rw [hk, heq]
        exact List.mem_cons_self
      next => rw [List.map_cons, List.map_cons, List.mem_cons, List.mem_cons, ih, or_assoc]

/-- Merging one record keeps the indices in ascending order, one record an index. -/
theorem mergeOne_ascending (step : Nat → Nat → Nat) {acc : List (Nat × Nat)} (x : Nat × Nat)
    (h : (acc.map Prod.fst).Pairwise (· < ·)) : ((mergeOne step acc x).map Prod.fst).Pairwise (· < ·) := by
  induction acc with
  | nil => simp [mergeOne]
  | cons a acc ih =>
    obtain ⟨hhead, htail⟩ := List.pairwise_cons.mp h
    unfold mergeOne
    split
    next hlt =>
      refine List.pairwise_cons.mpr ⟨fun k hk => ?_, h⟩
      rcases List.mem_cons.mp hk with rfl | hk
      · exact hlt
      · exact Nat.lt_trans hlt (hhead k hk)
    next hge =>
      split
      · exact h
      next hne =>
        refine List.pairwise_cons.mpr ⟨fun k hk => ?_, ih htail⟩
        rcases (mem_mergeOne_keys step acc x k).mp hk with hk | rfl
        · exact hhead k hk
        · omega

/-- The records of one rank join those that have been merged. -/
theorem mem_foldl_mergeOne_keys (step : Nat → Nat → Nat) (rs acc : List (Nat × Nat)) (k : Nat) :
    k ∈ (rs.foldl (mergeOne step) acc).map Prod.fst ↔ k ∈ acc.map Prod.fst ∨ k ∈ rs.map Prod.fst := by
  induction rs generalizing acc with
  | nil => simp
  | cons x rs ih => rw [List.foldl_cons, ih, mem_mergeOne_keys, List.map_cons, List.mem_cons, or_assoc]

theorem foldl_mergeOne_ascending (step : Nat → Nat → Nat) (rs : List (Nat × Nat)) {acc : List (Nat × Nat)}
    (h : (acc.map Prod.fst).Pairwise (· < ·)) : ((rs.foldl (mergeOne step) acc).map Prod.fst).Pairwise (· < ·) :=
  List.foldlRecOn rs (mergeOne step) (motive := fun acc => (acc.map Prod.fst).Pairwise (· < ·)) h
    fun _ hacc x _ => mergeOne_ascending step x hacc

/-- A merged window is in ascending index order, one record an index (R375). -/
theorem mergeRanks_ascending (step : Nat → Nat → Nat) (ranks : List (List (Nat × Nat))) :
    ((mergeRanks step ranks).map Prod.fst).Pairwise (· < ·) :=
  List.foldlRecOn ranks (fun acc rs => rs.foldl (mergeOne step) acc)
    (motive := fun acc => (acc.map Prod.fst).Pairwise (· < ·)) List.Pairwise.nil
    fun _ hacc rs _ => foldl_mergeOne_ascending step rs hacc

/-- The indices of a merged window are those that some rank has sent (R375). -/
theorem mem_mergeRanks_keys (step : Nat → Nat → Nat) (ranks : List (List (Nat × Nat))) (k : Nat) :
    k ∈ (mergeRanks step ranks).map Prod.fst ↔ ∃ rs, rs ∈ ranks ∧ k ∈ rs.map Prod.fst := by
  have hfrom (acc : List (Nat × Nat)) :
      k ∈ (ranks.foldl (fun acc rs => rs.foldl (mergeOne step) acc) acc).map Prod.fst
        ↔ k ∈ acc.map Prod.fst ∨ ∃ rs, rs ∈ ranks ∧ k ∈ rs.map Prod.fst := by
    induction ranks generalizing acc with
    | nil => simp
    | cons rs ranks ih => 
      rw [List.foldl_cons, ih, mem_foldl_mergeOne_keys, or_assoc]
      simp only [List.mem_cons, or_and_right, exists_or, exists_eq_left]
  exact (hfrom []).trans (or_iff_right List.not_mem_nil)

/-! ### The capacity rule (R389) -/

/-- From `used` places on, an expert keeps what is asked of it up to its capacity. -/
theorem capacityRule_total {cap used : Nat} (h : used ≤ cap) (cs : List Nat) :
    (capacityRule cap cs used).2 = min cap (used + cs.sum) := by
  induction cs generalizing used with
  | nil => simp [capacityRule, h]
  | cons c cs ih =>
    rw [capacityRule, ih (by omega), List.sum_cons]
    omega

/-! ### Turns (R329, R406) -/

theorem mem_of_leastJob {l : List Instance} {i : Instance} (h : leastJob l = some i) : i ∈ l := by
  induction l generalizing i with
  | nil => exact nomatch h
  | cons a l ih =>
    rw [leastJob] at h
    cases hl : leastJob l with
    | none =>
      simp only [hl, Option.some.injEq] at h
      exact h ▸ List.mem_cons_self
    | some j =>
      simp only [hl, Option.some.injEq] at h
      split at h
      · exact h ▸ List.mem_cons_self
      · exact h ▸ List.mem_cons_of_mem a (ih hl)

/-- The slices serve an `Instance` of the home that has a ready job and whose results have all found room. -/
theorem State.nextJob_some {s : State} {ready : Instance → Bool} {i : Instance} (h : s.nextJob ready = some i) :
    i ∈ s.red.insts ∧ ready i = true ∧ s.resultWaits i = false := by
  have hjobs : i ∈ s.red.insts.filter fun i => ready i && !s.resultWaits i := by
    rw [State.nextJob] at h
    cases hlast : s.red.lastJob with
    | none =>
      simp only [hlast] at h
      exact mem_of_leastJob h
    | some k =>
      simp only [hlast, Option.or_eq_some_iff] at h
      rcases h with h | ⟨-, h⟩
      · exact (List.mem_filter.mp (mem_of_leastJob h)).1
      · exact mem_of_leastJob h
  simpa using hjobs

end Sys2Proof.Machine
end

section
/-! PROOFS. What a home sums, merges and combines. -/

namespace Sys2Proof.Machine

open Sys2Proof.Slice0

/-! ### Packets that reach a home -/

section
variable {s : State} {k : FabPkt} {b : Bytes}

/-- The home that owns a chunk of an `Instance` with several homes, and that can still take another's partial of it
(R344, R350). -/
def State.partialOwner (s : State) (n : BitVec 12) (inst group chunk : Nat) : Option Instance :=
  s.instOf n.toNat inst fun i => i.group == chunk % i.groups && 1 < i.groups && group < i.groups && group != i.group
    && i.claim == .granted && chunk < i.chunks && (i.live || chunk < i.next)

variable (h : Arrives s (ftRed + rkPartial) k b) (hend : Ends k) {n : BitVec 12} {inst group chunk : Nat}
include h hend

theorem exec_partialChunk_noOwner (hown : s.partialOwner n inst group chunk = none) (off : Nat) (bs : Bytes) :
    exec (.partialChunk n inst group chunk off bs k) s = .next (heard s k id) := by
  have hown : (s.unqueue k.hdr k.payload).partialOwner n inst group chunk = none := hown
  refine congrArg Host.Outcome.next (State.redTake_heard h hend ?_)
  rw [State.partialOwner] at hown
  simp [hown]

theorem exec_partialChunk_owner {i : Instance} (hown : s.partialOwner n inst group chunk = some i) (off : Nat)
    (bs : Bytes) : exec (.partialChunk n inst group chunk off bs k) s =
      .next (heard s k fun s => s.addPartial i group chunk off bs) := by
  have hown : (s.unqueue k.hdr k.payload).partialOwner n inst group chunk = some i := hown
  refine congrArg Host.Outcome.next (State.redTake_heard h hend ?_)
  rw [State.partialOwner] at hown
  simp only [hown]

end

/-! ### Contributions (R323) -/

section
variable {s : State} {m : MemberId}

/-- The `Instance` in progress, with its claim granted, of a contributing rank. -/
def State.contributionHome (s : State) (m : MemberId) : Option Instance :=
  s.instOf m.sched.toNat m.inst fun i => i.live && i.claim == .granted && i.ranks.contains m.rank

theorem State.doContribution_noHome (h : s.contributionHome m = none) (chunk off records : Nat) (lines : Bytes)
    (last : Bool) : s.doContribution m chunk off records lines last = s := by
  rw [State.contributionHome] at h
  simp only [State.doContribution, h]

theorem State.doContribution_dense {i : Instance} (h : s.contributionHome m = some i)
    (hmem : ∃ x, x ∈ i.members ∧ x.rank = m.rank) (hdispatch : i.kind ≠ 0xA) (hcombine : i.kind ≠ 0xB)
    (hdense : i.shape.sparse = false) (chunk off records : Nat) (lines : Bytes) (last : Bool) :
    s.doContribution m chunk off records lines last = s.denseChunk i m.rank chunk off lines := by
  rw [State.contributionHome] at h
  have hsome : (i.members.find? fun x => x.rank == m.rank).isSome := by simpa [List.find?_isSome] using hmem
  obtain ⟨x, hx⟩ := Option.isSome_iff_exists.mp hsome
  simp only [State.doContribution, h, hx]
  simp [hdispatch, hcombine, hdense]

/-- Lines of a chunk that has a slot fill it (R323). -/
theorem State.denseChunk_fills {i : Instance} {rank chunk off : Nat} {lines : Bytes}
    (hgives : i.givers.contains rank = true) (hnext : i.next ≤ chunk)
    (hslot : chunk < min i.chunks (i.next + i.depth)) {need got : Nat}
    (hneed : need = fmtBytes i.shape.inF (i.elems chunk)) (hfits : off + lines.length ≤ need)
    {mine : ChunkCopy → Bool} (hmine : mine = fun c => c.rank == rank && c.chunk == chunk)
    (hgot : got = (i.copies.find? mine).elim 0 (·.amount) + lines.length) :
    s.denseChunk i rank chunk off lines = (s.dwWrite i (i.slot rank chunk + off) 2 lines).modInst i fun i =>
      { i with copies := (i.copies.filter fun c => !mine c)
          ++ [{ rank := rank, chunk := chunk, amount := got, whole := decide (got ≥ need), lastWindow := none }] } := by
  subst hneed hmine hgot
  refine if_neg ?_
  simp only [hgives, Bool.not_true, Bool.false_or, Bool.or_eq_true, decide_eq_true_eq]
  omega

end

/-! ### Summation (R326, R328, R333, R349, R350) -/

section
variable {s : State} {n : BitVec 12} {inst : Nat} {i : Instance} (hjob : s.nextJob Instance.jobReady = some i)
  (hsched : i.sched = n.toNat) (hinst : i.inst = inst)
include hjob hsched hinst

/-- The home sums the next chunk of the `Instance` whose turn it is (R328, R329). -/
theorem exec_chunkSummation_turn (hready : i.ready = true) :
    exec (.chunkSummation n inst) s = .next ((s.served i).sumChunk i) := by
  have hturn : (some i).filter (fun i => i.sched == n.toNat && i.inst == inst && i.ready) = some i := by
    simp [hsched, hinst, hready]
  show execChunkSummation n inst s = _
  simp only [execChunkSummation, hjob, hturn]

/-- The home merges the next window of the `Instance` whose turn it is (R374, R406). -/
theorem exec_windowMerge_turn (hready : i.windowReady = true) :
    exec (.windowMerge n inst) s = .next ((s.served i).mergeWindow i) := by
  have hturn : (some i).filter (fun i => i.sched == n.toNat && i.inst == inst && i.windowReady) = some i := by
    simp [hsched, hinst, hready]
  show execWindowMerge n inst s = _
  simp only [execWindowMerge, hjob, hturn]

end

/-- A home whose next chunk has been read: the chunk's slots are free, and the members that contribute have a credit
for the chunk that may fill them next (R326). -/
def State.chunkRead (s : State) (i : Instance) : State :=
  (i.members.filter fun m => i.givers.contains m.rank && i.next + i.depth < i.chunks).foldl
    (fun s m => s.toMember i m rkCredit [i.next + i.depth])
    (s.modInst i fun j => { j with next := i.next + 1, copies := j.copies.filter fun x => x.chunk != i.next })

section
variable {w u : State} {i : Instance}

theorem State.sumChunk_unreadable (h : w.readCopies i i.next i.givers = (u, none)) :
    w.sumChunk i = u.abortInst i.epoch i.sched i.inst stDataError false := by
  simp only [State.sumChunk, h]

variable {pieces : List Bytes} (h : w.readCopies i i.next i.givers = (u, some pieces))
include h

/-- The sum of an `Instance`'s only home is the finished chunk (R330). -/
theorem State.sumChunk_onlyHome (hone : i.groups = 1) :
    w.sumChunk i = (u.chunkRead i).finishChunk ((u.chunkRead i).instNow i) i.next
      (i.convert (i.stage1 i.next pieces)) := by
  simp only [State.sumChunk, h]
  exact if_pos hone

/-- The sum of a chunk that this home owns is one of the chunk's partials (R349). -/
theorem State.sumChunk_owned (hmany : i.groups ≠ 1) (hown : i.next % i.groups = i.group) :
    w.sumChunk i = (u.chunkRead i).addPartial ((u.chunkRead i).instNow i) i.group i.next 0
      (i.stage1 i.next pieces) := by
  simp only [State.sumChunk, h]
  exact (if_neg hmany).trans (if_pos hown)

/-- The sum of any other chunk goes to the chunk's owner (R349, R350). -/
theorem State.sumChunk_sent (hmany : i.groups ≠ 1) (hother : i.next % i.groups ≠ i.group) :
    w.sumChunk i =
      let p := i.stage1 i.next pieces
      let x := (u.chunkRead i).putPartial ((u.chunkRead i).instNow i) i.group i.next 0 p
      x.toHomeNode i (x.groupHome i (i.next % i.groups)) rkPartial [i.group, i.next] p := by
  simp only [State.sumChunk, h]
  exact (if_neg hmany).trans (if_neg hother)

end

/-- Without a whole partial of some group, the whole partials of a chunk are fewer than the groups. -/
theorem length_filterMap_lt {α : Type} {f : Nat → Option α} {n g : Nat} (hg : g < n) (hf : f g = none) :
    ((List.range n).filterMap f).length < n := by
  have hall := List.length_filterMap_lt_length_iff_exists.mpr ⟨g, List.mem_range.mpr hg, hf⟩
  simpa using hall

/-- Bytes of a partial wait in the drawers until every group's is whole (R350). -/
theorem State.addPartial_waits {s : State} {i j : Instance} {group chunk off : Nat} {bs : Bytes} {u : State}
    (hdue : i.sentChunks ≤ chunk) (hfits : off + bs.length ≤ i.partBytes group chunk)
    (hopen : ∀ p ∈ i.partials, p.group = group → p.chunk = chunk → p.come < i.partBytes group chunk)
    (hu : s.putPartial i group chunk off bs = u) (hj : u.instNow i = j)
    (hmissing : ∃ g, g < j.groups
      ∧ ∀ p ∈ j.partials, p.group = g → p.chunk = chunk → p.come < i.partBytes g chunk) :
    s.addPartial i group chunk off bs = u := by
  obtain ⟨g, hg, hpart⟩ := hmissing
  have hwhole : (i.partials.any fun p =>
      p.group == group && p.chunk == chunk && decide (p.come ≥ i.partBytes p.group chunk)) = false := by
    refine List.any_eq_false.mpr fun p hp hall => ?_
    simp only [Bool.and_eq_true, beq_iff_eq, decide_eq_true_eq, and_assoc] at hall
    obtain ⟨rfl, hc, hcome⟩ := hall
    exact absurd (hopen p hp rfl hc) (Nat.not_lt.mpr hcome)
  have hnone : (j.partials.find? fun p =>
      p.group == g && p.chunk == chunk && decide (p.come ≥ i.partBytes p.group chunk)) = none := by
    refine List.find?_eq_none.mpr fun p hp hall => ?_
    simp only [Bool.and_eq_true, beq_iff_eq, decide_eq_true_eq, and_assoc] at hall
    obtain ⟨rfl, hc, hcome⟩ := hall
    exact absurd (hpart p hp rfl hc) (Nat.not_lt.mpr hcome)
  have hgo : ¬(decide (chunk < i.sentChunks) || decide (off + bs.length > i.partBytes group chunk)
      || i.partials.any fun p =>
        p.group == group && p.chunk == chunk && decide (p.come ≥ i.partBytes p.group chunk)) = true := by
    rw [hwhole]
    simpa using ⟨hdue, hfits⟩
  refine (if_neg hgo).trans ?_
  rw [hu, hj]
  exact if_pos (Nat.ne_of_lt (length_filterMap_lt hg hnone))

/-! ### Finished chunks of other homes (R350) -/

section
variable {s : State} {i : Instance} {chunk off : Nat} {bs : Bytes}

theorem State.finishedIn_sent (h : chunk < i.sentChunks) : s.finishedIn i chunk off bs = s :=
  if_pos (by simp [h])

/-- An `Instance` that has bytes of another home's finished chunk. -/
def State.arriving (s : State) (i : Instance) (chunk off : Nat) (bs : Bytes) : State :=
  s.modInst i fun i => { i with arriving := i.arriving ++ [(chunk, off, bs)] }

/-- The pieces of a finished chunk that have arrived, each with its offset. -/
def Instance.arrivedOf (i : Instance) (chunk : Nat) : List (Nat × Bytes) :=
  (i.arriving.filter fun x => x.1 == chunk).map (·.2)

variable (hdue : i.sentChunks ≤ chunk) (hnew : ∀ f ∈ i.finished, f.1 ≠ chunk) (hchunk : chunk < i.chunks)
  (hfits : off + bs.length ≤ i.finBytes chunk)
include hdue hnew hchunk hfits

/-- Bytes of a finished chunk are taken, and the chunk with the last of them (R350). -/
theorem State.finishedIn_taken :
    s.finishedIn i chunk off bs =
      let u := s.arriving i chunk off bs
      let got := (u.instNow i).arrivedOf chunk
      if (got.map fun x => x.2.length).sum < i.finBytes chunk then u
      else
        let v := u.modInst i fun i =>
          { i with arriving := i.arriving.filter fun x => x.1 != chunk
                   partials := i.partials.filter fun p => p.chunk != chunk }
        (v.finishChunk (v.instNow i) chunk (joinPieces got)).settleAborts := by
  have hnone : (i.finished.any fun f => f.1 == chunk) = false := by simpa using hnew
  refine if_neg ?_
  simp only [hnone, Bool.or_false, Bool.or_eq_true, decide_eq_true_eq]
  omega

end

/-! ### Merged windows (R374 to R380) -/

section
variable {w u : State} {i : Instance}

theorem State.mergeWindow_unreadable (h : w.windowRanks i i.next i.ranks = (u, none)) :
    w.mergeWindow i = u.abortInst i.epoch i.sched i.inst stDataError false := by
  simp only [State.mergeWindow, h]

/-- A home whose next window has been merged: it is counted, and the chunks that end in it are done with. -/
def State.windowMerged (s : State) (i : Instance) : State :=
  State.modInst { s with red := { s.red with windows := (s.red.windows + 1) % 2 ^ 32 } } i fun j =>
    { j with next := i.next + 1, copies := j.copies.filter fun c => !(c.lastWindow == some i.next) }

/-- A window in which no chunk ends is merged from its ranks' records, and joins the candidates of a TOPK or the stream
of results (R375, R377, R380). -/
theorem State.mergeWindow_merged {ranks : List (List (Nat × Nat))}
    (h : w.windowRanks i i.next i.ranks = (u, some ranks)) (hopen : ∀ c ∈ i.copies, c.lastWindow ≠ some i.next) :
    w.mergeWindow i =
      let v := u.windowMerged i
      let merged := mergeRanks (redStep i.shape.op i.shape.inF i.shape.outF) ranks
      let last := decide (i.next + 1 = 2 ^ 32 / windowSize i.shape.inF)
      if i.shape.kind = 8 then v.topkMerge (v.instNow i) merged last else v.sparseEmit (v.instNow i) merged last 0 := by
  have hnone : (i.copies.filter fun c => c.lastWindow == some i.next) = [] := by simpa using hopen
  simp only [State.mergeWindow, h, hnone, List.foldl_nil]
  rfl

end

/-! ### Combined tokens (R401 to R404) -/

section
variable {s : State} {m : MemberId} {token : Nat}

theorem State.doExpertOutput_noHome (h : s.combineHome m = none) (choice off : Nat) (bs : Bytes) :
    s.doExpertOutput m token choice off bs = s := by
  simp only [State.doExpertOutput, h]

theorem State.doWeights_noHome (h : s.combineHome m = none) (ws : List Word) (ds : List Bool) :
    s.doWeights m token ws ds = s := by
  simp only [State.doWeights, h]

variable {i : Instance} (h : s.combineHome m = some i) (htoken : token < shapeTmax i.digest)
  (hnext : Tab.get 0 i.tokenNext m.rank ≤ token)
include h htoken hnext

/-- Bytes of an output that is not whole yet go into the drawers, and complete tokens are sent (R401, R404). -/
theorem State.doExpertOutput_taken {choice off : Nat} {bs : Bytes} (hchoice : choice < shapeK i.digest)
    (hfits : off + bs.length ≤ shapeTb i.digest)
    (hnew : ∀ t, i.token? m.rank token = some t → choice ∉ t.present) :
    s.doExpertOutput m token choice off bs =
      ((s.dwWrite i (i.tokenSlot m.rank token choice + off) 3 bs).modToken i m.rank token fun t =>
        t.more choice bs.length (shapeTb i.digest)).sendTokens i m.rank (i.tokens.length + 2) := by
  have habsent : ((i.token? m.rank token).any fun t => t.present.contains choice) = false := by
    cases htok : i.token? m.rank token with
    | none => rfl
    | some t => simpa using hnew t htok
  simp only [State.doExpertOutput, h, habsent]
  refine if_neg ?_
  simp only [Bool.or_false, Bool.or_eq_true, decide_eq_true_eq]
  omega

/-- The first weights and marks of a token stand (R402). -/
theorem State.doWeights_taken (ws : List Word) (ds : List Bool) :
    s.doWeights m token ws ds = (s.modToken i m.rank token fun t =>
      if t.known then t
      else { t with known := true, weights := (ws.map fun w => w.toNat % 2 ^ 32).take (shapeK i.digest)
                    delivered := ds.take (shapeK i.digest) }).sendTokens i m.rank (i.tokens.length + 2) := by
  simp only [State.doWeights, h]
  refine if_neg ?_
  simp only [Bool.or_eq_true, decide_eq_true_eq]
  omega

end

/-- Settles O57: each packet, sum and merge selects one branch of its command; merging by insertion keeps the indices in
ascending order, and an expert's total is bounded along its ranks. -/
theorem homeSums : Obligations.HomeSums := by
  refine ⟨fun s k b hend => ⟨fun m chunk off records lines last h => ?_, fun n inst group chunk off bs h => ?_,
      fun n inst chunk off bs h => ?_, fun m token choice off bs h => ?_, fun m token ws ds h => ?_⟩,
    fun s m chunk off records lines last => ?_, fun s ready i h => State.nextJob_some h,
    fun s n inst i hjob hsched hinst hready => ?_, fun s i group chunk off bs hdue hfits hopen => ?_,
    fun s i chunk off bs => ⟨State.finishedIn_sent, fun hdue hnew hchunk hfits => ?_⟩,
    fun s n inst i hjob hsched hinst hready => ?_, fun s m token => ?_, mergeRanks_ascending, mem_mergeRanks_keys,
    fun cap cs => ?_⟩
  · exact congrArg Host.Outcome.next (State.redTake_heard h hend rfl)
  · exact ⟨fun hown => exec_partialChunk_noOwner h hend hown off bs,
      fun i hown => exec_partialChunk_owner h hend hown off bs⟩
  · exact congrArg Host.Outcome.next (State.redTake_heard h hend rfl)
  · exact congrArg Host.Outcome.next (State.redTake_heard h hend rfl)
  · exact congrArg Host.Outcome.next (State.redTake_heard h hend rfl)
  · refine ⟨fun hnone => State.doContribution_noHome hnone chunk off records lines last,
      fun i hi hmem hdispatch hcombine hdense hgives hnext hslot => ?_⟩
    intro need hfits mine got
    rw [State.doContribution_dense hi hmem hdispatch hcombine hdense]
    exact State.denseChunk_fills hgives hnext hslot rfl hfits rfl rfl
  · intro w
    rw [exec_chunkSummation_turn hjob hsched hinst hready]
    refine ⟨fun u hread => by rw [State.sumChunk_unreadable hread], fun u pieces hread => ⟨fun hone => ?_,
      fun hmany hown => ?_, fun hmany hother => ?_⟩⟩
    · rw [State.sumChunk_onlyHome hread hone]
      rfl
    · rw [State.sumChunk_owned hread hmany hown]
      rfl
    · rw [State.sumChunk_sent hread hmany hother]
      rfl
  · exact State.addPartial_waits hdue hfits hopen rfl rfl
  · rw [State.finishedIn_taken hdue hnew hchunk hfits]
    exact ⟨fun hpart => if_pos hpart, fun hwhole => if_neg (Nat.not_lt.mpr hwhole)⟩
  · intro w
    rw [exec_windowMerge_turn hjob hsched hinst hready]
    refine ⟨fun u hread => by rw [State.mergeWindow_unreadable hread], fun u ranks hread hopen => ?_⟩
    rw [State.mergeWindow_merged hread hopen]
    exact ⟨fun hplain => congrArg Host.Outcome.next (if_neg hplain),
      fun htopk => congrArg Host.Outcome.next (if_pos htopk)⟩
  · refine ⟨fun hnone => ⟨State.doExpertOutput_noHome hnone, State.doWeights_noHome hnone⟩,
      fun i hi htoken hnext => ⟨fun choice off bs hchoice hfits hnew => ?_, State.doWeights_taken hi htoken hnext⟩⟩
    exact State.doExpertOutput_taken hi htoken hnext hchoice hfits hnew
  · rw [capacityRule_total (Nat.zero_le cap), Nat.zero_add]

end Sys2Proof.Machine
end

section
/-! PROOFS. Resets of the host side: function-level and conventional resets, PERST# and configuration space. -/

namespace Sys2Proof.Machine

open Sys2Proof.Slice0

/-- A function-level reset of a virtual function clears its rings, interrupt maps and MSI-X table, and puts a locked or
running TDI into ERROR (R724). -/
theorem State.flrVf_eq (s : State) (f : Nat) :
    s.flrVf f =
      (let u := s.modFn f fun x =>
        { x with
          rings := [], ints := [], msix := [], opA := 0, opB := 0
          taken := x.taken.map fun t => { t with discard := true } }
      if (s.fn f).tdi = 1 ∨ (s.fn f).tdi = 2 then u.tdiError f else u) := by
  simp only [State.flrVf, Fn.clearHost, State.modFn_fn_same, Bool.or_eq_true, decide_eq_true_eq]

/-- A reset of the physical function clears its own rings, interrupt maps, MSI-X table and VF Enable, and `changed`, and
resets every virtual function (R725). -/
theorem State.flrPf_eq (s : State) :
    s.flrPf = (State.modFn { s with ctl := { s.ctl with changed := false } } 0 fun x =>
      { x.clearHost with vfEnable := false }).flrVfs := rfl

/-- Of the parts that `Part` names, a reset of the physical function changes only `changed` of the control record
(R725). -/
theorem State.flrPf_driveAll_keeps (s : State) :
    Keeps Part.all { s with ctl := { s.ctl with changed := false } } s.flrPf.driveAll := by
  rw [State.flrPf_eq]
  exact State.driveAll_keeps (State.flrVfs_keeps (State.modFn_keeps 0 _ (Keeps.refl Part.all _)))

/-- A powered module resets every function's configuration space, which changes none of the parts of `Part`, and then
the physical function (R688). -/
theorem exec_conventionalReset_powered {s : State} (hpow : s.powered = true) :
    ∃ u, exec .conventionalReset s = .next u.flrPf.driveAll ∧ Keeps Part.all s u :=
  ⟨_, if_neg (by simp [hpow]), Keeps.foldl (fun _ f hk => State.resetCfg_keeps f hk) (Keeps.refl Part.all s)⟩

/-- Settles O29: each reset selects the branch of its command that acts, and keeps what `Keeps` says of the operations
that it is made of. -/
theorem hostResets : Obligations.HostResets := by
  refine ⟨fun s f hvf hserving => ?_, fun s hready => ?_, fun s hpow => ?_, fun s f v hready => ?_, fun s => rfl,
    fun s hpow hperst => if_pos (by simp [hpow, hperst])⟩
  · have hgo : ¬(decide (f = 0) || !s.serving) = true := by simp [hvf, hserving]
    exact (if_neg hgo).trans (by rw [State.flrVf_eq])
  · have hk := s.flrPf_driveAll_keeps
    obtain ⟨-, -, -, hinst⟩ := hk.banks rfl
    obtain ⟨hquorum, -, -⟩ := hk.quorum rfl
    refine ⟨s.flrPf.driveAll, if_neg (by simp [hready]), ?_, ?_, hk.pwr rfl, hinst, hquorum⟩ <;> rw [hk.ctl rfl]
  · obtain ⟨u, hexec, hcfg⟩ := exec_conventionalReset_powered hpow
    have hflr := u.flrPf_driveAll_keeps
    obtain ⟨-, -, hepoch, hinst⟩ := hcfg.banks rfl
    obtain ⟨-, -, hepoch', hinst'⟩ := hflr.banks rfl
    obtain ⟨hquorum, -, -⟩ := hcfg.quorum rfl
    obtain ⟨hquorum', -, -⟩ := hflr.quorum rfl
    refine ⟨_, hexec, ?_, (hflr.pwr rfl).trans (hcfg.pwr rfl), (hflr.clk rfl).trans (hcfg.clk rfl),
      (hflr.flash rfl).trans (hcfg.flash rfl), hinst'.trans hinst, hepoch'.trans hepoch, hquorum'.trans hquorum⟩
    rw [hflr.ctl rfl, ← hcfg.ctl rfl]
  · exact if_neg (by simp [hready])

end Sys2Proof.Machine
end

section
/-! SUPPORT. Shared rules for translation: answers to ATS requests, page requests and their responses, and
invalidations, each in a state in which it can occur. -/

namespace Sys2Proof.Machine

/-! ### Answers to ATS requests (R421, R440, R445) -/

section
variable {s u : State} {p : Port} {req : Nat} {a : AtsReq}
  (ha : ((s.docent p.val).ats.find? fun a => a.id == req) = some a)
  (hu : u = s.modDocent p.val fun d => { d with ats := d.ats.filter fun x => x.id != req })
include ha hu

/-- Whatever the answer, a request that went stale meanwhile is sent again (R445). -/
theorem exec_atsCompletion_stale (hstale : a.stale = true) (r : AtsResult) :
    exec (.atsCompletion p req r) s =
      .next (((u.atsAgain p.val a a.retried).slotFreed p.val).drive p.val) := by
  subst hu
  show execAtsCompletion p req r s = _
  simp only [execAtsCompletion, ha, hstale, if_true]

/-- An untranslated answer fails the access (R421). -/
theorem exec_atsCompletion_untranslated (hfresh : a.stale = false) (lg : Option Nat) (addr : Word) (r w : Bool) :
    exec (.atsCompletion p req (.trans lg addr r w true)) s =
      .next (((u.atsFailed p.val a 0 lg).slotFreed p.val).drive p.val) := by
  subst hu
  show execAtsCompletion p req (.trans lg addr r w true) s = _
  simp only [execAtsCompletion, ha, hfresh, Bool.false_eq_true, if_false, if_true]

/-- A completion with an error status fails the access (R421). -/
theorem exec_atsCompletion_error (hfresh : a.stale = false) (st : Nat) :
    exec (.atsCompletion p req (.error st)) s =
      .next (((u.atsFailed p.val a st none).slotFreed p.val).drive p.val) := by
  subst hu
  show execAtsCompletion p req (.error st) s = _
  simp only [execAtsCompletion, ha, hfresh, Bool.false_eq_true, if_false]

/-- A translation of at least 2 MiB, aligned to its size and with a permission, is taken (R421, R424). -/
theorem exec_atsCompletion_taken (hfresh : a.stale = false) {lg : Nat} {addr : Word} {r w : Bool} (hsize : 21 ≤ lg)
    (halign : addr.toNat % 2 ^ lg = 0) (hperm : r = true ∨ w = true) :
    exec (.atsCompletion p req (.trans (some lg) addr r w false)) s =
      .next (((u.takePage p.val a lg addr.toNat r w).slotFreed p.val).drive p.val) := by
  subst hu
  have hgrants : ¬(!r && !w) = true := by
    rcases hperm with rfl | rfl <;> simp
  have hform : ¬(decide (lg < 21) || decide (addr.toNat % 2 ^ lg ≠ 0)) = true := by
    simp [halign, hsize]
  show execAtsCompletion p req (.trans (some lg) addr r w false) s = _
  simp only [execAtsCompletion, ha, hfresh, Bool.false_eq_true, if_false, if_neg hgrants, if_neg hform]

/-- The first timeout sends the request once more, and the second fails the access (R421). -/
theorem exec_atsCompletionTimeout_fresh (hfresh : a.stale = false) :
    exec (.atsCompletionTimeout p req) s = .next
      (((if a.retried then u.atsFailed p.val a 0xFF none else u.atsAgain p.val a true).slotFreed p.val).drive
        p.val) := by
  subst hu
  show execAtsCompletionTimeout p req s = _
  simp only [execAtsCompletionTimeout, ha, hfresh, Bool.false_eq_true, if_false]

end

/-! ### Page requests (R435, R437, R439, R441) -/

@[simp] theorem State.out_fn (s : State) (o : Output) (f : Nat) : (s.out o).fn f = s.fn f := rfl

@[simp] theorem State.out_outputs (s : State) (o : Output) : (s.out o).outputs = o :: s.outputs := rfl

/-- The oldest page request is recorded, leaves the list of those that wait, and is sent (R435, R437). -/
theorem State.sendPage_sent {s : State} {f : Nat} {q : PageReq} {rest : List PageReq} {idx : Nat}
    (hwait : (s.fn f).waiting = q :: rest) (hidx : (s.fn f).freePrg = some idx) (hroom : (s.fn f).incRoom = true)
    (halloc : (s.fn f).prgs.length < min 512 (s.fn f).priAlloc) :
    ∃ r, s.sendPage f = ((s.incPut f r).modFn f fun x =>
      { x with waiting := rest, prgs := x.prgs ++ [(idx, q)] }).out
        (.pri f q.pasid (q.fva / 4096 * 4096) q.r q.w idx true) := by
  have hgo : ((s.fn f).incRoom && decide ((s.fn f).prgs.length < min 512 (s.fn f).priAlloc)) = true := by
    simp only [hroom, halloc, decide_true, Bool.and_self]
  simp only [State.sendPage, hwait, hidx, if_pos hgo]
  exact ⟨_, rfl⟩

section
variable {s u : State} {f : FnNo} {idx : BitVec 9} {n : Nat} {q : PageReq}
  (hq : ((s.fn f.val).prgs.find? fun q => q.1 == idx.toNat) = some (n, q))
include hq

section
variable (hu : u = s.modFn f.val fun x => { x with prgs := x.prgs.filter fun q => q.1 != idx.toNat })
include hu

/-- A response to a page request for which nothing waits any more only frees its index (R442). -/
theorem exec_prgResponse_abandoned (hgone : q.abandoned = true) (code : PrgCode) :
    exec (.prgResponse f idx code) s = .next ((u.sendPage f.val).driveAll) := by
  subst hu
  show execPrgResponse f idx code s = _
  cases code <;> simp only [execPrgResponse, hq, hgone, if_true]

/-- Success: every stream of the page request translates again (R439). -/
theorem exec_prgResponse_success (hopen : q.abandoned = false) :
    exec (.prgResponse f idx .success) s = .next
      (((q.streams.foldl (fun s st => s.translateAgain q st) u).sendPage f.val).driveAll) := by
  subst hu
  show execPrgResponse f idx .success s = _
  simp only [execPrgResponse, hq, hopen, Bool.false_eq_true, if_false]

/-- Invalid Request: the page request is counted as refused, and its streams fail (R439). -/
theorem exec_prgResponse_invalidRequest (hopen : q.abandoned = false) :
    exec (.prgResponse f idx .invalidRequest) s = .next (((State.refusePage
      { u with trn := { u.trn with refused := (u.trn.refused + 1) % 2 ^ 24 } } q).sendPage f.val).driveAll) := by
  subst hu
  show execPrgResponse f idx .invalidRequest s = _
  simp only [execPrgResponse, hq, hopen, Bool.false_eq_true, if_false]
  rfl

end

/-- A page request that is not answered in time is refused as by Invalid Request, but keeps its index (R441, R442). -/
theorem exec_prTimeoutExpiry_refused (hopen : q.abandoned = false) (htime : (s.gal q.gal).prTimeout ≠ 0) :
    exec (.prTimeoutExpiry f idx) s = .next ((State.refusePage (State.modFn
      { s with trn := { s.trn with refused := (s.trn.refused + 1) % 2 ^ 24 } } f.val fun x =>
        { x with
          prgs :=
            modifyFirst (fun q => q.1 == idx.toNat) (fun x => (x.1, { x.2 with abandoned := true })) x.prgs })
      q).driveAll) := by
  have hgo : ¬(q.abandoned || decide ((s.gal q.gal).prTimeout = 0)) = true := by simp [hopen, htime]
  show execPrTimeoutExpiry f idx s = _
  simp only [execPrTimeoutExpiry, hq, if_neg hgo]
  rfl

end

/-! ### Invalidations (R444, R445, R448) -/

section
variable {s : State} {f : FnNo} {itag : BitVec 5}

/-- With fewer than 32 invalidations, none of them of the tag, one of a bound function begins (R444, R448). -/
theorem exec_atsInvalidateRequest_begins (hroom : (s.fn f.val).invals.length < 32)
    (htag : ∀ i, i ∈ (s.fn f.val).invals → i.itag ≠ itag.toNat) {g : Nat} (hg : s.fnGal f.val = some g)
    (pasid : Option (BitVec 20)) (base : Word) (n : Nat) :
    exec (.atsInvalidateRequest f itag pasid base n) s = .next
      ((s.beginInval f.val itag.toNat g (pasid.map (·.toNat)) base.toNat (2 ^ n) n
        ((s.gal g).deaccStep = 2 || (s.gal g).deaccStep = 3)).driveAll) := by
  have hnew : ((s.fn f.val).invals.any fun i => i.itag == itag.toNat) = false := by
    simpa only [List.any_eq_false, beq_iff_eq] using htag
  have hgo : ¬(decide ((s.fn f.val).invals.length ≥ 32)
      || (s.fn f.val).invals.any fun i => i.itag == itag.toNat) = true := by
    simp [hnew, hroom]
  show execAtsInvalidateRequest f itag pasid base n s = _
  simp only [execAtsInvalidateRequest, if_neg hgo, hg]

variable {i : Inval} (hi : ((s.fn f.val).invals.find? fun i => i.itag == itag.toNat) = some i)
include hi

/-- An invalidation whose steps are all met is counted, leaves the list, and is answered (R445). -/
theorem exec_invalidateCompletion_done (hdone : s.invalDone i = true) :
    exec (.invalidateCompletion f itag) s = .next
      ((State.modFn { s with trn := { s.trn with inval := (s.trn.inval + 1) % 2 ^ 24 } } f.val fun x =>
        { x with invals := x.invals.filter fun i => i.itag != itag.toNat }).out (.invalDone f.val itag.toNat)) := by
  show execInvalidateCompletion f itag s = _
  simp only [execInvalidateCompletion, hi, hdone, Bool.not_true, Bool.false_eq_true, if_false]
  rfl

/-- Until then it waits (R445). -/
theorem exec_invalidateCompletion_waits (hopen : s.invalDone i = false) :
    exec (.invalidateCompletion f itag) s = .next s := by
  show execInvalidateCompletion f itag s = _
  simp only [execInvalidateCompletion, hi, hopen, Bool.not_false, if_true]

end

end Sys2Proof.Machine
end

section
/-! PROOFS. What the host's translation agent sends. -/

namespace Sys2Proof.Machine

open Sys2Proof.Slice0

/-- Settles O55: each answer, response and invalidation selects one branch of its command. -/
theorem translation : Obligations.Translation := by
  refine ⟨fun s p req a ha => ⟨fun hstale => exec_atsCompletion_stale ha rfl hstale, fun hfresh =>
      ⟨fun lg addr r w hsize halign hperm => exec_atsCompletion_taken ha rfl hfresh hsize halign hperm,
        exec_atsCompletion_untranslated ha rfl hfresh, exec_atsCompletion_error ha rfl hfresh,
        exec_atsCompletionTimeout_fresh ha rfl hfresh⟩⟩,
    fun s f q rest idx hwait hidx hroom halloc => ?_,
    fun s f idx n q hq => ⟨fun hgone => exec_prgResponse_abandoned hq rfl hgone .success, fun hopen =>
      ⟨exec_prgResponse_success hq rfl hopen, exec_prgResponse_invalidRequest hq rfl hopen, fun htime =>
        ⟨_, exec_prTimeoutExpiry_refused hq hopen htime, rfl, rfl⟩⟩⟩,
    fun s f itag pasid base n hroom htag g hg => exec_atsInvalidateRequest_begins hroom htag hg pasid base n,
    fun s f itag i hi => ⟨fun hdone => ⟨_, exec_invalidateCompletion_done hi hdone, fun j hj => ?_, rfl⟩,
      fun hopen => exec_invalidateCompletion_waits hi hopen⟩⟩
  · obtain ⟨r, hsent⟩ := State.sendPage_sent hwait hidx hroom halloc
    have hput := s.incPut_narrow f.val r
    refine ⟨s.sendPage f.val, rfl, ?_⟩
    simp only [hsent, State.out_fn, State.out_outputs, State.out_ctl, State.out_ctxs, State.modFn_fn_same,
      State.modFn_outputs, State.modFn_ctl, State.modFn_ctxs, hput.outputs_eq, hput.ctl_eq, hput.ctxs_eq, and_self]
  · rw [State.out_fn, State.modFn_fn_same] at hj
    simpa using (List.mem_filter.mp hj).2

end Sys2Proof.Machine
end

section
/-! SUPPORT. Shared rules for the vault: what a BAR2 access does inside and outside the range that its function reaches,
what a write of a shelf extent and the zeroing of its units leave behind, and what the scrub makes of a codeword. -/

namespace Sys2Proof.Machine

open Sys2Proof.Slice0

/-! ### Bytes -/

@[simp] theorem State.vmBytes_vmWrite_same (s : State) (a : Nat) (bs : Bytes) :
    (s.vmWrite a bs).vmBytes a bs.length = bs :=
  memBytes_memPut _ _ _

/-- A vault write leaves every byte outside its range alone. -/
theorem State.vmWrite_get_outside (s : State) {a x : Nat} {bs : Bytes} (h : x < a ∨ a + bs.length ≤ x) :
    Tab.get 0 (s.vmWrite a bs).vault.mem x = Tab.get 0 s.vault.mem x :=
  h.elim (memPut_get_of_lt bs) (memPut_get_of_ge bs)

/-- With no erroneous codeword in its range, a write that merges is a plain write (R481). -/
theorem State.vmMerge_clean {s : State} {a : Nat} {bs : Bytes} (h : s.badIn a bs.length = []) :
    s.vmMerge a bs = (s.vmWrite a bs, true) := by
  simp [State.vmMerge, h, partialCws, State.vmTouch]

/-- A filter on keys alone drops the entries of the other keys, whatever the order of the table. -/
theorem Tab.get_filter_key {α : Type} (d : α) (p : Nat → Prop) [DecidablePred p] (t : Tab α) (k : Nat) :
    Tab.get d (t.filter fun e => decide (p e.1)) k = if p k then Tab.get d t k else d := by
  induction t with
  | nil => simp [Tab.get]
  | cons e t ih =>
    obtain ⟨j, v⟩ := e
    by_cases hj : p j
    · rw [List.filter_cons_of_pos (by simpa using hj), Tab.get, Tab.get, ih]
      by_cases hk : k = j <;> simp [hk, hj]
    · rw [List.filter_cons_of_neg (by simpa using hj), ih, Tab.get]
      by_cases hk : k = j <;> simp [hk, hj]

/-- A zeroed range reads zero, and every other byte as before (R473). -/
theorem State.vmZero_get (s : State) (a n x : Nat) :
    Tab.get 0 (s.vmZero a n).vault.mem x = if a ≤ x ∧ x < a + n then 0 else Tab.get 0 s.vault.mem x := by
  refine (Tab.get_filter_key 0 (fun k => k < a ∨ a + n ≤ k) s.vault.mem x).trans ?_
  by_cases hin : a ≤ x ∧ x < a + n
  · rw [if_neg (by omega), if_pos hin]
  · rw [if_pos (by omega), if_neg hin]

/-! ### BAR2 (R690 to R693) -/

section
variable {s : State} {f : FnNo} {off : Nat} {tee : Bool} (hopen : s.barOpen f.val = true)
  (htee : s.teeRefused f.val tee = false)
include hopen htee

/-- A read of a range that the function reaches, with no erroneous codeword, answers its bytes (R692). -/
theorem exec_bar2Read_reached {len a : Nat} (ha : s.bar2Vpa f.val off len = some a) (hclean : s.badIn a len = []) :
    exec (.bar2Read f off len tee) s = .next (s.out (.bar2 f.val (s.vmBytes a len))) := by
  show execBar2Read f off len tee s = _
  simp [execBar2Read, hopen, htee, ha, State.vmRead_clean s a len hclean]

/-- A read of a range that the function does not reach is counted and answered Unsupported Request (R692). -/
theorem exec_bar2Read_outside {len : Nat} (ha : s.bar2Vpa f.val off len = none) :
    exec (.bar2Read f off len tee) s = .next ((s.bar2Refuse f.val).out (.bar2Unsupported f.val)) := by
  show execBar2Read f off len tee s = _
  simp [execBar2Read, hopen, htee, ha]

/-- A write to a range that the function reaches, with no erroneous codeword, stores its bytes (R693). -/
theorem exec_bar2Write_reached {bs : Bytes} {a : Nat} (ha : s.bar2Vpa f.val off bs.length = some a)
    (hclean : s.badIn a bs.length = []) : exec (.bar2Write f off bs tee) s = .next (s.vmWrite a bs) := by
  show execBar2Write f off bs tee s = _
  simp [execBar2Write, hopen, htee, ha, State.vmMerge_clean hclean]

end

/-- A refusal adds one to the function's count, which wraps (R692). -/
theorem State.bar2Refuse_count (s : State) (f : Nat) :
    ((s.bar2Refuse f).fn f).bar2Refused = ((s.fn f).bar2Refused + 1) % 2 ^ 32 := by
  simp [State.bar2Refuse, wrapAdd]

/-! ### Shelf extents (R472, R473) -/

@[simp] theorem Gallery.extent_modify_same (y : Gallery) (i : Nat) (f : Extent → Extent) :
    Gallery.extent { y with extents := Tab.modify Extent.reset y.extents i f } i = f (y.extent i) :=
  Tab.get_modify_same _ _ _ _

/-- Once written, an extent has the written range and enable; it stays ready only if an enabled extent is written as it
was (R473). -/
theorem Extent.write_fields (x : Extent) (en : Bool) (base size : Nat) :
    (x.write en base size).base = base ∧ (x.write en base size).size = size ∧ (x.write en base size).en = en
      ∧ (x.write en base size).ready = (x.en && en && x.base == base && x.size == size && x.ready) := by
  cases hsame : x.en && en && x.base == base && x.size == size with
  | true =>
    have hwrite : x.write en base size = x := if_pos hsame
    simp only [Bool.and_eq_true, beq_iff_eq] at hsame
    obtain ⟨⟨⟨hxen, hen⟩, hbase⟩, hsize⟩ := hsame
    rw [hwrite]
    exact ⟨hbase, hsize, hxen.trans hen.symm, (Bool.true_and _).symm⟩
  | false =>
    have hwrite : x.write en base size = { en, ready := false, size, base, zeroing := _ } :=
      if_neg (ne_true_of_eq_false hsame)
    rw [hwrite]
    exact ⟨rfl, rfl, rfl, rfl⟩

/-- The written word enables the extent: it asks for that, and the range may be enabled (R472). -/
def State.extEnables (s : State) (g i : Nat) (v : Word) : Bool :=
  bitN v 63 && s.extentFits g i (fieldN v 0 12) (fieldN v 16 12)

/-- A write of an extent changes that extent, and marks a conflict where it does not enable what it asks for (R472). -/
theorem State.extWrite_eq (s : State) (g i : Nat) (v : Word) :
    s.extWrite g i v =
      State.modGal { s with vault := { s.vault with
          shelfConflict := s.vault.shelfConflict || (bitN v 63 && !s.extEnables g i v) } } g fun x =>
        { x with extents := Tab.modify Extent.reset x.extents i fun e =>
            e.write (s.extEnables g i v) (fieldN v 0 12) (fieldN v 16 12) } := by
  cases hconflict : bitN v 63 && !s.extEnables g i v with
  | true =>
    rw [Bool.or_true]
    exact congrArg (State.modGal · g _) (if_pos hconflict)
  | false =>
    rw [Bool.or_false]
    exact congrArg (State.modGal · g _) (if_neg (ne_true_of_eq_false hconflict))

theorem exec_shelfExtWrite_open {s : State} {g : GalNo} (hopen : s.blockOpen 5 = true) (hfree : s.galLocked g = false)
    (i : Fin 4) (v : Word) : exec (.shelfExtWrite g i v) s = .next (s.extWrite g i v) :=
  if_neg (by simp [hopen, hfree])

/-- The one range that an extent is zeroing becomes zero, and the extent is ready if it is enabled (R473). -/
theorem exec_extentZeroingDone_one {s : State} {g : GalNo} {i : Fin 4} {z : Nat × Nat}
    (hz : ((s.gal g).extent i).zeroing = [z]) :
    exec (.extentZeroingDone g i) s =
      .next ((s.vmZero (vpaShelf (z.1 * 0x200000)) (z.2 * 0x200000)).modGal g fun y =>
        { y with extents :=
            Tab.modify Extent.reset y.extents i fun e => { e with ready := e.en, zeroing := [] } }) := by
  show execExtentZeroingDone g i s = _
  simp [execExtentZeroingDone, State.extZeroed, hz]

/-! ### The scrub (R477, R485, R490) -/

@[simp] theorem State.die_modDie (s : State) (d : Nat) (f : DieErr → DieErr) : (s.modDie d f).die d = f (s.die d) :=
  Tab.get_modify_same _ _ _ _

theorem Narrow.lastVpa_eq {s t : State} (h : Narrow s t) : t.vault.lastVpa = s.vault.lastVpa :=
  congrArg (fun x => x.vault.lastVpa) (show t = _ from h)

/-- The state in which the scrub has found the erroneous symbols of a codeword: those it held already or those of this
read, whichever are more (log 103). -/
def State.scrubFound (s : State) (cw n : Nat) : State :=
  { s with vault := { s.vault with bad := Tab.set 0 s.vault.bad cw (max (Tab.get 0 s.vault.bad cw) n) } }

/-- A codeword that is not the last of its die is left, corrected or counted, by the number of its erroneous symbols
(R477, R485). -/
theorem exec_scrubRead_inside {s : State} {cw : Nat} (hpow : s.powered = true) (hinit : s.vault.initDone = true)
    (hscrub : s.vault.scrubEn = true) (hin : 64 * cw < 0xC00000000) (hlast : lastOfDie cw = false) (n : Nat) :
    exec (.scrubRead cw n) s = .next (
      if max (Tab.get 0 s.vault.bad cw) n = 0 then s.scrubFound cw n
      else if max (Tab.get 0 s.vault.bad cw) n = 1 then (s.scrubFound cw n).vmCorrected cw
      else (s.scrubFound cw n).scrubBad cw) := by
  have hgo : ¬(!s.powered || !s.vault.initDone || !s.vault.scrubEn || decide (64 * cw ≥ vaultBytes)) = true := by
    simp [hpow, hinit, hscrub, vaultBytes, hin]
  have hstay : ¬lastOfDie cw = true := by simp [hlast]
  exact (if_neg hgo).trans (congrArg Host.Outcome.next (if_neg hstay))

/-- A corrected codeword holds no erroneous symbol any more, and its die counts it (R477). -/
theorem State.vmCorrected_counts (s : State) (cw : Nat) :
    Tab.get 0 (s.vmCorrected cw).vault.bad cw = 0 ∧ (s.vmCorrected cw).vault.mem = s.vault.mem
      ∧ ((s.vmCorrected cw).die (vpaDie (64 * cw))).corrected = ((s.die (vpaDie (64 * cw))).corrected + 1) % 2 ^ 32 :=
  ⟨Tab.get_erase_same _ _ _, rfl, congrArg DieErr.corrected (State.die_modDie _ _ _)⟩

/-- From `s` to `t` an uncorrectable codeword has been counted on its die and entered as the last one (R490, R491). -/
def CountsUe (s t : State) (cw : Nat) : Prop :=
  t.vault.lastVpa = 64 * cw
    ∧ (t.die (vpaDie (64 * cw))).uncorrectable = min ((s.die (vpaDie (64 * cw))).uncorrectable + 1) 65535

/-- Records to hosts and zeroed bytes leave the count as it is. -/
theorem CountsUe.narrow {s t u : State} {cw : Nat} (h : CountsUe s t cw) (k : Narrow t u) : CountsUe s u cw := by
  obtain ⟨hlast, hcount⟩ := h
  refine ⟨k.lastVpa_eq.trans hlast, ?_⟩
  rw [← hcount, State.die, State.die, k.dies_eq]

/-- A die counts an uncorrectable read, in all and in the present hour (R490, R827). -/
def DieErr.countUe (d : DieErr) : DieErr :=
  { d with uncorrectable := satAdd 16 d.uncorrectable 1, ueHour := d.ueHour + 1 }

/-- The count itself: the part's lifetime figures, the die, and the last uncorrectable codeword (R490, R491, R828). -/
def State.ueCounted (s : State) (cw : Nat) : State :=
  let u := (s.lifeUe cw).modDie (vpaDie (64 * cw)) DieErr.countUe
  { u with vault :=
    { u.vault with lastRegion := vpaRegion (64 * cw), lastDie := vpaDie (64 * cw), lastVpa := 64 * cw } }

theorem State.ueCounted_countsUe (s : State) (cw : Nat) : CountsUe s (s.ueCounted cw) cw :=
  ⟨rfl, congrArg DieErr.uncorrectable ((s.lifeUe cw).die_modDie (vpaDie (64 * cw)) DieErr.countUe)⟩

/-- An uncorrectable codeword is counted, and then recorded for the host (R486). -/
theorem State.vmUncorrectable_countsUe (s : State) (cw : Nat) (scrub : Bool) :
    CountsUe s (s.vmUncorrectable cw scrub) cw :=
  (s.ueCounted_countsUe cw).narrow (State.incident_narrow _ _ _)

/-- What the scrub does with an uncorrectable codeword before it looks whether its place is free: the first of a pass
is recorded, a repeated one only counted (R485). -/
def State.scrubCounted (s : State) (cw : Nat) : State :=
  if s.vault.recorded.contains cw then s.ueCounted cw
  else
    let u := s.vmUncorrectable cw true
    { u with vault := { u.vault with recorded := cw :: u.vault.recorded } }

theorem State.scrubBad_eq (s : State) (cw : Nat) :
    s.scrubBad cw =
      if (s.scrubCounted cw).cwFree cw then (s.scrubCounted cw).vmZero (64 * cw) 64 else s.scrubCounted cw := rfl

theorem State.scrubCounted_countsUe (s : State) (cw : Nat) : CountsUe s (s.scrubCounted cw) cw := by
  unfold State.scrubCounted
  split
  · exact s.ueCounted_countsUe cw
  · exact s.vmUncorrectable_countsUe cw true

/-- The scrub counts an uncorrectable codeword, whether or not it is new in this pass and its place is free (R485). -/
theorem State.scrubBad_countsUe (s : State) (cw : Nat) : CountsUe s (s.scrubBad cw) cw := by
  rw [State.scrubBad_eq]
  split
  · exact (s.scrubCounted_countsUe cw).narrow (State.vmZero_narrow _ _ _)
  · exact s.scrubCounted_countsUe cw

end Sys2Proof.Machine
end

section
/-! PROOFS. BAR2 accesses, shelf extents and the scrub. -/

namespace Sys2Proof.Machine

open Sys2Proof.Slice0

/-- Settles O25: with no erroneous codeword in its range an access is a plain read or write at the address that
`bar2Vpa` gives, and a refused one counts. -/
theorem bar2Access : Obligations.Bar2Access := by
  refine ⟨fun s f off len tee a hopen htee ha hclean => exec_bar2Read_reached hopen htee ha hclean,
    fun s f off bs tee a hopen htee ha hclean => ?_, fun s f off len tee hopen htee hout => ?_,
    fun s f off len hslice => if_pos hslice⟩
  · exact ⟨_, exec_bar2Write_reached hopen htee ha hclean, State.vmBytes_vmWrite_same s a bs,
      fun x hx => State.vmWrite_get_outside s hx, rfl⟩
  · exact ⟨_, exec_bar2Read_outside hopen htee hout, State.bar2Refuse_count s f.val, rfl⟩

/-- Settles O41: an extent's write and zeroing change that extent alone, and the number of erroneous symbols (log 103)
selects what the scrub does with a codeword. -/
theorem extentsAndScrub : Obligations.ExtentsAndScrub := by
  refine ⟨fun s g i v hopen hfree => ?_, fun s g i z hz => ?_, fun s cw n hpow hinit hscrub hin hlast => ?_⟩
  · refine ⟨_, exec_shelfExtWrite_open hopen hfree i v, ?_⟩
    rw [State.extWrite_eq]
    refine ⟨?_, fun k hk => State.gal_modGal_ne _ _ _ _ hk, rfl⟩
    obtain ⟨hbase, hsize, hen, hready⟩ :=
      Extent.write_fields ((s.gal g).extent i) (s.extEnables g i v) (fieldN v 0 12) (fieldN v 16 12)
    rw [State.gal_modGal, Gallery.extent_modify_same]
    exact ⟨hbase, hsize, hen, hready, rfl⟩
  · refine ⟨_, exec_extentZeroingDone_one hz, ?_, State.vmZero_get s _ _⟩
    rw [State.gal_modGal, Gallery.extent_modify_same]
    rfl
  · rw [exec_scrubRead_inside hpow hinit hscrub hin hlast]
    refine ⟨fun hm => ?_, fun hm => ?_, fun hm => ?_⟩
    · rw [if_pos hm, State.scrubFound, hm]
    · obtain ⟨hbad, hmem, hcount⟩ := (s.scrubFound cw n).vmCorrected_counts cw
      exact ⟨_, by rw [if_neg (by omega), if_pos hm], hbad, hmem, hcount⟩
    · obtain ⟨hlast, hcount⟩ := (s.scrubFound cw n).scrubBad_countsUe cw
      exact ⟨_, by rw [if_neg (by omega), if_neg (by omega)], hlast, hcount⟩

end Sys2Proof.Machine
end

section
/-! PROOFS. Registers of the switch core with rules of their own: the limits of the reference-counted region. -/

namespace Sys2Proof.Machine

open Sys2Proof.Slice0

/-! ### SWC_RC_CTL (R537) -/

/-- Limits that fit the region together are stored as they are written. -/
theorem Swc.putRcCtl_within (w : Swc) {v : Word} (h : fieldN v 32 19 + fieldN v 0 19 ≤ 262144) (free : Nat) :
    w.putRcCtl v free = { w with
      mcLimit := fieldN v 32 19, specLimit := fieldN v 0 19, rcConflict := w.rcConflict && !bitN v 63 } := by
  have hmc : fieldN v 32 19 ≤ rcCells := by rw [rcCells]; omega
  have hfits : ¬rcCells < fieldN v 32 19 + fieldN v 0 19 := by rw [rcCells]; omega
  simp [Swc.putRcCtl, hmc, hfits]

/-- Limits that exceed the region together set conflict, and spec_limit gets what mc_limit leaves. -/
theorem Swc.putRcCtl_beyond (w : Swc) {v : Word} (h : 262144 < fieldN v 32 19 + fieldN v 0 19) (free : Nat) :
    (w.putRcCtl v free).specLimit = 262144 - (w.putRcCtl v free).mcLimit ∧ (w.putRcCtl v free).rcConflict = true := by
  simp [Swc.putRcCtl, rcCells, h]

/-- An mc_limit that fits the region by itself is stored as it is written. -/
theorem Swc.putRcCtl_mcLimit (w : Swc) {v : Word} (h : fieldN v 32 19 ≤ 262144) (free : Nat) :
    (w.putRcCtl v free).mcLimit = fieldN v 32 19 :=
  if_pos h

/-- The stored mc_limit never exceeds the region, whatever the free value of log 7 is. -/
theorem Swc.putRcCtl_mcLimit_le (w : Swc) (v : Word) (free : Nat) : (w.putRcCtl v free).mcLimit ≤ 262144 := by
  by_cases hmc : fieldN v 32 19 ≤ 262144
  · rwa [w.putRcCtl_mcLimit hmc]
  · have hfree : (w.putRcCtl v free).mcLimit = free % 262145 := if_neg hmc
    omega

/-- The stored limits never exceed the region together. -/
theorem Swc.putRcCtl_sum_le (w : Swc) (v : Word) (free : Nat) :
    (w.putRcCtl v free).mcLimit + (w.putRcCtl v free).specLimit ≤ 262144 := by
  by_cases hfits : fieldN v 32 19 + fieldN v 0 19 ≤ 262144
  · rwa [w.putRcCtl_within hfits]
  · obtain ⟨hspec, -⟩ := w.putRcCtl_beyond (by omega : 262144 < fieldN v 32 19 + fieldN v 0 19) free
    have hmc := w.putRcCtl_mcLimit_le v free
    omega

/-! ### PORT_SPEC (R537, R548) -/

/-- An enable without a limit for specimens is refused, and sets conflict. -/
theorem State.portSpec_refused (s : State) (p : Nat) {v : Word} (hen : bitN v 7 = true) (hlimit : s.swc.specLimit = 0) :
    s.portSpec p v = (s.modSwc fun w => { w with rcConflict := true }).modSwcPort p fun x =>
      { x with specEn := false, specK := within 4 24 0x10 (fieldN v 0 5) } := by
  simp [State.portSpec, hen, hlimit]

/-- A disable, or an enable where specimens have a limit, is stored, and the switch core keeps its limits. -/
theorem State.portSpec_taken (s : State) (p : Nat) {v : Word} (h : bitN v 7 = false ∨ s.swc.specLimit ≠ 0) :
    s.portSpec p v = s.modSwcPort p fun x =>
      { x with specEn := bitN v 7, specK := within 4 24 0x10 (fieldN v 0 5) } := by
  have hgood : (bitN v 7 && s.swc.specLimit == 0) = false := by
    rcases h with hoff | hlimit
    · rw [hoff, Bool.false_and]
    · rw [beq_false_of_ne hlimit, Bool.and_false]
  simp only [State.portSpec, hgood, Bool.false_eq_true, if_false, Bool.not_false, Bool.and_true]

theorem within_of_mem {lo hi v : Nat} (hlo : lo ≤ v) (hhi : v ≤ hi) (dflt : Nat) : within lo hi dflt v = v := by
  simp [within, hlo, hhi]

/-! ### Commands -/

theorem exec_swcRcCtlWrite_open {s : State} (h : s.blockOpen 4 = true) (v : Word) :
    exec (.swcRcCtlWrite v) s = .next (s.rcCtl v) :=
  if_pos h

theorem exec_swcVcModeWrite_open {s : State} (h : s.blockOpen 4 = true) (v : Word) :
    exec (.swcVcModeWrite v) s = .next (s.modSwc fun w => w.putVcMode v) :=
  if_pos h

theorem exec_portSpecWrite_open {s : State} {p : Port} (h : s.pageOpen p.val = true) (v : Word) :
    exec (.portSpecWrite p v) s = .next (s.portSpec p.val v) :=
  if_pos h

/-- Settles O20: whether the two limits fit the region together, and whether specimens have a limit, selects what is
stored and whether conflict is set. -/
theorem switchRegisterWrites : Obligations.SwitchRegisterWrites := by
  refine ⟨fun s v hopen => ?_, fun s v hopen => exec_swcVcModeWrite_open hopen v,
    fun s p v hopen hen hlimit => ?_, fun s p v hopen htaken => ?_⟩
  · refine ⟨_, exec_swcRcCtlWrite_open hopen v, Swc.putRcCtl_sum_le _ _ _, fun hfits => ?_, fun hover => ?_⟩
    · have hstored := Swc.putRcCtl_within s.draw.swc hfits (Config.freeWord s.freeCtr).toNat
      exact ⟨congrArg Swc.mcLimit hstored, congrArg Swc.specLimit hstored, congrArg Swc.rcConflict hstored⟩
    · obtain ⟨hspec, hconflict⟩ := Swc.putRcCtl_beyond s.draw.swc hover (Config.freeWord s.freeCtr).toNat
      exact ⟨hspec, hconflict, fun hmc => Swc.putRcCtl_mcLimit _ hmc _⟩
  · refine ⟨_, exec_portSpecWrite_open hopen v, ?_⟩
    simp [State.portSpec_refused s p.val hen hlimit, State.modSwc]
  · refine ⟨_, exec_portSpecWrite_open hopen v, ?_⟩
    rw [State.portSpec_taken s p.val htaken, State.modSwcPort_swcPort_same]
    exact ⟨rfl, rfl, fun hlo hhi => within_of_mem hlo hhi _⟩

end Sys2Proof.Machine
end

section
/-! PROOFS. Steps of a fabric secret, their replies, pair keys and the curators' messages. -/

namespace Sys2Proof.Machine

open Sys2Proof.Slice0

/-! ### Secrets and pair keys (R654, R655) -/

/-- A step makes the current secret the previous one and the next the current, and derives a new next (R655). -/
theorem State.gal_advance (s : State) (g : Nat) :
    (s.advance g).gal g = { s.gal g with
      gen := ((s.gal g).gen + 1) % 65536, prev := some (s.gal g).cur, cur := (s.gal g).next
      next := fabricStepSecret (s.gal g).next } :=
  s.gal_modGal g fun x =>
    { x with gen := (x.gen + 1) % 65536, prev := some x.cur, cur := x.next, next := fabricStepSecret x.next }

/-- Of the gallery's pair keys, a step keeps those of the generation that it leaves and of the one that it enters
(R655). -/
theorem State.pairs_advance (s : State) {g : Nat} {x : Nat × Nat × Nat × Nat × Bool}
    (hx : x ∈ (s.advance g).sec.pairs) (hg : x.1 = g) :
    x.2.1 = (s.gal g).gen ∨ x.2.1 = ((s.gal g).gen + 1) % 65536 := by
  obtain ⟨-, hkeep⟩ := List.mem_filter.mp hx
  by_cases hold : x.2.1 = (s.gal g).gen
  · exact .inl hold
  · exact .inr (by simpa [hg, hold] using hkeep)

/-- The cache holds a pair key once it is derived (R654). -/
theorem State.mem_addPair (s : State) (gal gen a b : Nat) (resp : Bool) :
    (gal, gen, a, b, resp) ∈ (s.addPair gal gen a b resp).sec.pairs := by
  simp [State.addPair]

theorem exec_pairKeyDerived_inWindow {s : State} {g : GalNo} {gen : BitVec 16} {a b : NodeId}
    (hwin : (s.gal g).inWindow gen.toNat = true) (hend : a.toNat = s.node ∨ b.toNat = s.node) (resp : Bool) :
    exec (.pairKeyDerived g gen a b resp) s = .next (s.addPair g gen.toNat a.toNat b.toNat resp).driveAll := by
  refine if_neg ?_
  rcases hend with hend | hend <;> simp [hwin, hend]

/-! ### What a STEP and a STEP_REPLY do to a gallery (R656) -/

/-- A member of a gallery that stays advances to the generation after its own, and replies. -/
theorem State.stepTo_next {s : State} {g lead gen : Nat} (hstays : (s.gal g).state ≠ .deaccessioning)
    (hroot : (s.gal g).root = true) (hnew : gen ≠ (s.gal g).gen) (hnext : gen = ((s.gal g).gen + 1) % 65536) :
    s.stepTo g lead gen = (s.advance g).mgmtSend mkReply g lead gen := by
  unfold State.stepTo
  rw [if_neg (by simpa using hstays), if_neg (by simp [hroot]), if_neg hnew, if_pos hnext]

/-- A gallery that is being deaccessioned, or that has advanced already, only replies. -/
theorem State.stepTo_repliesOnly {s : State} {g lead gen : Nat}
    (h : (s.gal g).state = .deaccessioning ∨ (s.gal g).root = true ∧ gen = (s.gal g).gen) :
    s.stepTo g lead gen = s.mgmtSend mkReply g lead gen := by
  unfold State.stepTo
  rcases h with hgoes | ⟨hroot, hsame⟩
  · rw [if_pos (by simpa using hgoes)]
  · simp only [hroot, if_pos hsame]
    exact ite_self _

section
variable {s : State} {g member gen : Nat} {r : StepRun} (hrun : (s.gal g).stepRun = some r) (hgen : r.gen = gen)
include hrun hgen

/-- A reply that others still have to follow is struck off the list. -/
theorem State.stepReplied_waiting (hleft : (r.waiting.filter fun m => m.toNat != member) ≠ []) :
    s.stepReplied g member gen = s.modGal g fun x =>
      { x with stepRun := some { r with waiting := r.waiting.filter fun m => m.toNat != member } } := by
  simp only [State.stepReplied, hrun]
  rw [if_neg (by simp [hgen]), if_neg (by rwa [List.isEmpty_iff])]

/-- The last reply ends the step; where no other step was asked for meanwhile, nothing follows. -/
theorem State.stepReplied_last (hleft : (r.waiting.filter fun m => m.toNat != member) = [])
    (hasked : (s.gal g).stepAsked = false) :
    s.stepReplied g member gen = s.modGal g fun x => { x with stepRun := none } := by
  simp only [State.stepReplied, hrun]
  rw [if_neg (by simp [hgen]), if_pos (by rwa [List.isEmpty_iff]), if_neg (by simp [hasked])]

end

/-! ### Curator messages that arrive (R496) -/

/-- Taking a packet off the list of arrivals changes no gallery. -/
@[simp] theorem State.gal_unqueue (s : State) (hdr : Header) (payload : Bytes) (g : Nat) :
    (s.unqueue hdr payload).gal g = s.gal g := rfl

section
variable {s : State} {k : FabPkt} {b : Bytes} (h : Arrives s ftMgmt k b) (hup : s.cur.up = true)
include h hup

/-- While the curator runs, a message of a command's own kinds has its effect and is acknowledged; its layout is that
of log 97. -/
theorem State.mgmtArrive_arrives {mine : Nat → Bool} (hmine : mine (getLe b 0 1) = true)
    (act : State → FHdr → Bytes → State) :
    s.mgmtArrive mine k act =
      State.driveAll ((act (s.unqueue k.hdr k.payload) (FHdr.dec k.hdr) b).ackWrite 80 (FHdr.dec k.hdr)) := by
  rw [State.mgmtArrive, if_neg (by simp [hup]), State.takeOnce_arrives h hmine]

theorem exec_step_arrives (hkind : getLe b 0 1 = mkStep) {u : State}
    (heffect : (s.unqueue k.hdr k.payload).stepTo (FHdr.dec k.hdr).gallery (FHdr.dec k.hdr).srcNode (getLe b 2 2) = u) :
    exec (.step k) s = .next (State.driveAll (u.ackWrite 80 (FHdr.dec k.hdr))) := by
  subst heffect
  exact congrArg Host.Outcome.next (State.mgmtArrive_arrives h hup (by simp [hkind]) _)

theorem exec_stepReply_arrives (hkind : getLe b 0 1 = mkReply) {u : State}
    (heffect : (s.unqueue k.hdr k.payload).stepReplied (FHdr.dec k.hdr).gallery (FHdr.dec k.hdr).srcNode (getLe b 2 2)
      = u) :
    exec (.stepReply k) s = .next (State.driveAll (u.ackWrite 80 (FHdr.dec k.hdr))) := by
  subst heffect
  exact congrArg Host.Outcome.next (State.mgmtArrive_arrives h hup (by simp [hkind]) _)

/-- Of the other kinds a report asks the lead for a step (R657), and any further kind is only acknowledged (log 23,
log 97). -/
theorem exec_mgmt_arrives (hstep : getLe b 0 1 ≠ mkStep) (hreply : getLe b 0 1 ≠ mkReply) :
    exec (.mgmt k) s = .next (State.driveAll ((if getLe b 0 1 = mkReport
      then (s.unqueue k.hdr k.payload).askStep (FHdr.dec k.hdr).gallery
      else s.unqueue k.hdr k.payload).ackWrite 80 (FHdr.dec k.hdr))) :=
  congrArg Host.Outcome.next (State.mgmtArrive_arrives h hup (by simp [hstep, hreply]) _)

end

/-- Settles O46: what the gallery's state says of a STEP, and the lead's list of a STEP_REPLY, selects the one effect
that is then acknowledged. -/
theorem fabricSteps : Obligations.FabricSteps := by
  refine ⟨fun s k b harr hup hkind => ⟨fun hstays hroot hnew hnext => ?_, fun hreplies => ?_⟩,
    fun s g => ?_, fun s k b r harr hup hkind hrun hgen => ⟨fun hleft => ?_, fun hleft hasked => ?_⟩,
    fun s g hperiod => if_neg hperiod, fun s g gen a b resp hwin hend => ?_,
    fun s k b harr hup hstep hreply => exec_mgmt_arrives harr hup hstep hreply⟩
  · exact exec_step_arrives harr hup hkind (State.stepTo_next hstays hroot hnew hnext)
  · exact exec_step_arrives harr hup hkind (State.stepTo_repliesOnly hreplies)
  · have hgal := s.gal_advance g
    exact ⟨congrArg Gallery.gen hgal, congrArg Gallery.prev hgal, congrArg Gallery.cur hgal,
      congrArg Gallery.next hgal, rfl, fun x hx hg => s.pairs_advance hx hg⟩
  · exact exec_stepReply_arrives harr hup hkind (State.stepReplied_waiting hrun hgen hleft)
  · exact exec_stepReply_arrives harr hup hkind (State.stepReplied_last hrun hgen hleft hasked)
  · exact ⟨_, exec_pairKeyDerived_inWindow hwin hend resp, s.mem_addPair _ _ _ _ _, rfl⟩

end Sys2Proof.Machine
end

section
/-! PROOFS. Hourly records, health scores and failed dies. -/

namespace Sys2Proof.Machine

open Sys2Proof.Slice0

/-! ### Hourly records (R829) -/

theorem exec_lifeHistoryHourly_up {s : State} (hpow : s.powered = true) (hup : s.cur.up = true) (ok : Bool) :
    exec (.lifeHistoryHourly ok) s =
      .next ((s.modTel fun t => { t with onHours := satAdd 32 t.onHours 1 }).writeRecord 1 0 ok) :=
  (if_neg (by simp [hpow])).trans (if_pos hup)

/-- A record that reads back is written before the others, and the oldest leaves a full store (R828, R829). -/
theorem State.writeRecord_readable (s : State) (kind reason : Nat) :
    ∃ r tel, s.writeRecord kind reason true =
        { s with flash := { s.flash with lifeHistory := (r :: s.flash.lifeHistory).take 16384 }, tel := tel }
      ∧ (r.drop 8).take 2 = [BitVec.ofNat 8 kind, BitVec.ofNat 8 reason] ∧ tel.onHours = s.tel.onHours :=
  ⟨_, _, if_neg (by decide), State.record_kind _ _ kind reason, rfl⟩

theorem exec_lifeHistoryHourly_waits {s : State} (hpow : s.powered = true) (hdown : s.cur.up = false) (ok : Bool) :
    exec (.lifeHistoryHourly ok) s =
      .next { s with cur := { s.cur with hourlyDue := true }
                     tel := { s.tel with onHours := satAdd 32 s.tel.onHours 1 } } :=
  (if_neg (by simp [hpow])).trans (if_neg (by simp [hdown]))

/-! ### Health scores (R826) -/

theorem State.healthEvent_narrow (s : State) (part : Nat) (old new : Health) :
    Narrow s (s.healthEvent part old new) := by
  unfold State.healthEvent
  split
  · exact Narrow.refl s
  · exact s.curEvent_narrow _ _ _ _

theorem State.healthEvent_tel (s : State) (part : Nat) (old new : Health) : (s.healthEvent part old new).tel = s.tel :=
  (s.healthEvent_narrow part old new).tel_eq

theorem State.scorePort_updates (s : State) (p : Nat) : (s.scorePort p).tel.updates = s.tel.updates := by
  unfold State.scorePort
  split
  · exact (congrArg Tel.updates (State.healthEvent_tel _ _ _ _)).trans rfl
  · rfl

theorem State.scoreDie_updates (s : State) (d : Nat) : (s.scoreDie d).tel.updates = s.tel.updates :=
  (congrArg Tel.updates (State.healthEvent_tel _ _ _ _)).trans rfl

/-- A new hour of link and die counts changes no figure of the telemetry. -/
theorem State.newHour_tel (s : State) : s.newHour.tel = s.tel := by
  unfold State.newHour
  exact (foldl_same State.tel _ (by exact fun _ _ => rfl) _ _).trans
    (foldl_same State.tel _ (by exact fun _ _ => rfl) _ _)

/-- The module's score is the least of its parts' and of 101. -/
def State.worstPart (s : State) : Nat × Nat :=
  s.parts.foldl (fun w x => if x.2 < w.2 then x else w) (0x60, 101)

theorem State.scoreModule_tel (s : State) :
    s.scoreModule.tel = { s.tel with
      modHealth := { band := healthBand s.worstPart.2, cause := s.worstPart.1, score := s.worstPart.2 }
      updates := wrapAdd 32 s.tel.updates 1 } :=
  State.healthEvent_tel _ _ _ _

/-- Looking for the least score never leaves a greater one than it began with. -/
theorem foldl_least_le (l : List (Nat × Nat)) (w : Nat × Nat) :
    (l.foldl (fun w x => if x.2 < w.2 then x else w) w).2 ≤ w.2 := by
  induction l generalizing w with
  | nil => exact Nat.le_refl _
  | cons x l ih =>
    refine Nat.le_trans (ih _) ?_
    dsimp only
    split
    · next hless => exact Nat.le_of_lt hless
    · exact Nat.le_refl _

theorem State.worstPart_score_le (s : State) : s.worstPart.2 ≤ 101 := by
  unfold State.worstPart
  generalize s.parts = parts
  exact foldl_least_le parts (0x60, 101)

/-- Scoring of every port and die, before the module's own score. -/
def State.scoreParts (s : State) : State :=
  (List.range 24).foldl (fun s d => s.scoreDie d) ((List.range 48).foldl (fun s p => s.scorePort p) s.healthHour)

theorem State.scoreParts_updates (s : State) : s.scoreParts.tel.updates = s.tel.updates := by
  unfold State.scoreParts
  rw [foldl_same (fun s : State => s.tel.updates) _ State.scoreDie_updates,
    foldl_same (fun s : State => s.tel.updates) _ State.scorePort_updates]
  rfl

theorem exec_healthScoring_powered {s : State} (hpow : s.powered = true) :
    exec .healthScoring s = .next s.scoreParts.scoreModule.newHour :=
  if_neg (by simp [hpow])

/-! ### Failed dies (R827) -/

theorem exec_dieFailed_counted {s : State} {d : DieNo} (hgood : (s.die d.val).failed = false)
    (hcount : 64 ≤ (s.die d.val).ueHour) :
    exec (.dieFailed d) s =
      .next ((s.modDie d.val fun x => { x with failed := true }).curEvent 0x0B 0 0 d.val) :=
  if_neg (by simp [hgood, hcount])

theorem State.die_modDie_same (s : State) (d : Nat) (f : DieErr → DieErr) : (s.modDie d f).die d = f (s.die d) :=
  Tab.get_modify_same _ _ _ _

theorem State.die_modDie_ne (s : State) {d k : Nat} (h : k ≠ d) (f : DieErr → DieErr) :
    (s.modDie d f).die k = s.die k :=
  Tab.get_modify_ne _ _ _ h

/-- A curator event changes no die's error figures. -/
theorem State.die_curEvent (s : State) (ev cause core infoB k : Nat) :
    (s.curEvent ev cause core infoB).die k = s.die k :=
  congrArg (Tab.get DieErr.reset · k) (s.curEvent_narrow ev cause core infoB).dies_eq

/-- Settles O36: the record of an hour is one of kind 1, scoring takes the least score of the parts, and only the die
named fails. -/
theorem lifeAndHealth : Obligations.LifeAndHealth := by
  refine ⟨fun s hpow hup => ?_,
    fun s ok hpow hdown => exec_lifeHistoryHourly_waits hpow hdown ok, fun s hpow => ?_,
    fun s d hgood hcount => ⟨_, exec_dieFailed_counted hgood hcount, ?_, fun k hk => ?_⟩⟩
  · obtain ⟨r, tel, hwritten, hkind, hhours⟩ :=
      (s.modTel fun t => { t with onHours := satAdd 32 t.onHours 1 }).writeRecord_readable 1 0
    exact ⟨_, (exec_lifeHistoryHourly_up hpow hup true).trans (congrArg Host.Outcome.next hwritten),
      ⟨r, rfl, hkind⟩, hhours, rfl⟩
  · have hexec := exec_healthScoring_powered hpow
    have hkeeps := exec_next_keeps .healthScoring s _ hexec
    have htel := (State.newHour_tel _).trans s.scoreParts.scoreModule_tel
    refine ⟨_, hexec, hkeeps.ctl rfl, hkeeps.flash rfl, ?_⟩
    rw [htel]
    dsimp only
    exact ⟨congrArg (wrapAdd 32 · 1) s.scoreParts_updates, rfl, s.scoreParts.worstPart_score_le⟩
  · rw [State.die_curEvent, State.die_modDie_same]
  · rw [State.die_curEvent, State.die_modDie_ne _ hk]

end Sys2Proof.Machine
end

section
/-! SUPPORT. Shared rules for links: what a port changes and tells when it transmits, and what a step of training leaves
of its link and lanes. -/

namespace Sys2Proof.Machine

open Sys2Proof.Slice0

/-! ### Transmission -/

/-- Port `p` transmits and tells `os`, newest first: of the links only its own changes, and of that one only the count
of flits since the last FILLER (R579). -/
structure Transmits (p : Nat) (os : List Output) (s t : State) : Prop where
  link : t.link p = { s.link p with sinceFill := (t.link p).sinceFill }
  others : ∀ q, q ≠ p → t.link q = s.link q
  tells : told t.outputs = os ++ told s.outputs
  offWire : t.offWire = s.offWire

theorem told_cons (o : Output) (os : List Output) : told (o :: os) = told [o] ++ told os :=
  List.filter_append (p := _) [o] os

namespace Transmits

variable {p : Nat} {os os' : List Output} {s t u : State}

theorem refl (p : Nat) (s : State) : Transmits p [] s s := ⟨rfl, fun _ _ => rfl, rfl, rfl⟩

theorem trans (h : Transmits p os s t) (k : Transmits p os' t u) : Transmits p (os' ++ os) s u where
  link := k.link.trans (by rw [h.link])
  others q hq := (k.others q hq).trans (h.others q hq)
  tells := by rw [k.tells, h.tells, List.append_assoc]
  offWire := k.offWire.trans h.offWire

/-- Steps of which each tells one record tell them all, the last one first. -/
theorem foldl {α : Type} {f : State → α → State} {o : α → Output} (hf : ∀ s x, Transmits p [o x] s (f s x))
    (l : List α) (s : State) : Transmits p (l.map o).reverse s (l.foldl f s) := by
  induction l generalizing s with
  | nil => exact refl p s
  | cons x l ih => simpa using (hf s x).trans (ih (f s x))

/-- Steps that tell nothing tell nothing together. -/
theorem foldl_quiet {α : Type} {f : State → α → State} (hf : ∀ s x, Transmits p [] s (f s x)) (l : List α)
    (s : State) : Transmits p [] s (l.foldl f s) := by
  induction l generalizing s with
  | nil => exact refl p s
  | cons x l ih => exact (hf s x).trans (ih (f s x))

theorem out (p : Nat) (o : Output) (s : State) : Transmits p (told [o]) s (s.out o) :=
  ⟨rfl, fun _ _ => rfl, told_cons o s.outputs, rfl⟩

theorem modLane (p q i : Nat) (f : Lane → Lane) (s : State) : Transmits p [] s (s.modLane q i f) :=
  ⟨rfl, fun _ _ => rfl, rfl, rfl⟩

theorem draw (p : Nat) (s : State) : Transmits p [] s s.draw := ⟨rfl, fun _ _ => rfl, rfl, rfl⟩

theorem modLink_sinceFill (p : Nat) (n : Link → Nat) (s : State) :
    Transmits p [] s (s.modLink p fun l => { l with sinceFill := n l }) :=
  ⟨by rw [State.link_modLink], fun q hq => State.link_modLink_ne s p q _ hq, rfl, rfl⟩

/-- The symbols of a flit are no record of their own (R560 to R562). -/
theorem wire (p : Nat) (hdr : Word) (body : Bytes) (s : State) : Transmits p [] s (s.wire p hdr body) := by
  unfold State.wire
  exact (foldl_quiet (fun s _ => modLane p p _ _ s) _ s).trans (out p (.symbols _ _) _)

theorem sendFiller (p : Nat) (s : State) : Transmits p [] s (s.sendFiller p) :=
  ((modLink_sinceFill p (fun _ => 0) s).trans (out p (.filler p) _)).trans (wire p _ _ _)

/-- A flit tells its own record, and not the FILLER that may follow it (R579). -/
theorem flitOut (p : Nat) (o : Output) (hdr : Word) (body : Bytes) (s : State) :
    Transmits p (told [o]) s (s.flitOut p o hdr body) := by
  have hflit := (out p o s).trans (wire p hdr body _)
  unfold State.flitOut
  dsimp only
  split
  · exact hflit.trans (sendFiller p _)
  · exact hflit.trans (modLink_sinceFill p (fun l => l.sinceFill + 1) _)

theorem sendData (p : Nat) (s : State) (f : TxFlit) : Transmits p [.flit p f] s (s.sendData p f) :=
  flitOut p (.flit p f) _ _ s

theorem ctrlOut (p : Nat) (nak : Bool) (credit : Option (Nat × Nat)) (idle : Bool) (notices : List Nat) (s : State) :
    Transmits p [.ctrl p (s.link p).ack nak credit idle notices] s (s.ctrlOut p nak credit idle notices) :=
  flitOut p (.ctrl p _ nak credit idle notices) _ _ s

theorem sendFrames (p type : Nat) (lanes : List Nat) (s : State) : Transmits p [] s (s.sendFrames p type lanes) :=
  foldl_quiet (fun s i => (draw p s).trans (out p (.frame p i _) _)) lanes s

theorem loadScramblers (p : Nat) (tx rx : Bool) (s : State) : Transmits p [] s (s.loadScramblers p tx rx) :=
  foldl_quiet (fun s _ => modLane p p _ _ s) _ s

theorem sendBurst (p : Nat) (s : State) : Transmits p [.burst p] s (s.sendBurst p) :=
  ((out p (.burst p) s).trans (sendFrames p 3 _ _)).trans (loadScramblers p true false _)

end Transmits

/-- An update of the port's link and a transmission after it. -/
theorem Transmits.link_of_modLink {p : Nat} {f : Link → Link} {os : List Output} {s t : State}
    (h : Transmits p os (s.modLink p f) t) :
    t.link p = { f (s.link p) with sinceFill := (t.link p).sinceFill } :=
  h.link.trans (by rw [State.link_modLink])

/-- What transmitters alone change, written out as the fields that differ. -/
theorem State.eq_with_wire {s t : State} (h : t.offWire = s.offWire) :
    t = { s with links := t.links, lanes := t.lanes, outputs := t.outputs, freeCtr := t.freeCtr } :=
  calc t = { t.offWire with links := t.links, lanes := t.lanes, outputs := t.outputs, freeCtr := t.freeCtr } := rfl
    _ = { s.offWire with links := t.links, lanes := t.lanes, outputs := t.outputs, freeCtr := t.freeCtr } := by rw [h]

/-! ### What a port sends -/

section
variable {s : State} {p : Nat}

theorem State.sendCtrl_sends (h : (s.link p).sends = true) (nak : Bool) (credit : Option (Nat × Nat)) :
    s.sendCtrl p nak credit = s.ctrlOut p nak credit false [] := if_pos h

theorem State.linkPump_idle (h : (s.link p).waiting = []) : s.linkPump p = s := if_pos (by simp [h])

/-- While a NAK is held no further one is sent (R585). -/
theorem State.sendNak_held (h : (s.link p).nakHeld = true) : s.sendNak p = s := if_pos h

end

/-! ### What a step of training leaves (R565, R568) -/

@[simp] theorem State.lane_modLink (s : State) (p q i : Nat) (f : Link → Link) :
    (s.modLink p f).lane q i = s.lane q i := rfl

@[simp] theorem State.link_modLane (s : State) (p q i : Nat) (f : Lane → Lane) :
    (s.modLane p i f).link q = s.link q := rfl

@[simp] theorem State.link_out (s : State) (q : Nat) (o : Output) : (s.out o).link q = s.link q := rfl

@[simp] theorem State.lane_out (s : State) (q i : Nat) (o : Output) : (s.out o).lane q i = s.lane q i := rfl

theorem State.link_withTel (s : State) (t : Tel) (q : Nat) : ({ s with tel := t } : State).link q = s.link q := rfl

/-- Training frames are outputs: no link and no lane changes. -/
theorem State.links_sendFrames (s : State) (p type : Nat) (lanes : List Nat) :
    (s.sendFrames p type lanes).links = s.links :=
  foldl_same State.links _ (by exact fun _ _ => rfl) lanes s

theorem State.lanes_sendFrames (s : State) (p type : Nat) (lanes : List Nat) :
    (s.sendFrames p type lanes).lanes = s.lanes :=
  foldl_same State.lanes _ (by exact fun _ _ => rfl) lanes s

@[simp] theorem State.link_sendTs (s : State) (p type q : Nat) : (s.sendTs p type).link q = s.link q :=
  congrArg (Tab.get Link.reset · q) (s.links_sendFrames p type _)

@[simp] theorem State.lane_sendTs (s : State) (p type q i : Nat) : (s.sendTs p type).lane q i = s.lane q i :=
  congrArg (Tab.get Lane.reset · (8 * q + i)) (s.lanes_sendFrames p type _)

theorem State.told_sendTs (s : State) (p type : Nat) : told (s.sendTs p type).outputs = told s.outputs :=
  (Transmits.sendFrames p type _ s).tells

theorem State.link_toStep (s : State) (p n : Nat) :
    (s.toStep p n).link p = { s.link p with trainStep := n } := by
  simp [State.toStep]

/-- Step 2 leaves the lanes as they are; steps 4 and 5 begin with new counts. -/
theorem State.lane_toStep_two (s : State) (p : Nat) {i : Nat} (hi : i < 8) :
    (s.toStep p 2).lane p i = s.lane p i := by
  simp [State.toStep, State.lane_modLanes _ _ _ _ hi]

theorem State.told_toStep (s : State) (p n : Nat) :
    told (s.toStep p n).outputs = .training p n :: told s.outputs := by
  unfold State.toStep
  dsimp only
  rw [State.told_sendTs, State.out_outputs, State.modLanes_outputs, State.modLink_outputs]
  rfl

theorem State.link_startRetrain (s : State) (p : Nat) :
    (s.startRetrain p).link p = { s.link p with
      state := .retrain, trainStep := 2, retrains := satAdd 16 (s.link p).retrains 1, txIdle := false, rxIdle := false
      replayRun := 0 } := by
  unfold State.startRetrain
  dsimp only
  rw [State.link_sendTs, State.link_out, State.modLanes_link, State.link_withTel, State.link_modLink]

/-- A failed attempt short of the eighth leaves the port DOWN (R603). -/
theorem State.link_trainFailed {s : State} {p : Nat} (h : (s.link p).attempts < 7) :
    (s.trainFailed p).link p =
      { (s.link p).clear with state := .down, attempts := (s.link p).attempts + 1 } := by
  unfold State.trainFailed
  dsimp only
  rw [State.modLanes_link, State.link_modLink, if_neg (by dsimp only; omega)]
  rw [State.modLanes_link, State.link_modLink]

/-- A full training starts on the lanes of the mask, which it keeps (R565, R605). -/
theorem State.laneMask_startTraining (s : State) (p : Nat) :
    ((s.startTraining p).link p).laneMask = (s.link p).laneMask := by
  unfold State.startTraining
  dsimp only
  split
  · rw [State.link_modLink]
    rfl
  · rw [State.link_out, State.modLanes_link, State.link_modLink]
    rfl

/-- Where no lane is to fail, none does. -/
theorem State.failLanes_nil (s : State) (p : Nat) : s.failLanes p [] = s := rfl

end Sys2Proof.Machine
end

section
/-! PROOFS. Flits of a link: their sequence, NAKs, replays and idle. -/

namespace Sys2Proof.Machine

open Sys2Proof.Slice0

/-! ### Flits that arrive (R575, R581) -/

section
variable {s a : State} {p : Port} {lanes : List (List Pam)} {hdr : Word} {body : Bytes} {places : List Nat}
  (hrecv : (s.link p.val).receives = true)
include hrecv

section
variable (hgood : GoodFlit s p.val lanes a hdr body places)
include hgood

theorem exec_dataFlit_good (hkind : fieldN hdr 62 2 = 0) :
    exec (.dataFlit p lanes) s = .next (((a.elastic p.val false).countPlaces p.val places).dataIn p.val hdr body) := by
  obtain ⟨hok, hfit, harr⟩ := hgood
  show execDataFlit p lanes s = _
  simp [execDataFlit, hrecv, hok, hfit, harr, hkind]

theorem exec_ctrlFlit_good (hkind : fieldN hdr 62 2 = 1) :
    exec (.ctrlFlit p lanes) s = .next (((a.elastic p.val false).countPlaces p.val places).ctrlIn p.val hdr body) := by
  obtain ⟨hok, hfit, harr⟩ := hgood
  show execCtrlFlit p lanes s = _
  simp [execCtrlFlit, hrecv, hok, hfit, harr, hkind]

theorem exec_filler_good (hkind : fieldN hdr 62 2 = 2) :
    exec (.filler p lanes) s = .next ((a.elastic p.val true).countPlaces p.val places) := by
  obtain ⟨hok, hfit, harr⟩ := hgood
  show execFiller p lanes s = _
  simp [execFiller, hrecv, hok, hfit, harr, hkind]

end

section
variable (hok : lanesOk lanes = true) (hfit : lanesFit (s.link p.val).width lanes = true)
  (harr : s.flitArrives p.val lanes = (a, none))
include hok hfit harr

theorem exec_dataFlit_bad : exec (.dataFlit p lanes) s = .next ((a.elastic p.val false).badFlit p.val) := by
  show execDataFlit p lanes s = _
  simp [execDataFlit, hrecv, hok, hfit, harr]

/-- A bad flit is a DATA_FLIT's matter: the other two commands change nothing (log 3, log 70). -/
theorem exec_ctrlFlit_bad : exec (.ctrlFlit p lanes) s = .next s := by
  show execCtrlFlit p lanes s = _
  simp [execCtrlFlit, hrecv, hok, hfit, harr]

theorem exec_filler_bad : exec (.filler p lanes) s = .next s := by
  show execFiller p lanes s = _
  simp [execFiller, hrecv, hok, hfit, harr]

end

end

/-! ### The sequence (R583, R584) -/

/-- How far a flit's sequence is past the one that the receiver expects. -/
def State.seqAhead (s : State) (p : Nat) (hdr : Word) : Nat :=
  (fieldN hdr 6 16 + 65536 - (s.link p).rxSeq) % 65536

section
variable {s : State} {p : Nat} {hdr : Word} (hrecv : ((s.flitFields p hdr).link p).receives = true)
include hrecv

theorem State.dataIn_expected (hseq : (s.flitFields p hdr).seqAhead p hdr = 0) (body : Bytes) :
    s.dataIn p hdr body =
      ((((s.flitFields p hdr).modLink p fun l => { l with rxSeq := (l.rxSeq + 1) % 65536, nakHeld := false }).takeBody p
        (fieldN hdr 59 3) (fieldN hdr 55 4) body).sendCtrl p false none) :=
  (if_neg (by simp [hrecv])).trans (if_pos hseq)

theorem State.dataIn_seen (hseq : 32768 ≤ (s.flitFields p hdr).seqAhead p hdr) (body : Bytes) :
    s.dataIn p hdr body = s.flitFields p hdr :=
  (if_neg (by simp [hrecv])).trans <| (if_neg (fun h : (s.flitFields p hdr).seqAhead p hdr = 0 => by omega)).trans
    (if_pos hseq)

theorem State.dataIn_gap (hnew : 0 < (s.flitFields p hdr).seqAhead p hdr)
    (hseq : (s.flitFields p hdr).seqAhead p hdr < 32768) (body : Bytes) :
    s.dataIn p hdr body = (s.flitFields p hdr).sendNak p :=
  (if_neg (by simp [hrecv])).trans <| (if_neg (Nat.ne_of_gt hnew)).trans (if_neg (Nat.not_le.mpr hseq))

end

/-! ### Replay (R587, R588) -/

/-- The first replay from a sequence sends every unacknowledged flit again, in order. -/
theorem State.replayFlits_first {s : State} {p : Nat} {f : TxFlit} {fs : List TxFlit}
    (hun : (s.link p).unacked = f :: fs) (hrun : (s.link p).replayRun = 0) :
    s.replayFlits p = (f :: fs).foldl (fun s f => s.sendData p f) (s.modLink p fun l =>
      { l with replays := wrapAdd 24 l.replays 1, replayRun := 1, replayAt := f.seq }) := by
  simp [State.replayFlits, hun, hrun]

theorem exec_retryTimeout_receives {s : State} {p : Port} (hrecv : (s.link p.val).receives = true) :
    exec (.retryTimeout p) s = .next (s.replayFlits p.val) := if_pos hrecv

/-! ### Idle (R593 to R595) -/

theorem Transmits.ack_eq {p : Nat} {os : List Output} {s t : State} (h : Transmits p os s t) :
    (t.link p).ack = (s.link p).ack := by
  rw [h.link]
  rfl

section
variable {s : State} {p : Nat}

/-- The announcement of idle is the last flit before the direction is quiet (R593). -/
theorem exec_idleEntry_quiet {p : Port} (hsends : (s.link p.val).sends = true)
    (hen : (s.link p.val).idleEn = true ∨ 1 ≤ s.pwr.tier) (hwait : (s.link p.val).waiting = [])
    (hun : (s.link p.val).unacked = []) :
    exec (.idleEntry p) s = .next ((s.ctrlOut p.val false none true []).modLink p.val fun l =>
      { l with txIdle := true, due := false, state := .idle }) :=
  if_pos (by simpa [hsends, hwait, hun] using hen)

/-- An ack that fell due goes out alone where no credit is to be returned (R584, R594). -/
theorem State.payDue_ack (hdue : (s.link p).due = true) (hsends : (s.link p).sends = true)
    (hfreed : (s.link p).freed = []) :
    s.payDue p = (s.modLink p fun l => { l with due := false }).ctrlOut p false none false [] := by
  have hctrl := Transmits.ctrlOut p false none false [] (s.modLink p fun l => { l with due := false })
  have hlinks : (((s.modLink p fun l => { l with due := false }).ctrlOut p false none false []).link p).freed = [] := by
    rw [hctrl.link_of_modLink]
    exact hfreed
  have hs : ((s.modLink p fun l => { l with due := false }).link p).sends = true := by
    rw [State.link_modLink]
    exact hsends
  unfold State.payDue
  rw [if_neg (by simp [hdue])]
  dsimp only
  rw [State.sendCtrl_sends hs, hlinks]
  rfl

/-- The direction is awake again: the state from which a burst goes out. -/
def State.wake (s : State) (p : Nat) : State :=
  s.modLink p fun l => { l with txIdle := false, state := if l.rxIdle then l.state else .active }

/-- Where an ack alone is due, the burst and the ack are all that leaving idle sends. -/
theorem State.leaveIdle_ack (htx : (s.link p).txIdle = true) (hdue : (s.link p).due = true)
    (hwait : (s.link p).waiting = []) (hfreed : (s.link p).freed = []) (hrx : (s.link p).rxIdle = false) :
    s.leaveIdle p =
      (((s.wake p).sendBurst p).modLink p fun l => { l with due := false }).ctrlOut p false none false [] := by
  have hburst : (((s.wake p).sendBurst p).link p) = _ := (Transmits.sendBurst p (s.wake p)).link_of_modLink
  have hpay : ((s.wake p).sendBurst p).payDue p = _ :=
    State.payDue_ack (by rw [hburst]; exact hdue) (by rw [hburst]; simp [Link.sends, hrx])
      (by rw [hburst]; exact hfreed)
  have hempty : ((((s.wake p).sendBurst p).payDue p).link p).waiting = [] := by
    rw [hpay, (Transmits.ctrlOut p false none false [] _).link_of_modLink, hburst]
    exact hwait
  unfold State.leaveIdle
  rw [if_neg (by simp [htx])]
  exact (State.linkPump_idle hempty).trans hpay

end

theorem exec_idleExit_due {s : State} {p : Port} (htx : (s.link p.val).txIdle = true)
    (hdue : (s.link p.val).due = true) : exec (.idleExit p) s = .next (s.leaveIdle p.val) :=
  if_pos (by simp [htx, hdue])

theorem exec_tsExit_idle {s : State} {p : Port} (hidle : (s.link p.val).state = .idle)
    (hrx : (s.link p.val).rxIdle = true) :
    let u := (s.modLink p.val fun l =>
      { l with rxIdle := false, state := if l.txIdle then .idle else .active }).loadScramblers p.val false true
    exec (.tsExit p) s = .next (if (u.unlocked p.val).isEmpty then u else u.lanesFail p.val (u.unlocked p.val)) :=
  if_pos (by simp [hidle, hrx])

/-- A burst, the fillers after it and the announcement of idle (R595). -/
theorem Transmits.idleBurst (s : State) (p : Nat) :
    Transmits p [.ctrl p (s.link p).ack false none true [], .burst p] s
      (((List.range 500).foldl (fun s _ => s.sendFiller p) (s.sendBurst p)).ctrlOut p false none true []) := by
  have hquiet := (Transmits.sendBurst p s).trans
    (Transmits.foldl_quiet (fun s (_ : Nat) => Transmits.sendFiller p s) (List.range 500) _)
  have hall := hquiet.trans (Transmits.ctrlOut p false none true [] _)
  rw [hquiet.ack_eq] at hall
  exact hall

theorem exec_idleBurst_idle {s : State} {p : Port} (htx : (s.link p.val).txIdle = true) :
    exec (.idleBurst p) s = .next (((List.range 500).foldl (fun s _ => s.sendFiller p.val)
      (s.sendBurst p.val)).ctrlOut p.val false none true []) := if_pos htx

/-- Settles O48: each command's case of a flit, a replay or a change of idle has its rule above, and what goes out
meanwhile changes of the link only the count since the last FILLER. -/
theorem linkFlits : Obligations.LinkFlits := by
  refine ⟨fun s p lanes a hdr body places hrecv hgood hkind hu => ⟨fun hd => ?_, fun hd => ?_, fun hpos hd => ?_⟩,
    fun s p lanes a hrecv hok hfit harr => ⟨exec_dataFlit_bad hrecv hok hfit harr,
      exec_ctrlFlit_bad hrecv hok hfit harr, exec_filler_bad hrecv hok hfit harr⟩,
    fun s p lanes a hdr body places hrecv hgood hkind => exec_filler_good hrecv hgood hkind,
    fun s p lanes a hdr body places hrecv hgood hkind => exec_ctrlFlit_good hrecv hgood hkind,
    fun s p hheld => State.sendNak_held hheld, fun s p f fs hrecv hun hrun => ?_,
    fun s p hsends hen hwait hun => ?_, fun s p htx hdue hwait hfreed hrx => ?_, fun s p htx => ?_,
    fun s p hidle hrx => ⟨fun hall => ?_, fun hsome => ?_⟩⟩
  · exact (exec_dataFlit_good hrecv hgood hkind).trans (congrArg Host.Outcome.next (State.dataIn_expected hu hd body))
  · exact (exec_dataFlit_good hrecv hgood hkind).trans (congrArg Host.Outcome.next (State.dataIn_seen hu hd body))
  · exact (exec_dataFlit_good hrecv hgood hkind).trans (congrArg Host.Outcome.next (State.dataIn_gap hu hpos hd body))
  · have hsent := Transmits.foldl (Transmits.sendData p.val) (f :: fs) (s.modLink p.val fun l =>
      { l with replays := wrapAdd 24 l.replays 1, replayRun := 1, replayAt := f.seq })
    exact ⟨_, (exec_retryTimeout_receives hrecv).trans
        (congrArg Host.Outcome.next (State.replayFlits_first hun hrun)),
      hsent.tells, hsent.link_of_modLink,
      fun q hq => (hsent.others q hq).trans (State.link_modLink_ne s p.val q _ hq)⟩
  · have hsent := Transmits.ctrlOut p.val false none true [] s
    refine ⟨_, exec_idleEntry_quiet hsends hen hwait hun, ?_, hsent.tells, State.eq_with_wire hsent.offWire⟩
    rw [State.link_modLink, hsent.link]
  · have hburst := Transmits.sendBurst p.val (s.wake p.val)
    have hctrl := Transmits.ctrlOut p.val false none false []
      (((s.wake p.val).sendBurst p.val).modLink p.val fun l => { l with due := false })
    refine ⟨_, (exec_idleExit_due htx hdue).trans
      (congrArg Host.Outcome.next (State.leaveIdle_ack htx hdue hwait hfreed hrx)), ?_, ?_⟩
    · rw [hctrl.link_of_modLink, hburst.link_of_modLink]
      simp [hrx]
    · rw [hctrl.tells, State.link_modLink, hburst.link_of_modLink, State.modLink_outputs, hburst.tells, State.wake,
        State.modLink_outputs]
      rfl
  · have hsent := Transmits.idleBurst s p.val
    exact ⟨_, exec_idleBurst_idle htx, hsent.link, hsent.tells, State.eq_with_wire hsent.offWire⟩
  · exact (exec_tsExit_idle hidle hrx).trans (congrArg Host.Outcome.next (if_pos (List.isEmpty_iff.mpr hall)))
  · exact (exec_tsExit_idle hidle hrx).trans
      (congrArg Host.Outcome.next (if_neg fun hempty => hsome (List.isEmpty_iff.mp hempty)))

end Sys2Proof.Machine
end

section
/-! PROOFS. Training, the states of a port, and its lane mask. -/

namespace Sys2Proof.Machine

open Sys2Proof.Slice0

/-! ### Training (R565, R567) -/

section
variable {s : State} {p : Port}

/-- The first lane to lock ends step 1 for the whole port (R565; log 32). -/
theorem exec_cdrLock_first {i : LaneNo} (huse : s.laneUsable p.val i.val = true) (hstep : (s.link p.val).trainStep = 1)
    (hfull : (s.link p.val).state ≠ .retrain) :
    exec (.cdrLock p i) s =
      .next ((s.modLane p.val i.val fun x => { x with signal := true, cdrLock := true }).toStep p.val 2) :=
  (if_neg (by simp [huse, hstep, hfull])).trans (congrArg Host.Outcome.next (if_pos hstep))

theorem exec_step1NoSignal_disabled (hstep : (s.link p.val).trainStep = 1) (hstate : (s.link p.val).state = .disabled) :
    exec (.step1NoSignal p) s = .next (s.modLink p.val fun l => { l with trainStep := 0 }) :=
  (if_neg (by simp [hstep])).trans (if_pos (by simp [hstate]))

theorem exec_step1NoSignal_fails (hstep : (s.link p.val).trainStep = 1) (hstate : (s.link p.val).state ≠ .disabled) :
    exec (.step1NoSignal p) s = .next (s.trainFailed p.val) :=
  (if_neg (by simp [hstep])).trans (if_neg (by simp [hstate]))

theorem exec_ts1_good {i : LaneNo} {f : Header} (hok : frameOk f = true) (htype : frameByte f 8 = 1)
    (hlane : frameByte f 9 % 8 = i.val) (huse : s.laneUsable p.val i.val = true)
    (hstate : (s.link p.val).state = .training)
    (hstep : (s.link p.val).trainStep = 2 ∨ (s.link p.val).trainStep = 3 ∨ (s.link p.val).trainStep = 4)
    (inv : Bool) (ctle : Nat) : exec (.ts1 p i f inv ctle) s = .next (s.ts1Good p.val i.val f inv ctle) := by
  have hrecv : (s.link p.val).receives = false := by simp [Link.receives, hstate]
  have hlow : ¬ (s.link p.val).trainStep < 2 := by omega
  have hhigh : ¬ 4 < (s.link p.val).trainStep := by omega
  show execTs1 p i f inv ctle s = _
  simp [execTs1, hok, htype, hlane, huse, hrecv, hlow, hhigh]

/-- In the window of step 4 no usable lane lost its lock or had more than four bad frames. -/
def State.windowGood (s : State) (p : Nat) : Prop :=
  ∀ i, i < 8 → s.laneUsable p i = true → (s.lane p i).badFrames ≤ 4 ∧ (s.lane p i).cdrLock = true

/-- After a good window no lane fails, and what follows depends on the port's state and its lanes alone (R565 step 4,
R774). -/
theorem exec_trainingWindowExpiry_good (hstep : (s.link p.val).trainStep = 4) (hgood : s.windowGood p.val) :
    exec (.trainingWindowExpiry p) s =
      if (s.link p.val).state == .disabled then .next (s.modLink p.val fun l => { l with trainStep := 0 })
      else if widthOf (s.laneOk p.val) = 0 then
        .next (if (s.link p.val).state == .retrain then s.goDown p.val 3 else s.trainFailed p.val)
      else .next (s.toStep p.val 5) := by
  have hnone : ((List.range 8).filter fun i => s.laneUsable p.val i && ((s.lane p.val i).badFrames > 4
      || (!((s.link p.val).state == .retrain) && !(s.lane p.val i).cdrLock))) = [] := by
    refine List.filter_eq_nil_iff.mpr fun i hi => ?_
    simp only [Bool.and_eq_true, not_and]
    intro huse
    obtain ⟨hfew, hlock⟩ := hgood i (List.mem_range.mp hi) huse
    simp [hlock, hfew]
  show execTrainingWindowExpiry p s = _
  unfold execTrainingWindowExpiry
  rw [if_neg (by simp [hstep])]
  dsimp only
  rw [hnone, State.failLanes_nil]

/-- A TS2 of the expected role and identity counts on its lane and is answered; sixteen alike on every lane of the set
start the flits (R565 steps 5 and 6, R566, R567). -/
theorem exec_ts2_fits {i : LaneNo} {f : Header} (hstep : (s.link p.val).trainStep = 5)
    (hrecv : (s.link p.val).receives = false) (hok : frameOk f = true) (htype : frameByte f 8 = 2)
    (hlane : frameByte f 9 % 8 = i.val) (huse : s.laneUsable p.val i.val = true) (hfits : s.ts2Fits p.val f = true)
    (hwidth : widthOf (BitVec.ofNat 8 (s.laneOk p.val) &&& BitVec.ofNat 8 (frameByte f 19)).toNat ≠ 0) :
    let ok := (BitVec.ofNat 8 (s.laneOk p.val) &&& BitVec.ofNat 8 (frameByte f 19)).toNat
    let u0 := s.modLane p.val i.val fun x =>
      { x with ts2Run := if x.ts2Last == f && 1 ≤ x.ts2Run then x.ts2Run + 1 else 1, ts2Last := f }
    let u := u0.sendFrames p.val 2 [i.val]
    exec (.ts2 p i f) s = .next (if (widthLanes (widthOf ok)).all fun j => 16 ≤ (u.lane p.val j).ts2Run
      then u.trained p.val f ok else u) := by
  intro ok u0 u
  show execTs2 p i f s = _
  unfold execTs2
  dsimp only
  rw [if_neg (by simp [hrecv]), if_neg (by simp [hstep, hok, htype, hlane, huse]), if_neg (by simp [hfits]),
    if_neg hwidth]
  exact (apply_ite Host.Outcome.next _ _ _).symm

end

/-! ### Failed lanes, a dead partner and DOWN ports (R597, R601, R603) -/

section
variable {s : State} {p : Port}

theorem exec_laneCdrLoss_receives {i : LaneNo} (huse : s.laneUsable p.val i.val = true)
    (hrecv : (s.link p.val).receives = true) :
    exec (.laneCdrLoss p i) s = .next (if (s.link p.val).rxIdle
      then s.modLane p.val i.val fun x => { x with cdrLock := false }
      else (s.modLane p.val i.val fun x => { x with cdrLock := false }).lanesFail p.val [i.val]) :=
  if_neg (by simp [huse, hrecv])

theorem exec_laneSerExceeded_receives {i : LaneNo} (huse : s.laneUsable p.val i.val = true)
    (hrecv : (s.link p.val).receives = true) : exec (.laneSerExceeded p i) s = .next (s.lanesFail p.val [i.val]) :=
  if_pos (by simp [huse, hrecv])

theorem exec_deadTimerExpiry_awake (hcarries : linkCarries (s.link p.val) = true)
    (hrx : (s.link p.val).rxIdle = false) : exec (.deadTimerExpiry p) s = .next (s.goDown p.val 1) :=
  if_pos (by simp [hcarries, hrx])

theorem Link.mayRetry_down {l : Link} (hdown : l.state = .down) (hfree : l.trainRefused = false) :
    l.mayRetry = true := by
  simp [Link.mayRetry, hdown, hfree]

/-- A retrain that failed short of the fourth in a row starts again (R601). -/
theorem State.link_failedRetrain {s : State} {p : Nat} (h : (s.link p).retrainFails < 3) :
    (s.failedRetrain p).link p = { s.link p with
      state := .retrain, trainStep := 2, retrains := satAdd 16 (s.link p).retrains 1, txIdle := false, rxIdle := false
      replayRun := 0, retrainFails := (s.link p).retrainFails + 1 } := by
  unfold State.failedRetrain
  dsimp only
  rw [State.link_modLink, if_neg (by dsimp only; omega), State.link_startRetrain, State.link_modLink]

theorem exec_retrainBoundExpiry_retrain (hstate : (s.link p.val).state = .retrain) :
    exec (.retrainBoundExpiry p) s = .next (s.failedRetrain p.val) := if_pos (by simp [hstate])

end

/-! ### RETRAIN, RESTORE and the lane mask (R604, R605) -/

theorem State.doRetrain_carries {s : State} {p : Nat}
    (h : (s.link p).state = .active ∨ (s.link p).state = .idle) : s.doRetrain p = s.startRetrain p := by
  unfold State.doRetrain
  rcases h with h | h <;> rw [h]

theorem State.doRetrain_expelled {s : State} {p : Nat} (h : (s.link p).state = .expelled) :
    s.doRetrain p = s.linkRefused p := by
  unfold State.doRetrain
  rw [h]

theorem State.doRestore_expelled {s : State} {p : Nat} (h : (s.link p).state = .expelled) :
    s.doRestore p = s.linkRefused p := if_pos (by simp [h])

/-- A training that runs goes on, with no lane failed and nothing counted against the port (R604, R611). -/
theorem State.doRestore_training {s : State} {p : Nat} (h : (s.link p).state = .training) :
    s.doRestore p = ((s.modLanes p fun _ x => { x with failed := false }).modLink p fun l =>
      { l with flaps := 0, attempts := 0 }) := by
  unfold State.doRestore
  dsimp only
  rw [if_neg (by simp [h]), if_pos (by simp [h])]

theorem State.laneMask_doLaneMask {s : State} (hstate : s.ctl.state = .service) (p : Nat) (mask : BitVec 8) :
    ((s.doLaneMask p mask).link p).laneMask = mask := by
  unfold State.doLaneMask
  dsimp only
  rw [if_neg (by simp [hstate])]
  split
  · rw [State.laneMask_startTraining, State.link_modLink]
  · rw [State.link_modLink]

/-- Unless its training was refused, the port only notes the mask, for its next training (R567, R605). -/
theorem State.doLaneMask_noted {s : State} {p : Nat} (hstate : s.ctl.state = .service)
    (hfree : (s.link p).trainRefused = false) (mask : BitVec 8) :
    s.doLaneMask p mask = s.modLink p fun l => { l with laneMask := mask } := by
  unfold State.doLaneMask
  dsimp only
  rw [if_neg (by simp [hstate]), if_neg (by simp [hfree])]

theorem State.doLaneMask_refused {s : State} (hstate : s.ctl.state ≠ .service) (p : Nat) (mask : BitVec 8) :
    s.doLaneMask p mask = s.linkRefused p := if_pos (by simp [hstate])

section
variable {s u : State} {p : Port} (hopen : s.pageOpen p.val = true)
include hopen

theorem exec_retrain_open (h : s.doRetrain p.val = u) : exec (.retrain p) s = .next u :=
  (if_pos hopen).trans (congrArg Host.Outcome.next h)

theorem exec_restore_open (h : s.doRestore p.val = u) : exec (.restore p) s = .next u :=
  (if_pos hopen).trans (congrArg Host.Outcome.next h)

theorem exec_laneMaskWrite_open {mask : BitVec 8} (h : s.doLaneMask p.val mask = u) :
    exec (.laneMaskWrite p mask) s = .next u :=
  (if_pos hopen).trans (congrArg Host.Outcome.next h)

end

/-- Settles O49: the steps of training one by one, the ends of a training, and the actions on a port whose page is
open. -/
theorem linkStates : Obligations.LinkStates := by
  refine ⟨fun s p i huse hstep hfull => ?_,
    fun s p hstep => ⟨exec_step1NoSignal_disabled hstep, fun hstate hfew => ?_⟩,
    fun s p i f inv ctle hok htype hlane huse hstate hstep =>
      exec_ts1_good hok htype hlane huse hstate hstep inv ctle,
    fun s p hstep hstate hgood => (exec_trainingWindowExpiry_good hstep hgood).trans (if_pos (by simp [hstate])),
    fun s p hstep hstate hwidth hgood => ?_,
    fun s p i f hstep hrecv hok htype hlane huse hfits hwidth =>
      exec_ts2_fits hstep hrecv hok htype hlane huse hfits hwidth,
    fun s p i huse hrecv => ⟨fun hrx => ?_, fun hrx => ?_, exec_laneSerExceeded_receives huse hrecv⟩,
    fun s p hcarries hrx => exec_deadTimerExpiry_awake hcarries hrx,
    fun s p hdown hfree => ⟨if_pos (Link.mayRetry_down hdown hfree), fun i hbit => ?_⟩,
    fun s p hstate hfew => ?_,
    fun s p hopen => ⟨fun hcarries => ?_,
      fun hout => ⟨exec_retrain_open hopen (State.doRetrain_expelled hout),
        exec_restore_open hopen (State.doRestore_expelled hout)⟩,
      fun htrain => ?_,
      fun mask hserv hfree => exec_laneMaskWrite_open hopen (State.doLaneMask_noted hserv hfree mask),
      fun mask hserv => ⟨_, exec_laneMaskWrite_open hopen rfl, State.laneMask_doLaneMask hserv p.val mask⟩,
      fun mask hother => exec_laneMaskWrite_open hopen (State.doLaneMask_refused hother p.val mask)⟩⟩
  · refine ⟨_, exec_cdrLock_first huse hstep hfull, ?_, ?_, ?_, ?_, State.told_toStep _ _ _⟩
    · rw [State.link_toStep]
    · rw [State.link_toStep, State.link_modLane]
    · rw [State.lane_toStep_two _ _ i.isLt, State.lane_modLane]
    · rw [State.lane_toStep_two _ _ i.isLt, State.lane_modLane]
  · have hlink := State.link_trainFailed hfew
    exact ⟨_, exec_step1NoSignal_fails hstep hstate, congrArg Link.state hlink, congrArg Link.attempts hlink,
      congrArg Link.trainStep hlink⟩
  · have hlink := s.link_toStep p.val 5
    exact ⟨_, (exec_trainingWindowExpiry_good hstep hgood).trans
        ((if_neg (by simp [hstate])).trans (if_neg hwidth)),
      congrArg Link.trainStep hlink, (congrArg Link.state hlink).trans hstate⟩
  · exact (exec_laneCdrLoss_receives huse hrecv).trans (congrArg Host.Outcome.next (if_neg (by simp [hrx])))
  · exact (exec_laneCdrLoss_receives huse hrecv).trans (congrArg Host.Outcome.next (if_pos hrx))
  · exact if_pos (by simp [Link.mayRetry_down hdown hfree, hbit])
  · have hlink := State.link_failedRetrain hfew
    exact ⟨_, exec_retrainBoundExpiry_retrain hstate, congrArg Link.state hlink, congrArg Link.trainStep hlink,
      congrArg Link.retrainFails hlink⟩
  · have hlink := s.link_startRetrain p.val
    exact ⟨_, exec_retrain_open hopen (State.doRetrain_carries hcarries), congrArg Link.state hlink,
      congrArg Link.trainStep hlink, (congrArg Link.unacked hlink :), (congrArg Link.waiting hlink :)⟩
  · refine ⟨_, exec_restore_open hopen (State.doRestore_training htrain), ?_, ?_, ?_, fun i hi => ?_⟩
    · rw [State.link_modLink]
    · rw [State.link_modLink]
    · rw [State.link_modLink, State.modLanes_link]
      exact htrain
    · rw [State.lane_modLink, State.lane_modLanes _ _ _ _ hi]

end Sys2Proof.Machine
end

section
/-! SUPPORT. Shared rules for galleries: folds that establish a fact, what an end-point's requests leave alone when they
end, and contexts that are bound and released. -/

namespace Sys2Proof.Machine

/-! ### Folds -/

/-- A fold in which each element's own step establishes a fact that no other step undoes. -/
theorem foldl_establishes {α : Type} {P : State → α → Prop} {f : State → α → State} (hmake : ∀ s x, P (f s x) x)
    (hkeep : ∀ s x y, P s y → P (f s x) y) {l : List α} {x : α} (hx : x ∈ l) (s : State) : P (l.foldl f s) x := by
  induction l generalizing s with
  | nil => exact absurd hx List.not_mem_nil
  | cons y l ih =>
    rcases List.mem_cons.mp hx with rfl | hx
    · exact List.foldlRecOn (motive := fun s => P s x) l f (hmake s x) fun s hs y _ => hkeep s y x hs
    · exact ih hx _

/-! ### What records and completions leave alone -/

theorem State.ctx_of_ctxs_eq {s t : State} (h : t.ctxs = s.ctxs) (c : Nat) : t.ctx c = s.ctx c :=
  congrArg (Tab.get Ctx.reset · c) h

theorem Narrow.ctx_eq {s t : State} (h : Narrow s t) (c : Nat) : t.ctx c = s.ctx c := State.ctx_of_ctxs_eq h.ctxs_eq c

theorem State.ctx_modGal (s : State) (g : Nat) (f : Gallery → Gallery) (c : Nat) : (s.modGal g f).ctx c = s.ctx c := rfl

theorem Narrow.gal_eq {s t : State} (h : Narrow s t) (g : Nat) : t.gal g = s.gal g :=
  congrArg (Tab.get Gallery.reset · g) h.gals_eq

/-- A change of a gallery's state, with its records, changes the state field of that gallery (R678). -/
theorem State.gal_setGalState (s : State) (g : Nat) (st : GalState) (cause : Nat) :
    (s.setGalState g st cause).gal g = { s.gal g with state := st } :=
  ((s.setGalState_narrow g st cause).gal_eq g).trans (s.gal_modGal g _)

/-! ### Requests of an end-point that end (R61, R442) -/

theorem State.ctxs_eq_of_offWire {t u : State} (h : t.offWire = u.offWire) : t.ctxs = u.ctxs :=
  (congrArg State.ctxs h :)

theorem State.ctxs_linkSend (s : State) (p vc cls : Nat) (hdr : Header) (payload tag : Bytes) :
    (s.linkSend p vc cls hdr payload tag).ctxs = s.ctxs :=
  State.ctxs_eq_of_offWire (s.offWire_linkSend p vc cls hdr payload tag)

theorem State.ctxs_sendEp (s : State) (p gal : Nat) (e : EHdr) (payload : Bytes) :
    (s.sendEp p gal e payload).ctxs = s.ctxs := by
  unfold State.sendEp
  split
  · rfl
  · split
    · rfl
    · exact State.ctxs_linkSend _ _ _ _ _ _ _

theorem State.ctxs_epComplete (s : State) (p gal : Nat) (e : EHdr) (status : Nat) (payload : Bytes) :
    (s.epComplete p gal e status payload).ctxs = s.ctxs := by
  refine (State.ctxs_sendEp _ _ _ _ _).trans ?_
  split <;> rfl

theorem State.ctxs_endStream (s : State) (p : Nat) (st : Stream) : (s.endStream p st).ctxs = s.ctxs := rfl

theorem State.ctxs_finishReq (s : State) (p : Nat) (q : EpReq) (status : Nat) (payload : Bytes) :
    (s.finishReq p q status payload).ctxs = s.ctxs :=
  (State.ctxs_epComplete _ _ _ _ _ _).trans ((State.ctxs_endStream _ _ _).trans (s.modDocent_ctxs p _))

theorem State.ctxs_endCtxRequests (s : State) (c : Nat) : (s.endCtxRequests c).ctxs = s.ctxs :=
  foldl_same State.ctxs _ (fun s q => s.ctxs_finishReq _ q _ _) _ _

/-! ### Contexts (R27, R159, R160) -/

/-- An unbound context keeps the status, the pc and the count of its last tours (R159, R160). -/
def Ctx.released (c : Ctx) : Ctx :=
  { Ctx.reset with lastStatus := c.lastStatus, pc := c.pc, toursEnded := c.toursEnded }

theorem State.ctx_unbind (s : State) (c : Nat) : (s.unbind c).ctx c = (s.ctx c).released :=
  s.ctx_modCtx c Ctx.released

/-- Of some contexts, each is released, and a context that is not listed stays. -/
theorem State.ctx_release_foldl (gs : List Nat) (s : State) (c : Nat) :
    (gs.foldl (fun s g => (s.endCtxRequests g).unbind g) s).ctx c
      = if c ∈ gs then (s.ctx c).released else s.ctx c := by
  induction gs generalizing s with
  | nil => rfl
  | cons g gs ih =>
    have hends : (s.endCtxRequests g).ctx c = s.ctx c := State.ctx_of_ctxs_eq (s.ctxs_endCtxRequests g) c
    rw [List.foldl_cons, ih]
    by_cases hc : c = g
    · subst hc
      rw [State.ctx_unbind, hends, if_pos List.mem_cons_self]
      exact ite_self _
    · have hother : ((s.endCtxRequests g).unbind g).ctx c = s.ctx c :=
        (State.ctx_modCtx_ne _ _ _ _ hc).trans hends
      rw [hother]
      simp [hc]

/-- The context `c` is bound to the gallery `g`. -/
def State.boundTo (s : State) (g c : Nat) : Prop := (s.ctx c).bound = true ∧ (s.ctx c).gal = g

theorem State.boundTo_bind (s : State) (c g pasid : Nat) : (s.bind c g pasid).boundTo g c := by
  unfold State.boundTo State.bind
  rw [State.ctx_modCtx]
  exact ⟨rfl, rfl⟩

theorem State.boundTo_bind_other {s : State} {d g : Nat} (h : s.boundTo g d) (c pasid : Nat) :
    (s.bind c g pasid).boundTo g d := by
  by_cases hd : d = c
  · exact hd ▸ s.boundTo_bind c g pasid
  · have hctx : (s.bind c g pasid).ctx d = s.ctx d := State.ctx_modCtx_ne _ _ _ _ hd
    unfold State.boundTo
    rwa [hctx]

end Sys2Proof.Machine
end

section
/-! PROOFS. Accession, G0's resources and their release. -/

namespace Sys2Proof.Machine

open Sys2Proof.Slice0

/-! ### Accession (R631, R632) -/

/-- The state without the records in which a gallery's resources are held. -/
def State.offGallery (s : State) : State :=
  { s with fns := [], docents := [], ctxs := [], gals := [], sos := [], vault := Vault.reset }

theorem State.eq_of_offGallery {t u : State} (h : t.offGallery = u.offGallery) :
    t.ctl = u.ctl ∧ t.flash = u.flash ∧ t.cat = u.cat ∧ t.sec = u.sec :=
  ⟨(congrArg State.ctl h :), (congrArg State.flash h :), (congrArg State.cat h :), (congrArg State.sec h :)⟩

theorem State.offGallery_extWrite (s : State) (g i : Nat) (v : Word) :
    (s.extWrite g i v).offGallery = s.offGallery := by
  rw [State.extWrite_eq]
  rfl

theorem State.offGallery_applyRegs (s : State) (g : Nat) (a : AccBlock) (b : Bytes) :
    (s.applyRegs g a b).offGallery = s.offGallery := by
  unfold State.applyRegs
  refine (foldl_same State.offGallery _ (fun s _ => s.offGallery_extWrite g _ _) _ _).trans ?_
  exact (foldl_same State.offGallery _ (fun _ _ => by rfl) a.portList _).trans rfl

theorem State.offGallery_takeSlots (s : State) (p g n : Nat) : (s.takeSlots p g n).offGallery = s.offGallery := by
  unfold State.takeSlots
  exact foldl_same State.offGallery _ (fun _ _ => by rfl) _ _

/-- Accession changes nothing but the records in which the gallery's resources are held. -/
theorem State.offGallery_doAccession (s : State) (a : AccBlock) (b : Bytes) :
    (s.doAccession a b).offGallery = s.offGallery := by
  show State.offGallery (a.ctxs.foldl _ (a.sos.foldl _ (a.portList.foldl _ (s.applyRegs a.gallery a b)))) = _
  refine (foldl_same State.offGallery _ (fun _ _ => by rfl) a.ctxs _).trans ?_
  refine (foldl_same State.offGallery _ (fun _ _ => by rfl) a.sos _).trans ?_
  exact (foldl_same State.offGallery _ (fun s p => s.offGallery_takeSlots p _ _) _ _).trans
    (s.offGallery_applyRegs _ _ _)

theorem State.fn_doAccession (s : State) (a : AccBlock) (b : Bytes) :
    ((s.doAccession a b).gal a.gallery).fn = a.vf := by
  unfold State.doAccession
  rw [State.gal_modGal]

/-- Accession binds every listed context to the gallery (R632 step 4). -/
theorem State.boundTo_doAccession (s : State) (a : AccBlock) (b : Bytes) {e : Nat × Nat × Nat} (he : e ∈ a.ctxs) :
    (s.doAccession a b).boundTo a.gallery (ctxIdx e.1 e.2.1) :=
  foldl_establishes (P := fun s (e : Nat × Nat × Nat) => s.boundTo a.gallery (ctxIdx e.1 e.2.1))
    (f := fun s e => s.bind (ctxIdx e.1 e.2.1) a.gallery e.2.2)
    (fun s x => s.boundTo_bind _ _ x.2.2) (fun _ x _ h => State.boundTo_bind_other h _ x.2.2) he _

/-- The records of an accession: its completion, and the gallery's state. -/
theorem State.accession_records_narrow (s : State) (g : Nat) (t : Taken) :
    Narrow ((s.complete t stOk 0).modGal g fun x => { x with state := .accessioned })
      ((s.complete t stOk 0).setGalState g .accessioned 1) :=
  State.setGalState_narrow _ _ _ _

section
variable {s : State} {t : Taken} {b : Bytes} (hr : Ready s t b) (hlen : 128 ≤ t.paramLen)
  (hargs : noArgs t.args = true)
include hr hlen hargs

theorem exec_galleryAccession_ready (ht : s.takenBy 0 (fun t => t.opcode == 0x10) = some t)
    (hform : blockLenOk b = true) (hzeros : blockZerosOk b = true) (hstate : s.ctl.state = .operational)
    (hcheck : s.accessionCheck (AccBlock.dec b) = none) :
    exec .galleryAccession s = .next (((s.doAccession (AccBlock.dec b) b).complete t stOk 0).setGalState
      (AccBlock.dec b).gallery .accessioned 1) := by
  refine congrArg Host.Outcome.next ((State.runPf_ready ht hr (decide_eq_true hlen) hargs
    (by simp [hform, hzeros]) (by rw [hstate]; rfl)).trans ?_)
  simp only [hcheck]

theorem exec_g0Setup_ready (ht : s.takenBy 0 (fun t => t.opcode == 0x13) = some t)
    (hform : blockLenOk b = true) (hzeros : blockZerosOk b = true) (hstate : s.ctl.state = .service)
    (hcheck : s.g0Check (AccBlock.dec b) = none) :
    exec .g0Setup s = .next ((s.doG0Setup (AccBlock.dec b) b).complete t stOk 0) := by
  refine congrArg Host.Outcome.next ((State.runPf_ready ht hr (decide_eq_true hlen) hargs
    (by simp [hform, hzeros]) (by rw [hstate]; rfl)).trans ?_)
  simp only [hcheck]

/-- A G0_RELEASE whose contexts are bound to G0 and idle frees them (R635). -/
theorem exec_g0Release_ready (ht : s.takenBy 0 (fun t => t.opcode == 0x14) = some t) (hform : releaseForm b = true)
    (hserving : s.serving = true) {es : List (Nat × Nat × Nat)} {gs : List Nat}
    (hes : es = (blockCtxs b (getLe b 0 2)).map ctxEntry) (hgs : gs = es.map fun e => ctxIdx e.1 e.2.1)
    (hsome : es ≠ []) (hfew : es.length ≤ 768) (hports : ∀ e, e ∈ es → e.1 < 48)
    (hidle : ∀ g, g ∈ gs → (s.ctx g).bound = true ∧ (s.ctx g).gal = 0 ∧ (s.ctx g).state = .idle) :
    exec .g0Release s = .next ((s.doG0Release gs).complete t stOk 0) := by
  have hranges : ¬(es.isEmpty || decide (es.length > 768) || es.any fun e => decide (e.1 ≥ 48)) = true := by
    simpa [hsome, hfew] using hports
  have hbound : ¬(gs.any fun g => !(s.ctx g).bound || (s.ctx g).gal != 0) = true := by
    simp only [List.any_eq_true, Bool.or_eq_true, not_exists, not_and]
    intro g hg
    obtain ⟨hb, hgal, -⟩ := hidle g hg
    simp [hb, hgal]
  have hquiet : ¬(gs.any fun g => (s.ctx g).state != .idle) = true := by
    simp only [List.any_eq_true, not_exists, not_and]
    intro g hg
    obtain ⟨-, -, hstate⟩ := hidle g hg
    simp [hstate]
  subst hes hgs
  exact congrArg Host.Outcome.next ((State.runPf_ready ht hr (decide_eq_true hlen) hargs hform
    (State.serving_state s hserving)).trans
      ((if_neg hranges).trans ((if_neg hbound).trans (if_neg hquiet))))

end

/-! ### The release of G0's contexts (R635) -/

theorem State.ctxs_releaseSlots (s : State) (p g : Nat) (ks : List Nat) : (s.releaseSlots p g ks).ctxs = s.ctxs :=
  foldl_same State.ctxs (fun s k => s.zeroizeSlot p k none) (fun _ _ => rfl) ks s

/-- The listed contexts are released, and every other context stays. -/
theorem State.ctx_doG0Release (s : State) (gs : List Nat) (c : Nat) :
    (s.doG0Release gs).ctx c = if c ∈ gs then (s.ctx c).released else s.ctx c := by
  refine (State.ctx_of_ctxs_eq (foldl_same State.ctxs _ (fun s p => ?_) _ _) c).trans (s.ctx_release_foldl gs c)
  split
  · rfl
  · exact s.ctxs_releaseSlots _ _ _

/-- Settles O39: each block that passes its checks selects the one branch that acts; a binding is made by its own
context's step and undone by no other, and a release is the same whether a context is listed once or more. -/
theorem galleryResources : Obligations.GalleryResources := by
  refine ⟨fun s t b ht hr hlen hargs hform hzeros hstate hcheck => ?_,
    fun s t b ht hr hlen hargs hform hzeros hstate hcheck =>
      exec_g0Setup_ready hr hlen hargs ht hform hzeros hstate hcheck,
    fun s t b ht hr hlen hargs hform hserving => ?_⟩
  · intro a
    have hdone := (s.doAccession a b).complete_narrow t stOk 0
    have hrec := (s.doAccession a b).accession_records_narrow a.gallery t
    obtain ⟨hctl, hflash, hcat, hsec⟩ := State.eq_of_offGallery (s.offGallery_doAccession a b)
    have hgal := State.gal_setGalState ((s.doAccession a b).complete t stOk 0) a.gallery .accessioned 1
    refine ⟨_, exec_galleryAccession_ready hr hlen hargs ht hform hzeros hstate hcheck, congrArg Gallery.state hgal, ?_,
      fun e he => ?_, ?_, ?_, ?_, ?_⟩
    · rw [hgal, hdone.gal_eq]
      exact s.fn_doAccession a b
    · rw [hrec.ctx_eq, State.ctx_modGal, hdone.ctx_eq]
      exact s.boundTo_doAccession a b he
    · rw [hrec.ctl_eq, State.modGal_ctl, hdone.ctl_eq, hctl]
    · rw [hrec.flash_eq, State.modGal_flash, hdone.flash_eq, hflash]
    · rw [hrec.cat_eq, State.modGal_cat, hdone.cat_eq, hcat]
    · rw [hrec.sec_eq, State.modGal_sec, hdone.sec_eq, hsec]
  · intro es gs hsome hfew hports hidle
    have hctx (c : Nat) : ((s.doG0Release gs).complete t stOk 0).ctx c = _ :=
      ((State.complete_narrow _ t stOk 0).ctx_eq c).trans (s.ctx_doG0Release gs c)
    exact ⟨_, exec_g0Release_ready hr hlen hargs ht hform hserving rfl rfl hsome hfew hports hidle,
      fun g hg => (hctx g).trans (if_pos hg), fun g hg => (hctx g).trans (if_neg hg)⟩

end Sys2Proof.Machine
end

section
/-! PROOFS. Deaccession. -/

namespace Sys2Proof.Machine

open Sys2Proof.Slice0

/-! ### The command (R672, R679) -/

/-- A GALLERY_DEACCESSION that names a gallery that is not FREE starts its deaccession. -/
theorem exec_galleryDeaccession_ready {s : State} {t : Taken} {b : Bytes}
    (ht : s.takenBy 0 (fun t => t.opcode == 0x11) = some t) (hr : Ready s t b) (hlen : t.paramLen = 0)
    (hgal : argLe t.args 16 1 < 64) (hargs : argZeroFrom t.args 17 = true)
    (hstate : s.ctl.state = .operational ∨ s.ctl.state = .drain) (htenant : argLe t.args 16 1 ≠ 0)
    (hheld : (s.gal (argLe t.args 16 1)).state ≠ .free) :
    exec .galleryDeaccession s = .next (s.deaccStart (argLe t.args 16 1) 1 (some t)) := by
  have hmay : [ModState.operational, .drain].contains s.ctl.state = true := by
    rcases hstate with h | h <;> rw [h] <;> rfl
  exact congrArg Host.Outcome.next ((State.runPf_ready ht hr (by simp [hlen]) (by simp [hgal, hargs]) rfl hmay).trans
    ((if_neg htenant).trans (if_neg (by simpa using hheld))))

/-- A command for a gallery that is being deaccessioned waits with it (R679). -/
theorem State.deaccStart_waits {s : State} {g : Nat} (h : (s.gal g).state = .deaccessioning) (cause : Nat) (t : Taken) :
    s.deaccStart g cause (some t) =
      (s.startTaken t).modGal g fun x => { x with deaccTokens := x.deaccTokens ++ [t] } := by
  refine if_pos ?_
  rw [State.gal_modGal, (s.startTaken_narrow t).gal_eq, h]
  rfl

/-! ### Steps 2 and 3 (R673) -/

/-- Steps 2 and 3 leave step 4 to come. -/
theorem State.deaccStep_deaccErase (s : State) (g : Nat) : ((s.deaccErase g).gal g).deaccStep = 4 := by
  unfold State.deaccErase
  rw [State.gal_modGal]

/-- Step 3 leaves no translation of the gallery in the card index. -/
theorem State.cidx_deaccErase (s : State) (g : Nat) : ∀ e, e ∈ (s.deaccErase g).trn.cidx → e.gal ≠ g := by
  intro e he
  obtain ⟨-, hother⟩ := List.mem_filter.mp he
  simpa using hother

/-- Step 4 begins with every shelf extent of the gallery disabled. -/
theorem State.extent_deaccErase (s : State) (g i : Nat) : (((s.deaccErase g).gal g).extent i).en = false := by
  unfold State.deaccErase
  rw [State.gal_modGal]
  refine Tab.get_mapVals_of (d := Extent.reset) (f := fun _ x => x.write false x.base x.size)
    (P := fun x => x.en = false) rfl (fun _ x => ?_) _ i
  obtain ⟨-, -, hen, -⟩ := x.write_fields false x.base x.size
  exact hen

/-! ### Steps 4 to 6 (R673) -/

/-- The gallery that step 6 frees has nothing of its own: every register of it reads as after reset (log 40). -/
theorem State.gal_deaccFree (s : State) (g : Nat) : (s.deaccFree g).gal g = Gallery.reset := by
  refine ((State.galStateRecord_narrow _ _ _ _ _).gal_eq g).trans ?_
  refine ((Narrow.foldl (fun s t => s.complete_narrow t stOk 0) _ _).gal_eq g).trans ?_
  exact Tab.get_erase_same _ _ g

/-- Settles O40: the command selects its branch by the gallery's state, and each event by the step that the gallery is
at; what a step does to the rest of the machine keeps the control record and the flash. -/
theorem deaccession : Obligations.Deaccession := by
  refine ⟨fun s t b ht hr hlen hgal hargs hstate htenant hheld => ?_, fun s g hstep hdrained => ?_,
    fun s g hstep => ?_, fun s g hstep hup => ?_⟩
  · have hexec := exec_galleryDeaccession_ready ht hr hlen hgal hargs hstate htenant hheld
    exact ⟨hexec, fun hgoes => hexec.trans (congrArg Host.Outcome.next (State.deaccStart_waits hgoes 1 t))⟩
  · have hkeeps := s.deaccErase_keeps g.val (Keeps.refl Part.all s)
    exact ⟨_, if_neg (by simp [hstep, hdrained]), s.deaccStep_deaccErase g, s.cidx_deaccErase g,
      fun i => s.extent_deaccErase g i, hkeeps.ctl rfl, hkeeps.flash rfl⟩
  · have hkeeps := State.deaccErase_keeps g.val (s.discardGal_keeps g.val (Keeps.refl Part.all s))
    exact ⟨_, if_neg (by simp [hstep]), State.deaccStep_deaccErase _ g, hkeeps.ctl rfl, hkeeps.flash rfl⟩
  · have hkeeps := State.deaccFree_keeps g.val
      (State.deaccKeys_keeps g.val (s.zeroGallery_keeps g.val (Keeps.refl Part.all s)))
    exact ⟨_, if_neg (by simp [hstep, hup]), State.gal_deaccFree _ g, hkeeps.ctl rfl, hkeeps.flash rfl⟩

end Sys2Proof.Machine
end

section
/-! PROOFS. The SPDM responder: its answers, and its sessions. -/

namespace Sys2Proof.Machine

open Sys2Proof.Slice0

/-! ### Answers (R622, R623, R625) -/

/-- While the curator runs, a request of the SPDM responder is answered (R757). -/
theorem State.answering_up {s : State} (hup : s.cur.up = true) (act : State → State) : s.answering act = act s :=
  if_pos hup

theorem State.setNegotiated_eq (s : State) (mctp v : Bool) :
    s.setNegotiated mctp v = { s with sec := { s.sec with
      negMctp := if mctp then v else s.sec.negMctp, negDoe := if mctp then s.sec.negDoe else v } } := by
  cases mctp <;> rfl

theorem exec_getVersion_up {s : State} (hup : s.cur.up = true) (mctp : Bool) :
    exec (.getVersion mctp) s = .next { s with
      sec := { s.sec with negMctp := s.sec.negMctp && !mctp, negDoe := s.sec.negDoe && mctp }
      outputs := .spdm "VERSION" [0x12] :: s.outputs } := by
  refine congrArg Host.Outcome.next ((State.answering_up hup _).trans ?_)
  rw [State.setNegotiated_eq]
  cases mctp <;> simp [State.out]

theorem exec_negotiateAlgorithms_all {s : State} (hup : s.cur.up = true) (mctp : Bool) :
    exec (.negotiateAlgorithms mctp true) s = .next { s with
      sec := { s.sec with negMctp := s.sec.negMctp || mctp, negDoe := s.sec.negDoe || !mctp }
      outputs := .spdm "ALGORITHMS" [] :: s.outputs } := by
  refine congrArg Host.Outcome.next ((State.answering_up hup _).trans ?_)
  rw [if_pos rfl, State.setNegotiated_eq]
  cases mctp <;> simp [State.out]

section
variable {s : State} {mctp : Bool} (hup : s.cur.up = true) (hneg : s.negotiated mctp = true)
include hup hneg

/-- Once algorithms have been negotiated on its transport, a request that needs them is answered. -/
theorem State.afterNegotiation_negotiated (act : State → State) : s.afterNegotiation mctp act = act s :=
  (State.answering_up hup _).trans (if_pos hneg)

theorem exec_getDigests_negotiated :
    exec (.getDigests mctp) s = .next (s.out (.spdm "DIGESTS" (1 :: natLe 48 Config.certDigest.toNat))) :=
  congrArg Host.Outcome.next (State.afterNegotiation_negotiated hup hneg _)

/-- Slot 0 holds the chain; an offset beyond it is refused. -/
theorem exec_getCertificate_slot0 (off len : Nat) :
    exec (.getCertificate mctp 0 off len) s = .next (s.out (if Config.certLen ≤ off then .spdmError "InvalidRequest"
      else .spdm "CERTIFICATE"
        ((List.range (min len (Config.certLen - off))).map fun i => Config.certByte (off + i)))) := by
  refine congrArg Host.Outcome.next ((State.afterNegotiation_negotiated hup hneg _).trans ?_)
  by_cases hoff : Config.certLen ≤ off <;> simp [hoff]

theorem exec_challenge_slot0 (nonce : Bytes) :
    exec (.challenge mctp 0 nonce) s = .next (s.draw.out (.spdm "CHALLENGE_AUTH"
      (natLe 48 Config.certDigest.toNat ++ natLe 32 (Config.nonce s.freeCtr).toNat
        ++ natLe 96 (Config.signature s.freeCtr).toNat))) :=
  congrArg Host.Outcome.next ((State.afterNegotiation_negotiated hup hneg _).trans (if_neg (by simp)))

/-- Index 0 asks for the number of the measurements (R625). -/
theorem exec_getMeasurements_number :
    exec (.getMeasurements mctp 0 false) s = .next (s.out (.spdm "MEASUREMENTS" [69])) :=
  congrArg Host.Outcome.next ((State.afterNegotiation_negotiated hup hneg _).trans (if_neg (by simp)))

theorem exec_getMeasurements_one {i : Nat} {v : Bytes} (hsome : i ≠ 0) (hone : i ≠ 0xFF)
    (hmeas : s.measurement i = some v) :
    exec (.getMeasurements mctp i false) s = .next (s.out (.spdm "MEASUREMENTS" (1 :: measBlock i v))) := by
  refine congrArg Host.Outcome.next ((State.afterNegotiation_negotiated hup hneg _).trans ?_)
  have hblock : ([i].filterMap fun i => (s.measurement i).map fun v => measBlock i v) = [measBlock i v] := by
    simp [hmeas]
  simp only [if_neg hone, if_neg hsome, hblock]
  simp [natLe]

/-- KEY_EXCHANGE begins a session that is not open, while its transport has room for one (R624). -/
theorem exec_keyExchange_room (hroom : s.sessionsOn mctp < if mctp then 2 else 64) :
    exec (.keyExchange mctp) s = .next (State.out
      { s with sec := { s.sec with
          sessions := s.sec.sessions ++ [{ id := s.sec.nextSession, mctp := mctp, open_ := false, keyPhase := 0 }]
          nextSession := s.sec.nextSession + 1 } }
      (.spdm "KEY_EXCHANGE_RSP" (natLe 4 s.sec.nextSession))) :=
  congrArg Host.Outcome.next ((State.afterNegotiation_negotiated hup hneg _).trans (if_neg (Nat.not_le.mpr hroom)))

end

/-! ### Sessions (R624, R642) -/

/-- A change of a session that keeps its number reads back. -/
theorem State.session_modSession {s : State} {id : Nat} {x : Session} (hx : s.session id = some x)
    {f : Session → Session} (hf : ∀ y, (f y).id = y.id) : (s.modSession id f).session id = some (f x) :=
  find_modifyFirst _ f (fun y hy => by rwa [hf]) _ x hx

/-- The handshake's proof opens the session (R622). -/
theorem exec_finish_proved {s : State} {id : Nat} {x : Session} (hup : s.cur.up = true) (hx : s.session id = some x)
    (hclosed : x.open_ = false) :
    exec (.finish id true) s =
      .next ((s.modSession id fun x => { x with open_ := true }).out (.spdm "FINISH_RSP" [])) := by
  refine congrArg Host.Outcome.next ((State.answering_up hup _).trans ?_)
  simp only [hx, hclosed]
  rfl

/-- A session that ends is on the list no more (R642). -/
theorem State.session_endSession (s : State) (id : Nat) : (s.endSession id).session id = none := by
  refine List.find?_eq_none.mpr fun x hx => ?_
  obtain ⟨-, hother⟩ := List.mem_filter.mp hx
  simpa using hother

/-- A session that ends controls no gallery any more (R642). -/
theorem State.gal_session_endSession (s : State) (id g : Nat) : ((s.endSession id).gal g).session ≠ some id := by
  refine Tab.get_mapVals_of (d := Gallery.reset)
    (f := fun _ x => if x.session == some id then { x with session := none } else x)
    (P := fun x => x.session ≠ some id) (by simp [Gallery.reset]) (fun _ x => ?_) s.gals g
  by_cases hx : x.session = some id <;> simp [hx]

section
variable {s : State} {id : Nat} (hup : s.cur.up = true) (hopen : s.sessionOpen id = true)
include hup hopen

/-- Inside an open session a request is answered. -/
theorem State.inSession_open (act : State → State) : s.inSession id act = act s :=
  (State.answering_up hup _).trans (if_pos hopen)

theorem exec_heartbeat_open : exec (.heartbeat id) s = .next (s.out (.spdm "HEARTBEAT_ACK" [])) :=
  congrArg Host.Outcome.next (State.inSession_open hup hopen _)

theorem exec_keyUpdate_open :
    exec (.keyUpdate id) s = .next
      ((s.modSession id fun x => { x with keyPhase := x.keyPhase + 1 }).out (.spdm "KEY_UPDATE_ACK" [])) :=
  congrArg Host.Outcome.next (State.inSession_open hup hopen _)

theorem exec_endSession_open :
    exec (.endSession id) s = .next ((s.endSession id).out (.spdm "END_SESSION_ACK" [])) :=
  congrArg Host.Outcome.next (State.inSession_open hup hopen _)

end

theorem State.sessionOpen_iff (s : State) (id : Nat) :
    s.sessionOpen id = true ↔ ∃ x, s.session id = some x ∧ x.open_ = true := by
  unfold State.sessionOpen
  cases s.session id <;> simp

/-- A key update leaves an open session open (R622). -/
theorem State.sessionOpen_modSession {s : State} {id : Nat} (hopen : s.sessionOpen id = true) {f : Session → Session}
    (hid : ∀ y, (f y).id = y.id) (hf : ∀ y, (f y).open_ = y.open_) : (s.modSession id f).sessionOpen id = true := by
  obtain ⟨x, hx, hxo⟩ := (s.sessionOpen_iff id).mp hopen
  exact (State.sessionOpen_iff _ id).mpr ⟨f x, State.session_modSession hx hid, (hf x).trans hxo⟩

/-- Settles O42: each request meets the conditions of its branch, and a change of a session is one of the list of
sessions alone, but for END_SESSION, which frees the galleries as well. -/
theorem spdmMessages : Obligations.SpdmMessages := by
  refine ⟨fun s mctp hup => ⟨exec_getVersion_up hup mctp, congrArg Host.Outcome.next (State.answering_up hup _),
      exec_negotiateAlgorithms_all hup mctp⟩,
    fun s mctp hup hneg => ⟨exec_getDigests_negotiated hup hneg, exec_getCertificate_slot0 hup hneg, fun nonce =>
      ⟨_, ?_, exec_challenge_slot0 hup hneg nonce⟩, exec_getMeasurements_number hup hneg,
      fun i v hsome hone hmeas => exec_getMeasurements_one hup hneg hsome hone hmeas, exec_keyExchange_room hup hneg⟩,
    fun s id x hup hx hclosed => ⟨_, exec_finish_proved hup hx hclosed, ?_, rfl, rfl⟩,
    fun s id hup hopen => ⟨exec_heartbeat_open hup hopen,
      ⟨_, exec_keyUpdate_open hup hopen, ?_, rfl, rfl⟩,
      _, exec_endSession_open hup hopen, s.session_endSession id, s.gal_session_endSession id, rfl⟩⟩
  · simp [natLe_length]
  · exact State.session_modSession hx (f := fun x => { x with open_ := true }) fun _ => rfl
  · exact State.sessionOpen_modSession hopen (f := fun x => { x with keyPhase := x.keyPhase + 1 }) (fun _ => rfl)
      fun _ => rfl

end Sys2Proof.Machine
end

section
/-! PROOFS. IDE key management and TDISP. -/

namespace Sys2Proof.Machine

open Sys2Proof.Slice0

/-! ### IDE key management (R660) -/

/-- A change of one function, its answer sent: the other functions and all else stay. -/
theorem State.modFn_answered (s : State) (f : Nat) (g : Fn → Fn) (o : Output) :
    let t := (s.modFn f g).out o
    t.fn f = g (s.fn f) ∧ (∀ k, k ≠ f → t.fn k = s.fn k) ∧ t = { s with fns := t.fns, outputs := o :: s.outputs } :=
  ⟨by rw [State.out_fn, State.fn_modFn], fun k hk => by rw [State.out_fn, State.fn_modFn_ne _ _ _ _ hk], rfl⟩

theorem State.modIde_answered (s : State) (f : Nat) (g : IdeStream → IdeStream) (o : Output) :
    let t := (s.modIde f g).out o
    (t.fn f).ide = g (s.fn f).ide ∧ (∀ k, k ≠ f → t.fn k = s.fn k)
      ∧ t = { s with fns := t.fns, outputs := o :: s.outputs } := by
  obtain ⟨hfn, hframe⟩ := s.modFn_answered f (fun x => { x with ide := g x.ide }) o
  exact ⟨congrArg Fn.ide hfn, hframe⟩

section
variable {s : State} {id : Nat} {x : Session} (hup : s.cur.up = true) (hx : s.session id = some x)
  (hopen : x.open_ = true) (hdoe : x.mctp = false)
include hup hx hopen hdoe

/-- In an open session on DOE an IDE_KM request is answered. -/
theorem State.ideKm_open (act : State → State) : s.ideKm (some id) act = act s := by
  refine (State.answering_up hup _).trans ?_
  simp [hx, hopen, hdoe]

theorem exec_query_open : exec (.query (some id)) s = .next (s.out (.spdm "QUERY_RESP" [64, 0])) :=
  congrArg Host.Outcome.next (State.ideKm_open hup hx hopen hdoe _)

theorem exec_keyProg_open (f : FnNo) {key : Bytes} (hkey : key.length = 32) :
    exec (.keyProg (some id) f false key) s = .next
      ((s.modIde f.val fun x => { x with key0 := key }).out (.spdm "KP_ACK" [])) :=
  (if_neg fun hother => hother hkey).trans (congrArg Host.Outcome.next (State.ideKm_open hup hx hopen hdoe _))

theorem exec_kSetGo_keyed (f : FnNo) (hkey : (s.fn f.val).ide.key0 ≠ []) :
    exec (.kSetGo (some id) f false) s = .next
      ((s.modIde f.val fun x => x.setGo false true).out (.spdm "K_GOSTOP_ACK" [])) :=
  congrArg Host.Outcome.next
    ((State.ideKm_open hup hx hopen hdoe _).trans (if_pos (by simpa [IdeStream.keyed] using hkey)))

theorem exec_kSetStop_open (f : FnNo) :
    exec (.kSetStop (some id) f true) s = .next
      ((s.modIde f.val fun x => x.setGo true false).out (.spdm "K_GOSTOP_ACK" [])) :=
  congrArg Host.Outcome.next (State.ideKm_open hup hx hopen hdoe _)

end

/-! ### TDISP (R661, R663) -/

section
variable {s : State} {f : FnNo} (hvf : f ≠ 0) (hup : s.cur.up = true)
include hvf hup

/-- A TDISP request for a virtual function is answered (R661). -/
theorem State.tdisp_vf (act : State → State) : s.tdisp f.val act = act s :=
  (State.answering_up hup _).trans (if_neg fun h => hvf (Fin.ext h))

theorem exec_getDeviceInterfaceReport_locked (htdi : (s.fn f.val).tdi = 1 ∨ (s.fn f.val).tdi = 2) :
    exec (.getDeviceInterfaceReport f) s = .next (s.out (.spdm "DEVICE_INTERFACE_REPORT" (s.tdiReport f.val))) :=
  congrArg Host.Outcome.next ((State.tdisp_vf hvf hup _).trans (if_pos (by simpa using htdi)))

/-- An unlocked TDI of a gallery that is ACCESSIONED or CLAIMED is locked. -/
theorem exec_lockInterfaceRequest_bound (hgal : (s.fn f.val).gal ≠ 0)
    (hstate : (s.gal (s.fn f.val).gal).state = .accessioned ∨ (s.gal (s.fn f.val).gal).state = .claimed)
    (htdi : (s.fn f.val).tdi = 0) :
    exec (.lockInterfaceRequest f) s = .next ((s.draw.modFn f.val fun x => { x with tdi := 1 }).out
      (.spdm "LOCK_INTERFACE_RESPONSE" (natLe 32 (Config.nonce s.freeCtr).toNat))) :=
  congrArg Host.Outcome.next ((State.tdisp_vf hvf hup _).trans (if_pos (by simpa [hgal, htdi] using hstate)))

theorem exec_startInterfaceRequest_locked (htdi : (s.fn f.val).tdi = 1) :
    exec (.startInterfaceRequest f) s = .next ((s.modFn f.val fun x => { x with tdi := 2 }).out
      (.spdm "START_INTERFACE_RESPONSE" [])) :=
  congrArg Host.Outcome.next ((State.tdisp_vf hvf hup _).trans (if_pos htdi))

/-- A TDI that stops is unlocked, or the deaccession of its gallery starts unless it runs already (R663). -/
theorem exec_stopInterfaceRequest_vf :
    exec (.stopInterfaceRequest f) s = .next ((
      if (s.fn f.val).gal = 0 then s.modFn f.val fun x => { x with tdi := 0 }
      else if (s.gal (s.fn f.val).gal).state = .deaccessioning then s
      else (s.dropTranslations (s.fn f.val).gal).deaccStart (s.fn f.val).gal 3 none).out
        (.spdm "STOP_INTERFACE_RESPONSE" [])) := by
  refine congrArg Host.Outcome.next ((State.tdisp_vf hvf hup _).trans ?_)
  simp only [beq_iff_eq]

end

/-- Settles O43: an open session on DOE, or a virtual function, reaches the command's own branch, which changes the one
function that the command names. -/
theorem ideAndTdisp : Obligations.IdeAndTdisp := by
  refine ⟨fun s id x hup hx hopen hdoe => ⟨exec_query_open hup hx hopen hdoe,
      fun f key hkey => ⟨_, exec_keyProg_open hup hx hopen hdoe f hkey, s.modIde_answered f.val _ _⟩,
      fun f hkey => ⟨_, exec_kSetGo_keyed hup hx hopen hdoe f hkey, s.modIde_answered f.val _ _⟩,
      fun f => ⟨_, exec_kSetStop_open hup hx hopen hdoe f, s.modIde_answered f.val _ _⟩⟩,
    fun s f hvf hup => ⟨congrArg Host.Outcome.next (State.tdisp_vf hvf hup _),
      congrArg Host.Outcome.next (State.tdisp_vf hvf hup _), congrArg Host.Outcome.next (State.tdisp_vf hvf hup _),
      exec_getDeviceInterfaceReport_locked hvf hup, fun hgal hstate htdi => ⟨_, _,
        exec_lockInterfaceRequest_bound hvf hup hgal hstate htdi, s.draw.modFn_answered f.val _ _⟩,
      fun htdi => ⟨_, exec_startInterfaceRequest_locked hvf hup htdi, s.modFn_answered f.val _ _⟩,
      exec_stopInterfaceRequest_vf hvf hup⟩⟩

end Sys2Proof.Machine
end

section
/-! PROOFS. Key slots and fabric secrets, of a gallery and of G0. -/

namespace Sys2Proof.Machine

open Sys2Proof.Slice0

/-! ### The effect of a key message (R640, R643 to R645, R648) -/

section
variable (s : State) (g : Nat) (m : TenantMsg)

theorem State.keyEffect_install :
    s.keyEffect 4 g m = (s.installKey m.port m.slot g (sliceB m.material 0 32)).drive m.port :=
  if_pos rfl

theorem State.keyEffect_retire : s.keyEffect 5 g m = s.retireKey m.port m.slot g :=
  (if_neg (by decide)).trans (if_pos rfl)

theorem State.keyEffect_activate : s.keyEffect 6 g m = s.activateKey m.port m.slot g :=
  (if_neg (by decide)).trans ((if_neg (by decide)).trans (if_pos rfl))

theorem State.keyEffect_root :
    s.keyEffect 7 g m = (s.installRoot g m.gen (sliceB m.material 0 48) m.lead m.period m.members).driveAll :=
  (if_neg (by decide)).trans ((if_neg (by decide)).trans ((if_neg (by decide)).trans (if_pos rfl)))

theorem State.keyEffect_step : s.keyEffect 8 g m = (s.askStep g).driveAll :=
  (if_neg (by decide)).trans ((if_neg (by decide)).trans ((if_neg (by decide)).trans ((if_neg (by decide)).trans
    (if_pos rfl))))

end

/-! ### Slots -/

@[simp] theorem State.docent_rotated (s : State) (p : Nat) : s.rotated.docent p = s.docent p := rfl

/-- An installed slot has the key, and its counters are 0 (R644). -/
theorem State.slot_installKey (s : State) (p k g : Nat) (key : Bytes) :
    ((s.installKey p k g key).docent p).slot k =
      { (s.docent p).slot k with installed := true, key := key, rxCtr := 0, txCtr := 0 } := by
  unfold State.installKey
  rw [State.docent_rotated, State.docent_modDocent]
  dsimp only
  split <;>
    exact (s.docent p).slot_modSlot k fun x => { x with installed := true, key := key, rxCtr := 0, txCtr := 0 }

theorem State.docent_installKey_ne (s : State) {p q : Nat} (hq : q ≠ p) (k g : Nat) (key : Bytes) :
    (s.installKey p k g key).docent q = s.docent q := by
  unfold State.installKey
  rw [State.docent_rotated, State.docent_modDocent_ne _ _ _ _ hq]

/-- A retired slot is zeroized, its generation is raised, and it stays its gallery's (R643). -/
theorem State.slot_retireKey (s : State) (p k g : Nat) :
    ((s.retireKey p k g).docent p).slot k =
      { installed := false, key := [], gen := (((s.docent p).slot k).gen + 1) % 65536, rxCtr := 0, txCtr := 0
        owner := some g } := by
  unfold State.retireKey State.zeroizeSlot
  rw [State.docent_rotated, State.docent_modDocent, Docent.slot_modSlot]
  rfl

theorem State.docent_retireKey_ne (s : State) {p q : Nat} (hq : q ≠ p) (k g : Nat) :
    (s.retireKey p k g).docent q = s.docent q := by
  unfold State.retireKey State.zeroizeSlot
  rw [State.docent_rotated, State.docent_modDocent_ne _ _ _ _ hq]

/-- An activated slot is the gallery's send slot (R645). -/
theorem State.docent_activateKey (s : State) (p k g : Nat) :
    (s.activateKey p k g).docent p = { s.docent p with
      sendSlot := Tab.set 0 (s.docent p).sendSlot g (k + 1)
      activated := g :: (s.docent p).activated.filter (· != g) } :=
  s.docent_modDocent p _

/-! ### Fabric secrets -/

theorem State.gal_installRoot (s : State) (g gen : Nat) (secret : Bytes) (lead period : Nat) (members : List NodeId) :
    (s.installRoot g gen secret lead period members).gal g = { s.gal g with
      root := true, gen := gen, prev := none, cur := secret, next := fabricStepSecret secret, lead := lead
      period := period, members := members, stepRun := none, stepAsked := false } :=
  s.gal_modGal g fun x =>
    { x with
      root := true, gen := gen, prev := none, cur := secret, next := fabricStepSecret secret, lead := lead
      period := period, members := members, stepRun := none, stepAsked := false }

/-- A new root leaves the gallery no pair key (R655). -/
theorem State.pairs_installRoot (s : State) (g gen : Nat) (secret : Bytes) (lead period : Nat)
    (members : List NodeId) :
    ∀ x, x ∈ (s.installRoot g gen secret lead period members).sec.pairs → x.1 ≠ g := by
  intro x hx
  obtain ⟨-, hother⟩ := List.mem_filter.mp hx
  simpa using hother

/-! ### G0_KEY (R647) -/

/-- The commands of the codes of G0_KEY. -/
abbrev g0KeyCommands : List (Instr × Nat) :=
  [(Instr.g0KeyInstall, 4), (.g0KeyRetire, 5), (.g0KeyActivate, 6), (.g0FabricRoot, 7), (.g0FabricStep, 8)]

theorem exec_g0KeyCommand {c : Instr} {code : Nat} (h : (c, code) ∈ g0KeyCommands) (s : State) :
    exec c s = .next (s.g0Key code) := by
  simp only [g0KeyCommands, List.mem_cons, Prod.mk.injEq, List.not_mem_nil, or_false] at h
  rcases h with ⟨rfl, rfl⟩ | ⟨rfl, rfl⟩ | ⟨rfl, rfl⟩ | ⟨rfl, rfl⟩ | ⟨rfl, rfl⟩ <;> rfl

/-- A G0_KEY that passes its checks has the effect of its code, and its block is zero before it completes (R621,
R647). -/
theorem State.g0Key_ready {s : State} {t : Taken} {b : Bytes} {code : Nat}
    (ht : s.takenBy 0 (fun t => t.opcode == 0x12 && leNat (s.vmBytes t.blockVpa 2) == code && t.blockIn
      && t.paramLen ≥ 128) = some t)
    (hr : Ready s t b) (hargs : noArgs t.args = true) (hserving : s.serving = true) (hlen : g0KeyLen b = true)
    (hcheck : s.g0KeyCheck (TenantMsg.dec b) = none) :
    s.g0Key code =
      ((s.keyEffect code 0 (TenantMsg.dec b)).vmZero t.blockVpa t.paramLen).complete t stOk 0 := by
  obtain ⟨hup, hrsv, -, hread⟩ := hr
  have hform : ¬(t.rsv || !noArgs t.args || !g0KeyLen b) = true := by simp [hrsv, hargs, hlen]
  refine (if_neg (by simp [hup])).trans ?_
  simp only [ht, hread, hcheck]
  exact (if_neg hform).trans (if_neg (by simp [hserving]))

/-- Settles O45: an update of a slot is one of its port alone, and of the fabric secrets one of the gallery's record and
of its pair keys; each code of G0_KEY has its own command. -/
theorem galleryKeys : Obligations.GalleryKeys := by
  refine ⟨fun s t b c code hc ht hr _ hargs hserving hlen hcheck =>
      (exec_g0KeyCommand hc s).trans (congrArg Host.Outcome.next
        (State.g0Key_ready ht hr hargs hserving hlen hcheck)),
    fun s p k g key => ⟨s.slot_installKey p k g key, rfl, fun q hq => s.docent_installKey_ne hq k g key⟩,
    fun s p k g => ⟨s.slot_retireKey p k g, rfl, fun q hq => s.docent_retireKey_ne hq k g⟩,
    fun s p k g => ?_, fun s g gen secret lead period members => ?_⟩
  · have hdoc := s.docent_activateKey p k g
    exact ⟨(congrArg (fun d => Tab.get 0 d.sendSlot g) hdoc).trans (Tab.get_set_same 0 _ g (k + 1)),
      (congrArg (Docent.slot · k) hdoc :), fun q hq => s.docent_modDocent_ne p q _ hq, rfl⟩
  · have hgal := s.gal_installRoot g gen secret lead period members
    exact ⟨congrArg Gallery.root hgal, congrArg Gallery.gen hgal, congrArg Gallery.cur hgal,
      congrArg Gallery.next hgal, congrArg Gallery.prev hgal, congrArg Gallery.lead hgal,
      congrArg Gallery.period hgal, congrArg Gallery.members hgal,
      s.pairs_installRoot g gen secret lead period members⟩

end Sys2Proof.Machine
end

section
/-! PROOFS. Tenant messages. -/

namespace Sys2Proof.Machine

open Sys2Proof.Slice0

/-! ### Checks (R884) -/

section
variable {s : State} {sid : Nat} {m : TenantMsg} (h : Heeded s sid m)
include h

theorem State.slotFits_heeded : s.slotFits m.code m.port m.slot m.gallery = true := by
  unfold State.slotFits
  by_cases h4 : m.code = 4
  · simp [h4, h.empty h4]
  by_cases h5 : m.code = 5
  · obtain ⟨hinst, hspare⟩ := h.spare h5
    simp [h5, hinst, hspare, State.isSend]
  by_cases h6 : m.code = 6
  · simp [h6, h.held h6]
  · simp [h4, h5, h6]

/-- A message that meets every condition passes checks 1 to 7. -/
theorem State.msgCheck_heeded : s.msgCheck sid m = none := by
  have hform : ¬(!msgForm m) = true := by simp [h.form]
  have hcontrols : ¬(decide (4 ≤ m.code) && (s.gal m.gallery).session != some sid
      || decide (m.code = 3) && !s.claimantSigned m) = true := by
    simpa using ⟨h.controls, h.signed⟩
  have howns : ¬(decide (4 ≤ m.code) && decide (m.code ≤ 6)
      && ((s.docent m.port).slot m.slot).owner != some m.gallery) = true := by
    simpa using h.owns
  have hstate : ¬(!msgStates m.code (s.gal m.gallery).state
      || decide (m.code = 8) && (s.gal m.gallery).lead != s.node) = true := by
    simpa [h.state] using h.lead
  have hslot : ¬(!s.slotFits m.code m.port m.slot m.gallery) = true := by simp [State.slotFits_heeded h]
  exact (if_neg hform).trans ((if_neg h.tenant).trans ((if_neg hcontrols).trans ((if_neg howns).trans
    ((if_neg hstate).trans (if_neg hslot)))))

end

/-- A message of codes 4 to 10 from a session that does not control the gallery is UNAUTHORISED (R639). -/
theorem State.msgCheck_uncontrolled {s : State} {sid : Nat} {m : TenantMsg} (hform : msgForm m = true)
    (htenant : m.gallery ≠ 0) (hcode : 4 ≤ m.code) (hother : (s.gal m.gallery).session ≠ some sid) :
    s.msgCheck sid m = some stUnauthorised :=
  (if_neg (by simp [hform])).trans ((if_neg htenant).trans (if_pos (by simp [hcode, hother])))

/-! ### Answers (R639) -/

section
variable {s : State} {m : TenantMsg} {code : Nat} (hup : s.cur.up = true) (hcode : m.code = code)
include hup hcode

/-- Outside an open session only an SPDM error goes out (R638). -/
theorem State.tenantMsg_closed {session : Option Nat} (hclosed : ∀ n, session = some n → s.sessionOpen n = false)
    (act : State → Nat → State) :
    s.tenantMsg session code m act = s.out (.spdmError "UnexpectedRequest") := by
  refine (if_neg fun hother => hother hcode).trans ((State.answering_up hup _).trans ?_)
  cases session with
  | none => rfl
  | some n => exact if_pos (by simp [hclosed n rfl])

variable {sid : Nat} (hopen : s.sessionOpen sid = true)
include hopen

theorem State.tenantMsg_heeded (h : Heeded s sid m) (act : State → Nat → State) :
    s.tenantMsg (some sid) code m act = act s sid := by
  refine (if_neg fun hother => hother hcode).trans ((State.answering_up hup _).trans ((if_neg (by simp [hopen])).trans ?_))
  rw [State.msgCheck_heeded h]

theorem State.tenantMsg_refused {status : Nat} (h : s.msgCheck sid m = some status) (act : State → Nat → State) :
    s.tenantMsg (some sid) code m act = s.tenantAnswer m status [] := by
  refine (if_neg fun hother => hother hcode).trans ((State.answering_up hup _).trans ((if_neg (by simp [hopen])).trans ?_))
  rw [h]

end

theorem answered_ok {u : State} {m : TenantMsg} {gen : Nat} (h : u.msgGen m = gen) (entries : Bytes) :
    Answered m u (u.tenantAnswer m stOk entries) stOk gen entries := by
  subst h
  rfl

/-- An answer that fails shows generation 0 (log 105). -/
theorem answered_failed (u : State) (m : TenantMsg) {status : Nat} (h : status ≠ stOk) (entries : Bytes) :
    Answered m u (u.tenantAnswer m status entries) status 0 entries := by
  unfold State.tenantAnswer
  rw [if_neg h]
  rfl

theorem State.msgGen_slot (u : State) {m : TenantMsg} (hlo : 4 ≤ m.code) (hhi : m.code ≤ 6) :
    u.msgGen m = ((u.docent m.port).slot m.slot).gen :=
  if_pos (by simp [hlo, hhi])

theorem State.msgGen_fabric (u : State) {m : TenantMsg} (h : m.code = 7 ∨ m.code = 8) :
    u.msgGen m = (u.gal m.gallery).gen :=
  (if_neg (by simp; omega)).trans (if_pos (by simpa using h))

theorem State.msgGen_other (u : State) {m : TenantMsg} (h : m.code < 4 ∨ 8 < m.code) : u.msgGen m = 0 :=
  (if_neg (by simp; omega)).trans (if_neg (by simp; omega))

/-! ### The commands of the codes (R640) -/

/-- The messages of keys and fabric secrets, with their codes. -/
abbrev keyMessages (session : Option Nat) (m : TenantMsg) : List (Instr × Nat) :=
  [(Instr.galKeyInstall session m, 4), (.galKeyRetire session m, 5), (.galKeyActivate session m, 6),
    (.galFabricRoot session m, 7), (.galFabricStep session m, 8)]

/-- The messages that the controlling session alone may send, with their codes. -/
abbrev controlledMessages (session : Option Nat) (m : TenantMsg) : List (Instr × Nat) :=
  keyMessages session m ++ [(Instr.galOpen session m, 9), (.galDeaccess session m, 10)]

/-- Every message that R640 lists, with its code. -/
abbrev listedMessages (session : Option Nat) (m : TenantMsg) : List (Instr × Nat) :=
  [(Instr.galQuery session m, 1), (.galClaim session m, 2), (.galResume session m, 3)] ++ controlledMessages session m

theorem exec_keyMessage {c : Instr} {k : Nat} {session : Option Nat} {m : TenantMsg}
    (h : (c, k) ∈ keyMessages session m) (s : State) : exec c s = .next (s.keyMsg session k m) := by
  simp only [keyMessages, List.mem_cons, Prod.mk.injEq, List.not_mem_nil, or_false] at h
  rcases h with ⟨rfl, rfl⟩ | ⟨rfl, rfl⟩ | ⟨rfl, rfl⟩ | ⟨rfl, rfl⟩ | ⟨rfl, rfl⟩ <;> rfl

/-- Every listed message is a tenant message of its code, with some effect. -/
theorem exec_listedMessage {c : Instr} {k : Nat} {session : Option Nat} {m : TenantMsg}
    (h : (c, k) ∈ listedMessages session m) (s : State) :
    ∃ act, exec c s = .next (s.tenantMsg session k m act) := by
  rcases List.mem_append.mp h with h | h
  · simp only [List.mem_cons, Prod.mk.injEq, List.not_mem_nil, or_false] at h
    rcases h with ⟨rfl, rfl⟩ | ⟨rfl, rfl⟩ | ⟨rfl, rfl⟩ <;> exact ⟨_, rfl⟩
  · rcases List.mem_append.mp h with h | h
    · exact ⟨_, exec_keyMessage h s⟩
    · simp only [List.mem_cons, Prod.mk.injEq, List.not_mem_nil, or_false] at h
      rcases h with ⟨rfl, rfl⟩ | ⟨rfl, rfl⟩ <;> exact ⟨_, rfl⟩

theorem four_le_of_controlled {c : Instr} {k : Nat} {session : Option Nat} {m : TenantMsg}
    (h : (c, k) ∈ controlledMessages session m) : 4 ≤ k := by
  simp only [controlledMessages, keyMessages, List.cons_append, List.nil_append, List.mem_cons, Prod.mk.injEq,
    List.not_mem_nil, or_false] at h
  omega

theorem exec_listedMessage_closed {s : State} {c : Instr} {k : Nat} {session : Option Nat} {m : TenantMsg}
    (h : (c, k) ∈ listedMessages session m) (hup : s.cur.up = true) (hcode : m.code = k)
    (hclosed : ∀ n, session = some n → s.sessionOpen n = false) :
    exec c s = .next (s.out (.spdmError "UnexpectedRequest")) := by
  obtain ⟨act, hact⟩ := exec_listedMessage h s
  rw [hact, State.tenantMsg_closed hup hcode hclosed]

/-- A code that R640 does not list is UNSUPPORTED in an open session, and an SPDM error outside one (R638, R884). -/
theorem exec_reservedTenantMessage_open {s : State} {sid : Nat} {m : TenantMsg} (hup : s.cur.up = true)
    (hopen : s.sessionOpen sid = true) (hcode : m.code = 0 ∨ 10 < m.code) :
    exec (.reservedTenantMessage (some sid) m) s = .next (s.tenantAnswer m stUnsupported []) :=
  (if_neg (by simp; omega)).trans (congrArg Host.Outcome.next ((State.answering_up hup _).trans (if_pos hopen)))

theorem exec_reservedTenantMessage_closed {s : State} {session : Option Nat} {m : TenantMsg} (hup : s.cur.up = true)
    (hcode : m.code = 0 ∨ 10 < m.code) (hclosed : ∀ n, session = some n → s.sessionOpen n = false) :
    exec (.reservedTenantMessage session m) s = .next (s.out (.spdmError "UnexpectedRequest")) := by
  refine (if_neg (by simp; omega)).trans (congrArg Host.Outcome.next ((State.answering_up hup _).trans ?_))
  cases session with
  | none => rfl
  | some n => exact if_neg (by simp [hclosed n rfl])

/-! ### Effects (R637, R640, R641) -/

/-- A new challenge is drawn (log 38). -/
theorem State.gal_newChallenge (s : State) (g : Nat) :
    (s.newChallenge g).gal g = { s.gal g with challenge := natLe 16 (Config.challenge s.freeCtr).toNat } :=
  s.draw.gal_modGal g _

/-- The session `sid` comes to control the gallery, whose record changes by `x` as well, and a new challenge is drawn
(R640, R641). -/
def State.controlledBy (s : State) (g : Nat) (x : Gallery → Gallery) (sid : Nat) : State :=
  (s.modGal g fun y => { x y with session := some sid }).newChallenge g

theorem State.gal_controlledBy (s : State) (g : Nat) (x : Gallery → Gallery) (sid : Nat) :
    (s.controlledBy g x sid).gal g = { x (s.gal g) with
      session := some sid, challenge := natLe 16 (Config.challenge s.freeCtr).toNat } := by
  unfold State.controlledBy
  rw [State.gal_newChallenge, State.gal_modGal, State.modGal_freeCtr]

/-- From `s` to `t` nothing is sent, and the control record, the sessions and the ports' key slots stay. -/
def Unsent (s t : State) : Prop :=
  t.outputs = s.outputs ∧ t.ctl = s.ctl ∧ t.sec = s.sec ∧ t.docents = s.docents

theorem Unsent.trans {s t u : State} (h : Unsent s t) (k : Unsent t u) : Unsent s u := by
  obtain ⟨houtputs, hctl, hsec, hdocents⟩ := h
  obtain ⟨koutputs, kctl, ksec, kdocents⟩ := k
  exact ⟨koutputs.trans houtputs, kctl.trans hctl, ksec.trans hsec, kdocents.trans hdocents⟩

theorem State.modGal_unsent (s : State) (g : Nat) (f : Gallery → Gallery) : Unsent s (s.modGal g f) :=
  ⟨s.modGal_outputs g f, s.modGal_ctl g f, s.modGal_sec g f, s.modGal_docents g f⟩

theorem State.draw_unsent (s : State) : Unsent s s.draw := ⟨rfl, rfl, rfl, rfl⟩

theorem State.controlledBy_unsent (s : State) (g : Nat) (x : Gallery → Gallery) (sid : Nat) :
    Unsent s (s.controlledBy g x sid) :=
  (s.modGal_unsent g _).trans ((State.draw_unsent _).trans (State.modGal_unsent _ g _))

theorem Narrow.unsent {s t : State} (h : Narrow s t) : Unsent s t := ⟨h.outputs_eq, h.ctl_eq, h.sec_eq, h.docents_eq⟩

theorem State.setGalState_unsent (s : State) (g : Nat) (st : GalState) (cause : Nat) :
    Unsent s (s.setGalState g st cause) :=
  (s.modGal_unsent g _).trans (s.setGalState_narrow g st cause).unsent

/-- The gallery after a claim, with its records (R640, R678). -/
def State.claimed (s : State) (g : Nat) (key : Bytes) (sid : Nat) : State :=
  (s.controlledBy g (fun x => { x with claimant := some key }) sid).setGalState g .claimed 2

theorem State.gal_claimed (s : State) (g : Nat) (key : Bytes) (sid : Nat) :
    (s.claimed g key sid).gal g = { s.gal g with
      state := .claimed, claimant := some key, session := some sid
      challenge := natLe 16 (Config.challenge s.freeCtr).toNat } := by
  unfold State.claimed
  rw [State.gal_setGalState, State.gal_controlledBy]

theorem State.claimed_unsent (s : State) (g : Nat) (key : Bytes) (sid : Nat) : Unsent s (s.claimed g key sid) :=
  (s.controlledBy_unsent g _ sid).trans (State.setGalState_unsent _ g .claimed 2)

section
variable {s : State} {sid : Nat} {m : TenantMsg} (hup : s.cur.up = true) (hopen : s.sessionOpen sid = true)
  (h : Heeded s sid m)
include hup hopen h

theorem exec_galQuery_heeded (hcode : m.code = 1) :
    exec (.galQuery (some sid) m) s = .next (s.tenantAnswer m stOk (s.queryEntries m.gallery)) :=
  congrArg Host.Outcome.next (State.tenantMsg_heeded hup hcode hopen h _)

/-- A claim records its claimant (R640). -/
theorem exec_galClaim_heeded (hcode : m.code = 2) :
    exec (.galClaim (some sid) m) s =
      .next ((s.claimed m.gallery (sliceB m.material 0 96) sid).tenantAnswer m stOk []) :=
  congrArg Host.Outcome.next (State.tenantMsg_heeded hup hcode hopen h _)

theorem exec_galResume_heeded (hcode : m.code = 3) :
    exec (.galResume (some sid) m) s = .next ((s.controlledBy m.gallery id sid).tenantAnswer m stOk []) :=
  congrArg Host.Outcome.next (State.tenantMsg_heeded hup hcode hopen h _)

/-- A key message has the effect of its code and is answered. -/
theorem exec_keyMessage_heeded {c : Instr} {k : Nat} (hc : (c, k) ∈ keyMessages (some sid) m) (hcode : m.code = k)
    {u : State} (hu : s.keyEffect k m.gallery m = u) : exec c s = .next (u.tenantAnswer m stOk []) := by
  subst hu
  exact (exec_keyMessage hc s).trans (congrArg Host.Outcome.next (State.tenantMsg_heeded hup hcode hopen h _))

/-- A gallery that meets the conditions of R637 is opened. -/
theorem exec_galOpen_heeded (hcode : m.code = 9) (hmay : s.mayOpen m.gallery = true) :
    exec (.galOpen (some sid) m) s = .next ((s.setGalState m.gallery .active 2).tenantAnswer m stOk []) :=
  congrArg Host.Outcome.next ((State.tenantMsg_heeded hup hcode hopen h _).trans (if_pos hmay))

theorem exec_galDeaccess_heeded (hcode : m.code = 10) :
    exec (.galDeaccess (some sid) m) s = .next ((s.deaccStart m.gallery 2 none).tenantAnswer m stOk []) :=
  congrArg Host.Outcome.next (State.tenantMsg_heeded hup hcode hopen h _)

end

/-- Settles O44: whether a session is open, and what the checks of R884 give, selects the one answer; the effect is what
the code's own operation leaves, and its generation that of the slot or of the fabric. -/
theorem tenantMessages : Obligations.TenantMessages := by
  refine ⟨fun s sid m hup hopen h => ⟨fun hcode => ?_, fun hcode => ?_, fun hcode => ?_, fun hcode => ?_,
      fun hcode => ?_, fun hcode => ?_, fun hcode => ?_, fun hcode => ?_, fun hcode hmay => ?_, fun hcode => ?_⟩,
    fun s sid m hup hopen hcode => ⟨_, exec_reservedTenantMessage_open hup hopen hcode,
      answered_failed s m (by decide) []⟩,
    fun s sid m c k hc hup hopen hcode hform htenant hother => ?_, fun s sid m c k hc hup hcode hclosed => ?_⟩
  · exact ⟨_, exec_galQuery_heeded hup hopen h hcode, answered_ok (s.msgGen_other (by omega)) _⟩
  · have hexec := exec_galClaim_heeded hup hopen h hcode
    have hgal := s.gal_claimed m.gallery (sliceB m.material 0 96) sid
    have hunsent := s.claimed_unsent m.gallery (sliceB m.material 0 96) sid
    generalize s.claimed m.gallery (sliceB m.material 0 96) sid = u at hexec hgal hunsent
    exact ⟨u, _, hexec, answered_ok (u.msgGen_other (by omega)) [], congrArg Gallery.state hgal,
      congrArg Gallery.claimant hgal, congrArg Gallery.session hgal, congrArg Gallery.challenge hgal, hunsent⟩
  · have hexec := exec_galResume_heeded hup hopen h hcode
    have hgal := s.gal_controlledBy m.gallery id sid
    have hunsent := s.controlledBy_unsent m.gallery id sid
    generalize s.controlledBy m.gallery id sid = u at hexec hgal hunsent
    exact ⟨u, _, hexec, answered_ok (u.msgGen_other (by omega)) [], hgal, hunsent⟩
  · exact ⟨_, exec_keyMessage_heeded hup hopen h (c := .galKeyInstall (some sid) m) (by simp) hcode
      (s.keyEffect_install _ m), answered_ok (State.msgGen_slot _ (by omega) (by omega)) []⟩
  · exact ⟨_, exec_keyMessage_heeded hup hopen h (c := .galKeyRetire (some sid) m) (by simp) hcode
      (s.keyEffect_retire _ m), answered_ok (State.msgGen_slot _ (by omega) (by omega)) []⟩
  · exact ⟨_, exec_keyMessage_heeded hup hopen h (c := .galKeyActivate (some sid) m) (by simp) hcode
      (s.keyEffect_activate _ m), answered_ok (State.msgGen_slot _ (by omega) (by omega)) []⟩
  · exact ⟨_, exec_keyMessage_heeded hup hopen h (c := .galFabricRoot (some sid) m) (by simp) hcode
      (s.keyEffect_root _ m), answered_ok (State.msgGen_fabric _ (.inl hcode)) []⟩
  · exact ⟨_, exec_keyMessage_heeded hup hopen h (c := .galFabricStep (some sid) m) (by simp) hcode
      (s.keyEffect_step _ m), answered_ok (State.msgGen_fabric _ (.inr hcode)) []⟩
  · have hexec := exec_galOpen_heeded hup hopen h hcode hmay
    have hgal := s.gal_setGalState m.gallery .active 2
    have hunsent := s.setGalState_unsent m.gallery .active 2
    generalize s.setGalState m.gallery .active 2 = u at hexec hgal hunsent
    exact ⟨u, _, hexec, answered_ok (u.msgGen_other (by omega)) [], congrArg Gallery.state hgal, hunsent⟩
  · exact ⟨_, exec_galDeaccess_heeded hup hopen h hcode, answered_ok (State.msgGen_other _ (by omega)) []⟩
  · obtain ⟨act, hact⟩ := exec_listedMessage (List.mem_append_right _ hc) s
    have hcontrolled : 4 ≤ m.code := hcode ▸ four_le_of_controlled hc
    exact ⟨_, hact.trans (congrArg Host.Outcome.next (State.tenantMsg_refused hup hcode hopen
      (State.msgCheck_uncontrolled hform htenant hcontrolled hother) act)), answered_failed s m (by decide) []⟩
  · rcases List.mem_append.mp (show (c, k) ∈ listedMessages sid m ++ [(.reservedTenantMessage sid m, 11)] from hc)
      with hc | hc
    · exact exec_listedMessage_closed hc hup hcode hclosed
    · obtain ⟨rfl, rfl⟩ := Prod.mk.inj (List.mem_singleton.mp hc)
      exact exec_reservedTenantMessage_closed hup (by omega) hclosed

end Sys2Proof.Machine
end

section
/-! SUPPORT. Shared rules for the host interface: a ring after an update, when a ring may be written, what a write of
RING_CFG makes of its ring, and what becomes of a vector's message. -/

namespace Sys2Proof.Machine

open Sys2Proof.Slice0

/-! ### A ring after an update -/

@[simp] theorem Fn.ring_modRing (x : Fn) (r : Nat) (g : Ring → Ring) : (x.modRing r g).ring r = g (x.ring r) :=
  Tab.get_modify_same _ _ _ _

theorem Fn.ring_modRing_ne (x : Fn) {r k : Nat} (g : Ring → Ring) (h : k ≠ r) : (x.modRing r g).ring k = x.ring k :=
  Tab.get_modify_ne _ _ _ h

/-- Enabling a ring changes it, and beside it sequence numbers alone. -/
theorem Fn.rings_enableRing (x : Fn) (r : Nat) :
    (x.enableRing r).rings
      = (x.modRing r fun g => { g with en := true, stopped := false, pi := 0, ci := 0 }).rings := by
  simp only [Fn.enableRing, apply_ite Fn.rings, ite_self]

@[simp] theorem Fn.ring_enableRing (x : Fn) (r : Nat) :
    (x.enableRing r).ring r = { x.ring r with en := true, stopped := false, pi := 0, ci := 0 } :=
  (congrArg (Tab.get Ring.reset · r) (x.rings_enableRing r)).trans (x.ring_modRing r _)

theorem Fn.ring_enableRing_ne (x : Fn) {r k : Nat} (h : k ≠ r) : (x.enableRing r).ring k = x.ring k :=
  (congrArg (Tab.get Ring.reset · k) (x.rings_enableRing r)).trans (x.ring_modRing_ne _ h)

/-- The physical function has all five rings, a virtual function the first three (R696). -/
theorem ringExists_of {f : FnNo} {r : Fin 5} (h : f = 0 ∨ r.val < 3) : ringExists f.val r.val = true := by
  rcases h with rfl | h
  · simp [ringExists, r.isLt]
  · simp [ringExists, h]

/-! ### RING_CFG (R698, R699, R704) -/

/-- A disabled ring takes the written base and size (R698). -/
theorem Ring.config_disabled {g : Ring} {v : Word} (hen : g.en = false) (hlo : 6 ≤ fieldN v 32 4)
    (hhi : fieldN v 32 4 ≤ 14) :
    g.config v = { g with refused := g.refused && !bitN v 61, log2 := fieldN v 32 4, base := fieldN v 12 10 } := by
  simp [Ring.config, hen, hlo, hhi]

/-- RING_CFG takes no index of a ring (R698). -/
theorem Ring.config_indices (g : Ring) (v : Word) : (g.config v).pi = g.pi ∧ (g.config v).ci = g.ci := by
  unfold Ring.config
  cases hen : g.en <;> exact ⟨rfl, rfl⟩

/-- The ring is enabled with what was written, before the module makes use of it. -/
def State.ringOpened (s : State) (f r : Nat) (v : Word) : State :=
  (s.modFn f fun x => x.modRing r fun g => g.config v).modFn f fun x => x.enableRing r

/-- The ring is disabled; what else RING_CFG takes is taken. -/
def State.ringClosed (s : State) (f r : Nat) (v : Word) : State :=
  (s.modFn f fun x => x.modRing r fun g => g.config v).modFn f fun x => x.modRing r fun g => { g with en := false }

/-- What the module does once a ring has room: it takes commands, whose completions ring 1 holds, and sends page
requests, whose records ring 2 holds (R455, R707). -/
def State.ringServed (s : State) (f r : Nat) : State :=
  if r = 1 then s.takeAll f else if r = 2 then s.sendPages f else s

theorem State.ringServed_fin (s : State) (f : Nat) (r : Fin 5) :
    s.ringServed f r.val = if r = 1 then s.takeAll f else if r = 2 then s.sendPages f else s := by
  simp only [State.ringServed, Fin.ext_iff, Fin.coe_ofNat_eq_mod]

theorem State.fn_ringOpened (s : State) (f r : Nat) (v : Word) :
    (s.ringOpened f r v).fn f = ((s.fn f).modRing r fun g => g.config v).enableRing r := by
  simp [State.ringOpened]

theorem State.fn_ringClosed (s : State) (f r : Nat) (v : Word) :
    (s.ringClosed f r v).fn f = ((s.fn f).modRing r fun g => g.config v).modRing r fun g => { g with en := false } := by
  simp [State.ringClosed]

/-- An opened ring is empty and has the written base and size (R699). -/
theorem State.ring_ringOpened {s : State} {f r : Nat} {v : Word} (hen : ((s.fn f).ring r).en = false)
    (hlo : 6 ≤ fieldN v 32 4) (hhi : fieldN v 32 4 ≤ 14) :
    ((s.ringOpened f r v).fn f).ring r =
      { en := true, stopped := false, log2 := fieldN v 32 4, base := fieldN v 12 10, pi := 0, ci := 0
        refused := ((s.fn f).ring r).refused && !bitN v 61 } := by
  rw [State.fn_ringOpened, Fn.ring_enableRing, Fn.ring_modRing, Ring.config_disabled hen hlo hhi]

theorem State.ring_ringOpened_ne (s : State) (f : Nat) {r k : Nat} (v : Word) (h : k ≠ r) :
    ((s.ringOpened f r v).fn f).ring k = (s.fn f).ring k := by
  rw [State.fn_ringOpened, Fn.ring_enableRing_ne _ h, Fn.ring_modRing_ne _ _ h]

/-- A closed ring keeps its indices (R704). -/
theorem State.ring_ringClosed (s : State) (f r : Nat) (v : Word) :
    (((s.ringClosed f r v).fn f).ring r).en = false
      ∧ (((s.ringClosed f r v).fn f).ring r).pi = ((s.fn f).ring r).pi
      ∧ (((s.ringClosed f r v).fn f).ring r).ci = ((s.fn f).ring r).ci := by
  rw [State.fn_ringClosed, Fn.ring_modRing, Fn.ring_modRing]
  exact ⟨rfl, ((s.fn f).ring r).config_indices v⟩

theorem State.ring_ringClosed_ne (s : State) (f : Nat) {r k : Nat} (v : Word) (h : k ≠ r) :
    ((s.ringClosed f r v).fn f).ring k = (s.fn f).ring k := by
  rw [State.fn_ringClosed, Fn.ring_modRing_ne _ _ h, Fn.ring_modRing_ne _ _ h]

/-- Whether a ring fits depends on the other rings alone (R699). -/
theorem Fn.ringFits_modRing (x : Fn) (r log2 base : Nat) (g : Ring → Ring) :
    (x.modRing r g).ringFits r log2 base = x.ringFits r log2 base := by
  unfold Fn.ringFits
  refine congrArg (_ && ·) (congrArg (List.all _) (funext fun k => ?_))
  by_cases hk : k = r
  · simp [hk]
  · simp only [Fn.ring_modRing_ne x g hk]

section
variable {s : State} {f r : Nat} {v : Word} (hex : ringExists f r = true)
include hex

/-- A write that sets en opens a disabled ring that fits (R699). -/
theorem State.ringCfg_opens (hset : bitN v 63 = true) (hen : ((s.fn f).ring r).en = false)
    (hlo : 6 ≤ fieldN v 32 4) (hhi : fieldN v 32 4 ≤ 14)
    (hfits : (s.fn f).ringFits r (fieldN v 32 4) (fieldN v 12 10) = true) :
    s.ringCfg f r v = (s.ringOpened f r v).ringServed f r := by
  have hring : ((s.fn f).modRing r fun g => g.config v).ring r = _ :=
    ((s.fn f).ring_modRing r _).trans (Ring.config_disabled hen hlo hhi)
  have hfits' : ((s.fn f).modRing r fun g => g.config v).ringFits r (fieldN v 32 4) (fieldN v 12 10) = true := by
    rw [Fn.ringFits_modRing, hfits]
  simp only [State.ringCfg, hex, hset, hen, State.modFn_fn_same, hring, hfits']
  rfl

/-- A write that clears en closes the ring, enabled or not (R704). -/
theorem State.ringCfg_closes (hclear : bitN v 63 = false) : s.ringCfg f r v = s.ringClosed f r v := by
  simp [State.ringCfg, hex, hclear, State.ringClosed]

end

/-! ### MSI-X (R686, R687, R718) -/

/-- The function may send, and the vector is not masked. -/
abbrev Fn.Sends (x : Fn) (v : Nat) : Prop :=
  x.busMaster = true ∧ x.msixEn = true ∧ x.d3hot = false ∧ (x.vec v).masked = false

theorem Fn.sends_iff (x : Fn) (v : Nat) : (x.mayInterrupt && !(x.vec v).masked) = true ↔ x.Sends v := by
  simp [Fn.mayInterrupt, and_assoc]

/-- The function with the pending bit of one vector written. -/
def Fn.setPending (x : Fn) (v : Nat) (p : Bool) : Fn :=
  { x with msix := Tab.modify Msix.reset x.msix v fun m => { m with pending := p } }

@[simp] theorem Fn.pending_setPending (x : Fn) (v : Nat) (p : Bool) : ((x.setPending v p).vec v).pending = p :=
  congrArg Msix.pending (Tab.get_modify_same Msix.reset x.msix v fun m => { m with pending := p })

theorem State.msixDue_sent {s : State} {f v : Nat} (h : (s.fn f).Sends v) :
    s.msixDue f v = (s.modFn f (·.setPending v false)).out (.msix (32 * f + v)) :=
  if_pos ((Fn.sends_iff _ v).mpr h)

theorem State.msixDue_pending {s : State} {f v : Nat} (h : ¬(s.fn f).Sends v) :
    s.msixDue f v = s.modFn f (·.setPending v true) :=
  if_neg (mt (Fn.sends_iff _ v).mp h)

end Sys2Proof.Machine
end

section
/-! PROOFS. Rings, the taking of commands, and MSI-X messages. -/

namespace Sys2Proof.Machine

open Sys2Proof.Slice0

/-! ### Indices and RING_CFG (R700 to R704) -/

section
variable {s : State} {f : FnNo} (hopen : s.barOpen f.val = true)
include hopen

theorem exec_commandDoorbell_enabled (pi : BitVec 32) (hen : ((s.fn f.val).ring 0).en = true) :
    exec (.commandDoorbell f pi) s = .next
      ((s.modFn f.val fun x => x.modRing 0 fun r =>
        { r with pi := pi.toNat, stopped := r.stopped || { r with pi := pi.toNat }.used > r.size }).takeAll f.val) := by
  show execCommandDoorbell f pi s = _
  simp only [execCommandDoorbell, State.doorbell, hopen, hen]
  rfl

theorem exec_consumerIndexWrite_enabled {r : Fin 5} (ci : BitVec 32) (hr : r ≠ 0) (hex : f = 0 ∨ r.val < 3)
    (hen : ((s.fn f.val).ring r.val).en = true) :
    exec (.consumerIndexWrite f r ci) s = .next
      ((s.modFn f.val fun x => x.modRing r.val fun g =>
        { g with
          ci := ci.toNat
          stopped := g.stopped || !decide ((ci.toNat + 2 ^ 32 - ((s.fn f.val).ring r.val).ci) % 2 ^ 32 ≤
            ((s.fn f.val).ring r.val).used) }).ringServed f.val r.val) := by
  have hr0 : r.val ≠ 0 := Fin.val_ne_zero_iff.mpr hr
  show execConsumerIndexWrite f r ci s = _
  simp only [execConsumerIndexWrite, State.consumer, hopen, hr0, ringExists_of hex, hen]
  rfl

theorem exec_ringEnable_fits {r : Fin 5} {v : Word} (hex : f = 0 ∨ r.val < 3) (hset : bitN v 63 = true)
    (hen : ((s.fn f.val).ring r.val).en = false) (hlo : 6 ≤ fieldN v 32 4) (hhi : fieldN v 32 4 ≤ 14)
    (hfits : (s.fn f.val).ringFits r.val (fieldN v 32 4) (fieldN v 12 10) = true) :
    exec (.ringEnable f r v) s = .next ((s.ringOpened f.val r.val v).ringServed f.val r.val) := by
  show execRingEnable f r v s = _
  simp [execRingEnable, hopen, hset, State.ringCfg_opens (ringExists_of hex) hset hen hlo hhi hfits]

theorem exec_ringDisable_open {r : Fin 5} {v : Word} (hex : f = 0 ∨ r.val < 3) (hclear : bitN v 63 = false) :
    exec (.ringDisable f r v) s = .next (s.ringClosed f.val r.val v) := by
  show execRingDisable f r v s = _
  simp [execRingDisable, hopen, hclear, State.ringCfg_closes (ringExists_of hex) hclear]

end

/-- Settles O22: a write of an index, and one of RING_CFG by the written en, each select one branch, which changes the
one ring and then lets the module serve it. -/
theorem ringIndices : Obligations.RingIndices := by
  refine ⟨fun s f pi hopen hen => exec_commandDoorbell_enabled hopen pi hen,
    fun s f r ci hopen hr hex hen => ⟨_, rfl, ?_⟩,
    fun s f r v hopen hex hset hen hlo hhi hfits => ⟨s.ringOpened f.val r.val v, ?_,
      State.ring_ringOpened hen hlo hhi, fun k hk => s.ring_ringOpened_ne f.val v hk, rfl⟩,
    fun s f r v hopen hex hclear => ?_⟩
  · rw [exec_consumerIndexWrite_enabled hopen ci hr hex hen, State.ringServed_fin]
  · rw [exec_ringEnable_fits hopen hex hset hen hlo hhi hfits, State.ringServed_fin]
  · obtain ⟨hoff, hpi, hci⟩ := s.ring_ringClosed f.val r.val v
    exact ⟨_, exec_ringDisable_open hopen hex hclear, hoff, hpi, hci, fun k hk => s.ring_ringClosed_ne f.val v hk,
      rfl⟩

/-! ### Taking a command (R697, R705 to R707) -/

/-- The command that a ring entry gives: its sequence number is its index, and its checks come when it starts (R705,
R709). -/
def Fn.takenFrom (x : Fn) (f : Nat) (k : CmdEntry) : Taken :=
  { fn := f, uid := x.nextUid, seq := (x.ring 0).ci, cmdId := k.cmdId, opcode := k.opcode, paramOff := k.paramOff
    paramLen := k.paramLen, args := k.args, rsv := k.rsv, started := false, discard := false }

/-- The command ring's consumer index past one more entry. -/
def Fn.advance (x : Fn) : Fn :=
  { x.modRing 0 fun r => { r with ci := wrapAdd 32 r.ci 1 } with cmdsTaken := wrapAdd 32 x.cmdsTaken 1 }

/-- A command more that waits to start. -/
def Fn.enqueue (x : Fn) (t : Taken) : Fn := { x with taken := x.taken ++ [t], nextUid := x.nextUid + 1 }

@[simp] theorem Fn.ring_advance (x : Fn) :
    x.advance.ring 0 = { x.ring 0 with ci := ((x.ring 0).ci + 1) % 2 ^ 32 } :=
  x.ring_modRing 0 fun r => { r with ci := wrapAdd 32 r.ci 1 }

/-- An entry with no erroneous codeword is taken as it stands. -/
theorem State.takeOne_clean {s : State} {f : Nat}
    (h : s.badIn (ringSlot f 0 ((s.fn f).ring 0) ((s.fn f).ring 0).ci) 64 = []) :
    s.takeOne f = (s.modFn f Fn.advance).modFn f (·.enqueue ((s.fn f).takenFrom f
      (CmdEntry.dec (s.vmBytes (ringSlot f 0 ((s.fn f).ring 0) ((s.fn f).ring 0).ci) 64)))) := by
  simp only [State.takeOne, State.vmRead_clean s _ _ h]
  rfl

/-- Settles O23: a clean entry is read with no effect on the vault, and two updates of the function follow. -/
theorem commandsAreTaken : Obligations.CommandsAreTaken := by
  intro s f hclean
  generalize hk : CmdEntry.dec (s.vmBytes (ringSlot f 0 ((s.fn f).ring 0) ((s.fn f).ring 0).ci) 64) = k
  have htake := hk ▸ State.takeOne_clean hclean
  have hfn : ((s.modFn f Fn.advance).modFn f (·.enqueue ((s.fn f).takenFrom f k))).fn f
      = (s.fn f).advance.enqueue ((s.fn f).takenFrom f k) := by
    rw [State.modFn_fn_same, State.modFn_fn_same]
  exact ⟨_, (s.fn f).takenFrom f k, htake, congrArg Fn.taken hfn, rfl,
    (congrArg (fun x => (x.ring 0).ci) hfn).trans (congrArg Ring.ci (s.fn f).ring_advance),
    congrArg Fn.cmdsTaken hfn, rfl, rfl, rfl, rfl⟩

/-! ### MSI_X_MESSAGE (R718) -/

/-- The function with one of its causes disarmed. -/
def Fn.disarm (x : Fn) (c : Nat) : Fn :=
  { x with ints := Tab.modify IntMap.reset x.ints c fun i => { i with arm := false } }

@[simp] theorem Fn.arm_disarm (x : Fn) (c : Nat) : ((x.disarm c).int c).arm = false :=
  congrArg IntMap.arm (Tab.get_modify_same IntMap.reset x.ints c fun i => { i with arm := false })

theorem exec_msiXMessage_armed {s : State} {f : FnNo} {c : Fin 5} (harm : ((s.fn f.val).int c.val).arm = true)
    (hpend : s.causePending f.val c.val = true) :
    exec (.msiXMessage f c) s = .next
      ((s.modFn f.val (·.disarm c.val)).msixDue f.val ((s.fn f.val).int c.val).vector) := by
  show execMsiXMessage f c s = _
  simp only [execMsiXMessage, harm, hpend]
  rfl

/-- Settles O24: whether the function may send and the vector is unmasked selects between the message and its pending
bit (log 43 for MSI-X Enable); disarming the cause changes none of that. -/
theorem msixMessage : Obligations.MsixMessage := by
  intro s f c harm hpend
  refine ⟨_, exec_msiXMessage_armed harm hpend, ?_⟩
  generalize ((s.fn f.val).int c.val).vector = v
  have hfn : (s.modFn f.val (·.disarm c.val)).fn f.val = (s.fn f.val).disarm c.val := s.modFn_fn_same _ _
  have hsends : ((s.modFn f.val (·.disarm c.val)).fn f.val).Sends v ↔ (s.fn f.val).Sends v := by
    rw [hfn]
    exact Iff.rfl
  by_cases hsend : (s.fn f.val).Sends v
  · rw [if_pos hsend, State.msixDue_sent (hsends.mpr hsend), State.out_fn, State.modFn_fn_same, hfn]
    exact ⟨(s.fn f.val).arm_disarm c.val, rfl⟩
  · rw [if_neg hsend, State.msixDue_pending (mt hsends.mp hsend), State.modFn_fn_same, hfn]
    exact ⟨(s.fn f.val).arm_disarm c.val, rfl, Fn.pending_setPending _ _ _⟩

end Sys2Proof.Machine
end

section
/-! PROOFS. The whole-machine statements: the form of the machine, fuses, banks, the queue, emergencies. -/

namespace Sys2Proof.Machine

open Sys2Proof.Slice0

/-! ### What the mask of a command says -/

/-- The commands that may change a fuse are those of step 6 of an activation (R737). -/
theorem spares_fuse_of_activates {c : Instr} (h : activates c = false) : (spares c).fuse = true := by
  cases c with
  | recoveryListenExpiry | fwActivate | activationHoldExpiry | stagedVerifyDone | overwriteDone | curatorRestartDone =>
    exact absurd h.symm Bool.false_ne_true
  | _ => rfl

/-- The commands that may change a bank are the rehangs, and those by which power is lost or BOOT is entered (R805,
R853). -/
theorem spares_banks_of_rehangs {c : Instr} (h : rehangs c = false) : (spares c).banks = true := by
  cases c with
  | auxPowerGood | emergencyClear | mainEnable | leakClearExpiry | fill | switch | fillThenSwitch | shadowFilled
    | switchQuiesceTimeout | epochDrained | auxPowerLost | presentDeasserted | mainPowerGood | lossOfMainInput
    | stageFault | inputOvercurrent | shutdown | moduleReset | curatorRestartDone | tftpWriteImage =>
    exact absurd h.symm Bool.false_ne_true
  | _ => rfl

/-- Settles O3: every command keeps the queue, whatever else it spares. -/
theorem commandsLeaveQueueAlone : Obligations.CommandsLeaveQueueAlone :=
  fun c s t hexec => (exec_next_keeps c s t hexec).pending

/-- Settles O7: outside step 6 of an activation a command spares the fuses. -/
theorem fusesChangeOnlyAtActivation : Obligations.FusesChangeOnlyAtActivation :=
  fun c s t hexec hact => (exec_next_keeps c s t hexec).fuse (spares_fuse_of_activates hact)

/-- Settles O9: every other command spares the banks. -/
theorem banksChangeOnlyByRehang : Obligations.BanksChangeOnlyByRehang :=
  fun c s t hexec hre => (exec_next_keeps c s t hexec).banks (spares_banks_of_rehangs hre)

/-! ### What every step keeps -/

/-- A step keeps what every command keeps: it performs one, on a state that differs in the queue alone, or lets a
flit time pass. -/
theorem step_next_keeps {s t : State} (h : step s = .next t) :
    ∃ m rest, Keeps m { s with pending := rest } t := by
  obtain ⟨-, -, k⟩ | ⟨c, rest, -, -, k⟩ := step_next_cases s t h
  · exact ⟨_, s.pending, k⟩
  · exact ⟨_, rest, k⟩

/-- Settles O4: each part of the form is kept by whatever a step does. -/
theorem stepsKeepMachineForm : Obligations.StepsKeepMachineForm := by
  intro s t hs hstep
  obtain ⟨m, rest, k⟩ := step_next_keeps hstep
  exact { memory := k.mem hs.memory, clocks := k.legal hs.clocks, tick := k.tick hs.tick, history := k.hist hs.history }

/-- A mask that another one keeps has every bit of it. -/
theorem getLsbD_of_and_eq {n : Nat} {a b : BitVec n} (h : a &&& b = a) {k : Nat} (hk : a.getLsbD k = true) :
    b.getLsbD k = true := by
  rw [← h, BitVec.getLsbD_and, Bool.and_eq_true] at hk
  exact hk.2

/-- Settles O6: a step only raises the version and only adds to the mask. -/
theorem fusesAreOnlyBlown : Obligations.FusesAreOnlyBlown := by
  intro s t hstep
  obtain ⟨m, rest, k⟩ := step_next_keeps hstep
  obtain ⟨hsvn, hrevoked⟩ := k.blown
  exact ⟨hsvn, fun i hi => getLsbD_of_and_eq hrevoked hi⟩

/-- Settles O1: the front command, or a flit time, which touches nothing but what transmitters change. -/
theorem stepPerformsFrontCommand : Obligations.StepPerformsFrontCommand := by
  refine ⟨fun s c rest hp => ?_, fun s hp => ⟨?_, ?_⟩⟩
  · simp only [step, hp]
  · simp only [step, hp]
  · have hwire := s.offWire_flitTime
    generalize s.flitTime = t at *
    cases s
    cases t
    simp only [State.offWire, State.mk.injEq] at hwire ⊢
    simp [hwire]

/-! ### Emergencies -/

theorem getLsbD_putN (lo len v i : Nat) (h : i < 64) :
    (putN lo len v).getLsbD i = (decide (lo ≤ i ∧ i < lo + len) && v.testBit (i - lo)) := by
  rw [putN, BitVec.getLsbD_ofNat, ← Nat.shiftLeft_eq, Nat.testBit_shiftLeft, Nat.testBit_mod_two_pow]
  by_cases hlo : lo ≤ i
  · have : i - lo < len ↔ i < lo + len := by omega
    simp [h, hlo, this]
  · simp [hlo]

/-- A bit of a register is a bit of one of its fields. -/
theorem getLsbD_pack (fs : List (Nat × Nat × Nat)) (i : Nat) :
    (pack fs).getLsbD i = fs.any fun f => (putN f.1 f.2.1 f.2.2).getLsbD i := by
  suffices h : ∀ w : Word, (fs.foldl (fun w f => w ||| putN f.1 f.2.1 f.2.2) w).getLsbD i
      = (w.getLsbD i || fs.any fun f => (putN f.1 f.2.1 f.2.2).getLsbD i) by simp [pack, h]
  induction fs with
  | nil => simp
  | cons f fs ih => intro w; simp [ih, Bool.or_assoc]

/-- PWR_STAT.emergency is bit 7 (R796). -/
theorem State.pfReg_emergency (s : State) : (s.pfReg 0x00100008).getLsbD 7 = s.pwr.emergency := by
  show s.regPwrStat.getLsbD 7 = _
  unfold State.regPwrStat
  rw [getLsbD_pack]
  simp only [List.any_cons, List.any_nil, getLsbD_putN _ _ _ _ (by decide : 7 < 64)]
  cases s.pwr.emergency <;> simp

/-- The statement's form is `Power.sound`: PWR_STAT shows the emergency of the power state (R796). -/
theorem emergencyForm_iff (s : State) : EmergencyForm s ↔ s.pwr.sound s.cur.hold := by
  unfold EmergencyForm Power.sound
  rw [State.pfReg_emergency]
  constructor
  · rintro ⟨hcause, htier, hem⟩
    exact ⟨hcause, htier, fun h => ⟨(hem h).1, (hem h).2.2⟩⟩
  · rintro ⟨hcause, htier, hem⟩
    exact ⟨hcause, htier, fun h => ⟨(hem h).1, h, (hem h).2⟩⟩

/-- Settles O59: no cause is active after reset, and every step keeps the form of the power state. -/
theorem emergencyHoldsTierThree : Obligations.EmergencyHoldsTierThree := by
  refine ⟨(emergencyForm_iff _).2 ⟨rfl, Nat.zero_le _, nofun⟩, fun s t hs hstep => ?_⟩
  obtain ⟨m, rest, k⟩ := step_next_keeps hstep
  exact (emergencyForm_iff t).2 (k.em ((emergencyForm_iff s).1 hs))

end Sys2Proof.Machine
end

section
/-! PROOFS. Every well-formed command completes. -/

namespace Sys2Proof.Machine

/-- The outcome is a next state, or the one fault that a command outside its operands' lengths can end in (log 70).
-/
def AnswersIf (wf : Bool) (o : Host.Outcome State Fault Refusal) : Prop :=
  (∃ t, o = .next t) ∨ (wf = false ∧ o = .fault .operandLength)

theorem AnswersIf.next {wf : Bool} (t : State) : AnswersIf wf (.next t) := .inl ⟨t, rfl⟩

theorem AnswersIf.fault {wf : Bool} (h : wf = false) : AnswersIf wf (.fault .operandLength) := .inr ⟨h, rfl⟩

theorem AnswersIf.ite {wf : Bool} {a b : Host.Outcome State Fault Refusal} {c : Prop} [Decidable c]
    (ha : AnswersIf wf a) (hb : AnswersIf wf b) : AnswersIf wf (if c then a else b) := by
  split <;> assumption

/-- A guard on the length of an operand comes before any effect (log 70). -/
theorem AnswersIf.guard {wf ok : Bool} {o : Host.Outcome State Fault Refusal} (h : ok = false → wf = false)
    (ho : AnswersIf wf o) : AnswersIf wf (if !ok then .fault .operandLength else o) := by
  cases ok with
  | false => exact .fault (h rfl)
  | true => exact ho

/-- A line that has not the length of a line is no operand of a fetch. -/
theorem fetchedOk_of_isLine {what : Fetched} (h : isLine what = false) : fetchedOk what = false := by
  cases what with
  | data bs => exact h
  | failed st => exact absurd h.symm Bool.false_ne_true

/-- The commands by the shape of their meanings: a state outright, branches on conditions, branches on what the state
holds, and those whose operand has a length. -/
theorem exec_answersIf (c : Instr) (s : State) : AnswersIf c.wf (exec c s) := by
  cases c with
  | presentAsserted | moduleReset | stateSet | load | store | storeMasked | sync | atomic | tReadData | tWriteDone |
    tMaskedDone | tAtomicDone | waitWithdrawal | notice | copy | gather | scatter | mcast | reduce | dispatch |
    combine | signal | wait | fence | flush | inval | loop | halt | tourAtomic | reservedTourOpcode | quantumExpiry
    | operationRetire | tourEnd | fenceComplete | flushComplete | pageRequest | join | credit | contribution |
    result | withdrawal | offsets | grantAnnouncement | expertOutput | combineWeights | mgmt | step | stepReply |
    getVersion | getCapabilities | negotiateAlgorithms | getDigests | getCertificate | challenge | getMeasurements |
    keyExchange | finish | heartbeat | keyUpdate | endSession | galQuery | galClaim | galResume | galKeyInstall |
    galKeyRetire | galKeyActivate | galFabricRoot | galFabricStep | galOpen | galDeaccess | query | kSetGo |
    kSetStop | getTdispVersion | getTdispCapabilities | lockInterfaceRequest | getDeviceInterfaceReport |
    getDeviceInterfaceState | startInterfaceRequest | stopInterfaceRequest | galleryAccession | galleryDeaccession |
    g0KeyInstall | g0KeyRetire | g0KeyActivate | g0FabricRoot | g0FabricStep | g0Setup | g0Release | quorumSet |
    expelPort | expelPeer | isolate | liftPort | liftAll | drain | replaceSet | galSoRead | galSoAdd | galSoSet |
    galSoMin | galSoMax | galSoCas | watchdogExpiry | pldmSensor | bmcPowerCap | reservedQuorumAction | fwStage |
    fwActivate | pldmFru | mainEnable | powerCap | powerCapTimeout | fastThrottleHoldExpiry | fill | switch |
    fillThenSwitch | perstDeasserted =>
    exact .next _
  | auxPowerGood | auxPowerLost | presentDeasserted | mainPowerGood | enterService | conventionalReset | flrVf |
    flrPf | drainExit | pathTimeout | finishedChunk | instanceComplete | stepPeriodExpiry | pairKeyDerived |
    shelfExtWrite | extentZeroingDone | scrubRead | dieFailed | retryTimeout | ts1 | ts2 | tsExit |
    trainingWindowExpiry | laneCdrLoss | laneSerExceeded | deadTimerExpiry | downRetryTimer | signalDetect |
    idleEntry | idleExit | idleBurst | retrain | restore | laneMaskWrite | deaccessionDrained | drainTimeoutExpiry |
    deaccessionZeroed | commandDoorbell | consumerIndexWrite | ringEnable | ringDisable | msiXMessage | soValueWrite
    | swcRcCtlWrite | portSpecWrite | swcVcModeWrite | clkCtlWrite | clkEnWrite | ownCtlWrite | registerWrite |
    curatorMemoryError | curatorRestartDone | stageWriteDone | stagedVerifyDone | overwriteDone | recoveryRequest |
    tftpWriteImage | dhcp | arp | icmpEcho | mctpControl | powerAverageUpdate | emergencyBegin | emergencyClear |
    shutdown | aux3v3Retry | sensorFail | referenceFallback | lifeHistoryHourly | cdrLock | step1NoSignal |
    retrainBoundExpiry | reservedVendorCommand | activationHoldExpiry | tftpReadStatus | tftpReadLifehist |
    tftpWriteRequest | tftpRetransmit | dhcpLeaseTimeout | status | inputOvercurrent | stageFault | aux3v3Short |
    senseOpen | fastThrottleAssert | leakAssert | leakClearExpiry | referenceRevert | healthScoring |
    hostInterfaceReady | servicePortLinkUp =>
    repeat' first | apply AnswersIf.next | apply AnswersIf.ite
  | recoveryListenExpiry | lossOfMainInput | enterOperational | launch | reservedOpcode | targetTimeout | read |
    write | writeMasked | zeroRun | fabricSync | fabricAtomic | ack | data | value | packetForward | beRetxExpiry |
    tourLaunch | waitExpiry | atsCompletion | atsCompletionTimeout | prgResponse | prTimeoutExpiry |
    atsInvalidateRequest | invalidateCompletion | joinAdmitted | claimGrant | chunkSummation | partialChunk | abort
    | joinTimeout | drawerZeroingDone | windowMerge | nop | reservedCommand | bar2Read | bar2Write |
    configurationWrite | fwStageVerified | reservedTenantMessage | switchQuiesceTimeout | epochDrained |
    shadowFilled =>
    dsimp only [exec, execRecoveryListenExpiry, execLossOfMainInput, execEnterOperational, execLaunch,
      execReservedOpcode, execTargetTimeout, execRead, execWrite, execWriteMasked, execZeroRun, execFabricSync,
      execFabricAtomic, execAck, execData, execValue, execPacketForward, execBeRetxExpiry, execTourLaunch,
      execWaitExpiry, execAtsCompletion, execAtsCompletionTimeout, execPrgResponse, execPrTimeoutExpiry,
      execAtsInvalidateRequest, execInvalidateCompletion, execJoinAdmitted, execClaimGrant, execChunkSummation,
      execPartialChunk, execAbort, execJoinTimeout, execDrawerZeroingDone, execWindowMerge, execNop,
      execReservedCommand, execBar2Read, execBar2Write, execConfigurationWrite, execFwStageVerified,
      execReservedTenantMessage, execSwitchQuiesceTimeout, execEpochDrained, execShadowFilled]
    repeat' first | with_reducible apply AnswersIf.next | with_reducible apply AnswersIf.ite | split
  | dataFlit | ctrlFlit | filler =>
    refine .ite (.next _) (.guard id (.ite (.next _) ?_))
    repeat' first | with_reducible apply AnswersIf.next | with_reducible apply AnswersIf.ite | split
  | instructionLineArrival | descriptorArrival =>
    refine .guard fetchedOk_of_isLine ?_
    split <;> exact .next _
  | keyProg session f keySet key =>
    by_cases h : key.length = 32
    · exact .inl ⟨_, if_neg (not_not_intro h)⟩
    · exact .inr ⟨beq_false_of_ne h, if_pos h⟩

/-- Settles O2: the outcome is a next state, or the fault of an operand that is not well-formed. -/
theorem wellFormedCommandsComplete : Obligations.WellFormedCommandsComplete := by
  intro c s
  obtain ⟨t, ht⟩ | ⟨hwf, hfault⟩ := exec_answersIf c s
  · rw [ht]
    exact ⟨fun _ => ⟨t, rfl⟩, nofun, nofun⟩
  · rw [hfault, hwf]
    exact ⟨nofun, nofun, fun r hr => ⟨(Host.Outcome.fault.inj hr).symm, rfl⟩⟩

end Sys2Proof.Machine
end

section
/-! PROOFS. What the registers read right after reset. -/

namespace Sys2Proof.Machine

open Sys2Proof.Slice0

/-- A table of offsets and values, entry by entry. -/
theorem forall_of_forall_mem_pairs {α β : Type} {P : α → β → Prop} {l : List (α × β)} (h : ∀ e ∈ l, P e.1 e.2) :
    ∀ a b, (a, b) ∈ l → P a b :=
  fun a b hab => h (a, b) hab

/-- The serial number's halves, which the model leaves open (R847). -/
theorem State.pfReg_serial (s : State) :
    s.pfReg 0x20 = Config.serial.extractLsb' 0 64 ∧ s.pfReg 0x28 = Config.serial.extractLsb' 64 64 := ⟨rfl, rfl⟩

/-- After reset every virtual function's page shows the same: no function has an entry of its own in the table. -/
theorem State.vfReg_reset (f o : Nat) : State.reset.vfReg f o = State.reset.vfReg 1 o := rfl

/-- Settles O60: every register but the serial number, which reads its constant, by evaluation of the reset state. -/
theorem resetRegisterValues : Obligations.ResetRegisterValues := by
  refine ⟨?_, ?_, ?_, by decide +kernel, by decide +kernel, by decide +kernel, by decide +kernel, ?_⟩
  · rintro o v (_ | ⟨_, _ | ⟨_, _ | ⟨_, _ | ⟨_, _ | ⟨_, h⟩⟩⟩⟩⟩)
    case tail.tail.tail.head => exact State.reset.pfReg_serial.1
    case tail.tail.tail.tail.head => exact State.reset.pfReg_serial.2
    case tail.tail.tail.tail.tail =>
      revert o v
      exact forall_of_forall_mem_pairs (by decide +kernel)
    all_goals decide +kernel
  · intro p hp
    refine forall_of_forall_mem_pairs ?_
    revert p
    decide +kernel
  · intro p i hp hi
    revert i
    revert p
    decide +kernel
  · intro f o v _ _
    rw [State.vfReg_reset]
    revert o v
    exact forall_of_forall_mem_pairs (by decide +kernel)

end Sys2Proof.Machine
end

section
/-! SUPPORT. Rules of the power controller: what a change of tier leaves alone, when a request of the sideband is
served, and when main conversion starts again. -/

namespace Sys2Proof.Machine

open Sys2Proof.Slice0

/-! ### Tiers -/

/-- What does not depend on the tier and its two counters, a change of tier leaves alone. -/
theorem Power.toTier_proj {α : Type} (f : Power → α)
    (hf : ∀ (p : Power) t a b, f { p with tier := t, tierAge := a, belowFor := b } = f p) (p : Power) (t : Nat) :
    f (p.toTier t) = f p := by
  unfold Power.toTier
  split
  · rfl
  · exact hf p t 0 0

theorem Power.deepen_tier (p : Power) (t : Nat) : (p.deepen t).tier = max p.tier t := p.toTier_tier _

/-- A tier at least as deep as the one that a cap asks for has a rated draw that meets it (R780, R782). -/
theorem ratedDraw_le {cap tier : Nat} (hcap : 450 ≤ cap) (h : tierFor cap ≤ tier) : ratedDraw tier ≤ cap := by
  unfold tierFor at h
  unfold ratedDraw
  split_ifs at * <;> omega

/-! ### Requests of the sideband -/

/-- Outside a restart of the curator a request is served (R731, R757). -/
theorem State.pldm_serves {s : State} (r : Pldm) (hon : s.ctl.state ≠ .off) (hup : s.serving = true → s.cur.up = true) :
    s.pldm r = s.pldmServe r := by
  have hwaits : ¬(s.serving && !s.cur.up) = true := by
    simp only [Bool.and_eq_true, Bool.not_eq_true', not_and, Bool.not_eq_false]
    exact hup
  rw [State.pldm, if_neg (by simpa using hon), if_neg hwaits]

/-- During a restart of the curator a request waits (R731). -/
theorem State.pldm_waits {s : State} (r : Pldm) (hserv : s.serving = true) (hup : s.cur.up = false) :
    s.pldm r = { s with cur := { s.cur with pldmWaits := s.cur.pldmWaits ++ [r] } } := by
  have hon : s.ctl.state ≠ .off := by
    rintro h
    simp [State.serving, h] at hserv
  rw [State.pldm, if_neg (by simpa using hon), if_pos (by simp [hserv, hup])]
  rfl

theorem State.powered_on {s : State} (h : s.powered = true) : s.ctl.state ≠ .off := by
  rintro h'
  simp [State.powered, h'] at h

theorem State.not_serving {s : State} (h : s.ctl.state = .off ∨ s.ctl.state = .standby) : s.serving = false := by
  rcases h with h | h <;> simp [State.serving, h]

/-! ### Main conversion -/

/-- From a power state `p` main conversion starts at once where it may, and else nothing but the power state and what
was sent has changed (R5, R786). -/
theorem State.mainUp_runsWith {s : State} (p : Power) (o : List Output) (hfor : p.standbyFor = s.pwr.standbyFor) :
    RunsWith s p o ({ s with pwr := p, outputs := o ++ s.outputs } : State).mainUp := by
  unfold RunsWith
  split
  · next h =>
    obtain ⟨hstate, hmain, hlock⟩ := h
    rw [State.mainUp_starts (s := { s with pwr := p, outputs := o ++ s.outputs }) hstate hmain hlock]
    exact State.enterBoot_bringUp_broughtUp hmain rfl hfor
  · next h =>
    refine if_neg ?_
    simpa [and_assoc] using h

/-- What may unlock main conversion, bit by bit (R786). -/
theorem Power.mayUnlock_eq (p : Power) :
    p.mayUnlock = { p with lockedOut := p.lockedOut && !(p.enableSet && !p.anyCause)
                           enableSet := p.enableSet && !(p.lockedOut && !p.anyCause) } := by
  unfold Power.mayUnlock
  generalize p.anyCause = cause
  obtain ⟨_, _, _, locked, set⟩ := p
  cases cause <;> cases locked <;> cases set <;> rfl

/-- The cause that clears leaves the power state of the statements behind (R784, R786). -/
theorem Power.causeOff_eq (p : Power) (b : Nat) :
    ({ p with causes := causeSet p.causes b false
              emergency := ({ p with causes := causeSet p.causes b false } : Power).anyCause } : Power).mayUnlock
      = clearedPower p b := by
  have hany (q : Power) : (!q.anyCause) = decide (q.causes &&& 0x7F#8 = 0#8) := Bool.not_not _
  rw [Power.mayUnlock_eq, hany]
  rfl

/-- EMERGENCY_CLEAR and LEAK_CLEAR_EXPIRY clear their bit of the causes. -/
theorem State.causeOff_pwr (s : State) (b : Nat) : s.causeOff b = { s with pwr := clearedPower s.pwr b } := by
  rw [← Power.causeOff_eq]
  rfl

end Sys2Proof.Machine
end

section
/-! PROOFS. Module reset, caps, tiers, emergencies and sensors. -/

namespace Sys2Proof.Machine

open Sys2Proof.Slice0

/-! ### Module reset -/

theorem State.own_gals_eq_of_offWire {t u : State} (h : t.offWire = u.offWire) : t.own = u.own ∧ t.gals = u.gals :=
  ⟨(congrArg State.own h :), (congrArg State.gals h :)⟩

/-- What entry to BOOT and bring-up leave (R23, R467, R773, R828). -/
theorem State.enterBoot_bringUp_frame (u : State) :
    u.enterBoot.bringUp.ctl.state = .boot ∧ u.enterBoot.bringUp.flash = u.flash
      ∧ u.enterBoot.bringUp.tel = u.flash.boot.standby (u.pwr.standbyFor / hourUpdates)
      ∧ u.enterBoot.bringUp.clk.locked = true ∧ u.enterBoot.bringUp.vault.initDone = true
      ∧ u.enterBoot.bringUp.vault.mem = [] ∧ u.enterBoot.bringUp.cat = Cat.reset
      ∧ u.enterBoot.bringUp.sec = Sec.reset ∧ u.enterBoot.bringUp.gals = []
      ∧ u.enterBoot.bringUp.own = OwnCtl.reset := by
  obtain ⟨hctl, -, hclk, hvault, hcat, hsec, hflash, htel⟩ := State.eq_of_offWire u.enterBoot.offWire_bringUp
  obtain ⟨hown, hgals⟩ := State.own_gals_eq_of_offWire u.enterBoot.offWire_bringUp
  rw [hctl, hclk, hvault, hcat, hsec, hflash, htel, hown, hgals]
  exact ⟨rfl, rfl, rfl, rfl, rfl, rfl, rfl, rfl, rfl, rfl⟩

/-- A hold-up record is the newest of the life-history store, of kind 2 with its reason (R775, R777, R828). -/
theorem State.holdUp_flash (s : State) (reason : Nat) :
    ∃ r, (s.holdUp reason).flash = { s.flash with lifeHistory := (r :: s.flash.lifeHistory).take 16384 }
      ∧ (r.drop 8).take 2 = [2, BitVec.ofNat 8 reason] :=
  ⟨_, rfl, State.record_kind _ _ _ _⟩

/-- Settles O12: with main power the request is a module reset, and without it nothing. -/
theorem moduleReset : Obligations.ModuleReset := by
  refine ⟨fun s hpow hup => ?_, fun s hoff => ?_⟩
  · have hexec : exec .moduleReset s = .next s.moduleReset :=
      congrArg Host.Outcome.next ((State.pldm_serves .moduleReset (State.powered_on hpow) hup).trans (if_pos hpow))
    obtain ⟨hstate, hflash, htel, hrest⟩ := (s.holdUp 5).enterBoot_bringUp_frame
    obtain ⟨r, hrecord, hkind⟩ := s.holdUp_flash 5
    refine ⟨_, hexec, hstate, ⟨r, hflash.trans hrecord, hkind, ?_⟩, hrest⟩
    rw [State.moduleReset, hflash, htel]
    rfl
  · have hserve : s.pldm .moduleReset = s := by
      unfold State.pldm
      split
      · rfl
      · rw [if_neg (by simp [State.not_serving hoff])]
        exact if_neg (by simp [State.powered_false hoff])
    exact congrArg Host.Outcome.next hserve

/-! ### Caps -/

/-- The power state with new caps, before the tier follows (R778, R782). -/
def Power.withCaps (p : Power) (bmc drv : Nat) : Power :=
  { p with bmcCap := bmc, drvCap := drv, capNotMet := decide (min bmc drv < p.sample.power) }

theorem Power.setCaps_eq (p : Power) (bmc drv : Nat) :
    p.setCaps bmc drv = if min bmc drv = min p.bmcCap p.drvCap then p.withCaps bmc drv
      else (p.withCaps bmc drv).deepen (tierFor (min bmc drv)) := rfl

/-- The caps that are set (R778). -/
theorem Power.setCaps_proj {α : Type} (f : Power → α)
    (hf : ∀ (p : Power) t a b, f { p with tier := t, tierAge := a, belowFor := b } = f p) (p : Power) (bmc drv : Nat) :
    f (p.setCaps bmc drv) = f (p.withCaps bmc drv) := by
  rw [Power.setCaps_eq]
  split
  · rfl
  · exact Power.toTier_proj f hf _ _

theorem Power.setCaps_drvCap (p : Power) (bmc drv : Nat) : (p.setCaps bmc drv).drvCap = drv :=
  Power.setCaps_proj _ (fun _ _ _ _ => rfl) p bmc drv

theorem Power.setCaps_bmcCap (p : Power) (bmc drv : Nat) : (p.setCaps bmc drv).bmcCap = bmc :=
  Power.setCaps_proj _ (fun _ _ _ _ => rfl) p bmc drv

theorem Power.setCaps_sample (p : Power) (bmc drv : Nat) : (p.setCaps bmc drv).sample = p.sample :=
  Power.setCaps_proj _ (fun _ _ _ _ => rfl) p bmc drv

theorem Power.le_setCaps_tier (p : Power) (bmc drv : Nat) : p.tier ≤ (p.setCaps bmc drv).tier := by
  rw [Power.setCaps_eq]
  split
  · exact Nat.le_refl _
  · rw [Power.deepen_tier]
    exact Nat.le_max_left _ _

/-- A change of the cap in force enters at least the tier whose rated draw meets it (R782 step 1). -/
theorem Power.tierFor_le_setCaps_tier (p : Power) {bmc drv : Nat} (h : min bmc drv ≠ min p.bmcCap p.drvCap) :
    tierFor (min bmc drv) ≤ (p.setCaps bmc drv).tier := by
  rw [Power.setCaps_eq, if_neg h, Power.deepen_tier]
  exact Nat.le_max_right _ _

/-- A cap of the board management controller that is served (R757, R778). -/
theorem exec_bmcPowerCap {s : State} (w : Nat) (hon : s.ctl.state ≠ .off) (hup : s.serving = true → s.cur.up = true) :
    exec (.bmcPowerCap w) s = .next (
      if w < 450 then { s with outputs := .i3c "ERROR_INVALID_DATA" [] :: s.outputs }
      else { s with pwr := s.pwr.setCaps (min w 1050) s.pwr.drvCap, outputs := .i3c "SUCCESS" [] :: s.outputs }) :=
  congrArg Host.Outcome.next (State.pldm_serves (.cap w) hon hup)

/-- No POWER_CAP waits: none is completed. -/
theorem State.capDone_none {s : State} (h : s.pwr.capToken = none) : s.capDone = s := by
  rw [State.capDone, h]

theorem State.capCheck_none {s : State} (h : s.pwr.capToken = none) : s.capCheck = s := by
  rw [State.capCheck, h]

theorem State.capDone_some {s : State} {t : Taken} {cap : Nat} (h : s.pwr.capToken = some (t, cap)) :
    s.capDone = ({ s with pwr := { s.pwr with capToken := none } } : State).complete t
      (if s.pwr.sample.power ≤ cap then stOk else stCapNotMet) (capReport s.pwr) := by
  rw [State.capDone, h]
  rfl

/-- A POWER_CAP that waits completes once the average meets its cap (R779). -/
theorem State.capCheck_some {s : State} {t : Taken} {cap : Nat} (h : s.pwr.capToken = some (t, cap)) :
    s.capCheck = if s.pwr.sample.power ≤ cap then
        ({ s with pwr := { s.pwr with capToken := none } } : State).complete t stOk (capReport s.pwr)
      else s := by
  rw [State.capCheck, h]
  refine if_ctx_congr Iff.rfl (fun hmet => ?_) fun _ => rfl
  rw [State.capDone_some h, if_pos hmet]

/-- A POWER_CAP that passes the checks of R709, with none that waits (R778, R779). -/
theorem exec_powerCap {s : State} {t : Taken} {b : Bytes} (ht : s.takenBy 0 (fun t => t.opcode == 0x30) = some t)
    (hr : Ready s t b) (hserv : s.serving = true) (hlen : t.paramLen = 0) (hargs : argZeroFrom t.args 18 = true)
    (hnone : s.pwr.capToken = none) :
    let p := s.pwr.setCaps s.pwr.bmcCap (if argLe t.args 16 2 = 0 then 1050 else min (argLe t.args 16 2) 1050)
    exec .powerCap s = .next (
      if 0 < argLe t.args 16 2 ∧ argLe t.args 16 2 < 450 then s.complete t stBelowFloor (capReport s.pwr)
      else (({ s with pwr := { p with capToken := some (t, p.drvCap) } } : State).startTaken t).capCheck) := by
  refine congrArg Host.Outcome.next ((State.runPf_ready ht hr (by simp [hlen]) hargs rfl (s.serving_state hserv)).trans ?_)
  dsimp only
  rw [State.capDone_none hnone]
  refine if_ctx_congr (by simp [Nat.pos_iff_ne_zero]) (fun _ => rfl) fun _ => ?_
  generalize hcap : (if argLe t.args 16 2 = 0 then 1050 else min (argLe t.args 16 2) 1050) = cap
  refine (congrArg State.capCheck ?_).trans (congrArg (fun c => State.capCheck (({ s with pwr :=
    { s.pwr.setCaps s.pwr.bmcCap cap with capToken := some (t, c) } } : State).startTaken t))
    (s.pwr.setCaps_drvCap s.pwr.bmcCap cap).symm)
  rw [← hcap]
  rfl

/-- Settles O13: the caps as they are set, and the POWER_CAP that waits, or ends at once. -/
theorem powerCaps : Obligations.PowerCaps := by
  refine ⟨fun p a b => ?_, fun w s hon hup => exec_bmcPowerCap w hon hup,
    fun s t b ht hr hserv hlen hargs hnone => ?_, fun s t cap h => congrArg Host.Outcome.next (State.capDone_some h)⟩
  · exact ⟨p.setCaps_bmcCap a b, p.setCaps_drvCap a b, p.le_setCaps_tier a b,
      fun hcap hnew => ratedDraw_le hcap (p.tierFor_le_setCaps_tier hnew)⟩
  · rw [exec_powerCap ht hr hserv hlen hargs hnone]
    refine congrArg Host.Outcome.next (if_ctx_congr Iff.rfl (fun _ => rfl) fun _ => ?_)
    generalize (if argLe t.args 16 2 = 0 then 1050 else min (argLe t.args 16 2) 1050) = cap
    have hsample := s.pwr.setCaps_sample s.pwr.bmcCap cap
    generalize s.pwr.setCaps s.pwr.bmcCap cap = p at *
    rw [State.capCheck_some rfl, ← hsample]
    exact if_ctx_congr Iff.rfl (fun _ => congrArg₂ (fun u v => State.complete u t stOk v) rfl rfl) fun _ => rfl

/-! ### The average -/

/-- An average is noted against the cap in force (R781). -/
def Power.noted (p : Power) (x : Sample) : Power :=
  { p with sample := x, capNotMet := decide (p.cap < x.power), tierAge := min (p.tierAge + 1) 100 }

/-- Over the cap the tier deepens, if it is 1 ms old (R782 step 2). -/
theorem Power.average_above (p : Power) {x : Sample} (h : p.cap < x.power) :
    p.average x = if p.tierAge < 99 then { p.noted x with belowFor := 0 }
      else ({ p.noted x with belowFor := 0 } : Power).toTier (min 3 (p.tier + 1)) := by
  have hage : min (p.tierAge + 1) 100 < 100 ↔ p.tierAge < 99 := by omega
  exact (if_pos (decide_eq_true h)).trans (if_congr hage rfl rfl)

/-- Well below the cap for 10 ms the tier becomes shallower, down to the floor (R782 steps 3 and 4). -/
theorem Power.average_below (p : Power) {x : Sample} (h : x.power + 200 ≤ p.cap) :
    p.average x = if 999 ≤ p.belowFor ∧ p.floor < p.tier then
        ({ p.noted x with belowFor := min (p.belowFor + 1) 1000 } : Power).toTier (p.tier - 1)
      else { p.noted x with belowFor := min (p.belowFor + 1) 1000 } := by
  have hcap : ¬decide (p.cap < x.power) = true := by
    rw [decide_eq_true_eq]
    omega
  have hfor : 1000 ≤ min (p.belowFor + 1) 1000 ↔ 999 ≤ p.belowFor := by omega
  have hgo : (decide (1000 ≤ min (p.belowFor + 1) 1000) && decide (p.floor < p.tier)) = true
      ↔ 999 ≤ p.belowFor ∧ p.floor < p.tier := by
    rw [Bool.and_eq_true, decide_eq_true_eq, decide_eq_true_eq, hfor]
  exact ((if_neg hcap).trans (if_pos h)).trans (if_congr hgo rfl rfl)

/-- At the cap, or less than 200 W below it, the tier stays. -/
theorem Power.average_between (p : Power) {x : Sample} (hcap : x.power ≤ p.cap) (h : p.cap < x.power + 200) :
    p.average x = { p.noted x with belowFor := 0 } := by
  have hover : ¬decide (p.cap < x.power) = true := by
    rw [decide_eq_true_eq]
    omega
  exact (if_neg hover).trans (if_neg (Nat.not_le.2 h))

/-- What does not depend on the tier and its two counters is as it was noted. -/
theorem Power.average_proj {α : Type} (f : Power → α)
    (hf : ∀ (p : Power) t a b, f { p with tier := t, tierAge := a, belowFor := b } = f p) (p : Power) (x : Sample) :
    f (p.average x) = f (p.noted x) := by
  have hbelow (n : Nat) : f { p.noted x with belowFor := n } = f (p.noted x) := hf (p.noted x) _ _ n
  rcases Nat.lt_or_ge p.cap x.power with habove | hcap
  · rw [p.average_above habove]
    split
    · exact hbelow 0
    · exact (Power.toTier_proj f hf _ _).trans (hbelow 0)
  · rcases Nat.lt_or_ge p.cap (x.power + 200) with h | h
    · rw [p.average_between hcap h]
      exact hbelow 0
    · rw [p.average_below h]
      split
      · exact (Power.toTier_proj f hf _ _).trans (hbelow _)
      · exact hbelow _

/-- The 1 s window and the time in STANDBY touch only what they count (R666, R828). -/
theorem Power.window_inStandby_frame (p : Power) (x : Sample) (yes : Bool) :
    ((p.window x).inStandby yes).sample = p.sample ∧ ((p.window x).inStandby yes).capNotMet = p.capNotMet
      ∧ ((p.window x).inStandby yes).capToken = p.capToken ∧ ((p.window x).inStandby yes).tier = p.tier := by
  unfold Power.inStandby Power.window
  dsimp only
  split_ifs <;> exact ⟨rfl, rfl, rfl, rfl⟩

/-- An average update moves the telemetry alone. -/
theorem State.lifeTick_eq (s : State) : s.lifeTick = { s with tel := s.lifeTick.tel } := by
  unfold State.lifeTick
  split <;> rfl

/-- An average update in a module that is on, with no POWER_CAP that waits (R781). -/
theorem exec_powerAverageUpdate {s : State} (x : Sample) (hon : s.ctl.state ≠ .off) (hnone : s.pwr.capToken = none) :
    ∃ t, exec (.powerAverageUpdate x) s = .next t ∧ t = { s with pwr := t.pwr, tel := t.tel }
      ∧ t.pwr = ((s.pwr.average x).window x).inStandby (s.ctl.state == .standby) := by
  have hkept := Power.average_proj Power.capToken (fun _ _ _ _ => rfl) s.pwr x
  obtain ⟨-, -, htoken, -⟩ := (s.pwr.average x).window_inStandby_frame x (s.ctl.state == .standby)
  have hwait := htoken.trans (hkept.trans hnone)
  have hexec : exec (.powerAverageUpdate x) s = _ := if_neg (by simpa using hon)
  refine ⟨_, hexec, ?_⟩
  generalize hp : ((s.pwr.average x).window x).inStandby (s.ctl.state == .standby) = p at *
  have hu : s.modPwr (fun p => ((p.average x).window x).inStandby (s.ctl.state == .standby)) = { s with pwr := p } := by
    rw [← hp]
    rfl
  rw [hu, State.capCheck_none]
  · split
    · rw [State.lifeTick_eq]
      exact ⟨rfl, rfl⟩
    · exact ⟨rfl, rfl⟩
  · split
    · rw [State.lifeTick_eq]
      exact hwait
    · exact hwait

/-- Settles O14: what the window counts leaves what the average did. -/
theorem tierFollowsAverage : Obligations.TierFollowsAverage := by
  intro s x hon hnone
  obtain ⟨t, hexec, hframe, hpwr⟩ := exec_powerAverageUpdate x hon hnone
  obtain ⟨hsample, hmet, -, htier⟩ := (s.pwr.average x).window_inStandby_frame x (s.ctl.state == .standby)
  refine ⟨t, hexec, hframe, ?_⟩
  rw [hpwr, hsample, hmet, htier]
  refine ⟨Power.average_proj Power.sample (fun _ _ _ _ => rfl) s.pwr x,
    Power.average_proj Power.capNotMet (fun _ _ _ _ => rfl) s.pwr x, fun h => ?_, fun h => ?_, fun hle h => ?_⟩
  · rw [s.pwr.average_above h, apply_ite Power.tier, Power.toTier_tier]
    rfl
  · rw [s.pwr.average_below h, apply_ite Power.tier, Power.toTier_tier]
    rfl
  · rw [s.pwr.average_between hle h]
    rfl

/-! ### Emergencies -/

/-- The power state with a cause of R784 that has become active, before the tier follows (R785). -/
def Power.withCause (p : Power) (b : Nat) : Power :=
  { p with causes := p.causes ||| BitVec.ofNat 8 (2 ^ b), emergency := true }

theorem State.causeOn_eq (s : State) (b : Nat) :
    s.causeOn b = { s with pwr := (s.pwr.withCause b).deepen 3, cur := { s.cur with hold := true } } := rfl

/-- A cause sets its bit and the emergency, and the tier is at least T3 (R784, R785). -/
theorem Power.withCause_deepen (p : Power) (b : Nat) :
    ((p.withCause b).deepen 3).causes = p.causes ||| BitVec.ofNat 8 (2 ^ b)
      ∧ ((p.withCause b).deepen 3).emergency = true ∧ ((p.withCause b).deepen 3).tier = max p.tier 3 :=
  ⟨Power.toTier_causes _ _, Power.toTier_emergency _ _, Power.deepen_tier _ _⟩

/-- The power state with the fast-throttle input asserted, before the tier follows (R793). -/
def Power.throttled (p : Power) : Power := { p with fthr := true, fthrHold := true }

theorem Power.throttled_deepen (p : Power) :
    (p.throttled.deepen 3).fthr = true ∧ (p.throttled.deepen 3).tier = max p.tier 3
      ∧ (p.throttled.deepen 3).causes = p.causes :=
  ⟨Power.toTier_proj _ (fun _ _ _ _ => rfl) _ _, Power.deepen_tier _ _, Power.toTier_causes _ _⟩

/-- Settles O15: each cause sets or clears its bit, and main conversion may run again with the last one cleared. -/
theorem emergencies : Obligations.Emergencies := by
  refine ⟨fun s c hon hheard => ?_, fun s c hon => ?_, fun s hown => ?_, fun s hleak => ?_, fun s hown => ?_,
    fun s => rfl⟩
  · have hgo : ¬(s.ctl.state == .off || s.pwr.ignored c) = true := by simpa [hheard] using hon
    exact ⟨_, (if_neg hgo).trans (congrArg Host.Outcome.next (s.causeOn_eq _)), rfl, s.pwr.withCause_deepen _⟩
  · refine ⟨_, if_neg (by simpa using hon), ?_⟩
    rw [State.causeOff_pwr]
    exact State.mainUp_runsWith _ [] rfl
  · obtain ⟨hcauses, hem, htier⟩ := s.pwr.withCause_deepen 6
    exact ⟨{ s with pwr := { (s.pwr.withCause 6).deepen 3 with leakIn := true }, cur := { s.cur with hold := true } },
      if_neg (by simp [hown]), rfl, hcauses, hem, htier, rfl⟩
  · refine ⟨_, if_neg (by simp [hleak]), ?_⟩
    rw [State.causeOff_pwr]
    exact State.mainUp_runsWith { clearedPower s.pwr 6 with leakIn := false } [] rfl
  · exact ⟨{ s with pwr := s.pwr.throttled.deepen 3 }, if_neg (by simp [hown]), rfl, s.pwr.throttled_deepen⟩

end Sys2Proof.Machine
end

section
/-! PROOFS. Sensors, the reference and clock settings, clock enables, and shared pins. -/

namespace Sys2Proof.Machine

open Sys2Proof.Slice0

/-! ### Sensors and main enable -/

/-- The power state with a sensor that has failed, before the tier follows (R772). -/
def Power.withFail (p : Power) (x : Sensor) : Power :=
  { p with sensorFail := p.sensorFail ||| BitVec.ofNat 5 (2 ^ sensorBit x) }

theorem Power.withFail_bit (p : Power) (x : Sensor) : bitN (p.withFail x).sensorFail (sensorBit x) = true := by
  unfold bitN Power.withFail
  rw [BitVec.getLsbD_or]
  cases x <;> exact Bool.or_eq_true_iff.2 (.inr (by decide))

/-- Two failed coolant sensors ask for T1 at least (R772). -/
theorem Power.one_le_floor (p : Power) (hinlet : bitN p.sensorFail 3 = true) (houtlet : bitN p.sensorFail 4 = true) :
    1 ≤ p.floor := by
  unfold Power.floor
  split
  · decide
  · rw [if_pos (by rw [hinlet, houtlet]; rfl)]

/-- A failed sensor shows in its bit, and the tier is at least the floor that it asks for (R772). -/
theorem Power.withFail_deepen (p : Power) (x : Sensor) :
    bitN ((p.withFail x).deepen (p.withFail x).floor).sensorFail (sensorBit x) = true
      ∧ (bitN ((p.withFail x).deepen (p.withFail x).floor).sensorFail 3 = true →
        bitN ((p.withFail x).deepen (p.withFail x).floor).sensorFail 4 = true →
        1 ≤ ((p.withFail x).deepen (p.withFail x).floor).tier) := by
  have hfail : ((p.withFail x).deepen (p.withFail x).floor).sensorFail = (p.withFail x).sensorFail :=
    Power.toTier_proj _ (fun _ _ _ _ => rfl) _ _
  rw [hfail, Power.deepen_tier]
  exact ⟨p.withFail_bit x, fun h3 h4 => (Power.one_le_floor _ h3 h4).trans (Nat.le_max_right _ _)⟩

/-- MAIN_ENABLE unlocks main conversion once no cause is left (R786). -/
theorem Power.enable_eq (p : Power) :
    ({ p with enableSet := p.lockedOut } : Power).mayUnlock
      = if p.lockedOut = true ∧ p.causes &&& 0x7F#8 = 0#8 then { p with lockedOut := false, enableSet := false }
        else { p with enableSet := p.lockedOut } := by
  refine if_ctx_congr ?_ (fun _ => rfl) fun _ => rfl
  simp [Power.anyCause]

/-- Settles O16: each report is one bit, and MAIN_ENABLE is served by the power state that it leaves. -/
theorem senseAndSensors : Obligations.SenseAndSensors := by
  refine ⟨fun s hon => if_neg (by simpa using hon), fun s short hfault => if_neg (by simp [hfault]),
    fun s hon => if_neg (by simpa using hon), fun s x hon => ?_, fun s hon hup => ?_⟩
  · exact ⟨{ s with pwr := (s.pwr.withFail x).deepen (s.pwr.withFail x).floor }, if_neg (by simpa using hon), rfl,
      s.pwr.withFail_deepen x⟩
  · refine ⟨_, congrArg Host.Outcome.next (State.pldm_serves .mainEnable hon hup), ?_⟩
    rw [← Power.enable_eq]
    refine State.mainUp_runsWith (({ s.pwr with enableSet := s.pwr.lockedOut } : Power).mayUnlock) [.i3c "SUCCESS" []] ?_
    rw [Power.mayUnlock_eq]

/-! ### Clocks -/

/-- The lower half of CLK_CTL: the reference, and the flag of a refused write (R788, R798). -/
theorem State.clkCtl_lower (s : State) (v : Word) :
    (s.clkCtl v true false).clk = { s.clk with
      refNow := (s.clkCtl v true false).clk.refNow, refPort := fieldN v 8 6, revert := bitN v 2
      refSel := if fieldN v 0 2 = 1 then 1 else 0, refused := s.clk.refused && !bitN v 14 } := rfl

/-- In SERVICE the upper half sets the frequencies, within their limits (R790, R798). -/
theorem State.clkCtl_service {s : State} (v : Word) (h : s.ctl.state = .service) :
    s.clkCtl v true true = { s with clk := { (s.clkCtl v true false).clk with
      curF := max 10 (min 40 (fieldN v 48 8)), vaultF := max 20 (min 40 (fieldN v 40 8))
      coreF := max 28 (min 56 (fieldN v 32 8)) } } :=
  if_neg (c := (s.ctl.state != .service) = true) (by simp [h])

/-- Anywhere else it sets `refused` alone (R790). -/
theorem State.clkCtl_refused {s : State} (v : Word) (h : s.ctl.state ≠ .service) :
    s.clkCtl v true true = { s with clk := { (s.clkCtl v true false).clk with refused := true } } :=
  if_pos (c := (s.ctl.state != .service) = true) (by simpa using h)

/-- Settles O17: the write reaches both halves, of which the upper one sets frequencies in SERVICE alone. -/
theorem clockSettings : Obligations.ClockSettings := by
  refine ⟨fun s v hopen => ?_, fun s c href => if_neg (by simp [href]), fun s hnow hsel hrev hport hup => ?_⟩
  · have hexec : exec (.clkCtlWrite v) s = .next (s.clkCtl v true true) := if_neg (by simp [hopen])
    by_cases hserv : s.ctl.state = .service
    · rw [hexec, State.clkCtl_service v hserv, State.clkCtl_lower]
      exact ⟨_, rfl, rfl, rfl, rfl, rfl, fun _ => ⟨rfl, rfl, rfl, rfl⟩, fun h => absurd hserv h⟩
    · rw [hexec, State.clkCtl_refused v hserv, State.clkCtl_lower]
      exact ⟨_, rfl, rfl, rfl, rfl, rfl, fun h => absurd h hserv, fun _ => ⟨rfl, rfl, rfl, rfl⟩⟩
  · refine if_pos ?_
    rcases hup with hup | hup <;> simp [State.refUp, hnow, hsel, hrev, hport, hup]

/-- Clock enables outside SERVICE: those that a write clears stay set, and the write is noted (R791). -/
theorem gateWrite_clears {n : Nat} {old new : BitVec n} (h : old &&& ~~~new ≠ 0#n) :
    gateWrite false old new = (old ||| new, true) := if_neg (by simpa using h)

theorem gateWrite_service {n : Nat} (old new : BitVec n) : gateWrite true old new = (new, false) := rfl

/-- A write of CLK_EN: the enables, and the flag of a refused write (R791, R800). -/
theorem State.clkEn_full (s : State) (v : Word) :
    s.clkEn v true true = { s with clk := { s.clk with
      blocks := (gateWrite (s.ctl.state == .service) s.clk.blocks (v.setWidth 6)).1
      enRefused := (s.clk.enRefused && !bitN v 63)
        || (gateWrite (s.ctl.state == .service) s.clk.blocks (v.setWidth 6)).2 } } := by
  unfold State.clkEn
  cases bitN v 63
  · rw [Bool.not_false, Bool.and_true]
    rfl
  · rw [Bool.not_true, Bool.and_false]
    rfl

/-- The ports that a write of CLK_EN_PORT gates or clocks again leave the clock settings (R791). -/
theorem State.clkEnPort_clk (s : State) (ports : BitVec 48) :
    (s.clkEnPort ports).clk = { s.clk with
      ports := (gateWrite (s.ctl.state == .service) s.clk.ports ports).1
      enRefused := s.clk.enRefused || (gateWrite (s.ctl.state == .service) s.clk.ports ports).2 } := by
  refine foldl_same State.clk _ (fun u p => ?_) _ _
  split_ifs
  · exact (State.gatePort_keeps p (Keeps.refl Part.all u)).clk rfl
  · exact (State.startTraining_keeps p (Keeps.refl Part.all u)).clk rfl
  · rfl

theorem State.driveAll_clk (s : State) : s.driveAll.clk = s.clk :=
  (State.driveAll_keeps (Keeps.refl Part.all s)).clk rfl

/-- Settles O18: what a write keeps set (log 48), and the ports that it gates or clocks again, which leave the
settings. -/
theorem clockEnables : Obligations.ClockEnables := by
  refine ⟨fun s v hopen => ?_, fun s v hopen => ?_⟩
  · have hexec : exec (.clkEnWrite false v) s = .next (s.clkEn v true true) := if_neg (by simp [hopen])
    rw [hexec, State.clkEn_full]
    refine ⟨_, rfl, rfl, fun hserv => ?_, fun hserv hclear => ?_⟩
    · rw [hserv, beq_self_eq_true, gateWrite_service]
      exact ⟨rfl, Bool.or_false _⟩
    · rw [beq_false_of_ne hserv, gateWrite_clears hclear]
      exact ⟨rfl, Bool.or_true _⟩
  · have hexec : exec (.clkEnWrite true v) s = .next (s.clkEnPort (v.setWidth 48)).driveAll := if_neg (by simp [hopen])
    refine ⟨_, hexec, fun hserv => ?_, fun hserv hclear => ?_⟩
    · rw [State.driveAll_clk, State.clkEnPort_clk, hserv, beq_self_eq_true, gateWrite_service]
      simp
    · rw [State.driveAll_clk, State.clkEnPort_clk, beq_false_of_ne hserv, gateWrite_clears hclear]
      simp

/-! ### Shared pins -/

/-- One feature of OWN_CTL is looked at: it has its enable, or is refused, or takes its resources (R793). -/
def grantStep (want : BitVec 8) (x : BitVec 8 × Bool) (b : Nat) : BitVec 8 × Bool :=
  if !bitN want b || bitN x.1 b then x
  else if (rivals b).any fun r => bitN x.1 r then (x.1, true)
  else (x.1 ||| BitVec.ofNat 8 (2 ^ b), x.2)

theorem ownGrant_eq (old want : BitVec 8) :
    ownGrant old want = (List.range 8).foldl (grantStep want) (old &&& want, false) := rfl

/-- What one step can do: nothing, or refuse, or grant a feature that is asked for and has no rival (R793). -/
theorem grantStep_cases (want : BitVec 8) (x : BitVec 8 × Bool) (b : Nat) :
    grantStep want x b = x ∧ (bitN want b = true → bitN x.1 b = true)
      ∨ grantStep want x b = (x.1, true)
      ∨ grantStep want x b = (x.1 ||| BitVec.ofNat 8 (2 ^ b), x.2) ∧ bitN want b = true
        ∧ ∀ r ∈ rivals b, bitN x.1 r = false := by
  unfold grantStep
  by_cases hhas : (!bitN want b || bitN x.1 b) = true
  · rw [if_pos hhas]
    refine .inl ⟨rfl, fun hwant => ?_⟩
    simpa [hwant] using hhas
  · rw [if_neg hhas]
    by_cases hrival : ((rivals b).any fun r => bitN x.1 r) = true
    · rw [if_pos hrival]
      exact .inr (.inl rfl)
    · rw [if_neg hrival]
      refine .inr (.inr ⟨rfl, by simp at hhas; exact hhas.1, by simpa using hrival⟩)

/-- A granted bit is the feature's own. -/
theorem bitN_grant (x : BitVec 8) {b c : Nat} :
    bitN (x ||| BitVec.ofNat 8 (2 ^ b)) c = true ↔ bitN x c = true ∨ c = b ∧ c < 8 := by
  unfold bitN
  rw [BitVec.getLsbD_or, Bool.or_eq_true, BitVec.getLsbD_ofNat, Nat.testBit_two_pow, Bool.and_eq_true,
    decide_eq_true_eq, decide_eq_true_eq, and_comm, eq_comm (a := b) (b := c)]

/-- Two features that contend are rivals of each other, each with a bit of OWN_CTL (R792). -/
theorem rivals_of_contend {a b : Nat} (h : contend a b = true) : b ∈ rivals a ∧ a ∈ rivals b ∧ a < 8 ∧ b < 8 := by
  simp only [contend, List.any_cons, List.any_nil, Bool.or_false, Bool.or_eq_true, decide_eq_true_eq,
    Prod.mk.injEq] at h
  rcases h with (⟨rfl, rfl⟩ | ⟨rfl, rfl⟩) | (⟨rfl, rfl⟩ | ⟨rfl, rfl⟩) | (⟨rfl, rfl⟩ | ⟨rfl, rfl⟩)
    | (⟨rfl, rfl⟩ | ⟨rfl, rfl⟩) | (⟨rfl, rfl⟩ | ⟨rfl, rfl⟩) <;> decide

theorem contend_irrefl {a : Nat} : contend a a ≠ true := by
  simp [contend]
  omega

/-- No two features that contend are enabled together. -/
def Peaceful (en : BitVec 8) : Prop := ∀ a b, contend a b = true → ¬(bitN en a = true ∧ bitN en b = true)

/-! What one step of the grant keeps, and what it says of its own feature. -/

theorem grantStep_asked {want : BitVec 8} {x : BitVec 8 × Bool} {b c : Nat}
    (h : bitN (grantStep want x b).1 c = true) : bitN x.1 c = true ∨ bitN want c = true := by
  obtain ⟨hstep, -⟩ | hstep | ⟨hstep, hwant, -⟩ := grantStep_cases want x b <;> rw [hstep] at h
  · exact .inl h
  · exact .inl h
  · rcases (bitN_grant x.1).1 h with hx | ⟨rfl, -⟩
    · exact .inl hx
    · exact .inr hwant

theorem grantStep_keeps {want : BitVec 8} {x : BitVec 8 × Bool} {c : Nat} (b : Nat) (h : bitN x.1 c = true) :
    bitN (grantStep want x b).1 c = true := by
  obtain ⟨hstep, -⟩ | hstep | ⟨hstep, -, -⟩ := grantStep_cases want x b <;> rw [hstep]
  · exact h
  · exact h
  · exact (bitN_grant x.1).2 (.inl h)

theorem grantStep_conflict {want : BitVec 8} {x : BitVec 8 × Bool} (b : Nat) (h : x.2 = true) :
    (grantStep want x b).2 = true := by
  obtain ⟨hstep, -⟩ | hstep | ⟨hstep, -, -⟩ := grantStep_cases want x b <;> rw [hstep]
  · exact h
  · exact h

/-- A feature that is granted has no rival among the enabled ones, so none that contends with it (R792). -/
theorem grantStep_peaceful {want : BitVec 8} {x : BitVec 8 × Bool} (b : Nat) (h : Peaceful x.1) :
    Peaceful (grantStep want x b).1 := by
  obtain ⟨hstep, -⟩ | hstep | ⟨hstep, -, hfree⟩ := grantStep_cases want x b <;> rw [hstep]
  · exact h
  · exact h
  · rintro c d hcd ⟨hc, hd⟩
    obtain ⟨hdc, hcd', -, -⟩ := rivals_of_contend hcd
    rcases (bitN_grant x.1).1 hc with hc' | ⟨rfl, -⟩ <;> rcases (bitN_grant x.1).1 hd with hd' | ⟨rfl, -⟩
    · exact h c d hcd ⟨hc', hd'⟩
    · exact Bool.false_ne_true ((hfree c hcd').symm.trans hc')
    · exact Bool.false_ne_true ((hfree d hdc).symm.trans hd')
    · exact contend_irrefl hcd

/-- A feature that is asked for and does not get its enable is refused (R793). -/
theorem grantStep_refuses {want : BitVec 8} {x : BitVec 8 × Bool} {b : Nat} (hwant : bitN want b = true)
    (h : bitN (grantStep want x b).1 b = false) : (grantStep want x b).2 = true := by
  obtain ⟨hstep, hhas⟩ | hstep | ⟨hstep, -, -⟩ := grantStep_cases want x b <;> rw [hstep] at h ⊢
  · exact absurd (h.symm.trans (hhas hwant)) Bool.false_ne_true
  · have hgot := (bitN_grant x.1).2 (.inr ⟨rfl, BitVec.lt_of_getLsbD hwant⟩)
    exact absurd (h.symm.trans hgot) Bool.false_ne_true

theorem foldl_grantStep_refuses {want : BitVec 8} {b : Nat} (hwant : bitN want b = true) :
    ∀ (l : List Nat) (x : BitVec 8 × Bool), b ∈ l → bitN (l.foldl (grantStep want) x).1 b = false →
      (l.foldl (grantStep want) x).2 = true
  | c :: l, x, hmem, h => by
    by_cases hbc : b = c
    · subst hbc
      have hnot : bitN (grantStep want x b).1 b = false := by
        by_contra hgot
        refine absurd (h.symm.trans ?_) Bool.false_ne_true
        exact List.foldlRecOn (motive := fun y : BitVec 8 × Bool => bitN y.1 b = true) l (grantStep want)
          (Bool.eq_true_of_not_eq_false hgot) fun y hy d _ => grantStep_keeps d hy
      exact List.foldlRecOn (motive := fun y : BitVec 8 × Bool => y.2 = true) l (grantStep want)
        (grantStep_refuses hwant hnot) fun y hy d _ => grantStep_conflict d hy
    · exact foldl_grantStep_refuses hwant l _ ((List.mem_cons.1 hmem).resolve_left hbc) h

/-! The grant as a whole. -/

theorem ownGrant_asked {old want : BitVec 8} {b : Nat} (h : bitN (ownGrant old want).1 b = true) :
    bitN want b = true := by
  revert h
  rw [ownGrant_eq]
  refine List.foldlRecOn (motive := fun y : BitVec 8 × Bool => bitN y.1 b = true → bitN want b = true) _ _ ?_ ?_
  · intro h
    rw [bitN, BitVec.getLsbD_and, Bool.and_eq_true] at h
    exact h.2
  · exact fun y hy c _ h => (grantStep_asked h).elim hy id

theorem ownGrant_keeps {old want : BitVec 8} {b : Nat} (hold : bitN old b = true) (hwant : bitN want b = true) :
    bitN (ownGrant old want).1 b = true := by
  rw [ownGrant_eq]
  refine List.foldlRecOn (motive := fun y : BitVec 8 × Bool => bitN y.1 b = true) _ _ ?_ fun y hy c _ =>
    grantStep_keeps c hy
  rw [bitN, BitVec.getLsbD_and, Bool.and_eq_true]
  exact ⟨hold, hwant⟩

theorem ownGrant_peaceful {old : BitVec 8} (want : BitVec 8) (h : Peaceful old) :
    Peaceful (ownGrant old want).1 := by
  rw [ownGrant_eq]
  refine List.foldlRecOn (motive := fun y : BitVec 8 × Bool => Peaceful y.1) _ _ ?_ fun y hy c _ =>
    grantStep_peaceful c hy
  rintro a b hab ⟨ha, hb⟩
  rw [bitN, BitVec.getLsbD_and, Bool.and_eq_true] at ha hb
  exact h a b hab ⟨ha.1, hb.1⟩

theorem ownGrant_refuses {old want : BitVec 8} {b : Nat} (hb : b < 8) (hwant : bitN want b = true)
    (h : bitN (ownGrant old want).1 b = false) : (ownGrant old want).2 = true := by
  rw [ownGrant_eq] at h ⊢
  exact foldl_grantStep_refuses hwant _ _ (List.mem_range.2 hb) h

/-- A write of OWN_CTL changes its register, and ends the floor of an input that has lost its owner (R793, R801). -/
theorem State.ownCtl_eq (s : State) (v : Word) :
    s.ownCtl v = { s with
      pwr := (s.ownCtl v).pwr
      own := { conflict := (s.own.conflict && !bitN v 63) || (ownGrant s.own.en (v.setWidth 8)).2
               tickDiv := if fieldN v 32 24 = 0 then 1 else fieldN v 32 24
               en := (ownGrant s.own.en (v.setWidth 8)).1 } } := by
  unfold State.ownCtl
  dsimp only
  split <;> rfl

theorem bitN_setWidth_8 (v : Word) {b : Nat} : bitN (v.setWidth 8) b = true ↔ b < 8 ∧ bitN v b = true := by
  unfold bitN
  rw [BitVec.getLsbD_setWidth, Bool.and_eq_true, decide_eq_true_eq]

/-- Settles O19: what the grant says of each feature, step by step through the priorities of R793. -/
theorem sharedPins : Obligations.SharedPins := by
  intro s v hopen
  refine ⟨s.ownCtl v, if_neg (by simp [hopen]), ?_⟩
  rw [State.ownCtl_eq]
  refine ⟨rfl, rfl, fun b h => ((bitN_setWidth_8 v).1 (ownGrant_asked h)).2, fun h => ownGrant_peaceful _ h,
    fun b hb hv h => ?_, fun b hold hv => ?_⟩
  · show (_ || _) = true
    rw [ownGrant_refuses hb ((bitN_setWidth_8 v).2 ⟨hb, hv⟩) h, Bool.or_true]
  · exact ownGrant_keeps hold ((bitN_setWidth_8 v).2 ⟨BitVec.lt_of_getLsbD hold, hv⟩)

end Sys2Proof.Machine
end

section
/-! PROOFS. The sideband and the service port. -/

namespace Sys2Proof.Machine

open Sys2Proof.Slice0

/-! ### The sideband -/

/-- There are eight sensors (R757). -/
theorem sensorValue_none (x : Sample) : ∀ {n : Nat}, 8 ≤ n → sensorValue x n = none
  | _ + 8, _ => rfl

/-- A request of the sideband that waits for the end of a restart, with the command that brings it (R731). -/
theorem exec_pldm_waits {s : State} {c : Instr} {r : Pldm} (hc : exec c s = .next (s.pldm r)) (hserv : s.serving = true)
    (hup : s.cur.up = false) :
    exec c s = .next { s with cur := { s.cur with pldmWaits := s.cur.pldmWaits ++ [r] } } := by
  rw [hc, State.pldm_waits r hserv hup]

/-- Settles O35: an answer is one record of what has been sent, and a request that waits joins the list. -/
theorem sideband : Obligations.Sideband := by
  refine ⟨fun s c bs hon => if_neg (by simpa using hon), fun s hon hup => ⟨?_, fun n hn => ?_, ?_⟩,
    fun s n hserv hup => ?_, fun s hup => ⟨if_pos hup, fun c bs h1 h2 => if_pos ?_⟩⟩
  · exact congrArg Host.Outcome.next (State.pldm_serves (.sensor 3) hon hup)
  · refine congrArg Host.Outcome.next ((State.pldm_serves (.sensor n) hon hup).trans ?_)
    rw [State.pldmServe, sensorValue_none _ hn]
    rfl
  · exact congrArg Host.Outcome.next (State.pldm_serves .fru hon hup)
  · exact ⟨exec_pldm_waits rfl hserv hup, exec_pldm_waits rfl hserv hup, exec_pldm_waits rfl hserv hup,
      exec_pldm_waits rfl hserv hup, exec_pldm_waits rfl hserv hup⟩
  · rw [hup, bne_iff_ne.2 h1, bne_iff_ne.2 h2]
    rfl

/-! ### The service port -/

/-- The port answers for the address of its lease (R752). -/
theorem State.svcHears_lease {s : State} {a : BitVec 32} (hpow : s.powered = true) (hlease : s.svc.lease = some a) :
    s.svcHears a = true := by
  simp [State.svcHears, SvcPort.address, hpow, hlease]

/-- With no transfer that runs a request is served (R753). -/
theorem State.tftpRequest_free {s : State} (h : s.svc.tftp.active = false) (f : State → State) :
    s.tftpRequest f = f s := by
  simp [State.tftpRequest, State.tftpBusy, h]

/-- A transfer that runs is retransmitted at most five times (R753). -/
theorem exec_tftpRetransmit {s : State} (h : s.svc.tftp.active = true) :
    exec .tftpRetransmit s = .next (
      if s.svc.tftp.retransmits < 5 then
        { s with svc := { s.svc with tftp := { active := true, retransmits := s.svc.tftp.retransmits + 1 } },
                 outputs := .svc "TFTP_RETRANSMIT" [] :: s.outputs }
      else { s with svc := { s.svc with tftp := { active := false, retransmits := 0 } } }) := by
  have hrun : exec .tftpRetransmit s = _ := if_neg (by simp [h])
  rw [hrun, apply_ite Host.Outcome.next]
  refine if_ctx_congr Iff.rfl (fun _ => ?_) fun _ => rfl
  rw [← h]
  rfl

/-- The verification of an image reads the keys and fuses alone (R738). -/
theorem Flash.verify_imageArea (f : Flash) (a : FlashArea) (b : Bytes) (readOk : Bool) :
    ({ f with imageArea := a } : Flash).verify b readOk = f.verify b readOk := rfl

/-- In RECOVERY a written image is verified, and boots or leaves flash alone (R755). -/
theorem exec_tftpWriteImage {s : State} {image : Bytes} (hstate : s.ctl.state = .recovery)
    (hfree : s.svc.tftp.active = false) (hlen : image.length ≤ stagingBytes) :
    ∃ u : State, u.ctl = s.ctl ∧ u.flash = s.flash ∧
      exec (.tftpWriteImage image true) s = .next (
        if s.flash.verify image true = stOk then u.recoverWrite image true
        else (u.recoverySet (s.flash.verify image true)).svcOut "TFTP_ERROR_0"
          (ascii (statusName (s.flash.verify image true)))) := by
  have hgo : ¬(s.ctl.state != .recovery) = true := by simp [hstate]
  refine ⟨(s.modSvc fun v => { v with tftp := { active := false, retransmits := 0 } }).vmWrite vpaStaging image, rfl,
    rfl, (if_neg hgo).trans (congrArg Host.Outcome.next ?_)⟩
  rw [State.tftpRequest_free hfree, List.take_of_length_le hlen]
  rfl

/-- An image that verifies becomes the image area, and the module is reset (R755). -/
theorem State.recoverWrite_ok {u : State} {image : Bytes} (h : u.flash.verify image true = stOk) :
    ∃ v : State, u.recoverWrite image true = v.moduleReset
      ∧ v.flash = { u.flash with imageArea := FlashArea.hold image, activation := none, stagedArea := FlashArea.empty } :=
  ⟨_, if_pos h, rfl⟩

/-- Settles O34: each event of the port changes its own record or sends one frame, and a written image that verifies
ends in a module reset. -/
theorem servicePort : Obligations.ServicePort := by
  refine ⟨fun s hpow => if_pos hpow, fun s a hpow hlink => if_pos (by simp [hpow, hlink]),
    fun s hpow hlink hlease => if_pos (by simp [hpow, hlink, hlease]),
    fun s a bs hpow hlease => ⟨if_pos (State.svcHears_lease hpow hlease), if_pos (State.svcHears_lease hpow hlease)⟩,
    fun s hfree => ⟨fun hserv => ?_, fun hserv => ?_, fun hrec => ?_⟩,
    fun s hrun => ⟨fun h => ?_, fun h => ?_⟩, fun s image hstate hfree hlen => ⟨fun hok => ?_, fun hbad => ?_⟩⟩
  · exact (if_pos hserv).trans (congrArg Host.Outcome.next (State.tftpRequest_free hfree _))
  · exact (if_pos hserv).trans (congrArg Host.Outcome.next (State.tftpRequest_free hfree _))
  · exact (if_pos (by simp [hrec])).trans (congrArg Host.Outcome.next (State.tftpRequest_free hfree _))
  · rw [exec_tftpRetransmit hrun, if_pos h]
  · rw [exec_tftpRetransmit hrun, if_neg (Nat.not_lt.2 h)]
  · obtain ⟨u, -, hflash, hexec⟩ := exec_tftpWriteImage hstate hfree hlen
    rw [if_pos hok] at hexec
    obtain ⟨v, hv, hvflash⟩ := State.recoverWrite_ok (hflash ▸ hok)
    obtain ⟨r, hrecord, -⟩ := v.holdUp_flash 5
    obtain ⟨hboot, htflash, -⟩ := (v.holdUp 5).enterBoot_bringUp_frame
    rw [hv] at hexec
    refine ⟨_, hexec, hboot, ?_⟩
    rw [State.moduleReset, htflash, hrecord, hvflash, hflash]
    exact ⟨rfl, rfl, rfl, rfl, rfl⟩
  · obtain ⟨u, hctl, hflash, hexec⟩ := exec_tftpWriteImage hstate hfree hlen
    rw [if_neg hbad] at hexec
    exact ⟨_, hexec, hctl, hflash, rfl⟩

end Sys2Proof.Machine
end

section
/-! PROOFS. The end of BOOT, restarts of the curator, staging and activation. -/

namespace Sys2Proof.Machine

open Sys2Proof.Slice0

/-! ### The end of BOOT -/

/-- RECOVERY is entered, with its incident records (R750, R754). -/
theorem State.enterRecovery_narrow (s : State) :
    Narrow { s with cur := { s.cur with listened := true }
                    ctl := { s.ctl with state := .recovery, changed := true } } s.enterRecovery :=
  State.setModState_narrow _ _

theorem State.enterRecovery_frame (s : State) :
    s.enterRecovery.ctl.state = .recovery ∧ s.enterRecovery.flash = s.flash
      ∧ s.enterRecovery.cur = { s.cur with listened := true } := by
  have h := s.enterRecovery_narrow
  rw [h.ctl_eq, h.flash_eq, h.cur_eq]
  exact ⟨rfl, rfl, rfl⟩

/-- The state at the end of the listening time (R750). -/
def State.listened (s : State) : State := { s with cur := { s.cur with listened := true } }

/-- The end of BOOT's listening time, with no recovery asked for (R747, R750). -/
theorem exec_recoveryListenExpiry {s : State} (sr ir : Bool) (hstate : s.ctl.state = .boot)
    (hlisten : s.cur.listened = false) (hlock : s.clk.locked = true) :
    exec (.recoveryListenExpiry sr ir) s = .next (
      if s.flash.recoverNext then
        ({ s.listened with flash := { s.flash with recoverNext := false } } : State).enterRecovery
      else (s.listened.bootStaged sr).1.bootImage (s.listened.bootStaged sr).2 ir) := by
  have hgo : ¬(s.ctl.state != .boot || s.cur.listened || !s.clk.locked) = true := by simp [hstate, hlisten, hlock]
  refine (if_neg hgo).trans ?_
  rw [apply_ite Host.Outcome.next]
  rfl

/-- Step 6 of activation, with its event and the measurements (R746, R749). -/
theorem State.activated_narrow (s : State) :
    Narrow { s with
      flash := { s.flash.blow s.flash.stagedArea.image with activation := none, stagedArea := FlashArea.empty }
      cur := { s.cur with fw := .none, actStep := 0, actBegun := false, overwriteRetried := false
                          stagedVersion := 0, stagedSvn := 0, lastStatus := stOk }
      tel := { s.tel with activations := satAdd 32 s.tel.activations 1 } } s.activated :=
  ((State.incident_narrow _ _ _).trans (State.measChanged_narrow _ _)).trans (State.measChanged_narrow _ _)

/-- An image area that verifies is loaded (R750). -/
theorem State.bootImage_ok {s : State} (pending : Bool) {ir : Bool} (h : s.flash.verify s.flash.imageArea.image ir = stOk) :
    s.bootImage pending ir =
      let u := ({ s with cur := { s.cur with imageOk := true } } : State).runImage s.flash.imageArea.image
      if pending then u.activated else u := if_pos h

theorem State.bootImage_bad {s : State} (pending : Bool) {ir : Bool} (h : s.flash.verify s.flash.imageArea.image ir ≠ stOk) :
    s.bootImage pending ir = s.enterRecovery := if_neg h

/-- Nothing is staged and no activation is pending (R750). -/
theorem State.bootStaged_none {s : State} (sr : Bool) (hact : s.flash.activation = none)
    (hlen : s.flash.stagedArea.len = 0) : s.bootStaged sr = (s, false) := by
  simp [State.bootStaged, hact, hlen]

/-- A pending activation whose staged image passes overwrites the image area (R747, R750). -/
theorem State.bootStaged_pending {s : State} {sr : Bool} (hact : s.flash.activation.isSome = true)
    (h : s.flash.verify s.flash.stagedArea.image sr = stOk) :
    s.bootStaged sr = (s.overwritten, true) := by
  simp [State.bootStaged, State.overwritten, hact, h]

/-- Settles O30: what the flash holds selects the branch of BOOT's end. -/
theorem bootOutcome : Obligations.BootOutcome := by
  refine ⟨fun s sr ir hstate hlisten hlock hnext => ⟨fun hact hlen => ⟨fun hok => ?_, fun hbad => ?_⟩,
      fun hact hstaged himage => ?_⟩,
    fun s sr ir hstate hlisten hlock hnext => ?_, fun s hstate hinit himage => ?_,
    fun s hstate hlisten hlock hinit => ?_⟩
  · rw [exec_recoveryListenExpiry sr ir hstate hlisten hlock, if_neg (by simp [hnext]),
      State.bootStaged_none (s := s.listened) sr hact hlen, State.bootImage_ok (s := s.listened) false hok]
    rfl
  · obtain ⟨hrec, hflash, hcur⟩ := s.listened.enterRecovery_frame
    refine ⟨s.listened.enterRecovery, ?_, hrec, hflash, by rw [hcur]; rfl⟩
    rw [exec_recoveryListenExpiry sr ir hstate hlisten hlock, if_neg (by simp [hnext]),
      State.bootStaged_none (s := s.listened) sr hact hlen, State.bootImage_bad (s := s.listened) false hbad]
  · have hexec := exec_recoveryListenExpiry sr ir hstate hlisten hlock
    have hpass : s.listened.overwritten.flash.verify s.listened.overwritten.flash.imageArea.image ir = stOk :=
      (Flash.verify_imageArea s.flash s.flash.stagedArea s.flash.stagedArea.image ir).trans himage
    rw [if_neg (by simp [hnext]), State.bootStaged_pending (s := s.listened) hact hstaged,
      State.bootImage_ok true hpass] at hexec
    have h := State.activated_narrow
      ((({ s.listened.overwritten with cur := { s.listened.cur with imageOk := true } } : State).runImage
        s.flash.stagedArea.image))
    refine ⟨_, hexec, (congrArg Curator.imageOk h.cur_eq :), (congrArg Flash.imageArea h.flash_eq :),
      (congrArg Flash.stagedArea h.flash_eq :), (congrArg Flash.activation h.flash_eq :),
      (congrArg Flash.revoked h.flash_eq :)⟩
  · obtain ⟨hrec, hflash, -⟩ :=
      ({ s.listened with flash := { s.flash with recoverNext := false } } : State).enterRecovery_frame
    refine ⟨_, ?_, hrec, hflash⟩
    rw [exec_recoveryListenExpiry sr ir hstate hlisten hlock, if_pos hnext]
  · have hexec : exec .enterService s = _ := if_pos (by simp [hstate, hinit, himage])
    have h := State.setModState_narrow ({ s with cur := { s.cur with up := true, coresUp := 0xF } } : State) .service
    have k := State.driveAll_keeps (Keeps.refl Part.all
      ((({ s with cur := { s.cur with up := true, coresUp := 0xF } } : State).setModState .service)))
    refine ⟨_, hexec, ?_, ?_⟩
    · rw [k.ctl rfl, h.ctl_eq]
    · rw [k.cur rfl, h.cur_eq]
  · obtain ⟨hrec, -, hcur⟩ := s.enterRecovery_frame
    exact ⟨_, if_pos (by simp [hstate, hlisten, hlock, hinit]), hrec, hcur⟩

end Sys2Proof.Machine
end

section
/-! PROOFS. Restarts of the curator. -/

namespace Sys2Proof.Machine

open Sys2Proof.Slice0

/-! ### A restart -/

/-- Ending every session leaves none (R730). -/
theorem State.foldl_endSession_sessions (l : List Session) (s : State) :
    (l.foldl (fun s x => s.endSession x.id) s).sec.sessions
      = s.sec.sessions.filter fun y => l.all fun x => y.id != x.id := by
  induction l generalizing s with
  | nil => simp
  | cons x l ih =>
    rw [List.foldl_cons, ih]
    show (s.sec.sessions.filter _).filter _ = _
    rw [List.filter_filter]
    refine List.filter_congr fun y _ => ?_
    rw [List.all_cons, Bool.and_comm]

theorem State.endAllSessions_sessions (s : State) : s.endAllSessions.sec.sessions = [] := by
  rw [State.endAllSessions, State.foldl_endSession_sessions, List.filter_eq_nil_iff]
  intro y hy hall
  simpa using List.all_eq_true.1 hall y hy

/-- The curator's record once it has stopped (R730, R731). -/
def Curator.stopped (c : Curator) (cause core : Nat) : Curator :=
  { c with
    up := false, coresUp := 0, restarts := min (c.restarts + 1) 255, lastCause := cause, restartCore := core
    restartWaits := none, faultRestarts := if cause = 3 then c.faultRestarts else c.faultRestarts + 1 }

/-- A restart stops the curator and ends its sessions, and leaves the module state and flash (R730, R731). -/
theorem State.restart_frame (s : State) (cause core : Nat) :
    (s.restart cause core).cur = s.cur.stopped cause core ∧ (s.restart cause core).sec.sessions = []
      ∧ (s.restart cause core).ctl = s.ctl ∧ (s.restart cause core).flash = s.flash := by
  have k := State.endAllSessions_keeps (Keeps.refl Part.all s)
  have hcur : (s.restart cause core).cur = s.endAllSessions.cur.stopped cause core := rfl
  rw [hcur, k.cur rfl]
  exact ⟨rfl, s.endAllSessions_sessions, k.ctl rfl, k.flash rfl⟩

/-- A fault restarts the curator at once, unless it overwrites the image area (R730, R732). -/
theorem State.faultRestart_at_once {s : State} (cause core : Nat) (hup : s.cur.up = true)
    (hfree : s.cur.overwrites = false) : s.faultRestart cause core = s.restart cause core := by
  rw [State.faultRestart, if_neg (by simp [hup]), if_neg (by simp [hfree])]

theorem State.faultRestart_waits {s : State} (cause core : Nat) (hup : s.cur.up = true)
    (hover : s.cur.overwrites = true) (hnone : s.cur.restartWaits = none) :
    s.faultRestart cause core = { s with cur := { s.cur with restartWaits := some (cause, core) } } := by
  rw [State.faultRestart, if_neg (by simp [hup]), if_pos hover, State.modCur, hnone]
  rfl

/-- A memory error within the working memory, of which the vault notes the codeword (R468, R479, R730). -/
theorem exec_curatorMemoryError {s : State} (core : Fin 4) {cw : Nat} (hup : s.cur.up = true)
    (hlo : 0x10000000 ≤ 64 * cw) (hhi : 64 * cw < 0x18000000) :
    exec (.curatorMemoryError core cw) s = .next ((s.vmUncorrectable cw false).faultRestart 2 core) := by
  refine if_neg ?_
  simp only [hup, Bool.not_true, Bool.false_or, Bool.or_eq_true, decide_eq_true_eq, not_or, not_lt, not_le]
  exact ⟨hlo, hhi⟩

/-! ### The end of a restart -/

theorem State.mainUp_stays {s : State} (h : s.ctl.state ≠ .standby) : s.mainUp = s := by
  rw [State.mainUp, if_neg (by simp [h])]

/-- With main power a request other than a module reset changes the power state and what has been sent (R731, R757).
-/
theorem State.pldmServe_frame {s : State} {r : Pldm} (hr : r ≠ .moduleReset) (hstate : s.ctl.state ≠ .standby) :
    (s.pldmServe r).ctl = s.ctl ∧ (s.pldmServe r).cur = s.cur ∧ (s.pldmServe r).flash = s.flash := by
  cases r with
  | sensor n =>
    rw [State.pldmServe]
    split <;> exact ⟨rfl, rfl, rfl⟩
  | fru => exact ⟨rfl, rfl, rfl⟩
  | cap w =>
    rw [State.pldmServe]
    split <;> exact ⟨rfl, rfl, rfl⟩
  | mainEnable =>
    rw [State.pldmServe, State.mainUp_stays]
    · exact ⟨rfl, rfl, rfl⟩
    · exact hstate
  | moduleReset => exact absurd rfl hr

theorem State.pldmServe_moduleReset {s : State} (hpow : s.powered = true) :
    (s.pldmServe .moduleReset).ctl.state = .boot := by
  rw [State.pldmServe, if_pos hpow]
  exact (s.holdUp 5).enterBoot_bringUp_frame.1

theorem State.powered_of_serving {s : State} (h : s.serving = true) : s.powered = true := by
  simp only [State.serving, Bool.or_eq_true, beq_iff_eq] at h
  rcases h with (h | h) | h <;> simp [State.powered, h]

/-- Requests that are served with no module reset among them leave the module state, the curator and flash. -/
theorem State.foldl_pldmServe_frame {s : State} (l : List Pldm) (hl : .moduleReset ∉ l)
    (hstate : s.ctl.state ≠ .standby) :
    (l.foldl State.pldmServe s).ctl = s.ctl ∧ (l.foldl State.pldmServe s).cur = s.cur
      ∧ (l.foldl State.pldmServe s).flash = s.flash := by
  refine List.foldlRecOn (motive := fun u : State => u.ctl = s.ctl ∧ u.cur = s.cur ∧ u.flash = s.flash) l _
    ⟨rfl, rfl, rfl⟩ ?_
  rintro u ⟨hctl, hcur, hflash⟩ r hr
  obtain ⟨rctl, rcur, rflash⟩ := State.pldmServe_frame (s := u) (fun h => hl (h ▸ hr)) (by rw [hctl]; exact hstate)
  exact ⟨rctl.trans hctl, rcur.trans hcur, rflash.trans hflash⟩

/-- A module reset among them ends in BOOT, whatever comes after it (R777). -/
theorem State.foldl_pldmServe_boot (l : List Pldm) :
    ∀ {s : State}, s.powered = true → (.moduleReset ∈ l ∨ s.ctl.state = .boot) →
      (l.foldl State.pldmServe s).ctl.state = .boot := by
  induction l with
  | nil => exact fun _ h => h.resolve_left (List.not_mem_nil)
  | cons r l ih =>
    intro s hpow h
    by_cases hr : r = .moduleReset
    · subst hr
      have hboot := State.pldmServe_moduleReset hpow
      exact ih (by simp [State.powered, hboot]) (.inr hboot)
    · obtain ⟨hctl, -, -⟩ := State.pldmServe_frame hr (State.powered_not_standby hpow)
      refine ih (by rw [State.powered, hctl]; exact hpow) (h.imp (fun hmem => ?_) fun hboot => by rw [hctl, hboot])
      exact (List.mem_cons.1 hmem).resolve_left fun e => hr e.symm

/-- The curator's record when it runs image `b` again (R749, R765). -/
def Curator.runs (c : Curator) (b : Bytes) : Curator :=
  { c with fwVersion := imageVersion b, svn := imageSvn b, digest := sha384 (imageOnly b), up := true, coresUp := 0xF }

/-- No step of an activation comes next: nothing begins. -/
theorem State.actNext_idle {s : State} (h : s.cur.actStep = 0) : s.actNext = s := if_pos (by simp [h])

/-- The curator runs image `b`, with its event (R749, R763, R765). -/
def State.runsAgain (s : State) (b : Bytes) : State :=
  ({ s with cur := s.cur.runs b } : State).fwEvent 0x01 stOk s.cur.lastCause s.cur.restartCore (imageVersion b)
    (imageSvn b)

theorem State.runsAgain_narrow (s : State) (b : Bytes) : Narrow { s with cur := s.cur.runs b } (s.runsAgain b) :=
  State.incident_narrow _ _ _

/-- What the curator does at the end of a restart before it takes what has waited: its activation goes on, or the
measurements of a changed image are noted (R746, R749). -/
def State.restartSteps (s : State) : State :=
  if s.cur.fw == .restarting then (s.runsAgain s.flash.imageArea.image).actStepTo 6
  else if sha384 (imageOnly s.flash.imageArea.image) != s.cur.digest then
    (((s.runsAgain s.flash.imageArea.image).measChanged 2).measChanged 3).actNext
  else (s.runsAgain s.flash.imageArea.image).actNext

/-- An hourly record that has waited is written (R829). -/
def State.hourlyTaken (s : State) : State :=
  if s.cur.hourlyDue then (s.writeRecord 1 0 true).modCur fun c => { c with hourlyDue := false } else s

/-- The end of a restart with an image that verifies (R730, R731). -/
theorem exec_curatorRestartDone {s : State} {rd : Bool} (hup : s.cur.up = false) (hserv : s.serving = true)
    (hok : s.flash.verify s.flash.imageArea.image rd = stOk) :
    exec (.curatorRestartDone rd) s
      = .next s.restartSteps.hourlyTaken.pldmTaken.askedSteps.takeEvery.driveAll := by
  have hgo : ¬(s.cur.up || !s.serving) = true := by simp [hup, hserv]
  exact (if_neg hgo).trans (if_neg (not_not_intro hok))

/-- Outside an activation, with no hourly record due, the curator runs its image and writes its records. -/
theorem State.restartSteps_narrow {s : State} (hact : s.cur.actStep = 0) (hfw : s.cur.fw ≠ .restarting)
    (hhour : s.cur.hourlyDue = false) :
    Narrow { s with cur := s.cur.runs s.flash.imageArea.image } s.restartSteps.hourlyTaken := by
  have hidle {u : State} (h : Narrow { s with cur := s.cur.runs s.flash.imageArea.image } u) :
      Narrow { s with cur := s.cur.runs s.flash.imageArea.image } u.actNext.hourlyTaken := by
    have hstep : u.cur.actStep = 0 := by rw [h.cur_eq]; exact hact
    have hdue : u.cur.hourlyDue = false := by rw [h.cur_eq]; exact hhour
    rw [State.actNext_idle hstep, State.hourlyTaken, if_neg (by simp [hdue])]
    exact h
  have hrun := s.runsAgain_narrow s.flash.imageArea.image
  rw [State.restartSteps, if_neg (by simpa using hfw)]
  split
  · exact hidle ((hrun.trans (State.measChanged_narrow _ _)).trans (State.measChanged_narrow _ _))
  · exact hidle hrun

/-- What follows the requests that waited keeps the module state, the curator and flash (R659, R705). -/
theorem State.afterRestart_keeps (s : State) : Keeps Part.all s s.askedSteps.takeEvery.driveAll :=
  State.driveAll_keeps (State.takeEvery_keeps (State.askedSteps_keeps (Keeps.refl _ _)))

/-- Settles O31: a restart is `State.restart`, now or later, and its end serves what waited. -/
theorem curatorRestarts : Obligations.CuratorRestarts := by
  refine ⟨fun s core hup hfree => ?_, fun s core cw hup hfree hlo hhi => ?_, fun s core hup hover hnone => ?_,
    fun s rd hup hserv hact hfw hhour hok => ⟨fun hmem => ?_, fun hmem => ?_⟩⟩
  · obtain ⟨hcur, hsess, hctl, hflash⟩ := s.restart_frame 1 core
    refine ⟨_, congrArg Host.Outcome.next (State.faultRestart_at_once 1 core hup hfree), ?_⟩
    rw [hcur, hsess, hctl, hflash]
    exact ⟨rfl, rfl, rfl, rfl, rfl, rfl, rfl, rfl⟩
  · have hkept : (s.vmUncorrectable cw false).cur = s.cur :=
      (State.vmUncorrectable_keeps cw false (Keeps.refl Part.all s)).cur rfl
    obtain ⟨hcur, hsess, -, -⟩ := (s.vmUncorrectable cw false).restart_frame 2 core
    refine ⟨_, exec_curatorMemoryError core hup hlo hhi, ?_⟩
    rw [State.faultRestart_at_once 2 core (by rw [hkept, hup]) (by rw [hkept, hfree]), hcur, hsess, hkept]
    exact ⟨rfl, rfl, rfl, rfl⟩
  · exact congrArg Host.Outcome.next (State.faultRestart_waits 1 core hup hover hnone)
  · have h := State.restartSteps_narrow hact hfw hhour
    refine ⟨_, exec_curatorRestartDone hup hserv hok, ?_⟩
    rw [(State.afterRestart_keeps _).ctl rfl, State.pldmTaken, h.cur_eq]
    refine State.foldl_pldmServe_boot _ ?_ (.inl hmem)
    rw [State.powered, State.modCur_ctl, h.ctl_eq]
    exact State.powered_of_serving hserv
  · have h := State.restartSteps_narrow hact hfw hhour
    have hstate := State.powered_not_standby (State.powered_of_serving hserv)
    refine ⟨_, exec_curatorRestartDone hup hserv hok, ?_⟩
    generalize s.restartSteps.hourlyTaken = u at h
    have hmem' : .moduleReset ∉ u.cur.pldmWaits := by rw [h.cur_eq]; exact hmem
    obtain ⟨tctl, tcur, tflash⟩ := State.foldl_pldmServe_frame (s := u.modCur fun c => { c with pldmWaits := [] })
      u.cur.pldmWaits hmem' (by rw [State.modCur_ctl, h.ctl_eq]; exact hstate)
    have k := State.afterRestart_keeps u.pldmTaken
    rw [k.cur rfl, k.flash rfl, k.ctl rfl, State.pldmTaken, tctl, tcur, tflash, State.modCur_ctl, State.modCur_flash,
      h.ctl_eq, h.flash_eq, State.modCur, h.cur_eq]
    exact ⟨rfl, rfl, rfl, rfl, rfl, rfl, rfl⟩

end Sys2Proof.Machine
end

section
/-! PROOFS. Staging and activation of firmware. -/

namespace Sys2Proof.Machine

open Sys2Proof.Slice0

/-! ### Staging -/

/-- A staging area whose reads need no correction is read as it stands (R476, R740). -/
theorem State.readStaging_clean {s : State} {n : Nat} (hlen : n ≤ stagingBytes) (hclean : s.badIn vpaStaging n = []) :
    s.readStaging n = (s, some (s.vmBytes vpaStaging n)) := by
  rw [State.readStaging, if_pos hlen, State.vmRead_clean s _ _ hclean]

/-- A read of the staging area that cannot be corrected gives nothing (R479, R740). -/
theorem State.readStaging_failed {s : State} {n : Nat} (hlen : n ≤ stagingBytes)
    (hbad : (s.badIn vpaStaging n).any (fun e => decide (2 ≤ e.2)) = true) : (s.readStaging n).2 = none := by
  rw [State.readStaging, if_pos hlen]
  exact if_pos hbad

/-- What the verification's verdict leaves: FW_STAGE completes with it, and an image that passes is written (R740,
R741, R764). -/
def State.judged (s : State) (t : Taken) (b : Bytes) (st : Nat) : State :=
  if st = stOk then
    ({ s.complete t stOk (imageSvn b + imageVersion b * 2 ^ 32) with
      flash := { (s.complete t stOk (imageSvn b + imageVersion b * 2 ^ 32)).flash with
        stagedArea := FlashArea.empty } } : State).modCur fun c =>
      { c with fw := .writing, stageToken := none, stagedVersion := 0, stagedSvn := 0, lastStatus := stOk }
  else
    (s.complete t st 0).modCur fun c =>
      { c with fw := if s.flash.stagedArea.len = 0 then .none else .staged
               stageToken := none, lastStatus := st }

theorem exec_fwStageVerified {s : State} (rd : Bool) {t : Taken} (hfw : s.cur.fw = .verifying) (hup : s.cur.up = true)
    (htoken : s.cur.stageToken = some t) :
    exec (.fwStageVerified rd) s = .next (
      let r := s.readStaging s.cur.stageLen
      r.1.judged t (r.2.getD []) (r.1.flash.verify (r.2.getD []) (rd && r.2.isSome))) := by
  have hgo : ¬(s.cur.fw != .verifying || !s.cur.up) = true := by simp [hfw, hup]
  refine (if_neg hgo).trans ?_
  rw [htoken, State.judged, apply_ite Host.Outcome.next]

theorem State.judged_ok (s : State) (t : Taken) (b : Bytes) :
    (s.judged t b stOk).cur.fw = .writing ∧ (s.judged t b stOk).cur.stageToken = none
      ∧ (s.judged t b stOk).flash = { s.flash with stagedArea := FlashArea.empty }
      ∧ s.judged t b stOk = { s.complete t stOk (imageSvn b + imageVersion b * 2 ^ 32) with
        flash := (s.judged t b stOk).flash, cur := (s.judged t b stOk).cur } := by
  have h := s.complete_narrow t stOk (imageSvn b + imageVersion b * 2 ^ 32)
  exact ⟨rfl, rfl, congrArg (fun f : Flash => { f with stagedArea := FlashArea.empty }) h.flash_eq, rfl⟩

theorem State.judged_failed (s : State) (t : Taken) (b : Bytes) {st : Nat} (hst : st ≠ stOk) :
    s.judged t b st = { s.complete t st 0 with cur := (s.judged t b st).cur }
      ∧ (s.judged t b st).cur.fw = (if s.flash.stagedArea.len = 0 then .none else .staged)
      ∧ (s.judged t b st).cur.lastStatus = st ∧ (s.judged t b st).cur.stageToken = none := by
  rw [State.judged, if_neg hst]
  exact ⟨rfl, rfl, rfl, rfl⟩

/-- What the written copy of an image leaves: the verdict of its verification, and the event (R741, R742). -/
def State.staged (s : State) (b : Bytes) (st : Nat) : State :=
  if st = stOk then
    ({ s with flash := { s.flash with stagedArea := FlashArea.hold (imageOnly b) }
              cur := { s.cur with
                fw := .staged, stagedVersion := imageVersion b, stagedSvn := imageSvn b, lastStatus := stOk } }
        : State).fwEvent 0x02 stOk 0 0 (imageVersion b) (imageSvn b)
  else
    ({ s with flash := { s.flash with stagedArea := FlashArea.empty }
              cur := { s.cur with fw := .none, stagedVersion := 0, stagedSvn := 0, lastStatus := st } }
        : State).fwEvent 0x03 st 0 0 (imageVersion b) (imageSvn b)

theorem exec_stageWriteDone {s : State} (rd : Bool) (hfw : s.cur.fw = .writing) (hup : s.cur.up = true) :
    exec (.stageWriteDone rd) s = .next (
      let r := s.readStaging s.cur.stageLen
      r.1.staged (r.2.getD []) (r.1.flash.verify (r.2.getD []) (rd && r.2.isSome))) := by
  have hgo : ¬(s.cur.fw != .writing || !s.cur.up) = true := by simp [hfw, hup]
  refine (if_neg hgo).trans ?_
  rw [State.staged, apply_ite Host.Outcome.next]
  rfl

theorem State.staged_ok (s : State) (b : Bytes) :
    Narrow { s with
      flash := { s.flash with stagedArea := FlashArea.hold (imageOnly b) }
      cur := { s.cur with
        fw := .staged, stagedVersion := imageVersion b, stagedSvn := imageSvn b, lastStatus := stOk } }
      (s.staged b stOk) := State.incident_narrow _ _ _

theorem State.staged_failed (s : State) (b : Bytes) {st : Nat} (h : st ≠ stOk) :
    Narrow { s with
      flash := { s.flash with stagedArea := FlashArea.empty }
      cur := { s.cur with fw := .none, stagedVersion := 0, stagedSvn := 0, lastStatus := st } } (s.staged b st) := by
  rw [State.staged, if_neg h]
  exact State.incident_narrow _ _ _

/-- Settles O32: what is read of the staging area, and the verdict on it, selects the branch. -/
theorem firmwareStaging : Obligations.FirmwareStaging := by
  refine ⟨fun s t b ht hr hserv hlen hargs hact hfw => ?_, fun s rd t hfw hup htoken hlen hclean => ⟨fun hok => ?_,
      fun hbad => ?_⟩, fun s rd hfw hup hlen hclean => ⟨fun hok => ?_, fun hbad => ?_⟩,
    fun s rd hfw hup hlen hbad => ?_⟩
  · refine congrArg Host.Outcome.next ((State.runPf_ready ht hr (by simp [hlen]) hargs rfl (s.serving_state hserv)).trans ?_)
    exact if_neg (by rcases hfw with hfw | hfw <;> simp [hact, hfw])
  · have hexec := exec_fwStageVerified rd hfw hup htoken
    rw [State.readStaging_clean hlen hclean] at hexec
    simp only [Option.isSome_some, Bool.and_true, Option.getD_some, hok] at hexec
    exact ⟨_, hexec, s.judged_ok t (s.vmBytes vpaStaging s.cur.stageLen)⟩
  · have hexec := exec_fwStageVerified rd hfw hup htoken
    rw [State.readStaging_clean hlen hclean] at hexec
    simp only [Option.isSome_some, Bool.and_true, Option.getD_some] at hexec
    exact ⟨_, hexec, s.judged_failed t (s.vmBytes vpaStaging s.cur.stageLen) hbad⟩
  · have hexec := exec_stageWriteDone rd hfw hup
    rw [State.readStaging_clean hlen hclean] at hexec
    simp only [Option.isSome_some, Bool.and_true, Option.getD_some, hok] at hexec
    have h := s.staged_ok (s.vmBytes vpaStaging s.cur.stageLen)
    refine ⟨_, hexec, ?_⟩
    rw [h.cur_eq, h.flash_eq]
    exact ⟨rfl, rfl, rfl, rfl⟩
  · have hexec := exec_stageWriteDone rd hfw hup
    rw [State.readStaging_clean hlen hclean] at hexec
    simp only [Option.isSome_some, Bool.and_true, Option.getD_some] at hexec
    have h := s.staged_failed (s.vmBytes vpaStaging s.cur.stageLen) hbad
    refine ⟨_, hexec, ?_⟩
    rw [h.cur_eq, h.flash_eq]
    exact ⟨rfl, rfl, rfl⟩
  · have hexec := exec_stageWriteDone rd hfw hup
    have k := State.readStaging_keeps s.cur.stageLen (Keeps.refl Part.all s)
    dsimp only at hexec
    rw [State.readStaging_failed hlen hbad, Option.isSome_none, Bool.and_false] at hexec
    have h := (s.readStaging s.cur.stageLen).1.staged_failed ((none : Option Bytes).getD []) (st := stDataError)
      (by decide)
    refine ⟨_, hexec, ?_⟩
    rw [show Flash.verify _ _ false = stDataError from rfl, h.cur_eq, h.flash_eq, k.flash rfl]
    exact ⟨rfl, rfl, rfl⟩

end Sys2Proof.Machine
end

section
/-! PROOFS. The steps of an activation. -/

namespace Sys2Proof.Machine

open Sys2Proof.Slice0

/-! ### The next step -/

/-- A restart that waited, or none, leaves flash and the activation (R732). -/
theorem State.waitedRestart_frame (s : State) :
    s.waitedRestart.flash = s.flash ∧ s.waitedRestart.cur.fw = s.cur.fw ∧ s.waitedRestart.cur.actStep = s.cur.actStep
      ∧ s.waitedRestart.cur.actBegun = s.cur.actBegun := by
  cases hw : s.cur.restartWaits with
  | none =>
    have h : s.waitedRestart = s := by rw [State.waitedRestart, hw]
    rw [h]
    exact ⟨rfl, rfl, rfl, rfl⟩
  | some w =>
    have h : s.waitedRestart = s.restart w.1 w.2 := by rw [State.waitedRestart, hw]
    obtain ⟨hcur, -, -, hflash⟩ := s.restart_frame w.1 w.2
    rw [h, hcur]
    exact ⟨hflash, rfl, rfl, rfl⟩

theorem State.waitedRestart_none {s : State} (h : s.cur.restartWaits = none) : s.waitedRestart = s := by
  rw [State.waitedRestart, h]

theorem State.actNext_held {s : State} (hstep : s.cur.actStep ≠ 0) (hbegun : s.cur.actBegun = false)
    (hhold : s.cur.hold = true) : s.actNext = (s.modCur fun c => { c with fw := .deferred }).waitedRestart := by
  rw [State.actNext, if_neg (by simp [hstep, hbegun]), if_pos hhold]

theorem State.actNext_verifies {s : State} (hstep : s.cur.actStep = 3) (hbegun : s.cur.actBegun = false)
    (hhold : s.cur.hold = false) :
    s.actNext = { s with cur := { s.cur with fw := .overwriting, actBegun := true } } := by
  rw [State.actNext, if_neg (by simp [hstep, hbegun]), if_neg (by simp [hhold]), if_pos hstep]
  rfl

theorem State.actNext_overwrites {s : State} (hstep : s.cur.actStep = 4) (hbegun : s.cur.actBegun = false)
    (hhold : s.cur.hold = false) :
    s.actNext = { s with flash := { s.flash with imageArea := FlashArea.empty }
                         cur := { s.cur with fw := .overwriting, actBegun := true } } := by
  rw [State.actNext, if_neg (by simp [hstep, hbegun]), if_neg (by simp [hhold]), if_neg (by simp [hstep]), if_pos hstep]
  rfl

theorem State.actNext_restarts {s : State} (hstep : s.cur.actStep = 5) (hbegun : s.cur.actBegun = false)
    (hhold : s.cur.hold = false) (hup : s.cur.up = true) :
    s.actNext = (s.modCur fun c => { c with fw := .restarting, actBegun := true }).restart 3 0 := by
  rw [State.actNext, if_neg (by simp [hstep, hbegun]), if_neg (by simp [hhold]), if_neg (by simp [hstep]),
    if_neg (by simp [hstep]), if_pos hstep, if_pos hup]

/-- The step after FW_ACTIVATE: the hold keeps it from beginning, and without one the staged image is verified (R745,
R746). -/
theorem State.actStepTo_three (s : State) :
    (s.actStepTo 3).flash = s.flash ∧ (s.actStepTo 3).cur.actStep = 3
      ∧ (if s.cur.hold then (s.actStepTo 3).cur.fw = .deferred ∧ (s.actStepTo 3).cur.actBegun = false
        else (s.actStepTo 3).cur.fw = .overwriting ∧ (s.actStepTo 3).cur.actBegun = true) := by
  cases hhold : s.cur.hold with
  | true =>
    have h : s.actStepTo 3 = (s.modCur fun c => { c with actStep := 3, actBegun := false, fw := .deferred }).waitedRestart :=
      State.actNext_held (s := s.modCur fun c => { c with actStep := 3, actBegun := false }) (Nat.succ_ne_zero 2) rfl hhold
    obtain ⟨hflash, hfw, hstep, hbegun⟩ :=
      (s.modCur fun c => { c with actStep := 3, actBegun := false, fw := .deferred }).waitedRestart_frame
    rw [h]
    exact ⟨hflash, hstep, hfw, hbegun⟩
  | false =>
    have h : s.actStepTo 3 = s.modCur fun c => { c with actStep := 3, actBegun := true, fw := .overwriting } :=
      State.actNext_verifies (s := s.modCur fun c => { c with actStep := 3, actBegun := false }) rfl rfl hhold
    rw [h]
    exact ⟨rfl, rfl, rfl, rfl⟩

/-! ### FW_ACTIVATE -/

/-- The event of an activation that the hold defers (R745). -/
def State.deferEvent (s : State) : State :=
  if s.cur.hold then s.fwEvent 0x04 stOk 0 0 s.cur.stagedVersion s.cur.stagedSvn else s

theorem State.deferEvent_narrow (s : State) : Narrow s s.deferEvent := by
  rw [State.deferEvent]
  split
  · exact State.incident_narrow _ _ _
  · exact Narrow.refl _

/-- FW_ACTIVATE has written the record and completed (R744, R745). -/
def State.actRecorded (s : State) (t : Taken) : State :=
  (State.complete { s with flash := { s.flash with activation := some (headerDigest s.flash.stagedArea.image) } } t
    (if s.cur.hold then stDeferred else stOk) 0).deferEvent

theorem State.actRecorded_narrow (s : State) (t : Taken) :
    Narrow { s with flash := { s.flash with activation := some (headerDigest s.flash.stagedArea.image) } }
      (s.actRecorded t) :=
  (State.complete_narrow _ t _ 0).trans (State.deferEvent_narrow _)

/-! ### A verification that fails -/

/-- A step that fails leaves flash but for the record, and the activation is over (R747). -/
theorem State.actFailed_frame (s : State) (status : Nat) :
    (s.actFailed status).flash = { s.flash with activation := none }
      ∧ (s.actFailed status).cur
        = { s.cur with fw := .none, stagedVersion := 0, stagedSvn := 0, lastStatus := status } := by
  have h : Narrow { s with
      flash := { s.flash with activation := none }
      cur := { s.cur with fw := .none, stagedVersion := 0, stagedSvn := 0, lastStatus := status } }
      (s.actFailed status) := State.incident_narrow _ _ _
  exact ⟨h.flash_eq, h.cur_eq⟩

/-- Settles O33, by the step that the activation is at and whether the hold keeps the next one. -/
theorem firmwareActivation : Obligations.FirmwareActivation := by
  refine ⟨fun s t b ht hr hserv hlen hargs hfw => ?_, fun s rd hstep hbegun => ⟨fun hok hhold => ?_, fun hbad hwaits => ?_⟩,
    fun s rd hstep hbegun hfirst hwaits hhold hup hok => ?_, fun s hemer hhold hstep => ?_,
    fun s hemer hhold hstep hbegun => ?_⟩
  · have hrun : exec .fwActivate s = .next ((s.actRecorded t).actStepTo 3) := by
      refine congrArg Host.Outcome.next
        ((State.runPf_ready ht hr (by simp [hlen]) hargs rfl (s.serving_state hserv)).trans ?_)
      rw [hfw]
      rfl
    have hrec := s.actRecorded_narrow t
    obtain ⟨hflash, hthree, hbranch⟩ := (s.actRecorded t).actStepTo_three
    rw [hrec.cur_eq] at hbranch
    exact ⟨_, hrun, hflash.trans hrec.flash_eq, hthree, hbranch⟩
  · refine (if_neg (by simp [hstep, hbegun])).trans ((if_pos hok).trans (congrArg Host.Outcome.next ?_))
    exact State.actNext_overwrites (s := s.modCur fun c => { c with actStep := 4, actBegun := false }) rfl rfl hhold
  · obtain ⟨hflash, hcur⟩ := s.actFailed_frame (s.flash.verify s.flash.stagedArea.image rd)
    have hrun : exec (.stagedVerifyDone rd) s
        = .next (s.actFailed (s.flash.verify s.flash.stagedArea.image rd)).actOver := by
      refine (if_neg (by simp [hstep, hbegun])).trans ((if_neg hbad).trans (congrArg Host.Outcome.next ?_))
      exact State.waitedRestart_none ((congrArg Curator.restartWaits hcur).trans hwaits)
    refine ⟨_, hrun, hflash, ?_⟩
    rw [State.actOver, State.modCur, hcur]
    exact ⟨rfl, rfl, rfl⟩
  · have hrun : exec (.overwriteDone rd) s
        = .next ((s.overwritten.modCur fun c => { c with actStep := 5, fw := .restarting, actBegun := true }).restart 3 0) := by
      refine (if_neg (by simp [hstep, hbegun])).trans ((if_neg (by simp [hfirst])).trans ((if_pos hok).trans
        ((if_neg (by simp [hwaits])).trans (congrArg Host.Outcome.next ?_))))
      exact State.actNext_restarts (s := s.overwritten.modCur fun c => { c with actStep := 5, actBegun := false }) rfl rfl
        hhold hup
    obtain ⟨hcur, -, -, hflash⟩ := (s.overwritten.modCur fun c =>
      { c with actStep := 5, fw := .restarting, actBegun := true }).restart_frame 3 0
    refine ⟨_, hrun, hflash, ?_⟩
    rw [hcur]
    exact ⟨rfl, rfl, rfl, rfl⟩
  · refine (if_neg (by simp [hemer, hhold])).trans (congrArg Host.Outcome.next ?_)
    exact State.actNext_idle (s := s.modCur fun c => { c with hold := false }) hstep
  · refine (if_neg (by simp [hemer, hhold])).trans (congrArg Host.Outcome.next ?_)
    exact State.actNext_verifies (s := s.modCur fun c => { c with hold := false }) hstep hbegun rfl

end Sys2Proof.Machine
end

section
/-! PROOFS. Rehangs: filling the shadow bank, and switching to it. -/

namespace Sys2Proof.Machine

open Sys2Proof.Slice0

/-! ### The two banks -/

/-- The catalogue with one bank replaced. -/
def Cat.withBank (c : Cat) (e : Bool) (k : Bank) : Cat := if e then { c with bank1 := k } else { c with bank0 := k }

theorem State.setBank_eq (s : State) (e : Bool) (k : Bank) : s.setBank e k = { s with cat := s.cat.withBank e k } := by
  cases e <;> rfl

theorem State.bank_congr {s u : State} (h0 : u.cat.bank0 = s.cat.bank0) (h1 : u.cat.bank1 = s.cat.bank1) (e : Bool) :
    u.bank e = s.bank e := by
  cases e
  · exact h0
  · exact h1

theorem State.bank_setBank_same (s : State) (e : Bool) (k : Bank) : (s.setBank e k).bank e = k := by
  cases e <;> rfl

theorem State.bank_setBank_other (s : State) (e : Bool) (k : Bank) : (s.setBank e k).bank (!e) = s.bank (!e) := by
  cases e <;> rfl

theorem Cat.withBank_epoch (c : Cat) (e : Bool) (k : Bank) :
    (c.withBank e k).epoch = c.epoch ∧ (c.withBank e k).installed = c.installed := by
  cases e <;> exact ⟨rfl, rfl⟩

/-- A completion does not look at the catalogue. -/
theorem State.complete_withCat (s : State) (c : Cat) (t : Taken) (a b : Nat) :
    ({ s with cat := c } : State).complete t a b = { s.complete t a b with cat := c } := by
  by_cases h : (s.isDiscarded t || !((s.fn t.fn).ring 1).en || ((s.fn t.fn).ring 1).stopped) = true
  · have hdropped : s.complete t a b = s.dropTaken t := if_pos h
    rw [hdropped]
    exact if_pos h
  · have hput : s.complete t a b = (s.dropTaken t).ringPut t.fn 1 (completionBytes t.cmdId t.seq t.opcode a b) := if_neg h
    rw [hput]
    exact if_neg h

theorem State.rehangEnds_eq (s : State) (t : Taken) (status value : Nat) :
    s.rehangEnds t status value = { s.complete t status value with
      cat := { s.cat with lastStatus := status, token := none, fillThenSwitch := false, quiescing := false } } :=
  s.complete_withCat _ t status value

/-! ### A FILL begins -/

/-- The shadow bank is empty and FILLING (R811). -/
def State.fillBegun (s : State) (t : Taken) (both : Bool) : State :=
  let r := RehangArgs.dec t.args
  ((s.startTaken t).setBank s.cat.shadowNo Bank.reset).modCat fun c =>
    { c with shadow := .filling, token := some t, fillThenSwitch := both, fillLen := r.length
             fillOff := r.offset, fillQuiesce := r.quiesce }

theorem State.fillBegun_frame (s : State) (t : Taken) (both : Bool) :
    let u := s.fillBegun t both
    u.cat.shadow = .filling ∧ u.cat.token = some t ∧ u.cat.fillThenSwitch = both
      ∧ u.bank s.cat.shadowNo = Bank.reset ∧ u.bank (!s.cat.shadowNo) = s.bank (!s.cat.shadowNo)
      ∧ u.cat.epoch = s.cat.epoch ∧ u.cat.installed = s.cat.installed ∧ u = { s.startTaken t with cat := u.cat } := by
  obtain ⟨hepoch, hinst⟩ := s.cat.withBank_epoch s.cat.shadowNo Bank.reset
  have hset := (s.startTaken t).setBank_eq s.cat.shadowNo Bank.reset
  refine ⟨rfl, rfl, rfl, (s.startTaken t).bank_setBank_same _ _, (s.startTaken t).bank_setBank_other _ _, ?_, ?_, ?_⟩
  · rw [State.fillBegun, hset]
    exact hepoch
  · rw [State.fillBegun, hset]
    exact hinst
  · rw [State.fillBegun, hset]
    rfl

/-- A FILL whose image passes the checks begins (R809, R811). -/
theorem State.fill_begins {s : State} {t : Taken} (both : Bool) (hcheck : s.fillCheck (RehangArgs.dec t.args) = none)
    (hclean : s.badIn (vpaStaging + (RehangArgs.dec t.args).offset) (RehangArgs.dec t.args).length = [])
    (himage : s.imageCheck (Bank.ofBytes
      (s.vmBytes (vpaStaging + (RehangArgs.dec t.args).offset) (RehangArgs.dec t.args).length)
      (RehangArgs.dec t.args).quiesce) = none) : s.fill t both = s.fillBegun t both := by
  rw [State.fill, hcheck]
  simp only [State.vmRead_clean s _ _ hclean, himage]
  rfl

/-- FILL and FILL_THEN_SWITCH are one operation, told apart by the phase (R808, R817). -/
theorem exec_fillCommand {s : State} {t : Taken} {b : Bytes} {c : Instr} {both : Bool}
    (hc : (c, both) ∈ [(Instr.fill, false), (.fillThenSwitch, true)])
    (ht : s.takenBy 0 (fun t => t.opcode == 0x20 && (if both then argLe t.args 16 1 == 3
      else !(argLe t.args 16 1 == 2 || argLe t.args 16 1 == 3))) = some t)
    (hr : Ready s t b) (hlen : t.paramLen = 0) (hargs : rehangArgs t.args = true)
    (hstate : s.ctl.state = .service ∨ s.ctl.state = .operational) : exec c s = .next (s.fill t both) := by
  have hstates : rehangForm.states.contains s.ctl.state = true := by
    rcases hstate with h | h <;> rw [h] <;> decide
  have hlenOk : rehangForm.lenOk t.paramLen = true := by simp [rehangForm, hlen]
  rcases List.mem_cons.1 hc with h | h
  · obtain ⟨rfl, rfl⟩ := Prod.mk.inj h
    exact congrArg Host.Outcome.next (State.runPf_ready ht hr hlenOk hargs rfl hstates)
  · obtain ⟨rfl, rfl⟩ := Prod.mk.inj (List.mem_singleton.1 h)
    exact congrArg Host.Outcome.next (State.runPf_ready ht hr hlenOk hargs rfl hstates)

/-! ### The copy ends -/

/-- The shadow bank holds the image (R811). -/
def State.filledWith (s : State) (k : Bank) : State :=
  (s.setBank s.cat.shadowNo k).modCat fun c => { c with shadow := .filled }

theorem exec_shadowFilled {s : State} {t : Taken} (htoken : s.cat.token = some t) (hshadow : s.cat.shadow = .filling)
    (hup : s.cur.up = true) (hboth : s.cat.fillThenSwitch = false)
    (hclean : s.badIn (vpaStaging + s.cat.fillOff) s.cat.fillLen = []) :
    exec .shadowFilled s = .next (
      let k := Bank.ofBytes (s.vmBytes (vpaStaging + s.cat.fillOff) s.cat.fillLen) s.cat.fillQuiesce
      (s.filledWith k).rehangEnds t stOk k.tag) := by
  show execShadowFilled s = _
  rw [execShadowFilled, htoken]
  refine (if_neg (by simp [hshadow, hup])).trans ?_
  simp only [State.vmRead_clean s _ _ hclean]
  exact congrArg Host.Outcome.next (if_neg (by simp [hboth]))

theorem exec_shadowFilled_unreadable {s : State} {t : Taken} (htoken : s.cat.token = some t)
    (hshadow : s.cat.shadow = .filling) (hup : s.cur.up = true)
    (hbad : (s.badIn (vpaStaging + s.cat.fillOff) s.cat.fillLen).any (fun e => decide (2 ≤ e.2)) = true) :
    exec .shadowFilled s = .next (
      ((s.vmRead (vpaStaging + s.cat.fillOff) s.cat.fillLen).1.modCat fun c => { c with shadow := .empty }).rehangEnds
        t stDataError 0) := by
  have hread : s.vmRead (vpaStaging + s.cat.fillOff) s.cat.fillLen
      = ((s.vmRead (vpaStaging + s.cat.fillOff) s.cat.fillLen).1, none) := Prod.ext rfl (if_pos hbad)
  show execShadowFilled s = _
  rw [execShadowFilled, htoken]
  refine (if_neg (by simp [hshadow, hup])).trans ?_
  rw [hread]

/-- Settles O37: the checks select the branch, and one of the two banks is written. -/
theorem shadowFills : Obligations.ShadowFills := by
  refine ⟨fun s t b c both hc ht hr hlen hargs hstate => ?_, fun s t htoken hshadow hup hboth hclean => ?_,
    fun s t htoken hshadow hup hbad => ?_⟩
  · intro r hcheck hclean himage
    have hrun := exec_fillCommand hc ht hr hlen hargs hstate
    rw [State.fill_begins both hcheck hclean himage] at hrun
    exact ⟨_, hrun, s.fillBegun_frame t both⟩
  · intro k
    refine ⟨_, exec_shadowFilled htoken hshadow hup hboth hclean, ?_⟩
    have hset := s.setBank_eq s.cat.shadowNo k
    have hframe : (s.filledWith k).complete t stOk k.tag = { s.complete t stOk k.tag with cat := (s.filledWith k).cat } := by
      rw [State.filledWith, hset]
      exact s.complete_withCat _ t stOk k.tag
    rw [State.rehangEnds_eq]
    refine ⟨rfl, rfl, rfl, s.bank_setBank_same _ k, s.bank_setBank_other _ k, ?_⟩
    rw [hframe]
  · refine ⟨_, exec_shadowFilled_unreadable htoken hshadow hup hbad, ?_⟩
    rw [State.rehangEnds_eq]
    obtain ⟨h0, h1, -⟩ := (State.vmRead_keeps (vpaStaging + s.cat.fillOff) s.cat.fillLen (Keeps.refl Part.all s)).banks rfl
    exact ⟨rfl, rfl, rfl, State.bank_congr h0 h1⟩

/-! ### A SWITCH -/

/-- A bank switch from `s` has taken effect: the shadow bank is the active one, no bank has changed, and the module
state, flash, power and clocks are as they were (R813). -/
structure Switched (s u : State) : Prop where
  installed : u.cat.installed = true
  epoch : u.cat.epoch = s.cat.shadowNo
  banks : ∀ e, u.bank e = s.bank e
  ctl : u.ctl = s.ctl
  flash : u.flash = s.flash
  pwr : u.pwr = s.pwr
  clk : u.clk = s.clk

theorem Switched.keeps {s u v : State} (h : Switched s u) (k : Keeps Part.all u v) : Switched s v := by
  obtain ⟨h0, h1, hepoch, hinst⟩ := k.banks rfl
  exact ⟨hinst.trans h.installed, hepoch.trans h.epoch, fun e => (State.bank_congr h0 h1 e).trans (h.banks e),
    (k.ctl rfl).trans h.ctl, (k.flash rfl).trans h.flash, (k.pwr rfl).trans h.pwr, (k.clk rfl).trans h.clk⟩

/-- The ports that train again leave the banks (R813 step 5). -/
theorem State.switchBanks_switched (s : State) : Switched s s.switchBanks := by
  refine Switched.keeps ?_ (Keeps.foldl (fun u p hk => ?_) (Keeps.refl Part.all _))
  · exact ⟨rfl, rfl, fun _ => rfl, rfl, rfl, rfl, rfl⟩
  have hmask := State.modLink_keeps p (fun l => { l with
    laneMask := BitVec.ofNat 8 (portLaneMask ((s.bank s.cat.shadowNo).portWord p)) }) hk
  exact Keeps.ite (fun _ => State.switchPort_keeps p (Keeps.ite (fun _ => hmask) fun _ => hk))
    fun _ => Keeps.ite (fun _ => hmask) fun _ => hk

theorem State.rehangEnds_switched {s u : State} (h : Switched s u) (t : Taken) (status value : Nat) :
    Switched s (u.rehangEnds t status value) := by
  refine Switched.keeps ?_ (State.complete_keeps t status value (Keeps.refl Part.all _))
  exact ⟨h.installed, h.epoch, h.banks, h.ctl, h.flash, h.pwr, h.clk⟩

theorem State.doSwitch_switched (s : State) (t : Taken) : Switched s (s.doSwitch t) := by
  refine (State.rehangEnds_switched s.switchBanks_switched t stOk s.switchBanks.cat.epoch.toNat).keeps ?_
  have hevent := State.measChanged_keeps 4 (State.curEvent_keeps 0x07 0 0 (s.switchBanks.cat.epoch.toNat
    + getLe (s.switchBanks.rehangEnds t stOk s.switchBanks.cat.epoch.toNat).active.digest 0 4 * 2 ^ 32)
    (Keeps.refl Part.all (s.switchBanks.rehangEnds t stOk s.switchBanks.cat.epoch.toNat)))
  exact State.driveAll_keeps (Keeps.ite (fun _ => hevent) fun _ => State.measChanged_keeps 6 hevent)

/-- A SWITCH that names a filled bank, which asks for no quiescence, takes effect at once (R812, R813). -/
theorem State.switchFrom_at_once {s : State} {t : Taken} {tag : Nat} (hfilled : s.cat.shadow = .filled)
    (htag : tag = (s.bank s.cat.shadowNo).tag) (hquiesce : (s.bank s.cat.shadowNo).quiesce = false) :
    s.switchFrom t tag = s.doSwitch t := by
  rw [State.switchFrom, if_neg (by simp [hfilled, htag, hquiesce]), if_neg (by simp [hquiesce])]

/-- A FILL during the drain of the old epoch is BUSY (R809, R815). -/
theorem State.fillCheck_draining {s : State} {r : RehangArgs} (hlo : 1 ≤ r.phase) (hhi : r.phase ≤ 3)
    (halign : r.offset % 128 = 0) (hroom : r.offset + r.length ≤ stagingBytes)
    (hquiesce : r.quiesce = false ∨ s.ctl.state = .service) (hdrain : s.cat.shadow = .draining) :
    s.fillCheck r = some stBusy := by
  rw [State.fillCheck, if_neg, if_neg, if_pos (by simp [hdrain])]
  · rcases hquiesce with h | h <;> simp [h]
  · simp only [Bool.or_eq_true, decide_eq_true_eq, not_or]
    omega

theorem exec_epochDrained_event {s : State} (htoken : s.cat.token = none) (hdrain : s.cat.shadow = .draining)
    (hempty : s.drained (!s.cat.epoch) = true) :
    exec .epochDrained s = .next (({ s with cat := { s.cat with shadow := .drained } } : State).curEvent 0x08 0 0
      (!s.cat.epoch).toNat) := by
  show execEpochDrained s = _
  rw [execEpochDrained, htoken]
  exact if_pos (by simp [hdrain, hempty])

/-- Settles O38: every switch is `doSwitch`, and what keeps one out selects the branch. -/
theorem bankSwitches : Obligations.BankSwitches := by
  refine ⟨fun s t b ht hr hlen hargs hstate hnone hfilled htag hquiesce => ?_, fun s t hup hwaits htoken h0 h1 => ?_,
    fun s htoken hdrain hempty => ?_, fun s t b c both hc ht hr hlen hargs hstate => ?_, fun s t htoken hwaits => ?_⟩
  · have hrun : exec .switch s = .next ((s.startTaken t).doSwitch t) := by
      refine congrArg Host.Outcome.next ((State.runPf_ready (c := rehangForm) ht hr (by simp [rehangForm, hlen]) hargs rfl
        (by rcases hstate with h | h <;> rw [h] <;> decide)).trans ?_)
      exact (if_neg (by simp [hnone])).trans
        (State.switchFrom_at_once (s := s.startTaken t) hfilled htag hquiesce)
    have h := (s.startTaken t).doSwitch_switched t
    exact ⟨_, hrun, h.installed, h.epoch, h.banks, h.ctl, h.flash, h.pwr, h.clk⟩
  · have hrun : exec .epochDrained s = .next (s.doSwitch t) := by
      show execEpochDrained s = _
      rw [execEpochDrained, htoken, hup, hwaits, h0, h1]
      rfl
    have h := s.doSwitch_switched t
    exact ⟨_, hrun, h.installed, h.epoch, h.banks⟩
  · have hrun := exec_epochDrained_event htoken hdrain hempty
    have hcat := (State.curEvent_narrow { s with cat := { s.cat with shadow := .drained } } 0x08 0 0
      (!s.cat.epoch).toNat).cat_eq
    refine ⟨_, hrun, hcat, ?_⟩
    rw [hcat]
  · intro r hlo hhi halign hroom hquiesce hdrain
    rw [exec_fillCommand hc ht hr hlen hargs hstate, State.fill,
      State.fillCheck_draining hlo hhi halign hroom hquiesce hdrain]
    rfl
  · have hrun : exec .switchQuiesceTimeout s = .next (s.rehangEnds t stBusy 0).driveAll := by
      show execSwitchQuiesceTimeout s = _
      rw [execSwitchQuiesceTimeout, htoken]
      exact if_pos hwaits
    rw [hrun, State.rehangEnds_eq]

end Sys2Proof.Machine
end
